-- ==== Sys2Proof/Word.lean ====
section
/-! DEFINITION. The word types of the ZD-2144 model and the operand types that commands,
input-log entries and state share: packets, twin frames, key material, configuration records. -/

namespace Sys2Proof

/-- One byte. -/
abbrev Byte := BitVec 8
/-- A run of bytes, lowest address first. -/
abbrev Bytes := List Byte
/-- A 64-byte line (scope table "Data units"). -/
abbrev Line := Vector Byte 64
/-- A 288-byte stored sector (R69). -/
abbrev Sector := Vector Byte 288
/-- An 8-byte atomic operand in memory order (R308). -/
abbrev Octet := Vector Byte 8
/-- The 32-bit epoch of R242. -/
abbrev Epoch := BitVec 32
/-- The 48-bit log sequence number of R254. -/
abbrev Lsn := BitVec 48
/-- The 48-bit packet (or control) sequence number of R317. -/
abbrev Psn := BitVec 48
/-- The 32-bit message ID of R29. -/
abbrev MsgId := BitVec 32
/-- A table keyed by number, in one canonical form: keys strictly rising, no entry equal to the
value an unlisted key reads as. -/
abbrev Tab (α : Type) := List (Nat × α)

/-- Operation of a sequenced host message (R307). -/
inductive NetOp where
  | write | writeDurable | readReq | flush | cas | fadd | witness
  deriving DecidableEq, Repr

/-- The key-encryption key: 32 bytes (R473). -/
structure Kek where
  bytes : Bytes
  deriving DecidableEq, Repr

/-- A key-wrap blob, as the command carries it (R264, R472). -/
abbrev Blob := Bytes

/-- An AES-256-GCM connection key: 32 bytes (R460). -/
structure ConnKey where
  bytes : Bytes
  deriving DecidableEq, Repr

/-- What the Ethernet, IP and UDP layers of an arriving frame show (R300 to R302). -/
structure FrameInfo where
  v6         : Bool
  vlanTags   : Nat
  fragment   : Bool
  ipOptions  : Bool
  ipV6Ext    : Bool
  udpSumBad  : Bool
  udpPort    : Nat
  dstAddr    : Nat
  hostAddr   : Nat
  hostUdp    : Nat
  ce         : Bool
  udpLen     : Nat
  deriving DecidableEq, Repr

/-- The Vorwiri header of R305, with where the packet arrived, and the GCM tag it ends in (R304). The opcode is the command;
the command's other operands are its payload, as the receiver decrypts it. -/
structure Pkt where
  port    : Fin 8
  sub     : Fin 4
  frame   : FrameInfo
  ver     : BitVec 4
  kg      : BitVec 4
  first   : Bool
  last    : Bool
  durable : Bool
  retx    : Bool
  flagRsv : BitVec 4
  path    : Fin 8
  epl     : BitVec 5
  conn    : BitVec 16
  psn     : Psn
  msgId   : MsgId
  msgOff  : BitVec 32
  plen    : BitVec 16
  akey    : BitVec 32
  raddr   : BitVec 64
  climit  : BitVec 32
  rsv     : BitVec 16
  tag     : BitVec 128
  deriving DecidableEq, Repr

/-- ACK body as a host sends it (ACK body table of R308's section). -/
structure AckBody where
  cumpsn  : Psn
  rsv     : BitVec 16
  sack    : BitVec 256
  cused   : BitVec 32
  cseen   : BitVec 32
  dropcnt : BitVec 32
  cecnt   : BitVec 32
  deriving DecidableEq, Repr

/-- Witness message body of R274. -/
structure WitBody where
  wtype   : BitVec 8
  twin    : BitVec 8
  role    : BitVec 8
  result  : BitVec 8
  epoch   : Epoch
  pair    : BitVec 64
  wseq    : BitVec 32
  server  : BitVec 8
  leaseMs : BitVec 16
  deriving DecidableEq, Repr

/-- Twin frame header of R249, with the port it arrived on and the FCS it came with. TYPE and LEN are those of the command. -/
structure TwinHdr where
  port   : Fin 4
  fcs    : BitVec 32
  lackv  : Bool
  lnakv  : Bool
  epoch  : Epoch
  lsn    : Lsn
  lseq   : BitVec 16
  lack   : BitVec 16
  deriving DecidableEq, Repr

/-- Entry header of a taken mailbox command (R429): the mailbox it came from, its TAG, and the
number of entries it fills. -/
structure CmdHdr where
  mbx  : Fin 8
  tag  : BitVec 16
  nent : Nat
  deriving DecidableEq, Repr

/-- One 64-byte mailbox entry: an 8-byte header and 56 block bytes (R429). -/
abbrev MbxEntry := Vector Byte 64

/-- OPEN_CONNECTION parameters (R353). -/
structure OpenParams where
  conn      : Nat
  cls       : Nat
  salt      : BitVec 32
  hpsn0     : Psn
  cpsn0     : Psn
  msgId0    : MsgId
  retryMax  : Nat
  creditWin : Nat
  blob0     : Blob
  blob1     : Blob
  deriving DecidableEq, Repr

/-- REGISTER_GRANT parameters (R359). -/
structure GrantParams where
  nsid    : Nat
  off     : Nat
  len     : Nat
  rights  : BitVec 8
  setKind : Nat
  cls     : Nat
  count   : Nat
  conns   : List Nat
  pinned  : Nat
  deriving DecidableEq, Repr

/-- CREATE_NS parameters (R442). -/
structure CreateNsParams where
  nsid       : Nat
  units      : Nat
  psi        : Nat
  parkable   : Bool
  visVarnish : Bool
  cacheFill  : Bool
  encrypted  : Bool
  blob0      : Option Blob
  blob1      : Option Blob
  deriving DecidableEq, Repr

/-- SET_POOL parameters; a value left out keeps the value in force (R681). Times in ns, floors in MiB. -/
structure PoolParams where
  intentRsv : Option Nat
  spillHigh : Option Nat
  spillLow  : Option Nat
  mergeWait : Option Nat
  readFloor : Option Nat
  pfFloor   : Option Nat
  deriving DecidableEq, Repr

/-- SET_PORT parameters (R299, R301); addresses as numbers, 0 for none. -/
structure PortParams where
  port : Nat
  mode : Nat
  sub  : Nat
  vlan : Nat
  pcp  : Nat
  mac  : Nat
  ip4  : Nat
  ip6  : Nat
  deriving DecidableEq, Repr

/-- SET_XPORT parameters (transport parameter table); times in ns. -/
structure XportParams where
  dscpData    : Option Nat
  dscpCtrl    : Option Nat
  ecnMark     : Option Nat
  ecnReact    : Option Nat
  ackCount    : Option Nat
  ackDelay    : Option Nat
  reasm       : Option Nat
  creditIdle  : Option Nat
  deriving DecidableEq, Repr

/-- SET_TWIN parameters (twin parameter table). HS_WAIT in seconds. -/
structure TwinParams where
  twinCredit  : Option Nat
  resyncShare : Option Nat
  ueStorm     : Option Nat
  hsWait      : Option Nat
  deriving DecidableEq, Repr

/-- SET_WITNESS parameters (R273). -/
structure WitnessParams where
  v6      : Bool
  addr    : Nat
  pair    : BitVec 64
  witPort : Nat
  blob0   : Blob
  blob1   : Blob
  deriving DecidableEq, Repr

/-- SCHED_CREATE parameters (schedule tables); `conn` none for ANYCONN, LOOKAHEAD in MiB. -/
structure SchedParams where
  nsid      : Nat
  conn      : Option Nat
  leadMs    : Nat
  lookahead : Nat
  deriving DecidableEq, Repr

/-- State of a connection (connection state machine, R356). -/
inductive ConnState where
  | closed | opened | closing | error
  deriving DecidableEq, Repr

/-- State of a grant slot (grant state machine, R362). -/
inductive GrantState where
  | free | live | revoking | dead
  deriving DecidableEq, Repr

/-- The outcome of a finished atomic kept under R331. -/
structure AtomicOut where
  msg    : MsgId
  old    : Bytes
  poison : Bool
  deriving DecidableEq, Repr

/-- A connection's record as a resync CONTROL entry carries it (R364). -/
structure ConnRec where
  conn     : Nat
  state    : ConnState
  cls      : Nat
  salt     : BitVec 32
  retryMax : Nat
  creditWin : Nat
  keys     : List (Nat × Blob)
  wmark    : MsgId
  dwmark   : MsgId
  dropcnt  : BitVec 32
  dropped  : List MsgId
  atomics  : List AtomicOut
  hpsn0    : Psn
  cpsn0    : Psn
  deriving DecidableEq, Repr

/-- A grant's record as a resync CONTROL entry carries it (R364). -/
structure GrantRec where
  slot   : Nat
  gen    : Nat
  state  : GrantState
  params : GrantParams
  refs   : Nat
  deriving DecidableEq, Repr

/-- A committed configuration record: what a CONTROL entry carries (R255, R264, R687) and what a
commit applies (R433). -/
inductive Cfg where
  | durability (pHold kMargin tFixed : Option Nat)
  | integrity (scope unit param value : Nat)
  | pool (p : PoolParams)
  | port (p : PortParams)
  | xport (p : XportParams)
  | hostport (maxRate : Option Nat) (perstSys : Option Nat) (ssvid ssid : Option Nat)
  | setHdm (k nsid : Nat)
  | clearHdm (k : Nat)
  | eventRoute (ev vec cores : Nat) (msix : Bool)
  | compat (mask : Nat)
  | mbx (lease addr : Option Nat)
  | createNs (p : CreateNsParams)
  | deleteNs (nsid : Nat)
  | resizeNs (nsid units : Nat)
  | nsAttr (nsid : Nat) (parkable cacheFill : Bool)
  | drawerWake (d : Nat)
  | drawerPark (d : Nat)
  | drawerCheck (d state : Nat)
  | setDrawer (d : Nat) (parkable : Bool) (parkIdle : Nat)
  | openConn (p : OpenParams)
  | closeConn (conn : Nat)
  | rekey (conn gen : Nat) (blob0 blob1 : Blob)
  | regGrant (p : GrantParams)
  | revokeGrant (slot : Nat)
  | witness (p : WitnessParams)
  | twin (p : TwinParams)
  | sanitize (nsid : Nat)
  | schedCreate (p : SchedParams)
  | schedAppend (h : Nat) (extents : List (Nat × Nat))
  | schedStart (h : Nat)
  | schedDelete (h : Nat)
  | connRecord (r : ConnRec)
  | grantRecord (r : GrantRec)
  | nsTable (list : List (Nat × CreateNsParams))
  | drawerTable (list : List (Nat × Bool × Nat))
  | hdmTable (list : List (Nat × Nat))
  deriving DecidableEq, Repr

/-- The fields and data of an input-log entry by kind (entry kinds of R255). -/
inductive EntryBody where
  | netWrite (moff : Nat) (nsoff : Nat) (mlen : Option Nat) (akey : Option (BitVec 32)) (psn : Psn)
      (op : NetOp) (data : Bytes)
  | atomicResult (nsoff : Nat) (old new : Bytes) (poison : Bool)
  | drop (reason : Nat)
  | cxlWrite (nsoff : Nat) (mask : BitVec 64) (data : Bytes)
  | release
  | control (code tag result : Nat) (cfg : Cfg)
  | xport (rpsn tpsn : Psn) (credit keygen : Nat)
  | resync (nsoff : Nat) (poison : BitVec 64) (data : Bytes)
  deriving DecidableEq, Repr

/-- An input-log entry: head of R255 and body. -/
structure LogEntry where
  anchor  : Bool
  durable : Bool
  conn    : Nat
  msg     : MsgId
  nsid    : Nat
  body    : EntryBody
  deriving DecidableEq, Repr

/-- HANDSHAKE body of R542. -/
structure HsBody where
  decide   : Bool
  twin     : Bool
  lrole    : Nat
  stop     : Nat
  pepoch   : Epoch
  lsn      : Lsn
  resync   : Bool
  bitmap   : Bool
  split    : Epoch
  jtiles   : Nat
  cfg      : BitVec 64
  newEpoch : Epoch
  srole    : Nat
  full     : Bool
  deriving DecidableEq, Repr

/-- A module descriptor (R167). -/
structure Descriptor where
  descVer   : Nat
  descLen   : Nat
  vendor    : Nat
  model     : Nat
  serial    : Nat
  modFw     : Nat
  dieCount  : Nat
  qdepth    : Nat
  endurance : Nat
  dieCap    : Nat
  tReadTyp  : Nat
  tReadMax  : Nat
  tWriteTyp : Nat
  tWriteMax : Nat
  tResetMax : Nat
  powerMax  : Nat
  powerIdle : Nat
  tsense    : Bool
  tWarn     : Int
  tCrit     : Int
  linkCaps  : BitVec 16
  deriving DecidableEq, Repr

/-- Authorisation of an LC_ADVANCE or a JTAG unlock (R626): PUBKEY 0x04 ‖ X ‖ Y, SIGNATURE r ‖ s and the three bytes
between. -/
structure LcAuth where
  key : Bytes
  sig : Bytes
  rsv : BitVec 24 := 0
  deriving DecidableEq, Repr

/-- Memory block whose check failed or did not finish at priming step 9 (R613, R616). -/
inductive SramBlock where
  | sump (b : Nat) | core (n : Nat) | pad (k : Nat) | keyStore (e : Nat)
  deriving DecidableEq, Repr

/-- Unit that failed the priming subset of the analog self-test (R622). -/
inductive AnalogFail where
  | mediaLane (c : Nat) | netLane (n : Nat) | twinLane (n : Nat) | hostLane (n : Nat)
  | railConverter | cisternConverter | dramPhy (n : Nat) | window (rail : Nat) | cisternPath
  deriving DecidableEq, Repr

/-- What the units checked at a priming step reported (R527, R561, R598, R613, R622). -/
structure PrimeReport where
  /-- Step 6: failed units. -/
  analog     : List AnalogFail
  /-- Step 7: whole-row CRC of the calibration row good. -/
  calOk      : Bool
  /-- Step 8: channels that failed their record check, identity read-back or wipe. -/
  dramBad    : List Nat
  /-- Step 9: blocks not wiped or not repairable. -/
  sramBad    : List SramBlock
  /-- Step 10: records read from flash by the bound. -/
  recordsOk  : Bool
  deriving DecidableEq, Repr

/-- Outcome of a DRAM word or SRAM word check (R557, R609, R610). -/
inductive EccOutcome where
  | clean | corrected | hardFault | uncorrectable
  deriving DecidableEq, Repr

/-- Where an SRAM word lies (memory classes of R608). -/
inductive SramPlace where
  | sumpLine (id : Nat) | sumpFree (bank region : Nat) | directory (bank : Nat) | itcm (n : Nat)
  | dtcm (n : Nat) | scratchpad (block : Nat) | ring | buffer | keyStore (e : Nat)
  deriving DecidableEq, Repr

/-- Owner tag of a palette key (R469). -/
inductive KeyTag where
  | conn (conn gen : Nat) | ns (nsid : Nat)
  deriving DecidableEq, Repr

end Sys2Proof
end

