-- ==== Sys2Proof/Syntax.lean ====
section
/-! DEFINITION. The commands of the ZD-2144: one constructor per row of the opcode table. -/

namespace Sys2Proof

/-- The commands, in the opcode table's order. A packet, frame, register write or mailbox command
arrives with its fields; a timer or completion names the unit whose time or work is over. -/
inductive Instr where
  -- Vorwiri packets and transport events
  | write (p : Pkt) (data : Bytes)
  | writeDurable (p : Pkt) (data : Bytes)
  | readReq (p : Pkt) (rlen rsv : BitVec 32)
  | flush (p : Pkt)
  | atomicCas (p : Pkt) (compare swap : Octet)
  | atomicFadd (p : Pkt) (addend rsv : Octet)
  | ack (p : Pkt) (b : AckBody)
  | probe (p : Pkt) (req : BitVec 32)
  | witness (p : Pkt) (b : WitBody)
  | readGatherComplete (id : Nat)
  | reassemblyTimeout (conn : Nat) (msg : MsgId)
  | missingMessageTimeout (conn : Nat)
  | ackDelayTimer (conn : Nat)
  | retransmitTimer (conn : Nat) (psn : Psn)
  | creditIdleTimer (conn : Nat)
  | hostCreditWaitTimer (conn : Nat)
  | pathLivenessTimer (conn q : Nat)
  | ecnRateTimer (conn q : Nat)
  | keyGenerationDiscard (conn : Nat)
  | takeoverNoticeRepeat (conn : Nat)
  | arpRequest (port : Fin 8) (sub : Fin 4) (ip4 : Nat)
  | neighbourSolicitation (port : Fin 8) (sub : Fin 4) (ip6 : Nat)
  | echoRequest (port : Fin 8) (sub : Fin 4) (v6 : Bool) (dst : Nat)
  | nonVorwiriFrame (port : Fin 8) (sub : Fin 4)
  | subportLinkChange (port : Fin 8) (sub : Fin 4) (up : Bool)
  | networkFecWindow (port : Fin 8) (sub : Fin 4) (corrected : Nat) (uncor : Bool)
  -- Twin frames and twin timers
  | log (h : TwinHdr) (e : LogEntry)
  | applyAck (h : TwinHdr) (applied : Lsn) (credit : BitVec 32)
  | heartbeat (h : TwinHdr) (role health wit : BitVec 8) (applied : Lsn) (devtime : BitVec 64)
  | digest (h : TwinHdr) (lsn : Lsn) (value : BitVec 64)
  | relinquish (h : TwinHdr) (last : Lsn) (cause : BitVec 8)
  | takeoverGapFillTimeout
  | takeoverAnnounceDelay
  | takeover (h : TwinHdr) (fromLsn : Lsn) (peer : BitVec 8)
  | fetchReq (h : TwinHdr) (nsid : BitVec 16) (off : BitVec 64) (lsn : Lsn) (ftag : BitVec 16)
  | fetchResp (h : TwinHdr) (ftag : BitVec 16) (mask : BitVec 4) (data : Vector Byte 256)
  | mailbox (h : TwinHdr) (entry : MbxEntry)
  | resyncReq (h : TwinHdr) (full : Bool) (tiles : List Nat)
  | resyncEntrySend
  | handshake (h : TwinHdr) (b : HsBody)
  | link (h : TwinHdr)
  | twinPortTrained (port : Fin 4) (portNum : Nat) (lanesOk : Bool) (pair : BitVec 64)
  | twinLinkAckTimer (port : Fin 4)
  | twinReplayTimer (port : Fin 4)
  | twinPortStallTimer (port : Fin 4)
  | twinFecWindow (port : Fin 4) (corrected : Nat) (uncor : Bool)
  | applyAckTimer
  | twinCreditWaitTimer
  | heartbeatTimer
  | peerSilentTimer
  | digestTimer
  | renewTimer
  | witnessResendTimer
  | witnessRetryTimer
  | leaseLapseTimer
  | swapS1Timeout
  | swapTakeoverTimeout
  | resyncTakeoverRepeat
  | coreWatchdogTimeout
  | clockMonitorWindow (island : Fin 100) (khz : Nat) (edge : Bool)
  | mediaStallTimer
  -- Media responses, row work and media link
  | readCwResponse (ch : Fin 144) (tag : Fin 1024) (status : BitVec 16) (data : Sector)
  | peerFetchTimeout (ftag : Nat)
  | writeCwResponse (ch : Fin 144) (tag : Fin 1024) (status : BitVec 16)
  | dieStatusResponse (ch : Fin 144) (tag : Fin 1024) (status info : BitVec 16)
  | dieResetResponse (ch : Fin 144) (tag : Fin 1024) (status : BitVec 16)
  | tempResponse (ch : Fin 144) (tag : Fin 1024) (status info : BitVec 16)
  | descriptorResponse (ch : Fin 144) (tag : Fin 1024) (status : BitVec 16) (data : Sector)
  | dieCommandTimeout (ch : Fin 144) (tag : Fin 1024)
  | dieResetTimeout (ch : Fin 144) (tag : Fin 1024)
  | rowUpdateStart (g : Fin 16)
  | mergeWaitExpiry (op : Nat)
  | rowLeaseExpiry (op : Nat) (ch : Fin 144)
  | gapMoveStart (g : Fin 16) (e : Nat)
  | gapMoveYieldTimeout (g : Fin 16) (e : Nat)
  | scrubRead (g : Fin 16)
  | parkScrubDue (d : Fin 8)
  | rebuildRow (g : Fin 16)
  | ceWindowTimer (ch : Fin 144)
  | flitReceive (ch : Fin 144) (flit : Line)
  | lctl (ch : Fin 144) (flit : Line)
  | linkAckTimer (ch : Fin 144)
  | linkReplayTimer (ch : Fin 144)
  | blockAlignmentLoss (ch : Fin 144)
  | trn1 (ch : Fin 144) (sender preset req : Nat) (lock eqDone : Bool)
  | trn2 (ch : Fin 144) (sender : Nat)
  | trainingStepTimeout (ch : Fin 144)
  | confirmPeriodExpiry (ch : Fin 144)
  | sidebandPollTimer (d : Fin 8) (answers : Vector (Option (BitVec 8)) 18)
  | tempPollTimer (ch : Fin 144)
  -- Drawers and schedules
  | drawerRailGood (d : Fin 8) (k : Fin 4)
  | drawerRailOff (d : Fin 8) (k : Fin 4)
  | drawerWakeStepTimeout (d : Fin 8)
  | easelStateLoaded (d : Fin 8)
  | wakePeerTimeout (d : Fin 8)
  | parkStepTimeout (d : Fin 8)
  | drawerSettleTimer (d : Fin 8)
  | parkIdleTimer (d : Fin 8)
  | drawerCheckTimer (d : Fin 8)
  | schedRateTick (h : Fin 64)
  -- Sump, budget, drain
  | spillwayMove
  | dirtyBudgetEval
  | mirrorLagAgeLimit
  | mirrorCtlFlush
  | drainComplete
  | gctlRstkey (key : BitVec 8)
  -- Host port
  | hostLinkTrained (rate width : Nat) (flitMode cxl : Bool)
  | powerstateWrite (d3 : Bool)
  | hdmDecoderCommit (k : Fin 4) (base size : Nat) (ways : Nat)
  | memRd (tag hpa : Nat)
  | memRdData (tag hpa : Nat)
  | memSpecRd (tag hpa : Nat)
  | memInv (tag hpa : Nat)
  | memInvNT (tag hpa : Nat)
  | memClnEvct (tag hpa : Nat)
  | memWr (tag hpa : Nat) (data : Line) (poison : Bool)
  | memWrPtl (tag hpa : Nat) (mask : BitVec 64) (data : Line) (poison : Bool)
  | gpfPhase2
  | gpfTimeout
  | perstAssert
  | hotReset
  | dlDown
  | flr
  | hostDrainH3Timeout
  | poisonedTlp (isWrite : Bool)
  | doeRequest (cdat : Bool)
  | getEventRecords
  | clearEventRecords (count : Nat)
  | getFwInfo
  | getTimestamp
  | setTimestamp (value : Nat)
  | getSupportedLogs
  | getLog (effects : Bool)
  | identifyMemoryDevice
  | getPartitionInfo
  | getHealthInfo
  | cxlUnsupportedCommand (opcode : Nat)
  -- Mailbox window and BMC
  | mbxSelWrite (v : BitVec 32)
  | mbxCmdPush (alias_ : Option (Fin 4)) (v : BitVec 32)
  | mbxRspPop (alias_ : Option (Fin 4)) (v : BitVec 32)
  | mbxOwnerClaim (alias_ : Option (Fin 4)) (token : BitVec 16)
  | mbxOwnerRelease (alias_ : Option (Fin 4)) (token : BitVec 16)
  | mbxLeaseExpiry (m : Fin 8)
  | unitSelWrite (v : BitVec 32)
  | setEndpointId (eid : Nat)
  | getEndpointId
  | getMctpVersionSupport
  | getMessageTypeSupport
  | getVendorDefinedMessageSupport
  | mctpMailboxMessage (eid : Nat) (pecOk : Bool) (entries : List MbxEntry)
  -- Mailbox commands
  | identify (h : CmdHdr)
  | getStatus (h : CmdHdr) (mbx : Nat) (tag : BitVec 16)
  | abort (h : CmdHdr) (target : BitVec 16)
  | setDurability (h : CmdHdr) (pHold kMargin tFixed : Option Nat)
  | setIntegrity (h : CmdHdr) (scope unit param value : Nat)
  | setPool (h : CmdHdr) (p : PoolParams)
  | setPort (h : CmdHdr) (p : PortParams)
  | setXport (h : CmdHdr) (p : XportParams)
  | setHostport (h : CmdHdr) (maxRate perstSys ssvid ssid : Option Nat)
  | setHdm (h : CmdHdr) (k nsid : Nat)
  | clearHdm (h : CmdHdr) (k : Nat)
  | setEventRoute (h : CmdHdr) (ev vec cores : Nat) (msix : Bool)
  | setCompat (h : CmdHdr) (mask : Nat)
  | setMbx (h : CmdHdr) (lease addr : Option Nat)
  | getConfig (h : CmdHdr) (param : Nat)
  | formatGroup (h : CmdHdr) (g : Nat)
  | createNs (h : CmdHdr) (p : CreateNsParams)
  | deleteNs (h : CmdHdr) (nsid : Nat)
  | resizeNs (h : CmdHdr) (nsid units : Nat)
  | setNsAttr (h : CmdHdr) (nsid : Nat) (parkable cacheFill visVarnish encrypted : Option Bool)
  | nsStatus (h : CmdHdr) (nsid : Nat)
  | readEasel (h : CmdHdr) (g e : Nat)
  | memRead (h : CmdHdr) (nsid off len : Nat)
  | memWrite (h : CmdHdr) (nsid off : Nat) (data : Bytes)
  | parkDrawer (h : CmdHdr) (d : Nat)
  | wakeDrawer (h : CmdHdr) (d : Nat)
  | setDrawer (h : CmdHdr) (d : Nat) (parkable : Bool) (parkIdle : Nat)
  | drawerStatus (h : CmdHdr) (d : Nat)
  | openConnection (h : CmdHdr) (p : OpenParams)
  | closeConnection (h : CmdHdr) (conn : Nat)
  | rekey (h : CmdHdr) (conn gen : Nat) (blob0 blob1 : Blob)
  | connStatus (h : CmdHdr) (conn : Nat)
  | registerGrant (h : CmdHdr) (p : GrantParams)
  | revokeGrant (h : CmdHdr) (akey : BitVec 32)
  | grantStatus (h : CmdHdr) (slot : Nat)
  | swapRoles (h : CmdHdr)
  | forceTakeover (h : CmdHdr)
  | setWitness (h : CmdHdr) (p : WitnessParams)
  | setTwin (h : CmdHdr) (p : TwinParams)
  | twinStatus (h : CmdHdr)
  | scrubNow (h : CmdHdr) (g : Nat)
  | rebuild (h : CmdHdr) (g : Nat)
  | sanitize (h : CmdHdr) (nsid : Nat)
  | cisternTest (h : CmdHdr)
  | margin (h : CmdHdr) (port rail : Nat) (step : Int)
  | chRetrain (h : CmdHdr) (ch : Nat)
  | chSbreset (h : CmdHdr) (ch : Nat)
  | chDesc (h : CmdHdr) (ch page : Nat)
  | maintStatus (h : CmdHdr)
  | schedCreate (h : CmdHdr) (p : SchedParams)
  | schedAppend (h : CmdHdr) (handle : Nat) (extents : List (Nat × Nat))
  | schedStart (h : CmdHdr) (handle : Nat)
  | schedDelete (h : CmdHdr) (handle : Nat)
  | schedStatus (h : CmdHdr) (handle : Nat)
  | recFreeze (h : CmdHdr)
  | recUnfreeze (h : CmdHdr)
  | recRead (h : CmdHdr) (source : Nat) (start : BitVec 64) (count : Nat)
  | fwBegin (h : CmdHdr) (image len : Nat)
  | fwData (h : CmdHdr) (image off : Nat) (data : Bytes)
  | fwCommit (h : CmdHdr) (image : Nat)
  | fwActivate (h : CmdHdr) (image : Nat)
  | fwStatus (h : CmdHdr)
  | lcAdvance (h : CmdHdr) (target : Nat) (auth : LcAuth)
  | lcFuseItem (h : CmdHdr) (target item : Nat) (data : Bytes) (auth : LcAuth)
  | lcStatus (h : CmdHdr)
  | lcResetTimer
  | jtagAuthenticate (auth : LcAuth)
  -- Cipher
  | cipherKatTimer (e : Fin 8) (failed : BitVec 8) (keyStore : Bool)
  | cipherAlarm (inputs : BitVec 4)
  | paletteUnwrapDone (tag : KeyTag) (ok : Bool)
  -- Power
  | railSenseSample (mv : Vector Nat 48) (vinMv : Nat)
  | cisternSample (meanMv : Nat)
  | railWarnTimer (i : Fin 48)
  | railPgChange (i : Fin 48) (pg : Bool)
  | railTOnExpiry (i : Fin 48)
  | railTOffExpiry (i : Fin 48)
  | railTDisExpiry (i : Fin 48)
  | windlassRisingEdge
  | windlassFallingEdge
  | cascadeWaitExpiry
  | windlassStepTimeout
  | windlassFaultExit
  | stuckLineTimeout
  | cascadeTrainEnd (pulses : Nat)
  | cascadeTimeout
  | rollCallTrainEnd (holding : List Bool)
  | rollCallTimeout
  | pwrEnRise
  | pwrEnFall
  | pwrCtlOffreq
  | pwrfailNLow
  | vinFail
  | offSettleTimer
  | cisternMeasureDue
  | cisternPostponeTimer
  | cisternSettleTimer (v0 : Nat)
  | cisternV1WindowEnd (v1 : Nat)
  | cisternTestLoadEnd (v2 : Nat)
  | cisternChargeTimeout
  | pmbusResponse (port : Fin 2) (voutMode : BitVec 8)
  | pmbusTimeout (port : Fin 2)
  | aonPinInit
  | standbyPowerGood
  -- Priming and recovery
  | crystalStable (r : PrimeReport)
  | primingStepComplete (r : PrimeReport)
  | primingStepTimeout (r : PrimeReport)
  | hsHelloTimer
  | hsDecideRetryTimer
  | hsWaitExpiry
  | waitpeerRenewTimer
  | regionClearTimer (g : Fin 16)
  | suspectRowSettle (g : Fin 16)
  -- DRAM
  | dramRefreshTimer (ch : Fin 32) (behindRequests : Bool)
  | dramMr4Poll (ch : Fin 32) (rank : Fin 2) (mult temp : Nat) (hot : Bool)
  | zqCalibrationTimer (ch : Fin 32) (rank : Fin 2)
  | selfRefreshIdle (ch : Fin 32)
  | activationTableClear (ch : Fin 32) (rank : Fin 2)
  | dramPatrolRead (ch : Fin 32)
  | dramCeWindow (ch : Fin 32)
  | dramReadComplete (addr : Nat) (words : List (BitVec 64 × BitVec 8))
  -- Flash
  | flashProgramPulseDone (bank : Fin 2) (verified : Bool)
  | flashErasePulseDone (bank : Fin 2) (verified : Bool)
  | flashBusFaultRead (sector : Fin 1024) (uncor : Bool)
  -- Self-test, recorder, events
  | eccFlipWrite (v : BitVec 32)
  | eccInjectionApply (unit addr : Nat)
  | transparentTestRegion (place : SramPlace) (outcome : EccOutcome) (spareFree : Bool)
  | recorderSpill
  | recFreezeTimeout
  | evStatusClear (w : Fin 32) (mask : BitVec 32) (raised : Option (Fin 1024))
  | msixMaskChange (vec : Option (Fin 2048)) (mask : Bool)
  | reg64LowRead (off : Nat)
  | registerWrite (off : Nat) (enables : BitVec 4) (v : BitVec 32)
  | junctionTempSample (t : Vector (BitVec 16) 8)
  | thermalCriticalTimer
  | thermalShutdownTimer
  | grantDeadTimer (slot : Nat)
  | revocationDropTimer (slot : Nat)
  | probeResendTimer (conn : Nat)
  | xportEntryTimer (conn : Nat)
  | idleOs (ch : Fin 144)
  | perstDeassert
  | twinPortLinkLoss (port : Fin 4)
  | cipherAlarmDeassert (inputs : BitVec 4)
  | primingDrawerWakeStagger (d : Fin 8)
  deriving DecidableEq, Repr

end Sys2Proof
end

