-- ==== Sys2Proof/Decode.lean ====
section
/-! DEFINITION. The command that a word of the opcode table spells. No row of the table gives bits, so
no word spells one. -/

namespace Sys2Proof

/-- The command that `nbits` bits of value `w` spell: none, since no row of the table has bits. -/
def decodeTableWord (_nbits _w : Nat) : Option Instr := none

end Sys2Proof
end

