-- ==== Sys2Proof/Machine/Ranges.lean ====
section
/-! DEFINITION. Sets of byte ranges, as offset and length, rising and merged. -/

namespace Sys2Proof.Machine

/-- Add a range. -/
def addRange : List (Nat × Nat) → Nat → Nat → List (Nat × Nat)
  | [], o, n => [(o, n)]
  | (a, m) :: t, o, n =>
    if o + n < a then (o, n) :: (a, m) :: t
    else if a + m < o then (a, m) :: addRange t o n
    else let lo := Nat.min a o; addRange t lo (Nat.max (a + m) (o + n) - lo)

/-- The range lies within the set. -/
def covers (l : List (Nat × Nat)) (o n : Nat) : Bool := l.any (fun e => decide (e.1 ≤ o) && decide (o + n ≤ e.1 + e.2))

/-- The range meets the set. -/
def meets (l : List (Nat × Nat)) (o n : Nat) : Bool := l.any (fun e => decide (e.1 < o + n) && decide (o < e.1 + e.2))

/-- Bytes of the set. -/
def rangeBytes : List (Nat × Nat) → Nat
  | [] => 0
  | e :: t => e.2 + rangeBytes t

/-- Bytes held contiguously from `o`. -/
def headFrom (l : List (Nat × Nat)) (o : Nat) : Nat :=
  match l.find? (fun e => decide (e.1 ≤ o) && decide (o < e.1 + e.2)) with
  | some e => e.1 + e.2 - o
  | none => 0

end Sys2Proof.Machine
end

