-- ==== Sys2Proof/Config.lean ====
section
/-! DEFINITION. What one part fixes and the manual leaves open: part constants, cipher functions and
free values. Each is opaque, so no proof can rest on a value of it. -/

namespace Sys2Proof.Config

open Sys2Proof

/-- Draws of the on-chip random source (R81, R483, R626), by the number of the draw. -/
opaque random : Nat → BitVec 512
/-- Values that the manual leaves open after a step, by the number of the draw (log entry 4, DESIGN CHOICE). -/
opaque free : Nat → BitVec 64
/-- DIE_ID of the calibration row (R598). -/
opaque dieId : Nat
/-- Laneracor's assigned vendor identifier (R389, R652). -/
opaque vendorId : BitVec 16
/-- Nominal frequency of an island in kHz; the manual states islands 73 to 80 alone (R654). -/
opaque nominalKhz : Nat → Nat
/-- DRAM calibration record of a channel: its seven delay registers (R560, R598). -/
opaque calDram : Nat → BitVec 224
/-- SHA-384 digest of the Laneracor life-cycle key (R625), as the number of its bytes, lowest address first. -/
opaque laneracorKey : Nat
/-- Byte that media holds at an offset of a namespace, for a digest over a line whose other bytes
have not been read (log entry 9, DESIGN CHOICE). -/
opaque storedByte : Nat → Nat → Byte
/-- Contents of a row of the metadata region whose layout the manual does not give (R77), by the number of the draw. -/
opaque metaBytes : Nat → Bytes
/-- Byte of the committed command record that a CONTROL entry carries (R255): the manual lays out no record but that of a
drawer entry (log entry 124, DESIGN CHOICE). -/
opaque recordByte : Cfg → Nat → Byte
/-- Encoding of the configuration that the CFG field of R542 is taken over. -/
opaque cfgBytes : List Nat → Bytes
/-- BUSY hint in µs where the manual gives none (R432), by the code of the command. -/
opaque busyHint : Nat → Nat
/-- Expected time in µs, beyond the 100 µs floor of R365, for the dirty total to fall below D_max. -/
opaque budgetHint : Nat → Nat
/-- Remaining erase time of a slot in µs (R603), by sectors left. -/
opaque eraseHint : Nat → Nat
/-- Per-twin address of a sub-port (R273, R316), by twin, port and sub-port, with whether it is of IPv6: the
manual names no command that sets it. -/
opaque twinAddr : Nat → Nat → Nat → Bool × Nat
/-- Port, sub-port, host address, host UDP port and whether IPv6 carries them, to which a connection's control packets go while no packet of it has
arrived, by connection: the manual names no such path (log entry 28, DESIGN CHOICE). -/
opaque hostPath : Nat → Nat × Nat × Nat × Nat × Bool
/-- The witness connection's ID, RETRY_MAX and CREDIT_WIN: SET_WITNESS names none (log entry 44, DESIGN CHOICE). -/
opaque witConn : Nat × Nat × Nat
/-- The witness connection's SALT, HPSN0, CPSN0 and MSGID0 (log entry 44, DESIGN CHOICE). -/
opaque witOpen : BitVec 32 × Psn × Psn × MsgId
/-- The fused SHA-384 digest of the root key (R529), as the number of its bytes, lowest address first. -/
opaque rootKey : Nat
/-- Load of an engine in percent over the last ms (R485), by engine, class and time. -/
opaque engineLoad : Nat → Nat → Nat → Nat

/-- Choices of the parity-check matrix of the DRAM code, by the number of the choice (R555; log entry 138, DESIGN CHOICE). -/
opaque hsiaoPick : Nat → Nat
/-- Byte of a pool word that no write has supplied, read to complete the word (R556), by the number of the draw and its
place in the unit. -/
opaque poolByte : Nat → Nat → Byte

/-- CXL.mem write credits that the host port keeps granted (R210): the manual gives no number (log entry 131, DESIGN CHOICE). -/
opaque memCredits : Nat

end Sys2Proof.Config
end

