-- ==== Sys2Proof/Machine/Bits.lean ====
section
/-! DEFINITION. Serial-number arithmetic (R682), saturating counts, byte strings and cyclic
redundancy checks. -/

namespace Sys2Proof.Machine

open Sys2Proof

/-- R682: `a` is earlier than `b`: (b − a) mod 2^n lies from 1 to 2^(n−1) − 1. A pair exactly 2^(n−1)
apart is neither earlier nor later. -/
def earlier {n : Nat} (a b : BitVec n) : Bool :=
  let d := (b - a).toNat
  decide (1 ≤ d ∧ d < 2 ^ (n - 1))

/-- R682: `a` is later than `b`. -/
def later {n : Nat} (a b : BitVec n) : Bool := earlier b a

/-- `a` is at or before `b` in serial order. -/
def atOrBefore {n : Nat} (a b : BitVec n) : Bool := decide (a = b) || earlier a b

/-- Distance from `a` up to `b`, modulo 2^n. -/
def dist {n : Nat} (a b : BitVec n) : Nat := (b - a).toNat

/-- The later of two serial numbers, the first where they do not compare. -/
def serialMax {n : Nat} (a b : BitVec n) : BitVec n := if later b a then b else a

/-- A saturating count: one more, at most `top`. -/
def satInc (top x : Nat) : Nat := if x < top then x + 1 else top

/-- 16-bit saturating increment. -/
def sat16 (x : Nat) : Nat := satInc 65535 x
/-- 8-bit saturating increment. -/
def sat8 (x : Nat) : Nat := satInc 255 x
/-- 32-bit saturating increment. -/
def sat32 (x : Nat) : Nat := satInc 4294967295 x

/-- Least value of a list with a starting value. -/
def listMin (d : Nat) : List Nat → Nat := List.foldl Nat.min d
/-- Greatest value of a list with a starting value. -/
def listMax (d : Nat) : List Nat → Nat := List.foldl Nat.max d

/-- `n` bytes of `v`, least significant first (R16). -/
def leBytes : Nat → Nat → Bytes
  | 0, _ => []
  | n + 1, v => BitVec.ofNat 8 v :: leBytes n (v / 256)

/-- `n` bytes of `v`, most significant first (R16). -/
def beBytes (n v : Nat) : Bytes := (leBytes n v).reverse

/-- Value of bytes, least significant first. -/
def leVal : Bytes → Nat
  | [] => 0
  | b :: t => b.toNat + 256 * leVal t

/-- Value of bytes, most significant first. -/
def beVal (l : Bytes) : Nat := leVal l.reverse

/-- Bytes `off` to `off + n − 1` of a byte string, zero where it ends early. -/
def slice (l : Bytes) (off n : Nat) : Bytes :=
  let t := (l.drop off).take n
  t ++ List.replicate (n - t.length) 0

/-- Bytewise XOR. -/
def xorBytes : Bytes → Bytes → Bytes
  | [], b => b
  | a, [] => a
  | x :: a, y :: b => (x ^^^ y) :: xorBytes a b

/-- One bit step of a most-significant-first CRC of width `n`. -/
def crcBit {n : Nat} (poly : BitVec n) (c : BitVec n) (bit : Bool) : BitVec n :=
  if c.msb != bit then (c <<< 1) ^^^ poly else c <<< 1

/-- One byte of a most-significant-first CRC, bit 7 first. -/
def crcByte {n : Nat} (poly : BitVec n) (c : BitVec n) (b : Byte) : BitVec n :=
  [7, 6, 5, 4, 3, 2, 1, 0].foldl (fun c i => crcBit poly c (b.getLsbD i)) c

/-- FCRC of R149: x^16 + x^12 + x^5 + 1, initial value 0xFFFF, most significant bit first. -/
def crc16 (l : Bytes) : BitVec 16 := l.foldl (crcByte 0x1021) 0xFFFF

/-- CRC-64 of R266: polynomial 0x42F0_E1EB_A9EA_3693, most significant bit first, no reflection, no
final inversion, continued from `c`. -/
def crc64 (c : BitVec 64) (l : Bytes) : BitVec 64 := l.foldl (crcByte 0x42F0E1EBA9EA3693) c

/-- A boolean as a field value. -/
def bit (b : Bool) : Nat := if b then 1 else 0

/-- Field at bit `lo` of a register value. -/
def fld (lo v : Nat) : Nat := v * 2 ^ lo

/-- Ceiling division. -/
def ceilDiv (a b : Nat) : Nat := (a + (b - 1)) / b

/-- Bits of a mask that are set below `n`, ascending. -/
def setBits {w : Nat} (n : Nat) (v : BitVec w) : List Nat := (List.range n).filter (fun i => v.getLsbD i)

/-- A mask with the named bits set. -/
def maskOf (w : Nat) (l : List Nat) : BitVec w := l.foldl (fun m i => m ||| (1#w <<< i)) 0

/-- Add a value to a sorted list without repeats. -/
def insNat : List Nat → Nat → List Nat
  | [], x => [x]
  | a :: t, x => if x < a then x :: a :: t else if x = a then a :: t else a :: insNat t x

/-- Value of the first pair with key `k`. -/
def lookupNat {α : Type} (k : Nat) : List (Nat × α) → Option α
  | [] => none
  | (j, v) :: t => if j = k then some v else lookupNat k t

/-- CRC-32 of IEEE 802.3, bit-reflected. -/
def crc32Byte (c : BitVec 32) (b : Byte) : BitVec 32 :=
  (List.range 8).foldl (fun c _ => if c.getLsbD 0 then (c >>> 1) ^^^ 0xEDB88320 else c >>> 1) (c ^^^ b.zeroExtend 32)
def crc32 (l : Bytes) : BitVec 32 := ~~~(l.foldl crc32Byte 0xFFFFFFFF)

/-- Run `f` over a list, threading the state. -/
def forEach {σ α : Type} (l : List α) (f : α → σ → σ) (s : σ) : σ := l.foldl (fun s a => f a s) s

/-- Take steps, at most `n`, until none is left. -/
def untilNone {σ : Type} (f : σ → Option σ) : Nat → σ → σ
  | 0, s => s
  | n + 1, s =>
    match f s with
    | some t => untilNone f n t
    | none => s

end Sys2Proof.Machine
end

