-- ==== Sys2Proof/Machine/StateMedia.lean ====
section
/-! DEFINITION. The parts of State that the media chapters give: channels, links, descriptors,
groups, easels, row operations, miss tracking, and drawers with their schedules. -/

namespace Sys2Proof.Machine

open Sys2Proof

/-- CH_LINK.STATE (R175, R180). -/
inductive LinkState where
  | down | detect | equalise | confirm | active | retrain | quiesced | failed
  deriving DecidableEq, Repr

/-- CH_HEALTH.STATE (R141). -/
inductive Health where
  | absent | inService | failed | rebuildTarget | tooSmall
  deriving DecidableEq, Repr

/-- GRP_STATE.STATE (group state table under R132). -/
inductive GroupState where
  | unformatted | sound | degraded | rebuilding | failed
  deriving DecidableEq, Repr

/-- DRW_STATE.STATE (R184). -/
inductive DrawerState where
  | parked | waking | awake | parking | dfault
  deriving DecidableEq, Repr

/-- DRW_STATE.STEP (R208). -/
inductive DrawerStep where
  | none | w1 | w2 | w3 | w4 | w5 | w6 | w7 | p1 | p2 | p3 | p4 | d4 | d3 | d2 | d1
  deriving DecidableEq, Repr

/-- Media-link commands of R157's command table. -/
inductive MOp where
  | readCw | writeCw | dieStatus | dieReset | temp | descriptor
  deriving DecidableEq, Repr

/-- A media-link command, waiting for credit and tag or outstanding (R157, R159). -/
structure MCmd where
  /-- Opcode. -/
  op : MOp
  /-- Die 0–15. -/
  die : Nat := 0
  /-- Die address (R72). -/
  daddr : Nat := 0
  /-- Command argument. -/
  arg : Nat := 0
  /-- The 288 bytes of a WRITE_CW. -/
  sector : Bytes := []
  /-- Group row of a sector command (R76). -/
  grow : Nat := 0
  /-- Row operation that issued it, 0 for none. -/
  rowOp : Nat := 0
  /-- True for a foreground command (R9, R130). -/
  fg : Bool := true
  /-- True for a read of the scrub, issued only while fewer than 8 foreground commands are outstanding (R130). -/
  yields : Bool := false
  /-- True once reissued after a DIE_ABORTED (R165). -/
  reissued : Bool := false
  deriving DecidableEq, Repr

/-- An outstanding command and the tag it holds (R159). -/
structure TagRec where
  /-- Tag 0–1,023. -/
  tag : Nat
  /-- The command. -/
  cmd : MCmd
  /-- True once a DIE_RESET was sent for it (R165). -/
  resetSent : Bool := false
  /-- True once its module has failed: its response frees tag and credit and does nothing else (R132, R160). -/
  lost : Bool := false
  deriving DecidableEq, Repr

/-- One of the 144 media channels. -/
structure Chan where
  /-- CH_LINK.STATE (R175, R180). Reset 0 DOWN [S]. -/
  link : LinkState := .down
  /-- CH_LINK.SBPRES (R174, R180). Reset 0 [S]. -/
  sbPres : Bool := false
  /-- CH_LINK.CPRESET, controller transmit preset in use (R145, R180). Reset 0 [S]. -/
  cPreset : Nat := 0
  /-- CH_LINK.MPRESET, module transmit preset in use (R145, R180). Reset 0 [S]. -/
  mPreset : Nat := 0
  /-- CH_LINK.RETRAINS, saturating at 255 (R180). Reset 0 [S]. -/
  retrains : Nat := 0
  /-- CH_LINK_ERR.CRCERR, saturating at 65,535 (R152, R180). Reset 0 [S]. -/
  crcErr : Nat := 0
  /-- CH_LINK_ERR.REPLAYS, saturating at 65,535 (R155, R180). Reset 0 [S]. -/
  replays : Nat := 0
  /-- Times of the flit CRC errors of the last millisecond (R147). Reset none [D1]. -/
  crcTimes : List Nat := []
  /-- Scrambler of the controller's data blocks (R144). Reset all ones, the seed of R144. -/
  txScr : BitVec 31 := BitVec.allOnes 31
  /-- Scrambler of the module's data blocks (R144). Reset all ones, the seed of R144. -/
  rxScr : BitVec 31 := BitVec.allOnes 31
  /-- Consecutive TRN1 received with block lock (R145 EQUALISE trigger). Reset 0 [D1]. -/
  trn1Lock : Nat := 0
  /-- Module preset on trial in EQUALISE, and the blocks received with it; none outside (R145). Reset none [D1]. -/
  eqTry : Option (Nat × Nat) := none
  /-- True once the controller's own equalisation is done (R145). Reset false [D1]. -/
  eqDone : Bool := false
  /-- True while training skips EQUALISE with the last presets (R146). Reset false [D1]. -/
  shortTrain : Bool := false
  /-- True while the full training that follows a failed short retraining runs (R146). Reset false [D1]. -/
  secondTry : Bool := false
  /-- TRN2 received in the present CONFIRM, of the 16 due (R145). Reset 0 [D1]. -/
  trn2Seen : Nat := 0
  /-- True when a block-header or CRC error was seen in the confirm millisecond (R145). Reset false [D1]. -/
  confirmErr : Bool := false
  /-- Sequence number expected from the module (R152). Reset 0 [D1]. -/
  rxExp : BitVec 12 := 0
  /-- True while a NAK of the controller is outstanding (R152). Reset false [D1]. -/
  rxNak : Bool := false
  /-- Sequenced flits accepted and not yet acknowledged (R153). Reset 0 [D1]. -/
  rxUnacked : Nat := 0
  /-- Sector flits still owed after a DATA0 (R150). Reset 0 [D1]. -/
  rxDataLeft : Nat := 0
  /-- Number of the controller's next sequenced flit (R151). Reset 0 [D1]. -/
  txNext : BitVec 12 := 0
  /-- Replay buffer: unacknowledged flits, oldest first, at most 256 (R154). Reset empty [D1]. -/
  txBuf : List Bytes := []
  /-- Replays of the oldest flit since the acknowledgement last advanced (R147). Reset 0 [D1]. -/
  replayRun : Nat := 0
  /-- Commands waiting for a credit, a tag or replay-buffer room (R159, R154). Reset empty [D1]. -/
  waiting : List MCmd := []
  /-- Outstanding commands by tag, at most 1,024 (R159). Reset empty [S]. -/
  tags : List TagRec := []
  /-- Credits of each die queue, set at link-up from DIE_QDEPTH (R160). Reset empty, no link is up [D1]. -/
  dieCredit : List Nat := []
  /-- Management credits (R160). Reset 4, the count of R160. -/
  mgmtCredit : Nat := 4
  /-- CH_TAGS.TIMEOUTS, saturating (R165, R180). Reset 0 [S]. -/
  timeouts : Nat := 0
  /-- CH_DESC.DSTAT: 0 none, 1 accepted, 2 rejected (R180). Reset 0 [S]. -/
  dstat : Nat := 0
  /-- CH_DESC.REJECT (R180). Reset 0 [S]. -/
  reject : Nat := 0
  /-- The 256-byte halves of the descriptor last read, by ARG (R157, R167). Reset none [D1]. -/
  descPages : List (Nat × Bytes) := []
  /-- The accepted descriptor (R167, R168); CH_DESC.DIES and QDEPTH read it. Reset none [S]. -/
  desc : Option Descriptor := none
  /-- CH_TEMP.TEMP, 16 bits two's complement (R170, R180). Reset 0 [S]. -/
  temp : BitVec 16 := 0
  /-- CH_TEMP.VALID (R180). Reset 0 [S]. -/
  tempValid : Bool := false
  /-- CE_THRESH in force, CH_CE_CFG.THRESH (R110, R141). Reset 0x03E8 [S]. -/
  ceThresh : Nat := 1000
  /-- RETIRE_SYM in force, CH_CE_CFG.RETIRE (R109, R141). Reset 4 [S]. -/
  retireSym : Nat := 4
  /-- CH_CE_STAT.WINDOW, saturating (R110, R141). Reset 0 [S]. -/
  ceWindow : Nat := 0
  /-- True when event 4c + 2 was raised in this window (R110). Reset false [D1]. -/
  ceRaised : Bool := false
  /-- CH_CE_STAT.WIN_OVER, saturating (R141). Reset 0 [S]. -/
  winOver : Nat := 0
  /-- CH_CE_TOTAL, wrapping 32 bits (R141). Reset 0 [S]. -/
  ceTotal : BitVec 32 := 0
  /-- CH_UE_TOTAL, saturating 32 bits (R141). Reset 0 [S]. -/
  ueTotal : Nat := 0
  /-- Rows found uncorrectable on the module in the last second, with their times (R132). Reset none [D1]. -/
  ueRows : List (Nat × Nat) := []
  /-- CH_HEALTH.STATE (R141). Reset 0 absent [S]. -/
  health : Health := .absent
  /-- Group rows whose sector on this channel failed for good and is not yet retired (R109, R164). Reset none [D1]. -/
  badRows : List Nat := []
  /-- CH_HEALTH.RETIRING: a spare move for a sector of this channel runs (R141). Reset 0 [S]. -/
  retiring : Bool := false
  deriving DecidableEq, Repr

/-- One of the 16 stripe groups. -/
structure Group where
  /-- GRP_STATE.STATE (R132, R141). Reset 0 UNFORMATTED [S]. -/
  st : GroupState := .unformatted
  /-- N_g, GRP_ROWS.ROWS (R73, R100). Reset 0 [S]. -/
  ng : Nat := 0
  /-- E_g, GRP_EASELS.EASELS (R73, R100). Reset 0 [S]. -/
  eg : Nat := 0
  /-- GRP_STATE.FAILPOS; none reads 0xF (R141). Reset 0xF [S]. -/
  failPos : Option Nat := none
  /-- GRP_STATE.FAILPOS2 (R141). Reset 0xF [S]. -/
  failPos2 : Option Nat := none
  /-- Further positions that lack a sound module, beyond FAILPOS and FAILPOS2 (R132, R138). Reset none [D1]. -/
  failMore : List Nat := []
  /-- True while the rebuild is of a FAILED group (group state table). Reset false [D1]. -/
  rebuildOfFailed : Bool := false
  /-- GRP_REBUILD.POINTER (R134, R141). Reset 0 [S]. -/
  rebuildPtr : Nat := 0
  /-- GRP_STATE.PAUSED (R136, R141). Reset 0 [S]. -/
  paused : Bool := false
  /-- REBUILD_SHARE in percent (R136, R139). Default 20 [S]. -/
  rebuildShare : Nat := 20
  /-- AUTO_REBUILD (group state table, R139). Default 1 [S]. -/
  autoRebuild : Bool := true
  /-- Next group row of the patrol scrub pass (R127). Reset 0 [D1]. -/
  scrubPtr : Nat := 0
  /-- GRP_SCRUB.PASSES (R141), held at 65,535 (log entry 111, DESIGN CHOICE). Reset 0 [S]. -/
  passes : Nat := 0
  /-- GRP_SCRUB.BEHIND (R130, R141). Reset 0 [S]. -/
  behind : Bool := false
  /-- GRP_SCRUB.INCONS, saturating at 255 (R128, R141). Reset 0 [S]. -/
  incons : Nat := 0
  /-- Start of the present pass, ns (R130). Reset 0 [D1]. -/
  passStart : Nat := 0
  /-- Pointer of a SCRUB_NOW pass in progress (R140). Reset none [D1]. -/
  scrubNow : Option Nat := none
  /-- GRP_POISON.LINES, saturating 32 bits (R141). Reset 0 [S]. -/
  poisonLines : Nat := 0
  /-- Rows of the metadata region that failed for good (R109). Reset none [D1]. -/
  badMeta : List Nat := []
  /-- True once the AWAKE record has replaced the clean-park marker since the last wake (R188). Reset false [D1]. -/
  awakeRec : Bool := false
  /-- True while a format of the group runs past its point of no return (R75). Reset false [D1]. -/
  formatting : Bool := false
  /-- Next row the group's recorder spill writes, counted in its ring (R637). Reset 0 [D1]. -/
  spillPtr : Nat := 0
  deriving DecidableEq, Repr

/-- Per-easel state (per-easel table of R100's section). -/
structure Easel where
  /-- NSID, 10 bits; 0 is free (per-easel table). Reset 0 [D1]. -/
  nsid : Nat := 0
  /-- UNIT, 16 bits (per-easel table). Reset 0 [D1]. -/
  unit : Nat := 0
  /-- KEY, round keys k0 to k3 of 10 bits (R81, R84). Reset 0 [D1]. -/
  key : List (BitVec 10) := [0, 0, 0, 0]
  /-- START, 20 bits (R81, R85). Reset 0, its allocation value [D1]. -/
  start : Nat := 0
  /-- GAP, 21 bits (R81, R85). Reset 1,048,576, its allocation value [D1]. -/
  gap : Nat := 1048576
  /-- PSI, 11 bits (R89). Reset 128, the default of R89. -/
  psi : Nat := 128
  /-- WCOUNT, 11 bits saturating (R87, R88). Reset 0 [S]. -/
  wcount : Nat := 0
  /-- MOVES, 64 bits (per-easel table). Reset 0 [D1]. -/
  moves : BitVec 64 := 0
  /-- SPARES, 6 bits (R95). Reset 0 [D1]. -/
  spares : Nat := 0
  /-- REMAP: spare number k and the slot that its valid entry names (R86, R95). Reset none valid [D1]. -/
  remap : List (Nat × Nat) := []
  /-- WORN (R97). Reset 0 [D1]. -/
  worn : Bool := false
  /-- True while a gap or spare move of the easel is in progress (R88). Reset false [D1]. -/
  moving : Bool := false
  /-- True while the zero writes of R81 are unfinished, so the unit is not yet accessible. Reset false [D1]. -/
  filling : Bool := false
  deriving DecidableEq, Repr

/-- What a metadata row holds (R77, R187, R188, R535). -/
inductive MetaKind where
  /-- The group header that marks the group as formatting (R75). -/
  | format
  /-- The group header with the AWAKE record (R188). -/
  | awake
  /-- The group header with a marker, the bad-row list or the group's new state (R109, R187, R535). -/
  | header
  /-- The two copies of an easel's state (R77). -/
  | easel (ek : Nat)
  /-- The copy of the namespace table (R77). -/
  | nsTable
  /-- The record of a gap move of an easel in the gap and spare journal (R90, R93). -/
  | gap (ek : Nat)
  /-- The record of a spare move: slot and spare (R95, R96). -/
  | spare (ek slot k : Nat)
  /-- A REGION record with the regions that it shows (R536). -/
  | region (l : List Nat)
  /-- Any other drain-journal record, by its JSEQ (R535). -/
  | journal (jseq : Nat)
  /-- A row of the recorder spill ring (R637). -/
  | spill
  deriving DecidableEq, Repr

/-- Which check found a row inconsistent (R128, R539). -/
inductive FixFrom where
  | patrol | scrubNow | settle
  deriving DecidableEq, Repr

/-- What a row operation is for. -/
inductive RowPurpose where
  /-- A host-data update of codewords `cws` of the row at namespace offset `off` (R217). -/
  | host (ns off : Nat) (cws : List Nat)
  /-- A gap move of easel key `ek` from ring slot `src` to `dst` (R90). -/
  | gap (ek src dst : Nat)
  /-- A spare move: slot `slot` of easel `ek` to spare `k` (R95, R96). -/
  | spare (ek slot k : Nat)
  /-- The write-back of an uncorrectable chain's outcome at `pos`, parity recomputed (R119, R120). -/
  | chain (pos : Nat)
  /-- A rebuild row (R134). -/
  | rebuild
  /-- A scrub read of a row (R127, R128); true for the SCRUB_NOW pass. -/
  | scrub (now : Bool)
  /-- The reissue of a recorded intent (R538). -/
  | replay
  /-- The settling of a suspect row (R539, R540). -/
  | settle
  /-- A rewrite of an inconsistent row; `peer` where the peer's data is fetched (R129, R539). -/
  | scrubFix (peer : Bool) (orig : FixFrom)
  /-- A correction write-back of one sector (R108). -/
  | correct (pos : Nat)
  /-- The zero write of one slot of a newly allocated easel (R81). -/
  | fill (ek slot : Nat)
  /-- The write of a metadata row (R77). -/
  | metaRow (k : MetaKind)
  deriving DecidableEq, Repr

/-- Where a row operation stands. -/
inductive RowPhase where
  /-- Waiting out MERGE_WAIT (R217). -/
  | merge
  /-- Waiting for sectors it reads; without the lock while one is fetched from the peer (R232). -/
  | read
  /-- Waiting for its writes to be acknowledged (R112). -/
  | write
  /-- Waiting for the acknowledgement of its gap or spare record (R90). -/
  | record
  deriving DecidableEq, Repr

/-- A stripe-engine operation on one row, its intent images and its row lock (R111 to R114, R212). -/
structure RowOp where
  /-- The operation's number, the tag of its lease (R114). -/
  id : Nat
  /-- Stripe group. -/
  grp : Nat
  /-- Group row read from; the row written too unless `dst` says otherwise. -/
  grow : Nat
  /-- Group row written. -/
  dst : Nat
  /-- What it is for. -/
  purpose : RowPurpose
  /-- Where it stands. -/
  phase : RowPhase
  /-- True while it holds the row lock (R111, R112). -/
  locked : Bool := false
  /-- Epoch of the lease (R114). -/
  epoch : Epoch := 0
  /-- Positions whose sectors it still waits for. -/
  needs : List Nat := []
  /-- Sectors it holds, by position (decoded, marker offset kept). -/
  got : List (Nat × Bytes) := []
  /-- Sectors fetched from the peer for a row rewrite, and outcomes of the chain's later steps that a move copies, by
  position (R129, R685). -/
  fetched : List (Nat × Bytes) := []
  /-- Intent images: the sectors it writes, by position (R111, R212). -/
  writes : List (Nat × Bytes) := []
  /-- Positions whose writes are neither acknowledged nor completed as degraded (R112). -/
  await : List Nat := []
  /-- Sector writes issued to modules, for the easel's write count (R87). -/
  issued : Nat := 0
  /-- Sump lines taken into the intent (R213). -/
  lines : List Nat := []
  /-- Reserve lines it holds, in state intent: gathered images, parity and descriptors (R211, R213). They lie in successive
  usable banks (`State.opIn`). -/
  rsvLines : Nat := 0
  /-- Dirty overflow codewords gathered, freed at settlement (R218). -/
  overflow : List Nat := []
  deriving DecidableEq, Repr

/-- Who waits on a miss-tracking entry (R116). -/
inductive Waiter where
  /-- A network, CXL.mem, mailbox or resync read, by its number. -/
  | gather (id : Nat)
  /-- A row operation, by its number. -/
  | row (id : Nat)
  /-- A rebuild by R107 of the sector at another position of the row. -/
  | rebuild (pos : Nat)
  /-- A peer fetch held for its answer (R121). -/
  | peer (id : Nat)
  /-- The staging of a schedule (R201). -/
  | stage (sched : Nat)
  /-- An atomic waiting for its line (R47). -/
  | atomic (conn : Nat) (msg : MsgId)
  deriving DecidableEq, Repr

/-- Where the uncorrectable chain of a sector stands (R117). -/
inductive MissPhase where
  /-- Held until the suspect row it lies in is settled (R540). -/
  | suspect
  /-- Its media read is outstanding. -/
  | reading
  /-- Step 1 of R117, or the recomputation of R119. -/
  | rebuilding
  /-- Step 2 of R117. -/
  | fetching
  /-- Its outcome is decided. -/
  | settled
  deriving DecidableEq, Repr

/-- A miss-tracking entry: one sector with a media read in progress (R116). -/
structure Miss where
  /-- Stripe group. -/
  grp : Nat
  /-- Group row. -/
  grow : Nat
  /-- Channel position in the row. -/
  pos : Nat
  /-- Namespace and offset of the codeword; none for parity and metadata. -/
  cw : Option (Nat × Nat) := none
  /-- Where the chain stands. -/
  phase : MissPhase := .reading
  /-- Sectors of the row gathered for step 1, by position. -/
  got : List (Nat × Bytes) := []
  /-- Positions whose sectors step 1 still waits for. -/
  needs : List Nat := []
  /-- True when the request served is itself a peer fetch (R117). -/
  forPeer : Bool := false
  /-- Who waits (R116). -/
  waiters : List Waiter := []
  /-- True for the re-read of R109. -/
  reread : Bool := false
  /-- True once step 1 has asked for the other sectors. -/
  started : Bool := false
  /-- True when the sector was found uncorrectable under R105. -/
  uncor : Bool := false
  /-- True when its outcome came from step 2 or 3 of R117. -/
  chained : Bool := false
  /-- True while the single re-read of R109 is owed once the entry's waiters are served. -/
  rereadDue : Bool := false
  /-- True when no module holds the sector, so that its outcome is not written back (R132, R685). -/
  absent : Bool := false
  /-- True while the outcome is owed a write-back (R120). -/
  wb : Bool := false
  /-- The settled sector, 288 bytes. -/
  sec : Bytes := []
  deriving DecidableEq, Repr

/-- A latched opposite request of a drawer, with the commands that wait for it; the first is the command that made the
latest request, 0 for another cause (R185, R687). -/
inductive Latch where
  | none | park (cmds : List Nat) | wake (cmds : List Nat)
  deriving DecidableEq, Repr

/-- Why a drawer's rails fall: a park, a fault, or a power-down (R184, R506). -/
inductive Fall where
  | park | fault | power
  deriving DecidableEq, Repr

/-- One of the 8 drawers. -/
structure Drawer where
  /-- DRW_STATE.STATE (R184, R208). Reset 0 PARKED [S]. -/
  st : DrawerState := .parked
  /-- DRW_STATE.STEP (R208). Reset 0 [S]. -/
  step : DrawerStep := .none
  /-- DRW_STATE.PARKABLE (R197, R208). Reset 0 [S]. -/
  parkable : Bool := false
  /-- The latched opposite request, DRW_STATE.LATCHED (R185, R208). Reset none [S]. -/
  latch : Latch := .none
  /-- Running PARK_DRAWER or WAKE_DRAWER command of the present direction, by its number. Reset none [D1]. -/
  cmds : List Nat := []
  /-- DRW_HOLDS.SCRUB: a scrub wake runs (R131, R208). Reset 0 [S]. -/
  scrubWake : Bool := false
  /-- DRW_WAKE.LAST_MS (R208). Reset 0 [S]. -/
  lastMs : Nat := 0
  /-- DRW_WAKE.WAKES, saturating (R208). Reset 0 [S]. -/
  wakes : Nat := 0
  /-- DRW_SLIP.SLIPS, saturating 32 bits (R202, R208). Reset 0 [S]. -/
  slips : Nat := 0
  /-- DRW_IDLE.IDLE_S: PARK_IDLE in force (R190, R208). Reset 0 [S]. -/
  parkIdle : Nat := 0
  /-- In-flight references on the drawer (R194). Reset 0 [D1]. -/
  refs : Nat := 0
  /-- Time the present wake began, ns (R195 hint, R205). Reset 0 [D1]. -/
  wakeAt : Nat := 0
  /-- Time the present park step began, ns (R195 hint). Reset 0 [D1]. -/
  stepAt : Nat := 0
  /-- Time of the latest foreground access (R190). Reset 0 [D1]. -/
  lastUse : Nat := 0
  /-- LSN of the WAKE entry whose acknowledgement R205 waits for; none once acknowledged or not needed. Reset none [D1]. -/
  wakeLsn : Option Lsn := none
  /-- True once the drawer's own wake steps are complete (R205). Reset false [D1]. -/
  wakeDone : Bool := false
  /-- True once W7 has loaded the easel state and reissued intents (R538). Reset false [D1]. -/
  loaded : Bool := false
  /-- What the present or latest rail removal is for (R184). Reset park [D1]. -/
  fall : Fall := .park
  /-- True while the park record in flash marks the drawer parked (R192). Reset false [D1]. -/
  recParked : Bool := false
  /-- Epoch, boot counter and journal position of each group in the park record (R187, R192). Reset none [D1]. -/
  parkRec : Option (Epoch × Nat × List (Nat × Nat)) := none
  /-- True while the drawer drains for park: no gap move starts (R88, R190). Reset false [D1]. -/
  draining : Bool := false
  /-- Groups of the drawer recovering as after an unclean stop (R187). Reset none [D1]. -/
  recovering : List Nat := []
  /-- Groups of the drawer that failed their marker check in this wake (R184, R187). Reset none [D1]. -/
  markerFail : List Nat := []
  /-- An access, a command or another cause than scrub came for the drawer since its latest park began (R131, R204). Reset
  false [D1]. -/
  used : Bool := false
  /-- Groups whose pass of a scrub wake is not complete (R131). Reset none [D1]. -/
  scrubLeft : List Nat := []
  /-- Time the latest rail of a park fell (R186). Reset 0 [D1]. -/
  fellAt : Nat := 0
  deriving DecidableEq, Repr

/-- A registered prefetch schedule (R199 to R203). -/
structure Sched where
  /-- Namespace. -/
  nsid : Nat := 0
  /-- Reader connection; none is ANYCONN. -/
  conn : Option Nat := none
  /-- LEAD_MS (schedule parameters). -/
  leadMs : Nat := 300
  /-- LOOKAHEAD in MiB (schedule parameters). -/
  lookahead : Nat := 256
  /-- Extents: offset and length (R199). -/
  extents : List (Nat × Nat) := []
  /-- True once started (R200). -/
  started : Bool := false
  /-- Time of SCHED_START, ns (R200). -/
  startAt : Nat := 0
  /-- Index of the first unconsumed extent (R200). -/
  cursor : Nat := 0
  /-- Byte ranges of the current extent already read (R200). -/
  readRanges : List (Nat × Nat) := []
  /-- Times and bytes of the reads of the last 100 ms (R200). -/
  recent : List (Nat × Nat) := []
  /-- Bytes staged ahead of the cursor's start, in extent order (R201). -/
  stagedTo : Nat := 0
  /-- Schedule slips counted (R202). -/
  slips : Nat := 0
  /-- Time of its latest slip event by drawer (R202). -/
  slipAt : List (Nat × Nat) := []
  deriving DecidableEq, Repr

end Sys2Proof.Machine
end

