-- ==== Sys2Proof/Machine/StateHost.lean ====
section
/-! DEFINITION. The parts of State that the host-port, mailbox, cipher and power chapters give. -/

namespace Sys2Proof.Machine

open Sys2Proof

/-- An HDM decoder: its Mymal mapping and the host's programming (R396 to R402). -/
structure Hdm where
  /-- HP_HDM.NSID. Reset 0 [S]. -/
  nsid : Nat := 0
  /-- HP_HDM.COMMITTED. Reset 0 [S]. -/
  committed : Bool := false
  /-- HP_HDM.ERR. Reset 0 [S]. -/
  err : Bool := false
  /-- Decoder base the host programmed (R400). Reset 0 [D1]. -/
  base : Nat := 0
  /-- Decoder size the host programmed (R400). Reset 0 [D1]. -/
  size : Nat := 0
  deriving DecidableEq, Repr

/-- Which reset a host-port drain serves, and its step (H1 to H4 of R411's table). -/
inductive HostDrain where
  | none
  /-- Waiting at H3 since the given time. -/
  | h3 (since : Nat)
  deriving DecidableEq, Repr

/-- An event record of the CXL mailbox (R392, R410): which kind it is. -/
inductive CxlEvent where
  | gpfFail | raError | poison (ns off : Nat)
  deriving DecidableEq, Repr

/-- A GPF Phase 2 request waiting for its answer (R409). -/
structure Gpf where
  /-- Arrival time. -/
  since : Nat
  deriving DecidableEq, Repr

/-- The host port. -/
structure HostPort where
  /-- HP_LINK.RATE (R385, R418). Reset 0 [S]. -/
  rate : Nat := 0
  /-- HP_LINK.WIDTH. Reset 0 [S]. -/
  width : Nat := 0
  /-- HP_LINK.FLIT. Reset 0 [S]. -/
  flit : Bool := false
  /-- HP_LINK.CXL. Reset 0 [S]. -/
  cxl : Bool := false
  /-- HP_LINK.MEMEN (R386). Reset 0 [S]. -/
  memEn : Bool := false
  /-- HP_LINK.MEMACT: Memory_Active (R403). Reset 0 [S]. -/
  memAct : Bool := false
  /-- HP_LINK.PERST_SYS (R412). Reset 0 [S]. -/
  perstSys : Bool := false
  /-- HP_LINK.MAXRATE: MAX_RATE in force (R388). Reset 6 [S]. -/
  maxRate : Nat := 6
  /-- MAX_RATE set, taking effect at the next training (R388). Reset 6 [S]. -/
  maxRateNext : Nat := 6
  /-- Subsystem vendor ID (R389). Reset 0 [D1]. -/
  ssvid : Nat := 0
  /-- Subsystem ID (R389). Reset 0 [D1]. -/
  ssid : Nat := 0
  /-- The host-port drain in progress; HP_LINK.DRAIN reads it (R411). Reset none [S]. -/
  drain : HostDrain := .none
  /-- Time H1 of the present drain began (HP_RESET.DRAIN_US). Reset 0 [D1]. -/
  drainAt : Nat := 0
  /-- PERST# asserted at the pin (R411). Reset false [D1]. -/
  perst : Bool := false
  /-- The four HDM decoders. -/
  hdm : List Hdm := [{}, {}, {}, {}]
  /-- HP_REQ.REFUSED, saturating. Reset 0 [S]. -/
  refused : Nat := 0
  /-- HP_REQ.POISONRD, saturating. Reset 0 [S]. -/
  poisonRd : Nat := 0
  /-- HP_REQ2.POISONWR, saturating. Reset 0 [S]. -/
  poisonWr : Nat := 0
  /-- HP_REQ2.HOLDS, saturating at 255. Reset 0 [S]. -/
  holds : Nat := 0
  /-- HP_REQ2.BADWR, saturating at 255. Reset 0 [S]. -/
  badWr : Nat := 0
  /-- HP_RESET.PERSTS, saturating at 255. Reset 0 [S]. -/
  persts : Nat := 0
  /-- HP_RESET.HOTRST, saturating at 255. Reset 0 [S]. -/
  hotRst : Nat := 0
  /-- HP_RESET.FLRS, saturating at 255. Reset 0 [S]. -/
  flrs : Nat := 0
  /-- HP_RESET.DRAIN_US, saturating at 255. Reset 0 [S]. -/
  drainUs : Nat := 0
  /-- HP_GPF.GPFS, saturating. Reset 0 [S]. -/
  gpfs : Nat := 0
  /-- HP_GPF.LASTFAIL. Reset 0 [S]. -/
  gpfFail : Bool := false
  /-- HP_GPF.LASTLOCAL. Reset 0 [S]. -/
  gpfLocal : Bool := false
  /-- GPF Phase 2 requests not yet answered (R409). Reset none [D1]. -/
  gpfWait : List Gpf := []
  /-- PowerState of PF0: true in D3hot (R393, R394). Reset D0 [D1]. -/
  d3 : Bool := false
  /-- True while the link is in L1 (R395). Reset false [D1]. -/
  l1 : Bool := false
  /-- True when the CXL RAS capability logs an uncorrectable internal error (R407, R416). Reset false [D1]. -/
  rasUncor : Bool := false
  /-- AER errors logged (R416): Poisoned TLP, Uncorrectable Internal. Reset none [D1]. -/
  aerPoisoned : Bool := false
  /-- AER Uncorrectable Internal Error logged (R407). Reset false [D1]. -/
  aerInternal : Bool := false
  /-- CXL event records pending (R392, R410). Reset none [D1]. -/
  events : List CxlEvent := []
  /-- CXL timestamp that Set Timestamp set (R392). Reset 0 [D1]. -/
  cxlTime : Nat := 0
  /-- Time at which Set Timestamp was received (R392). Reset none [D1]. -/
  cxlTimeAt : Option Nat := none
  /-- DSMAS entries of the CDAT, by decoder (R392). Reset none committed [D1]. -/
  cdat : List Nat := []
  deriving DecidableEq, Repr

/-- A response kept in a response FIFO (R429), before it is spelled into entries. -/
structure Rsp where
  /-- CODE of the command answered. -/
  code : Nat
  /-- TAG of the command answered. -/
  tag : BitVec 16
  /-- STATUS (R446). -/
  status : Nat
  /-- RFLAGS: bit 0 ABORT_LATE, bit 1 LONG. -/
  rflags : Nat := 0
  /-- Result block bytes. -/
  block : Bytes := []
  deriving DecidableEq, Repr

/-- One 64-byte FIFO entry. -/
abbrev FEntry := Bytes

/-- One of the 8 mailboxes (R419 to R428). -/
structure Mbx where
  /-- Command FIFO, oldest first; MBX_CMD_COUNT and FULL read it (R419). Reset empty [S]. -/
  cmds : List FEntry := []
  /-- Response FIFO, oldest first; MBX_RSP_COUNT, EMPTY and MBX_RSP_DATA read it. Reset empty [S]. -/
  rsps : List FEntry := []
  /-- Second copies of the FIFO pointers agree (R420): command, response. Reset true, true [D1]. -/
  ptrOk : Bool × Bool := (true, true)
  /-- MBX_STATUS.OVERRUN. Reset 0 [S]. -/
  overrun : Bool := false
  /-- MBX_STATUS.PTRERR. Reset 0 [S]. -/
  ptrErr : Bool := false
  /-- MBX_STATUS.NOOWN. Reset 0 [S]. -/
  noOwn : Bool := false
  /-- MBX_OWNER.TOKEN (R425). Reset 0 [S]. -/
  token : BitVec 16 := 0
  /-- End of the ownership lease, ns; MBX_OWNER.LEFT_S reads it (R425). Reset 0 [S]. -/
  leaseEnd : Nat := 0
  /-- MBX_CMD_DATA[0..15], the staged entry (R424). Reset zero [S]. -/
  stage : Bytes := List.replicate 64 0
  /-- Response entries reserved for commands outstanding on the mailbox (R422). Reset 0 [D1]. -/
  reserved : Nat := 0
  /-- Owner of mailbox 4 as an MCTP endpoint ID (R428). Reset 0 [D1]. -/
  eid : Nat := 0
  deriving DecidableEq, Repr

/-- Kind of a command (R431). -/
inductive CmdKind where
  | immediate | waiting | long
  deriving DecidableEq, Repr

/-- A waiting or long-running command not yet answered, or an immediate one that waits for the
acknowledgement of its CONTROL entry (R435, R437). -/
structure Running where
  /-- The model's own number of the command. -/
  id : Nat
  /-- Mailbox. -/
  mbx : Nat
  /-- CODE. -/
  code : Nat
  /-- TAG. -/
  tag : BitVec 16
  /-- Kind. -/
  kind : CmdKind
  /-- Marked by an ABORT (R438). -/
  marked : Bool := false
  /-- Past its point of no return (R439). -/
  past : Bool := false
  /-- LSN of its CONTROL entry while R435 waits for it. -/
  lsn : Option Lsn := none
  /-- Response that awaits that acknowledgement: status and block. -/
  ready : Option (Nat × Bytes) := none
  /-- Response entries reserved for it (R422). -/
  rsv : Nat := 1
  /-- Response discarded, since its mailbox was reset or released (R414, R426). -/
  orphan : Bool := false
  /-- The unit the command acts on. -/
  unit : Nat := 0
  deriving DecidableEq, Repr

/-- An entry of the GET_STATUS table (R437). -/
structure StatusRec where
  /-- Mailbox. -/
  mbx : Nat
  /-- CODE. -/
  code : Nat
  /-- TAG. -/
  tag : BitVec 16
  /-- STATUS; none while outstanding. -/
  status : Option Nat := none
  /-- RFLAGS. -/
  rflags : Nat := 0
  /-- REASON. -/
  reason : Nat := 0
  deriving DecidableEq, Repr

/-- A namespace (R79, R442). -/
structure Ns where
  /-- Units as (group, easel) pairs, in order (R79). -/
  units : List (Nat × Nat) := []
  /-- ψ (R89). -/
  psi : Nat := 128
  /-- PARKABLE. -/
  parkable : Bool := false
  /-- VIS_AT_VARNISH. -/
  visVarnish : Bool := false
  /-- CACHE_FILL. -/
  cacheFill : Bool := true
  /-- ENCRYPTED. -/
  encrypted : Bool := false
  /-- XTS key material wrapped under this twin's KEK (R468). -/
  blob : Option Blob := none
  /-- The peer's blob (R264). -/
  peerBlob : Option Blob := none
  deriving DecidableEq, Repr

/-- Mailbox-side and management state. -/
structure Ctl where
  /-- The 8 mailboxes. -/
  mbx : List Mbx := [{}, {}, {}, {}, {}, {}, {}, {}]
  /-- MBX_SEL.MBX (R423). Reset 0 [S]. -/
  sel : Nat := 0
  /-- MBX_LEASE in s (R425). Default 10 [S]. -/
  lease : Nat := 10
  /-- SMB_ADDR (R449). Default 0x3A [S]. -/
  smbAddr : Nat := 0x3A
  /-- Endpoint ID set by Set Endpoint ID (R450). Reset 0 [D1]. -/
  eid : Nat := 0
  /-- UNIT_SEL.TYPE (R454). Reset 0 [S]. -/
  unitType : Nat := 0
  /-- UNIT_SEL.INDEX (R454). Reset 0 [S]. -/
  unitIdx : Nat := 0
  /-- GSTAT.SELERR (R423, R454). Reset 0 [S]. -/
  selErr : Bool := false
  /-- Commands not yet answered (R431). Reset none [D1]. -/
  running : List Running := []
  /-- Next command number, the model's own. Reset 1 [M2]. -/
  nextCmd : Nat := 1
  /-- The 64 most recent waiting and long-running commands, newest first (R437). Reset none [D1]. -/
  status : List StatusRec := []
  /-- Namespaces by ID (R4, R79). Reset none [D1]. -/
  nss : List (Nat × Ns) := []
  /-- Registered schedules by handle (R199). Reset none [D1]. -/
  scheds : List (Nat × Sched) := []
  deriving DecidableEq, Repr

/-- A palette slot in use (R469). -/
structure Slot where
  /-- Owner tag. -/
  tag : KeyTag
  /-- Time of its last use (R470). -/
  used : Nat
  deriving DecidableEq, Repr

/-- A cipher job that waits for its key or that an engine has suspended, with its chaining state (R470, R475). -/
structure Job where
  /-- MODE: 1 GCM encrypt, 2 GCM decrypt, 3 XTS encrypt, 4 XTS decrypt. -/
  mode : Nat
  /-- Owner tag of its key. -/
  tag : KeyTag
  /-- GCM counter block, or XTS tweak value of the next block. -/
  ctr : Bytes
  /-- GHASH accumulator; zero for XTS. -/
  hash : Bytes := List.replicate 16 0
  /-- AAD bytes processed. -/
  aad : Nat := 0
  /-- Text bytes processed. -/
  text : Nat := 0
  /-- Total text bytes. -/
  total : Nat
  deriving DecidableEq, Repr

/-- A context that an engine has saved in the keys client (R475, R476). -/
structure Saved where
  /-- Engine that saved it. -/
  engine : Nat
  /-- The 128-byte record of R475. -/
  bytes : Bytes
  /-- KEK that it is wrapped under (R476). -/
  kek : Option Kek
  /-- True for a suspension under R478; otherwise its work moves (R459). -/
  susp : Bool
  /-- Inline jobs that the engine has started since (R478). -/
  since : Nat := 0
  deriving DecidableEq, Repr

/-- One of the 8 cipher engines (R457 to R459, R485). -/
structure Engine where
  /-- CE_STATUS.INSERV. Reset 0 [S]. -/
  inServ : Bool := false
  /-- CE_STATUS.HANDED. Reset 0 [S]. -/
  handed : Bool := false
  /-- CE_STATUS.PIPES. Reset 0 [S]. -/
  pipes : BitVec 8 := 0
  /-- CE_STATUS.KATFAIL, saturating at 255. Reset 0 [S]. -/
  katFail : Nat := 0
  /-- CE_LOAD.INLINE in percent. Reset 0 [S]. -/
  inlineLoad : Nat := 0
  /-- CE_LOAD.MEDIA in percent. Reset 0 [S]. -/
  mediaLoad : Nat := 0
  /-- CE_LOAD.SUSP, saturating. Reset 0 [S]. -/
  susp : Nat := 0
  /-- Engine that carries its work, itself when in service (R459). -/
  carrier : Option Nat := none
  /-- Jobs that have begun on it and wait for their key, oldest first (R470). Reset none [D1]. -/
  jobs : List Job := []
  deriving DecidableEq, Repr

/-- The cipher subsystem. -/
structure Cipher where
  /-- Palette slots in use, oldest use first; PAL_STAT.USED and NSKEYS count them (R469). Reset none [S]. -/
  slots : List Slot := []
  /-- Wrapped keys in the keys client of the pool (R469). Reset none [D1]. -/
  wrapped : List KeyTag := []
  /-- Keys being unwrapped into a slot, with the jobs that wait (R470). Reset none [D1]. -/
  unwrapping : List KeyTag := []
  /-- PAL_MISS, saturating 32 bits. Reset 0 [S]. -/
  misses : Nat := 0
  /-- Palette misses of the present second (R470). Reset 0 [D1]. -/
  missWin : Nat := 0
  /-- Start of that second. Reset 0 [D1]. -/
  missAt : Nat := 0
  /-- The KEK in the key registers; none before derivation and after erasure (R473, R479). Reset none [D1]. -/
  kek : Option Kek := none
  /-- CIPH_ALARM bits 3:0, latched (R485). Reset 0 [S]. -/
  alarms : BitVec 4 := 0
  /-- Alarm inputs asserted now; CIPH_ALARM.LIVE reads whether any is. Reset 0 [S]. -/
  inputs : BitVec 4 := 0
  /-- CIPH_ALARM.ERASED. Reset 0 [S]. -/
  erased : Bool := false
  /-- CIPH_ALARM.COUNT, saturating at 255. Reset 0 [S]. -/
  count : Nat := 0
  /-- PAL_STAT.COMPAT: BLOCKSUSP in force (R478). Reset 0 [S]. -/
  blockSusp : Bool := false
  /-- Contexts saved in the keys client of the pool (R475, R476). Reset none [D1]. -/
  contexts : List Saved := []
  /-- The 8 engines. -/
  engines : List Engine := [{}, {}, {}, {}, {}, {}, {}, {}]
  deriving DecidableEq, Repr

/-- State of a rail, RL_STAT.STATE (R524). -/
inductive RailSt where
  | off | ramping | good | falling | discharging | failed | unused
  deriving DecidableEq, Repr

/-- One of the 48 rails (R486 to R491, R522, R524). -/
structure Rail where
  /-- RL_CFG.STEP. Reset 0 [S]. -/
  step : Nat := 0
  /-- RL_CFG.DSTEP. Reset 0 [S]. -/
  dstep : Nat := 0
  /-- RL_CFG.PGUSED. Reset 1 [S]. -/
  pgUsed : Bool := true
  /-- RL_CFG.NOM_MV. Reset 0 [S]. -/
  nomMv : Nat := 0
  /-- RL_CFG.PMBPORT: 0 none. Reset 0 [S]. -/
  pmbPort : Nat := 0
  /-- RL_MARGIN.ADDR. Reset 0 [S]. -/
  pmbAddr : Nat := 0
  /-- RL_MARGIN.PAGE. Reset 0 [S]. -/
  pmbPage : Nat := 0
  /-- RL_STAT.STATE. Reset 0 off [S]. -/
  st : RailSt := .off
  /-- RL_STAT.EN. Reset 0 [S]. -/
  en : Bool := false
  /-- RL_STAT.PG. Reset 0 [S]. -/
  pg : Bool := false
  /-- RL_STAT.DIS. Reset 0 [S]. -/
  dis : Bool := false
  /-- RL_STAT.WARN. Reset 0 [S]. -/
  warn : Bool := false
  /-- RL_STAT.EARLY. Reset 0 [S]. -/
  early : Bool := false
  /-- RL_STAT.NOFALL. Reset 0 [S]. -/
  noFall : Bool := false
  /-- RL_STAT.NOGOOD. Reset 0 [S]. -/
  noGood : Bool := false
  /-- RL_VOLT.MV. Reset 0 [S]. -/
  mv : Nat := 0
  /-- RL_TIME.T_ON in ms. Reset 20 [S]. -/
  tOn : Nat := 20
  /-- RL_TIME.T_OFF in ms. Reset 20 [S]. -/
  tOff : Nat := 20
  /-- RL_TIME.T_DIS in ms. Reset 20 [S]. -/
  tDis : Nat := 20
  /-- RL_MARGIN.STEP, −20 to +20. Reset 0 [S]. -/
  margin : Int := 0
  /-- RL_EVENTS.FAULTS, saturating. Reset 0 [S]. -/
  faults : Nat := 0
  /-- RL_EVENTS.WARNS, saturating. Reset 0 [S]. -/
  warns : Nat := 0
  /-- Time since which the rail has been outside ±5 % (R489). Reset none [D1]. -/
  outAt : Option Nat := none
  deriving DecidableEq, Repr

/-- A power-log record (R519). -/
structure PlogRec where
  /-- BOOTCNT. -/
  bootcnt : Nat
  /-- DEVTIME. -/
  devtime : Nat
  /-- PSEQ. -/
  pseq : Nat
  /-- KIND. -/
  kind : Nat
  /-- FIRST_RAIL, 0xFF none. -/
  firstRail : Nat := 0xFF
  /-- FIRST_CAUSE, 0xFF none. -/
  firstCause : Nat := 0xFF
  /-- WLSTATE. -/
  wlstate : Nat
  /-- PARTS. -/
  parts : Nat
  /-- STUCK. -/
  stuck : Nat
  /-- FLAGS. -/
  flags : Nat := 0
  /-- DIRTY. -/
  dirty : Nat := 0
  /-- DRAIN_NS. -/
  drainNs : Nat := 0
  /-- RAIL_MV. -/
  railMv : List Nat := []
  /-- RAIL_ST. -/
  railSt : List Nat := []
  /-- CIS_MV. -/
  cisMv : Nat := 0
  /-- CIS_CAP in mF. -/
  cisCap : Nat := 0
  /-- CIS_ESR in µΩ. -/
  cisEsr : Nat := 0
  /-- EMEAS in J. -/
  emeas : Nat := 0
  /-- VIN_MV. -/
  vinMv : Nat := 0
  /-- JTEMP, eight sensors. -/
  jtemp : List (BitVec 16) := []
  deriving DecidableEq, Repr

/-- Cistern measurement steps (R512). -/
inductive CisStep where
  | none
  /-- M2: charger off, settling and V0. -/
  | m2
  /-- M3: test load on, V1 window. -/
  | m3 (v0 : Nat)
  /-- M4: load held, V2 window. -/
  | m4 (v0 v1 : Nat)
  deriving DecidableEq, Repr

/-- A latched power request (R503). -/
inductive PwrLatch where
  | none | on | off
  deriving DecidableEq, Repr

/-- A margin write in progress on PMBus (R517). -/
structure Margin where
  /-- Rail. -/
  rail : Nat
  /-- Step. -/
  step : Int
  /-- Command number; none for the return to step 0 of R518. -/
  cmd : Option Nat
  /-- Phase: 0 PAGE written, 1 VOUT_MODE asked, 2 VOUT_COMMAND written, 3 waiting for good. -/
  phase : Nat
  deriving DecidableEq, Repr

/-- The power controller, windlass line and cistern (R486 to R524). -/
structure Power where
  /-- The rails by number; an unlisted one is at its reset values. -/
  rails : List (Nat × Rail) := []
  /-- PWR_STAT.WLSTATE (R492). Reset 0 [S]. -/
  wl : Nat := 0
  /-- PWR_STAT.WLDIR (R494). Reset 0 [S]. -/
  wlDir : Bool := false
  /-- PWR_STAT.WLLINE, present level of WINDLASS. Reset 1 [S]. -/
  line : Bool := true
  /-- True while the controller holds the line low (R493, R494). Reset false, released (R663) [S]. -/
  hold : Bool := false
  /-- PWR_STAT.ABANDON (R497). Reset 0 [S]. -/
  abandon : Bool := false
  /-- PWR_STAT.PWRFAIL (R507). Reset 0 [S]. -/
  pwrFail : Bool := false
  /-- PWR_STAT.PARTS (R500). Reset 0 [S]. -/
  parts : Nat := 0
  /-- PWR_STAT.STUCK (R501). Reset 0x1F [S]. -/
  stuck : Nat := 0x1F
  /-- PWR_STAT.LATCH (R503). Reset 0 [S]. -/
  latch : PwrLatch := .none
  /-- PWR_STAT.OFFSET: OFF-settled (R503). Reset 0 [S]. -/
  offSettled : Bool := false
  /-- Level of PWR_EN (R502). Reset low [D1]. -/
  pwrEn : Bool := false
  /-- Windlass step under way: the state it leads to and whether upward. Reset none [D1]. -/
  stepTo : Option (Nat × Bool) := none
  /-- True once the controller carries out its part of that step (R493). Reset false [D1]. -/
  acting : Bool := false
  /-- True while the sequence under way goes down to OFF after the present step (R503). Reset false [D1]. -/
  goingDown : Bool := false
  /-- True while the controller sequences without the line, in state 15 (R497, R498). Reset false [D1]. -/
  solo : Bool := false
  /-- In state 15: the step whose rails fall, counting down (R497), or rise (R498). Reset 0 [D1]. -/
  soloStep : Nat := 0
  /-- In state 15: true while powering up without the line (R498). Reset false [D1]. -/
  soloUp : Bool := false
  /-- Time of the latest rail fall (R503). Reset 0 [D1]. -/
  lastFall : Nat := 0
  /-- True while the cascade train is awaited (R500). Reset false [D1]. -/
  cascading : Bool := false
  /-- True while the roll call is awaited (R501). Reset false [D1]. -/
  rollCall : Bool := false
  /-- First failing rail of the sequence (R504, R505, R519). Reset 0xFF [D1]. -/
  firstRail : Nat := 0xFF
  /-- First failure cause. Reset 0xFF [D1]. -/
  firstCause : Nat := 0xFF
  /-- True when a discharge output was used in the sequence (R519). Reset false [D1]. -/
  usedDis : Bool := false
  /-- DIRTY and DRAIN_NS of the present drain (R519). Reset 0, 0 [D1]. -/
  drainInfo : Nat × Nat := (0, 0)
  /-- The power log, newest first (R519). Reset empty flash [D1]. -/
  plog : List PlogRec := []
  /-- Next PSEQ (R519). Reset 0 [D1]. -/
  pseq : Nat := 0
  /-- PLOG_SEL.BACK. Reset 0 [S]. -/
  plogBack : Nat := 0
  /-- PLOG_SEL.DWORD. Reset 0 [S]. -/
  plogWord : Nat := 0
  /-- CIS_STAT.VOLT_MV: mean of the latest 1,000 samples (R514). Reset 0 [S]. -/
  cisMv : Nat := 0
  /-- CIS_STAT.STATE: 0 unmeasured, 1 charging, 2 accepted, 4 failed; 3 while measuring. Reset 0 [S]. -/
  cisSt : Nat := 0
  /-- CIS_STAT.CHGEN (R511). Reset 0 [S]. -/
  chgEn : Bool := false
  /-- CIS_STAT.TESTEN (R512). Reset 0 [S]. -/
  testEn : Bool := false
  /-- Time the charger was enabled (R513). Reset none [D1]. -/
  chgAt : Option Nat := none
  /-- Measurement in progress (R512). Reset none [D1]. -/
  cisStep : CisStep := .none
  /-- CISTERN_TEST in progress, by command number (R516). Reset none [D1]. -/
  cisCmd : Option Nat := none
  /-- C of the latest accepted measurement in mF; CIS_CAP (R513). Reset 0 [S]. -/
  cap : Nat := 0
  /-- ESR of the latest accepted measurement in µΩ; CIS_ESR. Reset 0 [S]. -/
  esr : Nat := 0
  /-- Time of the latest accepted measurement; CIS_ENERGY.AGE_MIN. Reset none, 0xFF [S]. -/
  measAt : Option Nat := none
  /-- True once the measurement at 0.98 × V_CHG has fallen due since priming (R515). Reset false [D1]. -/
  firstDue : Bool := false
  /-- True while a measurement stands postponed by 60 s (R515). Reset false [D1]. -/
  postponed : Bool := false
  /-- CIS_ENERGY.EMEAS_J of the latest evaluation. Reset 0 [S]. -/
  emeas : Nat := 0
  /-- Main input voltage, mV (R507). Reset 0 [D1]. -/
  vinMv : Nat := 0
  /-- WL_TIMEOUT in ms (R522). Default 200 [S]. -/
  wlTimeout : Nat := 200
  /-- VIN_FAIL in mV (R522). Default 40,000 [S]. -/
  vinFail : Nat := 40000
  /-- V_CHG in mV (R522). Default 48,000 [S]. -/
  vChg : Nat := 48000
  /-- V_MIN in mV (R522). Default 24,000 [S]. -/
  vMin : Nat := 24000
  /-- C_NOM in mF (R522). Default 10,000 [S]. -/
  cNom : Nat := 10000
  /-- ESR_MAX in µΩ (R522). Default 50,000 [S]. -/
  esrMax : Nat := 50000
  /-- R_TEST in µΩ (R522). Default 1,200,000 [S]. -/
  rTest : Nat := 1200000
  /-- T_TEST in ms (R522). Default 100 [S]. -/
  tTest : Nat := 100
  /-- Margins being set (R517). Reset none [D1]. -/
  margins : List Margin := []
  /-- Junction temperatures of the eight sensors, 0.125 °C (R519). Reset 0 [D1]. -/
  jtemp : List (BitVec 16) := List.replicate 8 0
  deriving DecidableEq, Repr

end Sys2Proof.Machine
end

