-- ==== Sys2Proof/Machine/StateNet.lean ====
section
/-! DEFINITION. The parts of State that the twin, transport and remote-access chapters give:
roles, epoch, input log, witness, resync, twin ports, network ports, connections and grants. -/

namespace Sys2Proof.Machine

open Sys2Proof

/-- TWIN_ROLE.ROLE (R241, R298); `priming` before the handshake decides. -/
inductive Role where
  | priming | active | standby | solo | fenced
  deriving DecidableEq, Repr

/-- An entry of the input log with its LSN. -/
structure Logged where
  /-- LSN (R254). -/
  lsn : Lsn
  /-- The entry. -/
  entry : LogEntry
  deriving DecidableEq, Repr

/-- A data-lane twin frame's content, for the replay buffer (R251). -/
inductive TwinData where
  | log (e : Logged)
  | fetchReq (ns off : Nat) (lsn : Lsn) (ftag : Nat)
  | fetchResp (ftag : Nat) (mask : BitVec 4) (data : Bytes)
  | mailbox (entry : Bytes)
  | resyncReq (full : Bool) (tiles : List Nat)
  deriving DecidableEq, Repr

/-- A twin port (R246 to R252, R298). -/
structure TwinPort where
  /-- TP_LINK.STATE: 0 down, 1 training, 2 in service, 3 out of service. Reset 0 [S]. -/
  st : Nat := 0
  /-- TP_LINK.RETRAINS, saturating at 255. Reset 0 [S]. -/
  retrains : Nat := 0
  /-- TP_ERR.FECCOR, thousands, saturating (R248). Reset 0 [S]. -/
  fecCor : Nat := 0
  /-- TP_ERR.REPLAYS, saturating. Reset 0 [S]. -/
  replays : Nat := 0
  /-- TP_STALL.CSTALL, saturating (R261). Reset 0 [S]. -/
  cstall : Nat := 0
  /-- TP_STALL.STALE, saturating (R243). Reset 0 [S]. -/
  stale : Nat := 0
  /-- Time of the port's latest stale event (R243). Reset none [D1]. -/
  staleAt : Option Nat := none
  /-- LSEQ of the next data frame sent (R251). Reset 0 [D1]. -/
  txSeq : BitVec 16 := 0
  /-- Data frames sent and not acknowledged, oldest first: LSEQ, epoch and content (R251). Reset empty [D1]. -/
  txBuf : List (BitVec 16 × Epoch × TwinData) := []
  /-- Time the acknowledgement last advanced (R251, R252). Reset 0 [D1]. -/
  ackAt : Nat := 0
  /-- LSEQ expected from the peer (R251). Reset 0 [D1]. -/
  rxExp : BitVec 16 := 0
  /-- True while a link NAK of the controller is outstanding (R152 by R251). Reset false [D1]. -/
  rxNak : Bool := false
  /-- Data frames accepted and not yet acknowledged (R153 by R251). Reset 0 [D1]. -/
  rxUnacked : Nat := 0
  /-- Bytes of the port's frame stream that do not yet fill a 320-byte piece (R246). Reset empty [D1]. -/
  lane : Bytes := []
  /-- Pieces sent since the port trained: piece i goes on lane i mod 4 (R246). Reset 0 [D1]. -/
  pieces : Nat := 0
  /-- True while an APPLY_ACK is pending, until the port is in service (R235). Reset false [D1]. -/
  ackDue : Bool := false
  deriving DecidableEq, Repr

/-- What a HEARTBEAT of the peer reported (heartbeat frame of R249). -/
structure PeerBeat where
  /-- ROLE byte. -/
  role : Nat
  /-- HEALTH byte. -/
  health : Nat
  /-- WIT byte. -/
  wit : Nat
  /-- APPLIED. -/
  applied : Lsn
  /-- Epoch of the frame. -/
  epoch : Epoch
  /-- Arrival time, ns. -/
  time : Nat
  deriving DecidableEq, Repr

/-- A witness request outstanding (R278). -/
structure WitReq where
  /-- WTYPE: 1 RENEW, 2 TAKE, 3 SOLO, 4 QUERY. -/
  wtype : Nat
  /-- WSEQ. -/
  wseq : BitVec 32
  /-- Epoch sent. -/
  epoch : Epoch
  /-- Time of the first transmission. -/
  sentAt : Nat
  deriving DecidableEq, Repr

/-- The takeover sequence (R283). -/
inductive TakeStep where
  | none
  /-- K1 with RELINQUISH's LAST; `swap` for a planned swap. -/
  | k1 (last : Lsn) (swap : Bool)
  /-- Waiting for K3 after K2, on the RELINQUISH path or the witness path. -/
  | wait (witness : Bool)
  deriving DecidableEq, Repr

/-- The planned role swap on the relinquishing side (R287, R288). -/
inductive SwapStep where
  | none | s1 (cmd : Nat) (since : Nat) | s2 (cmd : Nat)
  deriving DecidableEq, Repr

/-- A held peer fetch, to be answered once the log has been applied to `lsn` (R121). -/
structure HeldFetch where
  /-- The model's own number. -/
  id : Nat
  /-- FTAG of the request. -/
  ftag : Nat
  /-- Port it arrived on. -/
  port : Nat
  /-- Namespace. -/
  ns : Nat
  /-- Codeword offset in the namespace. -/
  off : Nat
  /-- LSN to be applied first. -/
  lsn : Lsn
  /-- True once its media read has been started. -/
  reading : Bool := false
  deriving DecidableEq, Repr

/-- A peer fetch sent and not answered (R121). -/
structure SentFetch where
  /-- FTAG. -/
  ftag : Nat
  /-- Group, row and position of the sector it is for; for a scrub rewrite the whole row. -/
  grp : Nat
  /-- Group row. -/
  grow : Nat
  /-- Position. -/
  pos : Nat
  /-- Row operation of a scrub rewrite (R129), 0 for a chain. -/
  rowOp : Nat := 0
  /-- Namespace. -/
  ns : Nat
  /-- Codeword offset. -/
  off : Nat
  /-- Send time. -/
  time : Nat
  /-- A word of the durable domain that this fetch replaces: true with the line, 0 to 3 or 4 for all, of a dirty
  overflow entry (R572), false with the number of a sump line (R610). -/
  repair : Option (Bool × Nat) := none
  deriving DecidableEq, Repr

/-- The handshake of priming step 12 (R541 to R550). -/
structure HandshakeSt where
  /-- True while step 12 runs. Reset false [D1]. -/
  running : Bool := false
  /-- HELLO of the peer, once received. Reset none [D1]. -/
  peer : Option HsBody := none
  /-- DECIDE of the peer, once received. Reset none [D1]. -/
  decide : Option HsBody := none
  /-- Role the controller has decided and proposed in its DECIDE, with its epoch. Reset none [D1]. -/
  mine : Option (Role × Epoch) := none
  /-- True between a disagreeing DECIDE and the HELLO that follows 10 ms later (R543). Reset false [D1]. -/
  hold : Bool := false
  /-- Time the handshake began. Reset 0 [D1]. -/
  since : Nat := 0
  deriving DecidableEq, Repr

/-- The twin engine. -/
structure Twin where
  /-- TWIN_ROLE.ROLE (R241, R298). Reset 0 priming [S]. -/
  role : Role := .priming
  /-- TWIN_EPOCH.EPOCH (R242). Reset 0 [S]. -/
  epoch : Epoch := 0
  /-- TWIN_ROLE.TWIN, this controller's twin number (R298). Reset 0 [S]. -/
  num : Nat := 0
  /-- TWIN_ROLE.FCAUSE (R298). Reset 0 [S]. -/
  fcause : Nat := 0
  /-- Pair identifier of the configuration (R247, R273). Reset 0 [D1]. -/
  pair : BitVec 64 := 0
  /-- TWIN_SENT.LSN: highest LSN logged, or received in order (R298). Reset 0 [S]. -/
  sent : Lsn := 0
  /-- TWIN_APPLIED.LSN: highest reported by the peer, or applied here (R298). Reset 0 [S]. -/
  applied : Lsn := 0
  /-- Entries logged and not acknowledged as applied, in LSN order (R256, R259). Reset empty [D1]. -/
  unacked : List Logged := []
  /-- Entries logged that wait for twin credit, in LSN order (R261). Reset empty [D1]. -/
  waiting : List Logged := []
  /-- Data frames that wait for room in a replay buffer, oldest first (R154 by R251, R252). Reset empty [D1]. -/
  dataWait : List TwinData := []
  /-- Entries received by the standby and not applied, in LSN order (R258). Reset empty [D1]. -/
  rx : List Logged := []
  /-- Entries applied since the latest APPLY_ACK (R260). Reset 0 [D1]. -/
  ackCount : Nat := 0
  /-- Cumulative twin credit units that the peer granted (R261). Reset 0 [D1]. -/
  creditIn : BitVec 32 := 0
  /-- Cumulative twin credit units used (R261). Reset 0 [D1]. -/
  creditUsed : BitVec 32 := 0
  /-- Cumulative twin credit units granted to the peer (R261). Reset 0 [D1]. -/
  creditOut : BitVec 32 := 0
  /-- Cumulative units of the entries received from the peer (R261). Reset 0 [D1]. -/
  creditRcv : BitVec 32 := 0
  /-- True while the peer has no unit of credit open, for want of free lines (R210, R223). Reset false [D1]. -/
  creditShort : Bool := false
  /-- TWIN_CREDIT (R261). Default 8,192 [S]. -/
  twinCredit : Nat := 8192
  /-- RESYNC_SHARE in percent (R293). Default 20 [S]. -/
  resyncShare : Nat := 20
  /-- UE_STORM per 100 ms (R268). Default 1,024 [S]. -/
  ueStorm : Nat := 1024
  /-- HS_WAIT in s, in force (R548). Default 30 [S]. -/
  hsWait : Nat := 30
  /-- HS_WAIT set, taking effect at the next priming. Reset 30 [S]. -/
  hsWaitNext : Nat := 30
  /-- Times of the uncorrectable sectors of the last 100 ms (R268). Reset none [D1]. -/
  ueTimes : List Nat := []
  /-- The rolling digest (R266). Reset all ones, its initial value [S]. -/
  digest : BitVec 64 := BitVec.allOnes 64
  /-- LSN and value of the digests kept for comparison, newest first (R267). Reset none [D1]. -/
  digests : List (Lsn × BitVec 64) := []
  /-- LSN of the active's latest DIGEST while no matching answer has come (R267). Reset none [D1]. -/
  digestAt : Option Lsn := none
  /-- A DIGEST of the active that waits for the standby to reach its LSN. Reset none [D1]. -/
  digestAsk : Option (Lsn × BitVec 64) := none
  /-- Consecutive intervals without a matching answer (R267). Reset 0 [D1]. -/
  digestMiss : Nat := 0
  /-- Time of the latest matching digest; TWIN_DIGEST.AGE_MS and TWIN_ROLE.INSTEP read it. Reset none, AGE 0xFF [S]. -/
  matchAt : Option Nat := none
  /-- LSN of the latest matching digest (R290). Reset 0 [D1]. -/
  matchLsn : Lsn := 0
  /-- TWIN_DIGEST.MISMATCH, saturating. Reset 0 [S]. -/
  mismatches : Nat := 0
  /-- Time of the latest frame of the current epoch from the peer (R265); TWIN_ROLE.PEERHB reads it. Reset none [S]. -/
  heardAt : Option Nat := none
  /-- Latest HEARTBEAT of the peer (R268, R279). Reset none [D1]. -/
  beat : Option PeerBeat := none
  /-- HEARTBEAT.HEALTH the controller reports (R269). Reset 0 [D1]. -/
  health : Nat := 0
  /-- Cause of the RELINQUISH the controller has sent and repeats (R270). Reset none [D1]. -/
  relinquished : Option Nat := none
  /-- LAST of that RELINQUISH. Reset 0 [D1]. -/
  relLast : Lsn := 0
  /-- Epoch in which event 640 + 8t + 3 was raised (R270). Reset none [D1]. -/
  relEvent : Option Epoch := none
  /-- True while host transmitters are enabled (R244, R283). Reset false [D1]. -/
  hostTx : Bool := false
  /-- The takeover in progress (R283). Reset none [D1]. -/
  take : TakeStep := .none
  /-- True when the takeover came by FORCE_TAKEOVER, with the command's number. Reset none [D1]. -/
  takeCmd : Option Nat := none
  /-- The planned swap in progress on this side (R287). Reset none [D1]. -/
  swap : SwapStep := .none
  /-- Unfenced ACTIVE with a silent peer that withholds durable acknowledgements until SOLO is granted (R281). Reset false [D1]. -/
  askSolo : Bool := false
  /-- True while the peer has been silent for 5 ms (R265). Reset false [D1]. -/
  silent : Bool := false
  /-- TWIN_ROLE.WITCFG and the witness parameters (R273). Reset none [S]. -/
  witness : Option WitnessParams := none
  /-- Witness requests outstanding; TWIN_WITNESS.PENDING reads it (R278). Reset none [S]. -/
  witReqs : List WitReq := []
  /-- Next WSEQ (R274). Reset 0 [D1]. -/
  wseq : BitVec 32 := 0
  /-- End of the lease, ns; TWIN_ROLE.LEASE and LEFT_MS read it (R278). Reset none [S]. -/
  leaseEnd : Option Nat := none
  /-- First transmission of the first RENEW since SET_WITNESS and priming (R279). Reset none [D1]. -/
  firstRenew : Option Nat := none
  /-- TWIN_WITNESS.FAILS, saturating. Reset 0 [S]. -/
  witFails : Nat := 0
  /-- A request to repeat, with the result that put it off: 2 at the resend interval, 3 once a RENEW is granted, 4
  after 1 s (R280, R281). Reset none [D1]. -/
  witRetry : Option (Nat × Nat) := none
  /-- Time of the latest unknown-pair event (R280). Reset none [D1]. -/
  witUnknownAt : Option Nat := none
  /-- TWIN_ROLE.RESYNC (R292, R298). Reset 0 [S]. -/
  resync : Bool := false
  /-- TWIN_RESYNC.FULL (R298). Reset 0 [S]. -/
  resyncFull : Bool := false
  /-- The written-since-split bitmap: indices of the set bits, ascending, or of the clear bits while `bitmapAll`;
  TWIN_RESYNC.TILES counts the set bits (R289). Reset none [S]. -/
  bitmap : List Nat := []
  /-- True once RESYNC_REQ with FULL has set every bit (R292). Reset false [D1]. -/
  bitmapAll : Bool := false
  /-- The walk of a resync: next tile index and next 4 KiB piece (R293). Reset none [D1]. -/
  walk : Option (Nat × Nat) := none
  /-- FROM of the resync, as survivor or once held as returner (R293). Reset none [D1]. -/
  resyncFrom : Option Lsn := none
  /-- True once an APPLY_ACK covers FROM (R293). Reset false [D1]. -/
  resyncLive : Bool := false
  /-- Tile and the LSN of its last RESYNC entry, until acknowledged (R294). Reset none [D1]. -/
  tileLsn : List (Nat × Lsn) := []
  /-- Tenths of the walk whose event was raised. Reset 0 [D1]. -/
  walkTenths : Nat := 0
  /-- Tiles of the drain journal, sent in RESYNC_REQ (R54, R292). Reset none [D1]. -/
  journalTiles : List Nat := []
  /-- LSN and tile of what entries wrote since the latest matching digest (R290). Reset none [D1]. -/
  tilesSince : List (Lsn × Nat) := []
  /-- Undrained-data count recorded in flash (R237). Reset 0 [D1]. -/
  undrained : Nat := 0
  /-- Peer fetches held for their LSN (R121). Reset none [D1]. -/
  heldFetches : List HeldFetch := []
  /-- Peer fetches sent and not answered (R121). Reset none [D1]. -/
  sentFetches : List SentFetch := []
  /-- Next FTAG. Reset 0 [D1]. -/
  ftag : Nat := 0
  /-- Drawer checks due: drawer and due time (R266, R687). Reset none [D1]. -/
  checks : List (Nat × Nat) := []
  /-- The handshake (R541). -/
  hs : HandshakeSt := {}
  deriving DecidableEq, Repr

/-- One sub-port of a network port (R299, R301). -/
structure SubPort where
  /-- Link up, NP_LINK.UP bit (R352). Reset 0 [S]. -/
  up : Bool := false
  /-- NP_LINK.FECDEG bit (R352). Reset 0 [S]. -/
  fecDeg : Bool := false
  /-- VLAN parameter; 0 untagged. Default 0 [S]. -/
  vlan : Nat := 0
  /-- PCP parameter. Default 3 [S]. -/
  pcp : Nat := 3
  /-- Service MAC address; 0 none (R301). Reset 0 [D1]. -/
  mac : Nat := 0
  /-- IPv4 service address; 0 none. Reset 0 [D1]. -/
  ip4 : Nat := 0
  /-- IPv6 service address; 0 none. Reset 0 [D1]. -/
  ip6 : Nat := 0
  /-- Times of the echo replies of the last second (R301). Reset none [D1]. -/
  echoes : List Nat := []
  deriving DecidableEq, Repr

/-- One of the 8 network ports (R299, R352). -/
structure NetPort where
  /-- NP_LINK.MODE. Reset 0 [S]. -/
  mode : Nat := 0
  /-- The sub-ports 0–3. -/
  subs : List SubPort := [{}, {}, {}, {}]
  /-- NP_LINK.FLAPS, saturating at 255. Reset 0 [S]. -/
  flaps : Nat := 0
  /-- NP_RXDROP.FRAME, saturating. Reset 0 [S]. -/
  dropFrame : Nat := 0
  /-- NP_RXDROP.AUTH, saturating. Reset 0 [S]. -/
  dropAuth : Nat := 0
  /-- NP_SEQ.NAKSEQ, saturating. Reset 0 [S]. -/
  nakSeq : Nat := 0
  /-- NP_SEQ.RETX, saturating. Reset 0 [S]. -/
  retx : Nat := 0
  /-- NP_CONN.ERRORS, saturating at 32,767. Reset 0 [S]. -/
  errors : Nat := 0
  /-- Times of CE-marked packets of the last ms; NP_FLOW.CE counts them. Reset none [S]. -/
  ceTimes : List Nat := []
  /-- Times of the latest rate-limited events k = 2, 3, 4 of the port (R334, R341, R344). Reset none [D1]. -/
  evAt : List (Nat × Nat) := []
  /-- Map of the connections with control work pending: an ACK that waits for the link of its path (R235). Reset none [D1]. -/
  ctlPend : List Nat := []
  deriving DecidableEq, Repr

/-- A path of a connection (R335). -/
structure Path where
  /-- PATH index 0–7. -/
  q : Nat
  /-- Controller port. -/
  port : Nat
  /-- Controller sub-port. -/
  sub : Nat
  /-- True for IPv6 (R302). -/
  v6 : Bool
  /-- Host IP address. -/
  hostAddr : Nat
  /-- Host UDP source port. -/
  hostUdp : Nat
  /-- Controller service address. -/
  svcAddr : Nat
  /-- Time of the latest authenticated packet. -/
  last : Nat
  /-- READ_RESP rate in Mb/s (R347); none is the sub-port's own rate. -/
  rate : Option Nat := none
  /-- Time of the latest halving (R347). -/
  halvedAt : Option Nat := none
  /-- Time before which its rate holds it back (R336, R347). -/
  nextAt : Nat := 0
  /-- True while the path has delivered a packet within the last 1 ms (R335). -/
  live : Bool := true
  deriving DecidableEq, Repr

/-- Where an admitted message stands. -/
inductive MsgState where
  /-- Some of its packets are missing. -/
  | incomplete
  /-- Complete; its visibility step has not run. -/
  | complete
  /-- Past its visibility step, not yet at its varnish point. -/
  | visible
  deriving DecidableEq, Repr

/-- A message in reassembly or awaiting an outcome (R324 to R334, R365). -/
structure Msg where
  /-- Message ID. -/
  id : MsgId
  /-- Opcode. -/
  op : NetOp
  /-- AKEY of its first arriving packet (R326). -/
  akey : BitVec 32
  /-- RADDR of its first arriving packet. -/
  raddr : Nat
  /-- MLEN once the packet with LAST has arrived. -/
  mlen : Option Nat := none
  /-- Placed byte ranges: offset and length (R325). -/
  ranges : List (Nat × Nat) := []
  /-- Port of its first arriving packet. -/
  port : Nat := 0
  /-- Arrival time of its first packet (R34). -/
  firstAt : Nat := 0
  /-- Namespace. -/
  ns : Nat := 0
  /-- Grant slot and the range recorded at admission; none for a FLUSH (R366). -/
  grant : Option (Nat × Nat × Nat) := none
  /-- Drawers on which it holds references (R367). -/
  span : List Nat := []
  /-- Where it stands. -/
  st : MsgState := .incomplete
  /-- LSNs of the entries that carry it (R259). -/
  lsns : List Lsn := []
  /-- PSN of its latest packet placed. -/
  psn : Psn := 0
  /-- RLEN of a read. -/
  rlen : Nat := 0
  /-- The 16-byte operand of an atomic. -/
  operand : Bytes := []
  /-- The 64-byte line of an atomic, once held, and its poison (R47). -/
  line : Option (Bytes × Bool) := none
  /-- OLD of an executed atomic (R47). -/
  old : Bytes := []
  /-- True when the atomic's line was poisoned (R376). -/
  poison : Bool := false
  /-- True when the read passed the watermark and gathers (R38, R371). -/
  released : Bool := false
  /-- Number of its gather, 0 for none. -/
  gather : Nat := 0
  /-- True past its varnish point, while its durable acknowledgement is withheld (R60, R281). -/
  varnished : Bool := false
  deriving DecidableEq, Repr

/-- A NAK kept for repetition (R330). -/
structure NakRec where
  /-- Message ID. -/
  msg : MsgId
  /-- NAK code. -/
  code : Nat
  /-- Sub-code. -/
  sub : Nat
  /-- DETAIL. -/
  detail : BitVec 32
  /-- HINT in µs. -/
  hint : Nat
  /-- Time it was last sent (R320). -/
  time : Nat
  deriving DecidableEq, Repr

/-- The Vorwiri header (R305). -/
structure Hdr where
  /-- KG: key generation modulo 16. -/
  kg : Nat
  /-- OPCODE. -/
  opcode : Nat
  /-- FIRST. -/
  first : Bool
  /-- LAST. -/
  last : Bool
  /-- DURABLE. -/
  durable : Bool
  /-- RETX. -/
  retx : Bool
  /-- PATH. -/
  path : Nat
  /-- EPL. -/
  epl : BitVec 5
  /-- CONN. -/
  conn : Nat
  /-- PSN, or the CSN of a control packet. -/
  psn : Psn
  /-- MSG_ID. -/
  msgId : MsgId
  /-- MSG_OFF. -/
  msgOff : Nat
  /-- PLEN. -/
  plen : Nat
  /-- AKEY. -/
  akey : BitVec 32
  /-- RADDR. -/
  raddr : Nat
  /-- CLIMIT. -/
  climit : BitVec 32
  deriving DecidableEq, Repr

/-- A sequenced packet of the controller not yet settled (R318, R342). -/
structure TxPkt where
  /-- PSN. -/
  psn : Psn
  /-- True for WITNESS, false for READ_RESP. -/
  wit : Bool
  /-- Message. -/
  msg : MsgId
  /-- MSG_OFF. -/
  off : Nat
  /-- FIRST. -/
  first : Bool
  /-- LAST. -/
  last : Bool
  /-- RADDR. -/
  raddr : Nat
  /-- Payload. -/
  data : Bytes
  /-- Path that the original took (R336). -/
  path : Nat
  /-- Header and UDP payload as first sent (R313). -/
  sent : Option (Hdr × Bytes) := none
  /-- Retransmissions so far (R342, R344). -/
  retries : Nat := 0
  /-- Retransmission timer in ns (R342). -/
  timer : Nat := 20000
  /-- Time it was last sent. -/
  time : Nat := 0
  deriving DecidableEq, Repr

/-- A connection (R353 to R358, R317 to R347). -/
structure Conn where
  /-- State (R356). -/
  st : ConnState := .closed
  /-- CLASS. -/
  cls : Nat := 0
  /-- Nonce salt. -/
  salt : BitVec 32 := 0
  /-- HPSN0. -/
  hpsn0 : Psn := 0
  /-- CPSN0. -/
  cpsn0 : Psn := 0
  /-- RETRY_MAX. -/
  retryMax : Nat := 10
  /-- CREDIT_WIN. -/
  creditWin : Nat := 64
  /-- True for the witness connection (R273). -/
  wit : Bool := false
  /-- Installed generations: number, key, and this twin's and the peer's blob (R314, R364). -/
  keys : List (Nat × ConnKey × Blob × Blob) := []
  /-- Generation the controller sends under (R314). -/
  gen : Nat := 0
  /-- Generation to be discarded 100 ms after the change (R314). -/
  oldGen : Option Nat := none
  /-- Sender PSN, CSN and epoch when the present generation was installed (R315). -/
  genStart : Psn × Psn × Epoch := (0, 0, 0)
  /-- CSN of the host when the present generation was installed, and its PSN (R315). -/
  genStartRx : Psn × Psn := (0, 0)
  /-- Visibility watermark (R30). -/
  wmark : MsgId := 0
  /-- Durable watermark (R309). -/
  dwmark : MsgId := 0
  /-- DROPCNT. -/
  dropcnt : BitVec 32 := 0
  /-- Dropped or refused IDs kept for R331: those within 2,048 of the watermark and above it. -/
  dropped : List MsgId := []
  /-- NAKs kept for repetition (R330). -/
  naks : List NakRec := []
  /-- Outcomes of the 16 latest atomics, newest first (R331). -/
  atomics : List AtomicOut := []
  /-- FLUSH messages answered whose answer can be repeated (R320, R331), with the message ID of a NAK_POISON. -/
  flushed : List (MsgId × Option MsgId) := []
  /-- WRITE_DURABLE messages answered whose answer can be repeated (R320). -/
  durables : List MsgId := []
  /-- Times at which a message's answer was last sent again (R320). -/
  resent : List (MsgId × Nat) := []
  /-- CECNT (R345). -/
  cecnt : BitVec 32 := 0
  /-- CUMPSN: every PSN at or below is settled (R316). -/
  cumPsn : Psn := 0
  /-- Settled PSNs above CUMPSN (R319). -/
  settled : List Psn := []
  /-- Settled packets that no ACK has reported (R320). -/
  ackOwed : Nat := 0
  /-- Highest CSN processed in the epoch (R321). -/
  rxCsn : Option Psn := none
  /-- CSNs processed within 256 of the highest (R321). -/
  rxCsns : List Psn := []
  /-- Next PSN of the controller. -/
  txPsn : Psn := 0
  /-- Next CSN of the controller. -/
  txCsn : Psn := 0
  /-- Host's CUMPSN with the highest CSN (R318). -/
  peerCum : Psn := 0
  /-- Sequenced packets sent and not settled, oldest first (R318). -/
  txBuf : List TxPkt := []
  /-- Sequenced packets waiting for credit or window, oldest first (R318, R337). -/
  txWait : List TxPkt := []
  /-- Host's CLIMIT in force (R337, R688). -/
  hostLimit : BitVec 32 := 0
  /-- Units of host credit used (R337). -/
  hostUsed : BitVec 32 := 0
  /-- Time the connection began to wait for host credit (R341). -/
  creditWait : Option Nat := none
  /-- CLIMIT granted to the host (R338). -/
  limit : BitVec 32 := 0
  /-- Highest CLIMIT ever granted in the epoch, still honoured until the host has seen a lower one (R339, R341). -/
  limitMax : BitVec 32 := 0
  /-- Units received from the host (R337). -/
  received : BitVec 32 := 0
  /-- Host's CUSED in its latest ACK (R339). -/
  cused : BitVec 32 := 0
  /-- CSN of the control packet that lowered CLIMIT (R339). -/
  lowerCsn : Option Psn := none
  /-- Units for which sump lines stay reserved (R210, R339). -/
  rsvUnits : Nat := 0
  /-- True while units that it is due wait for free lines (R210, R223). -/
  short : Bool := false
  /-- Time of the latest unit consumed or PROBE sent (R338). -/
  usedAt : Nat := 0
  /-- PROBE interval in ns while the controller waits for credit (R340). -/
  probeIval : Nat := 20000
  /-- Paths (R335). -/
  paths : List Path := []
  /-- Path of the latest packet received (R336). -/
  latest : Option Path := none
  /-- Path index READ_RESP used last (R336). -/
  rrPath : Nat := 7
  /-- Messages above the watermark of which a packet has arrived, with the time of the first (R35). -/
  arrived : List (MsgId × Nat) := []
  /-- Messages in progress, ascending ID (R324). -/
  msgs : List Msg := []
  /-- Earliest write whose bytes were discarded under R125 since the last FLUSH answer (R377). -/
  poisonMsg : Option MsgId := none
  /-- Times of the latest NAK_AUTH, NAK_EPOCH and NAK_SEQUENCE (R316). -/
  nakAt : Option Nat × Option Nat × Option Nat := (none, none, none)
  /-- Host CECNT of its latest ACK (R347). -/
  hostCe : BitVec 32 := 0
  /-- TAKEOVER notices still to be repeated (R349). -/
  notices : Nat := 0
  /-- True until a packet under the new epoch is accepted after a takeover (R349). -/
  noticeOn : Bool := false
  /-- Latest RPSN and TPSN of an applied XPORT entry (R285, R364). -/
  xport : Option (Psn × Psn) := none
  /-- Highest PSN of each applied NET_WRITE message, for VPSN (R285). -/
  psnOf : List (MsgId × Psn) := []
  /-- CLOSE_CONNECTION commands that wait for CLOSED (R356). -/
  closers : List Nat := []
  /-- PSN of the host's first packet in the epoch, whose unit is 1 (R337, R688). -/
  unit0 : Psn := 0
  /-- Epoch at which the newest key generation was installed (R315). -/
  keyEpoch : Epoch := 0
  /-- RPSN, TPSN, credit and key generation last logged in an XPORT entry. -/
  logged : Option (Psn × Psn × BitVec 32 × Nat) := none
  deriving DecidableEq, Repr

/-- A grant slot (R359 to R363, R369, R370). -/
structure Grant where
  /-- Generation, 1 at priming (R361). -/
  gen : Nat := 1
  /-- State (R362). -/
  st : GrantState := .free
  /-- Registration parameters, none while FREE. -/
  params : Option GrantParams := none
  /-- Connections of its list still open (R358). -/
  conns : List Nat := []
  /-- In-flight references (R367). -/
  refs : Nat := 0
  /-- Time of the revocation (R370). -/
  revokedAt : Nat := 0
  /-- Time DEAD was reached (R362). -/
  deadAt : Nat := 0
  /-- Commands that end when the grant reaches DEAD: number, and whether it is REGISTER_GRANT ending 0x0418. -/
  waiters : List (Nat × Bool) := []
  /-- REGISTER_GRANT that waits for pinned drawers to be AWAKE (R198). -/
  pinCmd : Option Nat := none
  /-- True while the registration waits for its drawers (R198). -/
  pinWait : Bool := false
  deriving DecidableEq, Repr

/-- A multi-line read in progress: network gather, CXL.mem read or mailbox read (R371, R405, R444). -/
structure Gather where
  /-- The model's own number. -/
  id : Nat
  /-- Connection and message of a READ_REQ; none otherwise. -/
  net : Option (Nat × MsgId) := none
  /-- Command number of a MEM_READ. -/
  cmd : Option Nat := none
  /-- Request tag of a CXL.mem read. -/
  cxl : Option Nat := none
  /-- True for a piece of a resync (R293). -/
  resync : Bool := false
  /-- Namespace. -/
  ns : Nat
  /-- First byte. -/
  off : Nat
  /-- Bytes. -/
  len : Nat
  /-- Codewords fetched from media: index, data, poison mask. -/
  got : List (Nat × Bytes × BitVec 4) := []
  /-- Codewords still being read from media. -/
  needs : List Nat := []
  /-- Gathers run so far (R371). -/
  runs : Nat := 1
  /-- True when a visibility step wrote a line of it since its gather began (R371). -/
  stale : Bool := false
  /-- True when it holds visibility steps back (R371). -/
  holding : Bool := false
  deriving DecidableEq, Repr

/-- Transport-wide configuration and counters. -/
structure Xport where
  /-- Connections by ID; an unlisted one is CLOSED. Reset none (R364) [S]. -/
  conns : List (Nat × Conn) := []
  /-- Grant slots by index; an unlisted one is FREE at generation 1. Reset none (R361, R364) [S]. -/
  grants : List (Nat × Grant) := []
  /-- Reads in progress. Reset none [D1]. -/
  gathers : List Gather := []
  /-- DSCP_DATA. Default 26 [S]. -/
  dscpData : Nat := 26
  /-- DSCP_CTRL. Default 46 [S]. -/
  dscpCtrl : Nat := 46
  /-- ECN_MARK. Default 1 [S]. -/
  ecnMark : Nat := 1
  /-- ECN_REACT. Default 0 [S]. -/
  ecnReact : Nat := 0
  /-- ACK_COUNT. Default 8 [S]. -/
  ackCount : Nat := 8
  /-- ACK_DELAY in ns. Default 1,000 [S]. -/
  ackDelay : Nat := 1000
  /-- REASM_TIMEOUT in ns. Default 10,000,000 [S]. -/
  reasm : Nat := 10000000
  /-- CREDIT_IDLE in ns. Default 1,000,000 [S]. -/
  creditIdle : Nat := 1000000
  /-- XPORT_ADMIT.ACCESS, saturating (R384). Reset 0 [S]. -/
  access : Nat := 0
  /-- XPORT_ADMIT.REVOKED, saturating (R384). Reset 0 [S]. -/
  revoked : Nat := 0
  deriving DecidableEq, Repr

end Sys2Proof.Machine
end

