-- ==== Sys2Proof/Machine/StateMgmt.lean ====
section
/-! DEFINITION. The parts of State that the priming, DRAM, flash, self-test, life-cycle, event and
recorder chapters give, and what the block sends. -/

namespace Sys2Proof.Machine

open Sys2Proof

/-- The resets of R63 that drain the durable domain first. -/
inductive ResetCause where
  | system | watchdog | perst | lifeCycle | fenced
  deriving DecidableEq, Repr

/-- What a drain of the durable domain serves (R63, R64). -/
inductive DrainKind where
  | power | reset (c : ResetCause) | orderly
  deriving DecidableEq, Repr

/-- A reset or power-loss drain in progress (R63, R64, R507 F4, R494 step toward 14). -/
structure Drain where
  /-- What it serves. -/
  kind : DrainKind
  /-- Start time. -/
  since : Nat
  /-- Bytes of the durable domain at its start (R519 DIRTY). -/
  dirty : Nat
  /-- Command number of an LC_ADVANCE whose drain it is (R628). -/
  cmd : Option Nat := none
  /-- True once markers and final journal records are on their way to media (R507 F5, R535). -/
  sealed : Bool := false
  deriving DecidableEq, Repr

/-- A drain-journal record (R535), by its group. -/
inductive JRec where
  | drainStart (dirty cause : Nat)
  | intent (grow : Nat) (images : List (Nat × Bytes))
  | tiles (l : List Nat)
  | bitmap (first count : Nat) (l : List Nat)
  | region (l : List Nat)
  | drainEnd (complete : Bool) (remain : Nat)
  deriving DecidableEq, Repr

/-- A group's stop word (R535's section). -/
inductive StopWord where
  | cleanShutdown | cleanPark | awake
  deriving DecidableEq, Repr

/-- What the model keeps of a group's header and journal on media (R535 to R538). -/
structure GroupNv where
  /-- Stop word with its EPOCH, BOOTCNT, JHEAD and JSEQ; none on an unformatted group. Reset none [D1]. -/
  stop : Option (StopWord × Epoch × Nat × Nat × Nat) := none
  /-- Drain-journal records written, newest first, with JSEQ (R535). Reset none [D1]. -/
  journal : List (Nat × JRec) := []
  /-- Next JSEQ (R535). Reset 1 [D1]. -/
  jseq : Nat := 1
  /-- Regions whose bit the newest acknowledged REGION record shows (R536). Reset none [D1]. -/
  regions : List Nat := []
  /-- Regions that wait for a REGION record to show them (R536). Reset none [D1]. -/
  regionWait : List Nat := []
  /-- Byte position in the drain-journal ring of the next record (R77, R535). Reset 0 [D1]. -/
  jpos : Nat := 0
  /-- Bytes of the ring row that the next record continues (R535). Reset empty [D1]. -/
  jbuf : Bytes := []
  /-- Time of each region's latest update in progress (R536). Reset none [D1]. -/
  regionAt : List (Nat × Nat) := []
  /-- Time of the latest REGION record (R536). Reset 0 [D1]. -/
  regionRec : Nat := 0
  /-- Suspect rows not yet settled (R538 to R540). Reset none [D1]. -/
  suspects : List Nat := []
  deriving DecidableEq, Repr

/-- Priming (R525 to R534, R541, R551). -/
structure Prime where
  /-- PRIME_STAT.STEP. Reset 0 [S]. -/
  step : Nat := 0
  /-- PRIME_STAT.WARM. Reset 0 [S]. -/
  warm : Bool := false
  /-- PRIME_STAT.IMAGE and FW_IMG.RUNNING: 0 A, 1 B. Reset 0 [S]. -/
  image : Nat := 0
  /-- Segments that the boot ROM has copied into the TCMs and the scratchpad: target 0 to 8, offset, bytes (R527 step 5, R599).
  Reset none [D1]. -/
  loaded : List (Nat × Nat × Bytes) := []
  /-- Entry addresses of cores 0 to 3 (R599). Reset none [D1]. -/
  entry : List Nat := []
  /-- PRIME_STAT.BOOTFAIL (R530, R617). Reset 0 [S]. -/
  bootFail : Bool := false
  /-- PRIME_STAT.WAITPEER (R547, R550). Reset 0 [S]. -/
  waitPeer : Bool := false
  /-- PRIME_STAT.WITPATH (R548). Reset 0 [S]. -/
  witPath : Bool := false
  /-- PRIME_STAT.DECIDE. Reset 0 [S]. -/
  decide : Nat := 0
  /-- PRIME_STAT.FULL. Reset 0 [S]. -/
  full : Bool := false
  /-- PRIME_TIME.RUN_MS. Reset 0 [S]. -/
  runMs : Nat := 0
  /-- Model time at which step 2 of the latest priming began: DEVTIME is now − primeAt (R23). Reset none, DEVTIME 0 [S]. -/
  primeAt : Option Nat := none
  /-- BOOTCNT (R23, R521, R652). Reset 0 [S]. -/
  bootcnt : BitVec 32 := 0
  /-- Boot counter held in island 99 (R521). Reset 0 [D1]. -/
  bootAon : BitVec 32 := 0
  /-- RECOV_STAT.UNCLEAN. Reset 0 [S]. -/
  unclean : BitVec 16 := 0
  /-- RECOV_STAT.REPLAY. Reset 0 [S]. -/
  replay : BitVec 16 := 0
  /-- Role record in flash (R541). Reset absent [D1]. -/
  roleRec : Option HsBody := none
  /-- Role records written, which tells where the next one goes (log entry 139, DESIGN CHOICE). Reset 0 [D1]. -/
  roleSeq : Nat := 0
  /-- Role record as priming step 10 read it (R527, R541). Reset absent [D1]. -/
  roleRead : Option HsBody := none
  /-- The bitmap persisted under R291. Reset none [D1]. -/
  savedMap : Option (List Nat) := none
  /-- True when the persisted bitmap has every bit set but those listed. Reset false [D1]. -/
  savedAll : Bool := false
  /-- Epoch at which the persisted bitmap began (R542 SPLIT). Reset 0 [D1]. -/
  split : Epoch := 0
  /-- Drawers whose wake of step 11 has not been started (R527). Reset none [D1]. -/
  wakes : List Nat := []
  /-- A reset held during a drain (R63, R415). Reset none [D1]. -/
  heldReset : List ResetCause := []
  /-- True when a host-port reset is held during a drain (R63, R415). Reset false [D1]. -/
  heldHost : Bool := false
  /-- The drain in progress; GSTAT.DRAIN reads it. Reset none [S]. -/
  drain : Option Drain := none
  /-- Warm priming to begin when the line rests at 12 after the drain (R526). Reset false [D1]. -/
  warmDue : Bool := false
  /-- Time of the LC_ADVANCE answer whose 100 ms reset is due (R628). Reset none [D1]. -/
  lcReset : Option Nat := none
  /-- True once standby power is good (R527 step 1). Reset false [D1]. -/
  standby : Bool := false
  /-- True once the life-cycle change must raise event 995 (R633). Reset false [D1]. -/
  lcChanged : Bool := false
  /-- Admission stopped by a drain (R64, R507 F2). Reset false [D1]. -/
  noAdmit : Bool := false
  deriving DecidableEq, Repr

/-- One of the 32 DRAM channels (R552 to R576). -/
structure DrChan where
  /-- DR_STATE.STATE: 0 held, 1 active, 2 self-refresh, 3 unusable. Reset 0 [S]. -/
  st : Nat := 0
  /-- DR_STATE.REFMULT, M of each rank: 1, 2 or 4 (R563). Reset 1, field 0 [S]. -/
  mult : List Nat := [1, 1]
  /-- DR_STATE.HOT: rank above its operating limit (R564). Reset 0 [S]. -/
  hot : List Bool := [false, false]
  /-- MR4 temperature reading of each rank at its last ZQ calibration (R562). Reset 0 [D1]. -/
  zqTemp : List Nat := [0, 0]
  /-- MR4 temperature reading of each rank (R562). Reset 0 [D1]. -/
  mr4 : List Nat := [0, 0]
  /-- Retired rows: rank, bank, row; DR_STATE.RETIRED counts them (R569). Reset none [S]. -/
  retired : List (Nat × Nat × Nat) := []
  /-- DR_DLY_CA, DR_DLY_WR, DR_DLY_RD, DR_DESKEW[0..3]. Reset 0 [S]. -/
  delays : List (BitVec 32) := [0, 0, 0, 0, 0, 0, 0]
  /-- DR_ERR.CE_WIN, saturating. Reset 0 [S]. -/
  ceWin : Nat := 0
  /-- True when the threshold event was raised in this window (R558). Reset false [D1]. -/
  ceRaised : Bool := false
  /-- DR_ERR.UE_TOTAL, saturating. Reset 0 [S]. -/
  ueTotal : Nat := 0
  /-- Time of the latest uncorrectable event (R558). Reset none [D1]. -/
  ueAt : Option Nat := none
  /-- DR_ERR_LOC: row, bank, rank, slot, client. Reset 0 [S]. -/
  errLoc : Nat × Nat × Nat × Nat × Nat := (0, 0, 0, 0, 0)
  /-- Neighbour refreshes of the present second (R568). Reset 0 [D1]. -/
  nrefWin : Nat := 0
  /-- DR_ACT.NREF of the last second, saturating. Reset 0 [S]. -/
  nref : Nat := 0
  /-- Self-refresh exits of the present second. Reset 0 [D1]. -/
  srxWin : Nat := 0
  /-- DR_ACT.SRX of the last second, saturating at 255. Reset 0 [S]. -/
  srx : Nat := 0
  /-- Activation tables by rank × 8 + bank: row and count, at most 16 entries (R566). Reset empty [D1]. -/
  acts : List (Nat × List (Nat × Nat)) := []
  /-- SR_IDLE in µs (R565). Default 50 [S]. -/
  srIdle : Nat := 50
  /-- DR_CE_THRESH (R558). Default 100 [S]. -/
  ceThresh : Nat := 100
  /-- Time of the latest pool request (R565). Reset 0 [D1]. -/
  lastReq : Nat := 0
  /-- Refresh intervals postponed, at most 8 (R563). Reset 0 [D1]. -/
  postponed : Nat := 0
  /-- Next bank to be refreshed (R563). Reset 0 [D1]. -/
  nextBank : Nat := 0
  /-- Rows that returned corrected words, with the boot counters they did so under (R569). Reset none [D1]. -/
  ceDays : List ((Nat × Nat × Nat) × List Nat) := []
  /-- Marked unusable at the next priming (R571). Reset false [D1]. -/
  badNext : Bool := false
  /-- Unit index of the patrol (R559). Reset 0 [D1]. -/
  patrol : Nat := 0
  deriving DecidableEq, Repr

/-- DRAM parameters of device scope and the repair list. -/
structure Dram where
  /-- Channels by number; an unlisted one is at its reset values. -/
  chans : List (Nat × DrChan) := []
  /-- ACT_THRESH (R567). Default 2,048 [S]. -/
  actThresh : Nat := 2048
  /-- RH_RADIUS (R567). Default 1 [S]. -/
  rhRadius : Nat := 1
  /-- RH_EVENT (R568). Default 1,000 [S]. -/
  rhEvent : Nat := 1000
  /-- Repair list: channel, rank, bank, row; at most 1,024 (R569). Reset none [D1]. -/
  repairs : List (Nat × Nat × Nat × Nat) := []
  /-- Channels in chan_list since the latest priming (R553). Reset none, DRAM not primed [D1]. -/
  usable : List Nat := []
  deriving DecidableEq, Repr

/-- What a flash operation is for (R579, R588). -/
inductive FPurpose where
  | image (img off : Nat) (bytes : Bytes) (cmd : Nat)
  | slotErase (img : Nat)
  | bootRec (kind img seq : Nat) (cmd : Nat)
  | plog
  | roleRec
  | config (what : Nat)
  | critical (seq : BitVec 64)
  | criticalErase
  | plogErase
  | roleErase
  | eraseLog
  | protect
  | reErase
  | park (d : Nat)
  | massErase
  deriving DecidableEq, Repr

/-- A flash operation (R587, R588). -/
structure FOp where
  /-- True for an erase, false for a program. -/
  erase : Bool
  /-- Global sector of the operation. -/
  sector : Nat
  /-- Words still to program, or sectors still to erase after this one. -/
  left : Nat
  /-- Pulses given to the present word or sector. -/
  pulses : Nat := 0
  /-- True for a marker program that runs ahead (R588). -/
  marker : Bool := false
  /-- What it is for. -/
  purpose : FPurpose
  /-- Marker words of a program that are not programmed yet, each with its place in the bank's triads (R578, R584). -/
  words : List (Nat × BitVec 64) := []
  deriving DecidableEq, Repr

/-- One of the two flash banks (R577 to R593, R607). -/
structure FBank where
  /-- Operation in progress; FL_BANK.BUSY and OP read it. Reset none [S]. -/
  op : Option FOp := none
  /-- Queued operations (R588). Reset none [D1]. -/
  queue : List FOp := []
  /-- FL_BANK.PFAIL. Reset 0 [S]. -/
  pfail : Bool := false
  /-- FL_BANK.EFAIL. Reset 0 [S]. -/
  efail : Bool := false
  /-- Sectors marked half-erased; FL_BANK.HALFER reads whether any is (R592). Reset none [S]. -/
  halfErased : List Nat := []
  /-- Sector of the latest failed operation, which FL_BANK.SECTOR reads while none runs. Reset 0 [S]. -/
  sector : Nat := 0
  /-- FL_BANK.BUSYRD, saturating at 255. Reset 0 [S]. -/
  busyRd : Nat := 0
  /-- FL_BANK.CE, saturating at 255. Reset 0 [S]. -/
  ce : Nat := 0
  /-- Erase-log triads 0 and 1: entries as sector and whether done, oldest first (R590). Reset empty [D1]. -/
  eraseLog : List (Nat × Bool) × List (Nat × Bool) := ([], [])
  /-- Current erase-log triad (R590, R591). Reset 0 [D1]. -/
  logCur : Nat := 0
  /-- Sectors that hold undefined content after a failed program or erase (R582). Reset none [D1]. -/
  undef : List Nat := []
  /-- Programmed words of the marker triads, 8,192 words each, at local sectors 224, 227, 230, 233, 236 and 239 (R578,
  R579); the erase-log triads stand in eraseLog. Reset blank [D1]. -/
  marks : List (Nat × BitVec 64) := []
  /-- Spare sectors used, and the sector each replaces (R581). Reset none [D1]. -/
  spares : List (Nat × Nat) := []
  deriving DecidableEq, Repr

/-- Firmware flash and update session. -/
structure Flash where
  /-- The banks 0 and 1. -/
  banks : List FBank := [{}, {}]
  /-- Programmed words of the image slots: image × 2^20 + word index (R579). Reset blank [D1]. -/
  slots : List (Nat × BitVec 64) := []
  /-- Sectors of the session's slot erased so far (FW_PROG.ERASED). Reset 0 [S]. -/
  erased : Nat := 0
  /-- Boot record, newest first: KIND, IMAGE, BSEQ (R600). Reset blank [D1]. -/
  boot : List (Nat × Nat × Nat) := []
  /-- Update session: image, LENGTH, mailbox (R603). Reset none [S]. -/
  session : Option (Nat × Nat × Nat) := none
  /-- Byte ranges written by the session (FW_PROG.BYTES). Reset none [S]. -/
  written : List (Nat × Nat) := []
  /-- FW_COMMIT in progress, by command number (R604). Reset none [D1]. -/
  committing : Option Nat := none
  /-- Word 0 of the protection triad programmed to zero (R594). Reset false, erased [D1]. -/
  prot1 : Bool := false
  /-- Level-2 fuse (R594). Reset not blown [S]. -/
  level2 : Bool := false
  /-- FL_PROT.SECMIN: fused security minimum (R602). Reset 0 [S]. -/
  secMin : Nat := 0
  deriving DecidableEq, Repr

/-- LCS.STATE (R624). -/
inductive LcState where
  | manufacture | provision | deployed | ret | endOfLife
  deriving DecidableEq, Repr

/-- A recorder record (R634). -/
structure Rec where
  /-- SEQ. -/
  seq : BitVec 64
  /-- TYPE. -/
  ty : Nat
  /-- SRC. -/
  src : Nat
  /-- FLAGS.CRITICAL. -/
  crit : Bool
  /-- Body bytes, a multiple of 8. -/
  body : Bytes
  deriving DecidableEq, Repr

/-- Self-test, life cycle and recorder (R608 to R642). -/
structure Test where
  /-- Blown state fuses, 0–4 (R624). Reset 0 [D1]. -/
  lcFuses : Nat := 0
  /-- Life-cycle state latched at priming step 2; LCS.STATE reads it. Reset MANUFACTURE, 0 [S]. -/
  lc : LcState := .manufacture
  /-- LCS.JTAG (R623, R632). Reset 0 [S]. -/
  jtag : Bool := false
  /-- Fused integrator key digest; LCS.IKEY reads it (R627). Reset none [S]. -/
  ikey : Option Nat := none
  /-- Fused device secret; LCS.SECRET reads it (R474). Reset none [S]. -/
  secret : Option Nat := none
  /-- Fused KEKGEN (R474). Reset 0 [S]. -/
  kekGen : Nat := 0
  /-- Rail fuse record entries: FIELD, RAIL, VALUE (R522, R627). Reset none fused [D1]. -/
  railRec : List (Nat × Nat × Nat) := []
  /-- Current CHALLENGE (R626). Reset none [D1]. -/
  challenge : Option Nat := none
  /-- LC_ADVANCE in progress: command number and target (R628). Reset none [D1]. -/
  advancing : Option (Nat × LcState) := none
  /-- ECC_FLIP.CLASS. Reset 0 [S]. -/
  flipClass : Nat := 0
  /-- ECC_FLIP.BIT0. Reset 0 [S]. -/
  flipBit0 : Nat := 0
  /-- ECC_FLIP.BIT1. Reset 0 [S]. -/
  flipBit1 : Nat := 0
  /-- ECC_FLIP.TWO. Reset 0 [S]. -/
  flipTwo : Bool := false
  /-- ECC_FLIP.ARM. Reset 0 [S]. -/
  flipArm : Bool := false
  /-- ECC_FLIP_AT: ADDR and UNIT. Reset 0 [S]. -/
  flipAt : Nat × Nat := (0, 0)
  /-- ST_ECC.CE, saturating. Reset 0 [S]. -/
  ce : Nat := 0
  /-- ST_ECC.UE, saturating. Reset 0 [S]. -/
  ue : Nat := 0
  /-- ST_TT.PASSES, saturating. Reset 0 [S]. -/
  passes : Nat := 0
  /-- Regions tested in the present pass, by class 0–3 (ST_TT.PROGRESS). Reset 0 [S]. -/
  tested : List Nat := [0, 0, 0, 0]
  /-- ST_TT.REPAIRS, saturating at 255. Reset 0 [S]. -/
  repairs : Nat := 0
  /-- Soft repairs recorded in the device configuration: class and unit (R614). Reset none [D1]. -/
  soft : List (Nat × Nat) := []
  /-- Blocks held redirected to their test buffer: class and unit; ST_TT.HELD (R615). Reset none [S]. -/
  redirected : List (Nat × Nat) := []
  /-- TT_PASS in minutes (R618). Default 60 [S]. -/
  ttPass : Nat := 60
  /-- ST_ANALOG bits 5:0. Reset 0 [S]. -/
  analog : BitVec 6 := 0
  /-- ST_UNUSABLE.CORE bits. Reset 0 [S]. -/
  badCores : List Nat := []
  /-- ST_UNUSABLE.PENDING: sump banks and cores due. Reset none [S]. -/
  pendBanks : List Nat := []
  /-- Cores due to be marked unusable. Reset none [S]. -/
  pendCores : List Nat := []
  /-- Scratchpad blocks due to be marked unusable (R615). Reset none [D1]. -/
  pendPads : List Nat := []
  /-- Key stores due to be marked unusable (R615). Reset none [D1]. -/
  pendKeys : List Nat := []
  /-- Scratchpad blocks marked unusable (R616). Reset none [D1]. -/
  badPads : List Nat := []
  /-- Region, bank × 192 + number, of each free sump line held out of use until the transparent test passes it (R610).
  Reset none [D1]. -/
  heldRegions : List Nat := []
  /-- Network ports marked unusable by the analog subset (R616). Reset none [D1]. -/
  badNet : List Nat := []
  /-- Twin ports marked unusable (R616). Reset none [D1]. -/
  badTwin : List Nat := []
  /-- Host port marked unusable (R616). Reset false [D1]. -/
  badHost : Bool := false
  /-- Media channels whose PHY is marked unusable (R616). Reset none [D1]. -/
  badChan : List Nat := []
  /-- Rails judged by RAIL_PG alone, after a rail-converter failure (R622). Reset false [D1]. -/
  railConvBad : Bool := false
  /-- Recorder running since priming step 5 (R635). Reset false [D1]. -/
  recRun : Bool := false
  /-- Recorder ring, oldest first (R637). Reset empty [S]. -/
  ring : List Rec := []
  /-- Records of the ring not yet spilled, counted from the newest (R637). Reset 0 [D1]. -/
  unspilled : Nat := 0
  /-- Records spilled to media, oldest first (R637). Reset none [D1]. -/
  spilled : List Rec := []
  /-- Ring offset at which the next record is written (R637). Reset 0 [D1]. -/
  ringPtr : Nat := 0
  /-- The critical store, oldest first: byte offset in its ring and record (R638). Reset none [D1]. -/
  critical : List (Nat × Rec) := []
  /-- Byte offset in the critical store's ring of the next record (R638). Reset 0 [D1]. -/
  critPtr : Nat := 0
  /-- SEQ[31:0] of the next record (R635); REC_NEXT. Reset 0 [S]. -/
  seq : BitVec 32 := 0
  /-- REC_STAT.FROZEN (R639). Reset 0 [S]. -/
  frozen : Bool := false
  /-- Time of the latest REC_FREEZE, from which the freeze timer runs (R639). Reset 0 [D1]. -/
  frozenAt : Nat := 0
  /-- First and last SEQ dropped in the freeze, and how many (R639). Reset none [D1]. -/
  dropped : Option (BitVec 64 × BitVec 64 × Nat) := none
  /-- REC_STAT.LOST, saturating. Reset 0 [S]. -/
  lost : Nat := 0
  /-- REC_WINBASE.BASE. Reset 0 [S]. -/
  winBase : Nat := 0
  deriving DecidableEq, Repr

/-- An event route (R648, R649). -/
structure Route where
  /-- ER_ROUTE.VECTOR. Reset 0 [S]. -/
  vec : Nat := 0
  /-- ER_ROUTE.MSIX. Reset 0 [S]. -/
  msix : Bool := false
  /-- ER_ROUTE.CORES. Reset 0x1 [S]. -/
  cores : BitVec 4 := 1
  deriving DecidableEq, Repr

/-- An MSI-X table entry (R650). -/
structure MsixEntry where
  /-- Message address. -/
  addr : BitVec 64 := 0
  /-- Message data. -/
  data : BitVec 32 := 0
  /-- Vector masked, 1 at reset (PCI Express Base Specification). -/
  mask : Bool := true
  deriving DecidableEq, Repr

/-- A clock island (R13, R655). -/
structure Island where
  /-- CI_STAT.RUNNING. Reset 0 [S]. -/
  running : Bool := false
  /-- CI_STAT.FAULT. Reset 0 [S]. -/
  fault : Bool := false
  /-- CI_STAT.OUT of an island without a numbered unit, which no rule marks; of the others State.islandOut tells it. Reset 0 [S]. -/
  out : Bool := false
  /-- CI_STAT.CAUSE. Reset 0 [S]. -/
  cause : Nat := 0
  /-- CI_STAT.FAULTS, saturating. Reset 0 [S]. -/
  faults : Nat := 0
  /-- CI_FREQ.KHZ. Reset 0 [S]. -/
  khz : Nat := 0
  /-- Consecutive good windows while in fault (R655). Reset 0 [D1]. -/
  good : Nat := 0
  deriving DecidableEq, Repr

/-- Events, MSI-X, global registers and clock islands. -/
structure Events where
  /-- EV_STATUS, bit x for event x (R644, R654). Reset 0 [S]. -/
  status : BitVec 1024 := 0
  /-- Routes by event; an unlisted one is at its priming value (R649). Reset VECTOR 0, MSIX 0, CORES 0x1 [S]. -/
  routes : List (Nat × Route) := []
  /-- ER_COUNT by event, saturating 32 bits. Reset 0 [S]. -/
  counts : List (Nat × Nat) := []
  /-- EV_LAST.EVENT. Reset 0 [S]. -/
  last : Nat := 0
  /-- EV_LAST.TOTAL, wrapping 16 bits. Reset 0 [S]. -/
  total : BitVec 16 := 0
  /-- EV_DROP, saturating 32 bits. Reset 0 [S]. -/
  drop : Nat := 0
  /-- GCTL.EVMSIX (R645). Reset 0 [S]. -/
  evMsix : Bool := false
  /-- GSTAT.RSTREF (R653). Reset 0 [S]. -/
  rstRef : Bool := false
  /-- MSI-X table by vector; an unlisted entry is masked and zero (R650). Reset masked [P5]. -/
  table : List (Nat × MsixEntry) := []
  /-- Pending-bit array, bit v for vector v (R647). Reset 0 [D1]. -/
  pba : BitVec 2048 := 0
  /-- Whole function masked (R647). Reset false [D1]. -/
  funMask : Bool := false
  /-- High words latched by reads of low words: offset and value (R651). Reset none [D1]. -/
  latches : List (Nat × BitVec 32) := []
  /-- Clock islands by number; an unlisted one is at its reset values. -/
  islands : List (Nat × Island) := []
  deriving DecidableEq, Repr

/-- Pins and sensors that no other part holds. -/
structure Platform where
  /-- SCRUB_DAYS (R127). Default 7 [S]. -/
  scrubDays : Nat := 7
  /-- SCRUB_SHARE in percent (R130). Default 2 [S]. -/
  scrubShare : Nat := 2
  /-- PARK_SCRUB_DAYS (R131). Default 30 [S]. -/
  parkScrubDays : Nat := 30
  /-- PARK_SCRUB_RATE in GB/s (R131). Default 4 [S]. -/
  parkScrubRate : Nat := 4
  /-- ROW_LEASE in ms (R114). Default 20 [S]. -/
  rowLease : Nat := 20
  /-- Sensors above 105 °C, and since when (R678). Reset none [D1]. -/
  hotAt : Option Nat := none
  /-- Sensors above 115 °C, and since when (R678). Reset none [D1]. -/
  critAt : Option Nat := none
  deriving DecidableEq, Repr

/-- Body of a Vorwiri packet the controller sends (opcode table of R307). -/
inductive NetBody where
  | readResp (off : Nat) (first last : Bool) (raddr : Nat) (data : Bytes)
  | witness (b : WitBody)
  | ack (durable : Bool) (cum : Psn) (sack : List Psn) (vwmark dwmark : MsgId) (dropcnt cecnt : BitVec 32)
  | nak (code sub : Nat) (npsn : Psn) (hint : Nat) (detail : BitVec 32)
  | flushResp (dwmark : MsgId) (drops : List Nat)
  | atomicResp (old : Bytes)
  | probe (req : Nat)
  | takeover (epoch : Epoch) (wmark : MsgId) (vpsn tpsn : Psn) (dropcnt : BitVec 32)
  deriving DecidableEq, Repr

/-- A Vorwiri packet the controller sends (R300, R302 to R305, R310, R336). -/
structure NetOut where
  /-- Path it leaves by. -/
  path : Path
  /-- VLAN of its tag; 0 for an untagged frame (R300). -/
  vlan : Nat
  /-- PCP of its tag. -/
  pcp : Nat
  /-- TTL or hop limit (R303). -/
  ttl : Nat
  /-- DF of an IPv4 header (R302). -/
  df : Bool
  /-- DSCP (R303). -/
  dscp : Nat
  /-- ECN field ECT(0) (R345). -/
  ect : Bool
  /-- Header (R305). -/
  hdr : Hdr
  /-- Payload before it is encrypted. -/
  body : NetBody
  /-- The UDP datagram: its header, the Vorwiri header, the ciphertext and the tag (R302, R304, R310). -/
  udp : Bytes
  deriving DecidableEq, Repr

/-- Body of a twin frame the controller sends (frame types of R249). -/
inductive TwinBody where
  | data (d : TwinData)
  | applyAck (applied : Lsn) (credit : BitVec 32)
  | heartbeat (role health wit : Nat) (applied : Lsn) (devtime : BitVec 64)
  | digest (lsn : Lsn) (value : BitVec 64)
  | relinquish (last : Lsn) (cause : Nat)
  | takeover (fromLsn : Lsn) (peer : Nat)
  | mailboxRsp (entry : Bytes)
  | handshake (b : HsBody)
  | link
  deriving DecidableEq, Repr

/-- What the block sends, the model's own record of it. -/
inductive Out where
  /-- A media-link command given a tag and handed to the link (R159). -/
  | media (ch tag : Nat) (cmd : MCmd)
  /-- The four data blocks of a media flit, 64 bytes as they go on the lane, scrambled (R144, R149). -/
  | flit (ch : Nat) (bytes : Bytes)
  /-- TRN1 with own preset, requested preset (15 none), block lock, equalisation done (R145). -/
  | trn1 (ch preset req : Nat) (lock eqDone : Bool)
  /-- One TRN2 (R145). -/
  | trn2 (ch : Nat)
  /-- IDLE_OS: entry to electrical idle (R175). -/
  | idleOs (ch : Nat)
  /-- A sideband poll of register 0x02 (R174). -/
  | sbPoll (ch : Nat)
  /-- A sideband reset write (R172). -/
  | sbReset (ch : Nat)
  /-- A twin frame: port, control lane, epoch, LSN, LSEQ, body; LACK and LNAK (R249). -/
  | twin (port : Nat) (ctrl : Bool) (epoch : Epoch) (lsn : Lsn) (lseq : BitVec 16)
      (lack lnak : Option (BitVec 16)) (body : TwinBody)
  /-- A codeword on a lane of a twin port: 256 data symbols and 16 parity symbols of ten bits (R246). -/
  | twinPiece (port lane : Nat) (symbols : List (BitVec 10))
  /-- An alignment codeword: port number, lane number, pair identifier (R246). -/
  | twinAlign (port lane : Nat) (pair : BitVec 64)
  /-- A Vorwiri packet. -/
  | net (p : NetOut)
  /-- An ARP reply or, when `gratuitous`, an announcement (R301). -/
  | arp (port sub : Nat) (gratuitous : Bool)
  /-- A neighbour advertisement, solicited or not (R301). -/
  | neighbour (port sub : Nat) (unsolicited : Bool)
  /-- An ICMP or ICMPv6 echo reply (R301). -/
  | echo (port sub : Nat) (v6 : Bool)
  /-- Data returned to a CXL.mem read, MetaField No-Op (R405, R406). -/
  | cxlData (tag : Nat) (data : Bytes) (poison : Bool)
  /-- Cmp to a CXL.mem request (R405). -/
  | cxlCmp (tag : Nat)
  /-- CXL.mem write credits granted (R210). -/
  | memCredit (n : Nat)
  /-- Completion with data of a BAR read. -/
  | barData (off : Nat) (value : BitVec 32)
  /-- Unsupported Request completion of a poisoned BAR access (R391). -/
  | unsupported
  /-- Answer to a GPF Phase 2 request (R409). -/
  | gpfDone
  /-- MSI-X message of a vector (R645). -/
  | msix (vec : Nat) (addr : BitVec 64) (data : BitVec 32)
  /-- Delivery of an event to a core (R644). -/
  | core (n ev : Nat)
  /-- A CXL mailbox or DOE answer: opcode, success, values (R392). -/
  | cxlMbx (opcode : Nat) (ok : Bool) (values : List Nat)
  /-- An MCTP message: type, response bytes (R450). -/
  | mctp (kind : Nat) (bytes : Bytes)
  /-- A PMBus transaction: port, address, page, command code, value (R517). -/
  | pmbus (port addr page code value : Nat)
  /-- Cascade pulse train or start pulse on SEQ_CO (R500, R501). -/
  | seqCo (rollCall : Bool)
  /-- PauseLink: the host port begins training (R532). -/
  | hostTrain
  /-- A pool write of a client, for a codeword of a namespace: whole words with the check bytes that the masked write
  enables (R555, R556). -/
  | poolWrite (client ns cw : Nat) (words : List (Nat × BitVec 64 × BitVec 8))
  /-- The header of an overflow entry written: byte mask, poison mask, visibility stamp (R222). -/
  | poolHeader (ns cw : Nat) (mask : List Bool) (poison : BitVec 4) (stamp : Nat)
  /-- A corrected word and its check byte written back at a pool address (R557). -/
  | wordBack (addr : Nat) (data : BitVec 64) (check : BitVec 8)
  /-- A neighbour refresh of rows beside a row: channel, rank, bank, row, radius (R567). -/
  | neighbourRef (ch rank bank row radius : Nat)
  /-- A DRAM refresh: channel, bank (R563). -/
  | refresh (ch bank : Nat)
  /-- A ZQ calibration: channel, rank (R562). -/
  | zqCal (ch rank : Nat)
  /-- A load access-fault exception delivered to a core by a flash read (R587). -/
  | busFault (sector : Nat)
  deriving DecidableEq, Repr

end Sys2Proof.Machine
end

