-- ==== Sys2Proof/Machine/StateSump.lean ====
section
/-! DEFINITION. The parts of State that the durability and sump chapters give: sump lines, the
dirty overflow, pool pages, the dirty budget and the mirroring lag. -/

namespace Sys2Proof.Machine

open Sys2Proof

/-- A partial image: the byte where the mask has a bit, `none` where it has none. -/
abbrev Img := List (Option Byte)

/-- Sump line states (R213); a free line has no entry. -/
inductive LineState where
  | pending | dirty | intent | clean
  deriving DecidableEq, Repr

/-- One sump line that is not free (R209, R213). -/
structure SumpLine where
  /-- Number of the line version, oldest lowest. -/
  id : Nat
  /-- Bank 0–7 (R209). -/
  bank : Nat
  /-- Namespace. -/
  ns : Nat
  /-- Line index in the namespace: offset div 64. -/
  line : Nat
  /-- State. -/
  st : LineState
  /-- 64-byte image and byte mask. -/
  img : Img
  /-- Poison of the line (R126). -/
  poison : Bool := false
  /-- Tag of the message that wrote it (R27); none for CXL.mem, mailbox and peer data. -/
  tag : Option (Nat × MsgId) := none
  /-- Visibility stamp in the total order of R33; 0 while pending. -/
  stamp : Nat := 0
  /-- LSN of the latest entry that carries its bytes (R54, R262). -/
  lsn : Lsn := 0
  /-- Connections whose writes supplied its bytes, each with the earliest of those writes (R377). -/
  conns : List (Nat × MsgId) := []
  /-- Row operation that took it into an intent, 0 for none (R114). -/
  op : Nat := 0
  deriving DecidableEq, Repr

/-- A dirty overflow entry (R222). -/
structure OvEntry where
  /-- Namespace ID. -/
  ns : Nat
  /-- Codeword index in the namespace: offset div 256. -/
  cw : Nat
  /-- 256-byte image and byte mask. -/
  img : Img
  /-- Poison mask. -/
  poison : BitVec 4 := 0
  /-- Visibility stamp of its oldest content. -/
  stamp : Nat
  /-- LSN of the latest entry that carries its bytes (R54, R262). -/
  lsn : Lsn := 0
  /-- Connections whose writes supplied its bytes, each with the earliest of those writes (R377). -/
  conns : List (Nat × MsgId) := []
  /-- Stamp of the latest access to it in ms ticks (R227). -/
  time : Nat := 0
  deriving DecidableEq, Repr

/-- A page of an evictable pool client: clean codewords of one 4 KiB block (R224, R227). -/
structure PoolPage where
  /-- Client: 1 read cache, 2 prefetch (R224). -/
  client : Nat
  /-- Client whose floor the page belongs to, 7 for the shared remainder (R225, R226). -/
  src : Nat := 7
  /-- Schedule that staged it, for client 2. -/
  sched : Nat := 0
  /-- Namespace. -/
  ns : Nat
  /-- 4 KiB block index. -/
  blk : Nat
  /-- Stamp of its latest access in ms ticks (R227). -/
  time : Nat
  /-- Codewords held: index, data, poison mask. -/
  cws : List (Nat × Bytes × BitVec 4)
  deriving DecidableEq, Repr

/-- The sump, the spillway and the DRAM pool. -/
structure Sump where
  /-- The lines that are not free, oldest version first (R209, R213). Reset none, every line free [D1]. -/
  lines : List SumpLine := []
  /-- Banks marked unusable (SB_STATUS.USABLE, R240, R610). Reset none [D1]. -/
  badBanks : List Nat := []
  /-- Banks in service: SB_STATUS.USABLE of the others reads 0 (R240). Reset false, SB_STATUS resets to 0 [S]. -/
  inService : Bool := false
  /-- Next bank of an allocation (R209). Reset 0 [D1]. -/
  nextBank : Nat := 0
  /-- Next line version number, the model's own. Reset 1 [M2]. -/
  nextId : Nat := 1
  /-- Latest stamp of the total order of R33. Reset 0 [D1]. -/
  stamp : Nat := 0
  /-- INTENT_RSV in force, SB_RSV.SIZE (R211, R240). Reset 0x4000 [S]. -/
  intentRsv : Nat := 16384
  /-- SPILL_HIGH in percent (R220). Default 75 [S]. -/
  spillHigh : Nat := 75
  /-- SPILL_LOW in percent (R220). Default 65 [S]. -/
  spillLow : Nat := 65
  /-- MERGE_WAIT in ns (R217). Default 20,000 [S]. -/
  mergeWait : Nat := 20000
  /-- READ_FLOOR in MiB (R224). Default 16,384 [S]. -/
  readFloor : Nat := 16384
  /-- PF_FLOOR in MiB (R224). Default 8,192 [S]. -/
  pfFloor : Nat := 8192
  /-- SPILL_STAT.ACTIVE (R239). Reset 0 [S]. -/
  spillActive : Bool := false
  /-- Dirty overflow entries (R222). Reset none [S]. -/
  overflow : List OvEntry := []
  /-- Pages of the read cache and prefetch clients (R224). Reset none [S]. -/
  pages : List PoolPage := []
  /-- Sump lines reserved behind network credit (R210). Reset 0 [D1]. -/
  rsvNet : Nat := 0
  /-- Sump lines reserved behind twin apply credit (R210). Reset 0 [D1]. -/
  rsvTwin : Nat := 0
  /-- CXL.mem write credits granted and not yet used, each with a sump line reserved (R210). Reset 0 [D1]. -/
  rsvHost : Nat := 0
  /-- SPILL_STAT.HELD: credit is withheld (R223, R239). Reset 0 [S]. -/
  creditHeld : Bool := false
  /-- Time of the latest progress of each drain-order level 0–5 (ORDER_STAT, R239). Reset 0 [D1]. -/
  progress : List Nat := [0, 0, 0, 0, 0, 0]
  /-- Work last seen at each level of the drain order, by which its progress is told (R230, R239). Reset 0 [M2]. -/
  work : List Nat := [0, 0, 0, 0, 0, 0]
  /-- ORDER_STAT.STALL as last evaluated (R239). Reset 0 [S]. -/
  stalled : List Nat := []
  /-- ORDER_STAT.STALLS, saturating (R239). Reset 0 [S]. -/
  stalls : Nat := 0
  /-- ORDER_STAT.NOWRITE (R236, R239). Reset 0 [S]. -/
  noWrite : Bool := false
  deriving DecidableEq, Repr

/-- A CXL.mem write completed and not yet applied on the peer (R51). -/
structure LagRec where
  /-- LSN of its CXL_WRITE entry. -/
  lsn : Lsn
  /-- Data bytes. -/
  bytes : Nat
  /-- Completion time, ns. -/
  time : Nat
  deriving DecidableEq, Repr

/-- A CXL.mem write whose completion is withheld (R51, R62). -/
structure HeldWrite where
  /-- Request tag. -/
  tag : Nat
  /-- Namespace. -/
  ns : Nat
  /-- Namespace offset of the line. -/
  off : Nat
  /-- Line image and mask. -/
  img : Img
  /-- Poison carried with the write. -/
  poison : Bool
  deriving DecidableEq, Repr

/-- The durability state (R50 to R62, DURA_BUDGET, DURA_STAT, MIRROR_CTL, MIRROR_LAG). -/
structure Dura where
  /-- P_hold in watts; DURA_STAT.PHOLD_SET reads whether it is set (R55, R57). Reset unset [S]. -/
  pHold : Option Nat := none
  /-- k_margin in percent (R55). Default 50 [S]. -/
  kMargin : Nat := 50
  /-- t_fixed in ms (R55). Default 60 [S]. -/
  tFixed : Nat := 60
  /-- D_max of the latest evaluation, bytes; DURA_BUDGET.DMAX_MIB reads it (R55). Reset 0 [S]. -/
  dmax : Nat := 0
  /-- DURA_STAT.CLOW, cistern low (R60, R61). Reset 1 [S]. -/
  clow : Bool := true
  /-- DURA_STAT.OVER (R59). Reset 0 [S]. -/
  overBud : Bool := false
  /-- MIRROR_CTL.BUSY (R52). Reset 0 [S]. -/
  busy : Bool := false
  /-- MIRROR_CTL.DONE (R52). Reset 0 [S]. -/
  done : Bool := false
  /-- MIRROR_CTL.FAIL (R60). Reset 0 [S]. -/
  fail : Bool := false
  /-- MIRROR_CTL.LOCAL. Reset 0 [S]. -/
  loc : Bool := false
  /-- LSNs of the CXL.mem writes that the FLUSH_MIRROR in progress still waits for (R52). Reset none [D1]. -/
  cover : List Lsn := []
  /-- CXL.mem writes completed and not yet applied on the peer, oldest first (R51). Reset none [S]. -/
  lag : List LagRec := []
  /-- CXL.mem writes whose completion is withheld; MIRROR_LAG.HELD reads whether any is (R51, R62). Reset none [S]. -/
  held : List HeldWrite := []
  /-- True while R51 withholds completions of new writes. Reset false [S]. -/
  lagHeld : Bool := false
  deriving DecidableEq, Repr

end Sys2Proof.Machine
end

