-- ==== Sys2Proof/Machine/State.lean ====
section
/-! DEFINITION. The state of one ZD-2144 (one twin), its state after reset, and the reasons a step
can stop. -/

namespace Sys2Proof.Machine

open Sys2Proof

/-- The state of one controller. Numbered units are kept in tables by number, in canonical form: keys
strictly rising, no entry equal to the reset value that an unlisted unit has. -/
structure State where
  /-- Commands that wait to be taken, first in, first out (the block's own queue). Reset empty [M2]. -/
  pending : List Instr := []
  /-- Nanoseconds of the block's time, counted from its reset. Reset 0 [M2]. -/
  now : Nat := 0
  /-- Draws made from the on-chip random source and other free values so far. Reset 0 [M2]. -/
  draws : Nat := 0
  /-- Next number of a row operation, gather or held fetch. Reset 1 [M2]. -/
  nextId : Nat := 1
  /-- What the block has sent, oldest first. Reset empty [M2]. -/
  out : List Out := []
  /-- Durability, dirty budget, mirroring lag (R50 to R62). -/
  dura : Dura := {}
  /-- Sump, spillway, DRAM pool contents (R209 to R240). -/
  sump : Sump := {}
  /-- Media channels 0–143 by number (R180). -/
  chans : List (Nat × Chan) := []
  /-- Stripe groups 0–15 by number (R141). -/
  groups : List (Nat × Group) := []
  /-- Easels by group × 4,096 + easel (R100). -/
  easels : List (Nat × Easel) := []
  /-- Group headers and journals on media, by group (R535). -/
  gnv : List (Nat × GroupNv) := []
  /-- Row operations in progress, oldest first (R111 to R114). -/
  ops : List RowOp := []
  /-- Miss-tracking entries (R116). -/
  misses : List Miss := []
  /-- Drawers 0–7 by number (R208). -/
  drawers : List (Nat × Drawer) := []
  /-- Twin engine (R241 to R298). -/
  twin : Twin := {}
  /-- Twin ports 0–3 by number (R298). -/
  tports : List (Nat × TwinPort) := []
  /-- Network ports 0–7 by number (R352). -/
  nports : List (Nat × NetPort) := []
  /-- Connections, grants, transport parameters (R353 to R384). -/
  xport : Xport := {}
  /-- Host port (R385 to R418). -/
  host : HostPort := {}
  /-- Mailboxes, commands, namespaces, schedules (R419 to R456). -/
  ctl : Ctl := {}
  /-- Cipher engines, palette, KEK (R457 to R485). -/
  cipher : Cipher := {}
  /-- Rails, windlass line, cistern, power log (R486 to R524). -/
  power : Power := {}
  /-- Priming and recovery (R525 to R551). -/
  prime : Prime := {}
  /-- LPDDR4X controller (R552 to R576). -/
  dram : Dram := {}
  /-- Firmware flash (R577 to R607). -/
  flash : Flash := {}
  /-- Self-test, life cycle, recorder (R608 to R642). -/
  test : Test := {}
  /-- Events, MSI-X, global registers, clock islands (R643 to R656). -/
  ev : Events := {}
  /-- Device-scope integrity parameters and thermal conditions (R139, R678). -/
  plat : Platform := {}
  deriving DecidableEq, Repr

/-- The controller right after reset: every register at its stated reset value, every queue empty,
the pins as R663 lays down; values the spec does not give are those of log entry 1, DESIGN CHOICE. -/
def State.reset : State := {}

/-- Reasons the block stops. -/
inductive Fault where
  /-- A rating of R680 exceeded, after which the manual calls the behaviour undefined. Raised by no
  command: no row of the opcode table carries a rating. Safe. -/
  | beyondRatings
  deriving DecidableEq, Repr

/-- Commands without a meaning. -/
inductive Refusal where
  /-- Raised by an arm of `exec` whose command has no meaning yet. Safe. -/
  | notModelled (mnemonic : String)
  deriving DecidableEq, Repr

end Sys2Proof.Machine
end

