-- ==== Sys2Proof/Machine/Tab.lean ====
section
/-! DEFINITION. Tables keyed by number, in one canonical form: keys strictly rising, no entry equal to
the value that an unlisted key has. -/

namespace Sys2Proof.Machine

/-- The entry at `k`, or `d` when the table lists none. -/
def tabGet {α : Type} (d : α) : List (Nat × α) → Nat → α
  | [], _ => d
  | (j, v) :: t, k => if j = k then v else tabGet d t k

/-- Put `v` at `k`, keeping the keys rising. -/
def tabPut {α : Type} : List (Nat × α) → Nat → α → List (Nat × α)
  | [], k, v => [(k, v)]
  | (j, w) :: t, k, v =>
    if k < j then (k, v) :: (j, w) :: t
    else if k = j then (k, v) :: t
    else (j, w) :: tabPut t k v

/-- Remove the entry at `k`. -/
def tabDel {α : Type} : List (Nat × α) → Nat → List (Nat × α)
  | [], _ => []
  | (j, w) :: t, k => if j = k then tabDel t k else (j, w) :: tabDel t k

/-- Set `k` to `v`: an entry equal to the unlisted value is not kept. -/
def tabSet {α : Type} [DecidableEq α] (d : α) (t : List (Nat × α)) (k : Nat) (v : α) : List (Nat × α) :=
  if v = d then tabDel t k else tabPut t k v

/-- Apply `f` to the entry at `k`. -/
def tabMod {α : Type} [DecidableEq α] (d : α) (t : List (Nat × α)) (k : Nat) (f : α → α) :
    List (Nat × α) :=
  tabSet d t k (f (tabGet d t k))

/-- The keys rise strictly, and all lie above `lo` where it is given. -/
def keysRise {α : Type} : Option Nat → List (Nat × α) → Bool
  | _, [] => true
  | none, (k, _) :: t => keysRise (some k) t
  | some lo, (k, _) :: t => decide (lo < k) && keysRise (some k) t

/-- The canonical form of a table. -/
def tabWf {α : Type} [DecidableEq α] (d : α) (t : List (Nat × α)) : Bool :=
  keysRise none t && t.all (fun e => !decide (e.2 = d))

/-- Replace element `i` of a list by `f` of it. -/
def modAt {α : Type} : List α → Nat → (α → α) → List α
  | [], _, _ => []
  | a :: t, 0, f => f a :: t
  | a :: t, i + 1, f => a :: modAt t i f

end Sys2Proof.Machine
end

