-- ==== Sys2Proof/Machine/TwinFrame.lean ====
section
/-! DEFINITION. The bytes of a twin frame (R249, R255, R542) and the coding of a twin lane (R246). -/

namespace Sys2Proof.Machine

open Sys2Proof

/-! Entries of the input log. -/

/-- Vorwiri opcode of a sequenced message (R307). -/
def netOpcode : NetOp → Nat
  | .write => 1 | .writeDurable => 2 | .readReq => 3 | .flush => 5 | .cas => 7 | .fadd => 8 | .witness => 13

/-- KIND of R255. -/
def entryKind : EntryBody → Nat
  | .netWrite .. => 1 | .atomicResult .. => 2 | .drop _ => 3 | .cxlWrite .. => 4 | .release => 5
  | .control .. => 6 | .xport .. => 7 | .resync .. => 8

/-- The data of a CONTROL entry: the drawer number (R687), or the committed command record, at its full 64 bytes
(log entry 124, DESIGN CHOICE). -/
def controlData : Cfg → Bytes
  | .drawerWake d | .drawerPark d | .drawerCheck d _ => beBytes 1 d
  | c => (List.range 64).map (Config.recordByte c)

/-- Data bytes of an entry (DLEN of R255). -/
def entryDlen : EntryBody → Nat
  | .netWrite _ _ _ _ _ _ d | .cxlWrite _ _ d | .resync _ _ d => d.length
  | .control _ _ _ (.drawerWake _) | .control _ _ _ (.drawerPark _) | .control _ _ _ (.drawerCheck ..) => 1
  | .control .. => 64
  | _ => 0

/-- Fields of an entry's kind, then its data (entry kinds of R255). -/
def entryFields : EntryBody → Bytes
  | .netWrite moff nsoff mlen akey psn op d =>
    beBytes 4 moff ++ beBytes 8 nsoff ++ beBytes 4 (mlen.getD 0) ++ beBytes 4 ((akey.getD 0).toNat) ++ beBytes 6 psn.toNat
      ++ beBytes 1 (netOpcode op) ++ [0] ++ d
  | .atomicResult nsoff old new poison => beBytes 8 nsoff ++ old ++ new ++ beBytes 1 (bit poison) ++ List.replicate 7 0
  | .drop reason => beBytes 1 reason ++ List.replicate 3 0
  | .cxlWrite nsoff mask d => beBytes 8 nsoff ++ beBytes 8 mask.toNat ++ d
  | .release => []
  | .control code tag result cfg => beBytes 2 code ++ beBytes 2 tag ++ beBytes 2 result ++ [0, 0] ++ controlData cfg
  | .xport rpsn tpsn credit keygen =>
    beBytes 6 rpsn.toNat ++ beBytes 6 tpsn.toNat ++ beBytes 4 credit ++ beBytes 1 keygen ++ List.replicate 3 0
  | .resync nsoff poison d => beBytes 8 nsoff ++ beBytes 8 poison.toNat ++ d

/-- EFLAGS of R255: ADMIT and LAST are set where AKEY and MLEN are carried. -/
def entryFlags (e : LogEntry) : Nat :=
  (match e.body with | .netWrite _ _ mlen akey _ _ _ => bit akey.isSome + 2 * bit mlen.isSome | _ => 0)
    + 4 * bit e.anchor + 8 * bit e.durable

/-- An input-log entry: its 16-byte head, its kind's fields and its data (R255). -/
def entryBytes (e : LogEntry) : Bytes :=
  beBytes 1 (entryKind e.body) ++ beBytes 1 (entryFlags e) ++ beBytes 2 e.conn ++ beBytes 4 e.msg.toNat ++ beBytes 2 e.nsid
    ++ beBytes 2 (entryDlen e.body) ++ List.replicate 4 0 ++ entryFields e.body

/-! Frames. -/

/-- The 40-byte HANDSHAKE body of R542. -/
def hsBytes (b : HsBody) : Bytes :=
  beBytes 1 (if b.decide then 2 else 1) ++ beBytes 1 (bit b.twin) ++ beBytes 1 b.lrole ++ beBytes 1 b.stop ++ beBytes 4 b.pepoch.toNat
    ++ beBytes 6 b.lsn.toNat ++ beBytes 1 (bit b.resync + 2 * bit b.bitmap) ++ [0] ++ beBytes 4 b.split.toNat ++ beBytes 4 b.jtiles
    ++ beBytes 8 b.cfg.toNat ++ beBytes 4 b.newEpoch.toNat ++ beBytes 1 b.srole ++ beBytes 1 (bit b.full) ++ [0, 0]

/-- TYPE of a frame (frame types of R249). -/
def TwinBody.type : TwinBody → Nat
  | .data (.log _) => 1
  | .applyAck .. => 2
  | .heartbeat .. => 3
  | .digest .. => 4
  | .relinquish .. => 5
  | .takeover .. => 6
  | .data (.fetchReq ..) => 7
  | .data (.fetchResp ..) => 8
  | .data (.mailbox _) | .mailboxRsp _ => 9
  | .data (.resyncReq ..) => 10
  | .handshake _ => 11
  | .link => 12

/-- Body of a frame (frame types of R249). -/
def TwinBody.bytes : TwinBody → Bytes
  | .data (.log e) => entryBytes e.entry
  | .applyAck a c => beBytes 6 a.toNat ++ [0, 0] ++ beBytes 4 c.toNat
  | .heartbeat role health wit a t =>
    beBytes 1 role ++ beBytes 1 health ++ beBytes 1 wit ++ [0] ++ beBytes 6 a.toNat ++ [0, 0] ++ beBytes 8 t.toNat
  | .digest lsn v => beBytes 6 lsn.toNat ++ [0, 0] ++ beBytes 8 v.toNat
  | .relinquish last cause => beBytes 6 last.toNat ++ beBytes 1 cause ++ [0]
  | .takeover f peer => beBytes 6 f.toNat ++ beBytes 1 peer ++ [0]
  | .data (.fetchReq ns off lsn ftag) => beBytes 2 ns ++ [0, 0] ++ beBytes 8 off ++ beBytes 6 lsn.toNat ++ beBytes 2 ftag
  | .data (.fetchResp ftag mask d) => beBytes 2 ftag ++ beBytes 1 mask.toNat ++ [0] ++ d
  | .data (.mailbox e) | .mailboxRsp e => e
  | .data (.resyncReq full l) => beBytes 1 (bit full) ++ [0, 0, 0] ++ beBytes 4 l.length ++ l.flatMap (beBytes 8)
  | .handshake b => hsBytes b
  | .link => []

/-- A length raised to a multiple of 4 (R249). -/
def pad4 (n : Nat) : Nat := 4 * ((n + 3) / 4)

/-- Bytes that a data frame fills, with its header and FCS (R249): its share of the replay buffer of R251. -/
def TwinData.size (d : TwinData) : Nat :=
  24 + pad4 (match d with
    | .log e => (match e.entry.body with
      | .netWrite .. => 44 | .atomicResult .. => 48 | .drop _ => 20 | .cxlWrite .. | .resync .. => 32 | .release => 16
      | .control .. => 24 | .xport .. => 36) + entryDlen e.entry.body
    | .fetchReq .. => 20
    | .fetchResp .. => 260
    | .mailbox _ => 64
    | .resyncReq _ l => 8 + 8 * l.length)

/-- Header fields of a frame beside its body (R249). -/
structure TwinHead where
  /-- CTRL: the reserved lane. -/
  ctrl : Bool
  /-- EPOCH. -/
  epoch : Epoch
  /-- LSN. -/
  lsn : Lsn
  /-- LSEQ. -/
  lseq : BitVec 16
  /-- LACKV. -/
  lackv : Bool := false
  /-- LNAKV. -/
  lnakv : Bool := false
  /-- LACK. -/
  lack : BitVec 16 := 0
  deriving DecidableEq, Repr

/-- The 20-byte header and the body (R249). -/
def frameBody (h : TwinHead) (b : TwinBody) : Bytes :=
  beBytes 1 b.type ++ beBytes 1 (bit h.lackv + 2 * bit h.lnakv + 4 * bit h.ctrl) ++ beBytes 2 b.bytes.length
    ++ beBytes 4 h.epoch.toNat ++ beBytes 6 h.lsn.toNat ++ beBytes 2 h.lseq.toNat
    ++ beBytes 2 h.lack.toNat ++ [0, 0] ++ b.bytes

/-- FCS of R249, over the header and the LEN bytes of the body (log entry 125, DEDUCED). -/
def frameFcs (h : TwinHead) (b : TwinBody) : BitVec 32 := crc32 (frameBody h b)

/-- Header fields of an arriving frame, of the data or the control lane. -/
def headOf (h : TwinHdr) (data : Bool) : TwinHead :=
  { ctrl := !data, epoch := h.epoch, lsn := h.lsn, lseq := h.lseq, lackv := h.lackv, lnakv := h.lnakv, lack := h.lack }

/-- A whole frame: header, body, padding to a multiple of 4, FCS (R249). -/
def frameBytes (h : TwinHead) (b : TwinBody) : Bytes :=
  let f := frameBody h b
  f ++ List.replicate (pad4 f.length - f.length) 0 ++ beBytes 4 (crc32 f).toNat

/-! Lanes (R246). -/

/-- Multiplication by α in GF(2^10), x^10 + x^3 + 1. -/
def laneDouble (a : BitVec 10) : BitVec 10 := if a.msb then (a <<< 1) ^^^ 9 else a <<< 1

/-- Product in GF(2^10), over the bits of `b` from bit n − 1 down. -/
def laneMulAux (a b : BitVec 10) : Nat → BitVec 10 → BitVec 10
  | 0, acc => acc
  | n + 1, acc => laneMulAux a b n (let t := laneDouble acc; if b.getLsbD n then t ^^^ a else t)

/-- Product in GF(2^10). -/
def laneMul (a b : BitVec 10) : BitVec 10 := laneMulAux a b 10 0

/-- The generator with roots α^0 to α^(n−1), coefficients from the highest power down, the leading 1 left out. -/
def laneGen : Nat → BitVec 10 → List (BitVec 10)
  | 0, _ => []
  | n + 1, root =>
    let g := laneGen n (laneDouble root)
    (g ++ [0]).zipWith (· ^^^ ·) ((1 :: g).map (laneMul root))

/-- One data symbol enters the division by the generator; `par` is the remainder, highest power first. -/
def laneStep (gen par : List (BitVec 10)) (d : BitVec 10) : List (BitVec 10) :=
  let f := d ^^^ par.headD 0
  (par.tail ++ [0]).zipWith (· ^^^ ·) (gen.map (laneMul f))

/-- The sixteen parity symbols of RS(272,256). -/
def laneParity (d : List (BitVec 10)) : List (BitVec 10) := d.foldl (laneStep (laneGen 16 1)) (List.replicate 16 0)

/-- The ten-bit symbols of a piece's bytes, bit 7 of byte 0 first (log entry 126, DESIGN CHOICE): five bytes give four. -/
def laneSymbols : Bytes → List (BitVec 10)
  | a :: b :: c :: d :: e :: t =>
    let v := a ++ b ++ c ++ d ++ e
    v.extractLsb' 30 10 :: v.extractLsb' 20 10 :: v.extractLsb' 10 10 :: v.extractLsb' 0 10 :: laneSymbols t
  | _ => []

/-- The codeword of a 320-byte piece: 256 data symbols, then the parity (R246). -/
def laneCodeword (piece : Bytes) : List (BitVec 10) :=
  let d := laneSymbols piece
  d ++ laneParity d

end Sys2Proof.Machine
end

