-- ==== Sys2Proof/Machine/Ops.lean ====
section
/-! DEFINITION. Operations that every family shares: accessors of numbered units, free draws, events
and their delivery, the recorder, power-log records, flash queues, and the completion of commands. -/

namespace Sys2Proof.Machine

open Sys2Proof

/-- Nominal frequency of an island: 1,500,000 kHz for islands 73 to 80 (R654). -/
def nominalKhz (i : Nat) : Nat := if 73 ≤ i ∧ i ≤ 80 then 1500000 else Config.nominalKhz i

/-- A step that goes on. -/
abbrev Res := Host.Outcome State Fault Refusal

/-! Accessors of numbered units. -/

def State.chan (s : State) (c : Nat) : Chan := tabGet {} s.chans c
def State.modChan (s : State) (c : Nat) (f : Chan → Chan) : State := { s with chans := tabMod {} s.chans c f }
def State.grp (s : State) (g : Nat) : Group := tabGet {} s.groups g
def State.modGrp (s : State) (g : Nat) (f : Group → Group) : State := { s with groups := tabMod {} s.groups g f }
def State.easel (s : State) (k : Nat) : Easel := tabGet {} s.easels k
def State.modEasel (s : State) (k : Nat) (f : Easel → Easel) : State := { s with easels := tabMod {} s.easels k f }
def State.nv (s : State) (g : Nat) : GroupNv := tabGet {} s.gnv g
def State.modNv (s : State) (g : Nat) (f : GroupNv → GroupNv) : State := { s with gnv := tabMod {} s.gnv g f }
def State.drw (s : State) (d : Nat) : Drawer := tabGet {} s.drawers d
def State.modDrw (s : State) (d : Nat) (f : Drawer → Drawer) : State := { s with drawers := tabMod {} s.drawers d f }
def State.tport (s : State) (t : Nat) : TwinPort := tabGet {} s.tports t
def State.modTport (s : State) (t : Nat) (f : TwinPort → TwinPort) : State :=
  { s with tports := tabMod {} s.tports t f }
def State.nport (s : State) (p : Nat) : NetPort := tabGet {} s.nports p
def State.modNport (s : State) (p : Nat) (f : NetPort → NetPort) : State :=
  { s with nports := tabMod {} s.nports p f }
def State.subPort (s : State) (p q : Nat) : SubPort := (s.nport p).subs.getD q {}
def State.modSub (s : State) (p q : Nat) (f : SubPort → SubPort) : State :=
  s.modNport p (fun n => { n with subs := modAt n.subs q f })
def State.conn (s : State) (c : Nat) : Conn := tabGet {} s.xport.conns c
def State.modXport (s : State) (f : Xport → Xport) : State := { s with xport := f s.xport }
def State.modConn (s : State) (c : Nat) (f : Conn → Conn) : State :=
  s.modXport (fun x => { x with conns := tabMod {} x.conns c f })
def State.grant (s : State) (g : Nat) : Grant := tabGet {} s.xport.grants g
def State.modGrant (s : State) (g : Nat) (f : Grant → Grant) : State :=
  s.modXport (fun x => { x with grants := tabMod {} x.grants g f })
def State.rail (s : State) (i : Nat) : Rail := tabGet {} s.power.rails i
def State.modPower (s : State) (f : Power → Power) : State := { s with power := f s.power }
def State.modRail (s : State) (i : Nat) (f : Rail → Rail) : State :=
  s.modPower (fun p => { p with rails := tabMod {} p.rails i f })
def State.modTwin (s : State) (f : Twin → Twin) : State := { s with twin := f s.twin }
def State.modSump (s : State) (f : Sump → Sump) : State := { s with sump := f s.sump }
def State.modDura (s : State) (f : Dura → Dura) : State := { s with dura := f s.dura }
def State.modHost (s : State) (f : HostPort → HostPort) : State := { s with host := f s.host }
def State.modCtl (s : State) (f : Ctl → Ctl) : State := { s with ctl := f s.ctl }
def State.modCipher (s : State) (f : Cipher → Cipher) : State := { s with cipher := f s.cipher }
def State.modPrime (s : State) (f : Prime → Prime) : State := { s with prime := f s.prime }
def State.modDram (s : State) (f : Dram → Dram) : State := { s with dram := f s.dram }
def State.modFlash (s : State) (f : Flash → Flash) : State := { s with flash := f s.flash }
def State.modTest (s : State) (f : Test → Test) : State := { s with test := f s.test }
def State.modEv (s : State) (f : Events → Events) : State := { s with ev := f s.ev }
def State.drch (s : State) (n : Nat) : DrChan := tabGet {} s.dram.chans n
def State.modDrch (s : State) (n : Nat) (f : DrChan → DrChan) : State :=
  s.modDram (fun d => { d with chans := tabMod {} d.chans n f })
def State.island (s : State) (i : Nat) : Island := tabGet {} s.ev.islands i
def State.modIsland (s : State) (i : Nat) (f : Island → Island) : State :=
  s.modEv (fun e => { e with islands := tabMod {} e.islands i f })
def State.mbx (s : State) (m : Nat) : Mbx := s.ctl.mbx.getD m {}
def State.modMbx (s : State) (m : Nat) (f : Mbx → Mbx) : State :=
  s.modCtl (fun c => { c with mbx := modAt c.mbx m f })
def State.engine (s : State) (e : Nat) : Engine := s.cipher.engines.getD e {}
def State.modEngine (s : State) (e : Nat) (f : Engine → Engine) : State :=
  s.modCipher (fun c => { c with engines := modAt c.engines e f })
def State.fbank (s : State) (b : Nat) : FBank := s.flash.banks.getD b {}
def State.modFbank (s : State) (b : Nat) (f : FBank → FBank) : State :=
  s.modFlash (fun c => { c with banks := modAt c.banks b f })
def State.ns (s : State) (n : Nat) : Option Ns := lookupNat n s.ctl.nss
/-- The schedule is complete (R203). -/
def Sched.done (k : Sched) : Bool := decide (k.cursor ≥ k.extents.length)
def State.sched (s : State) (h : Nat) : Option Sched := lookupNat h s.ctl.scheds
def State.modSched (s : State) (h : Nat) (f : Sched → Sched) : State :=
  s.modCtl (fun c => { c with scheds := c.scheds.map (fun e => if e.1 = h then (e.1, f e.2) else e) })

/-- Append to what the block has sent. -/
def State.send (s : State) (o : Out) : State := { s with out := s.out ++ [o] }

/-- DEVTIME in ns (R23, R652): 0 before the first priming. -/
def State.devtime (s : State) : Nat :=
  match s.prime.primeAt with
  | some t => s.now - t
  | none => 0

/-- One draw of the random source, numbered. -/
def State.draw (s : State) : BitVec 512 × State := (Config.random s.draws, { s with draws := s.draws + 1 })

/-- One free value (log entry 4, DESIGN CHOICE). -/
def State.freeVal (s : State) : BitVec 64 × State := (Config.free s.draws, { s with draws := s.draws + 1 })

/-- A fresh number for a row operation, gather or held fetch. -/
def State.fresh (s : State) : Nat × State := (s.nextId, { s with nextId := s.nextId + 1 })

/-- R2: the role serves host data. -/
def State.serving (s : State) : Bool := s.twin.role == .active || s.twin.role == .solo

/-- TWIN_ROLE.ROLE encoding (R298). -/
def Role.code : Role → Nat
  | .priming => 0 | .active => 1 | .standby => 2 | .solo => 3 | .fenced => 4

/-- Easel key of group `g`, easel `e`. -/
def easelKey (g e : Nat) : Nat := g * 4096 + e

/-- R5: group, position and drawer of a media channel. -/
def chGroup (c : Nat) : Nat := c / 9
def chPos (c : Nat) : Nat := c % 9
def chDrawer (c : Nat) : Nat := c / 18
/-- R5: media clock island of a channel. -/
def chIsland (c : Nat) : Nat := c / 4
/-- Media channel at position `p` of group `g` (R5). -/
def grpChan (g p : Nat) : Nat := 9 * g + p
/-- R6: drawer of a group. -/
def grpDrawer (g : Nat) : Nat := g / 2
/-- R6: rail channel k of drawer d. -/
def drawerRail (d k : Nat) : Nat := 16 + 4 * d + k

/-! Events (R643 to R649). -/

/-- R643: reserved event numbers. -/
def eventReserved (x : Nat) : Bool :=
  decide (x ≥ 1003) || (decide (880 ≤ x) && decide (x ≤ 895)) || x == 974 || x == 975
    || (decide (988 ≤ x) && decide (x ≤ 991))
    || (decide (576 ≤ x) && decide (x ≤ 639) && (x - 576) % 8 == 7)
    || (decide (640 ≤ x) && decide (x ≤ 671) && (x - 640) % 8 == 7)
    || (decide (896 ≤ x) && decide (x ≤ 959) && decide ((x - 896) % 8 ≥ 4))

/-- R636: events whose record is critical. -/
def eventCritical (x : Nat) : Bool :=
  x == 872 || x == 873 || x == 994 || x == 996 || x == 998 || x == 1000 || x == 1002

/-- Route of event x; a reserved entry reads 0 in every field (R649). -/
def Events.route (e : Events) (x : Nat) : Route :=
  if eventReserved x then { cores := 0 } else tabGet {} e.routes x

/-- MSI-X table entry of vector v. -/
def Events.entry (e : Events) (v : Nat) : MsixEntry := tabGet {} e.table v

/-- R647: vector v cannot send now. -/
def State.vecMasked (s : State) (v : Nat) : Bool := (s.ev.entry v).mask || s.ev.funMask || s.host.d3

/-- R645, R647: send the message of vector v, or set its pending bit in place of sending. -/
def sendVector (v : Nat) (s : State) : State :=
  if s.vecMasked v then s.modEv (fun e => { e with pba := e.pba ||| (1#2048 <<< v) })
  else s.send (.msix v (s.ev.entry v).addr (s.ev.entry v).data)

/-- R644, R645: status bit, counts, delivery to cores and MSI-X, without the recorder record. -/
def raiseBits (x : Nat) (s : State) : State :=
  let was := s.ev.status.getLsbD x
  let r := s.ev.route x
  let s := s.modEv (fun e => { e with
    status := e.status ||| (1#1024 <<< x)
    counts := tabMod 0 e.counts x sat32
    last := x
    total := e.total + 1
    drop := if was then sat32 e.drop else e.drop })
  let s := forEach (setBits 4 r.cores) (fun n s => s.send (.core n x)) s
  if !was && r.msix && s.ev.evMsix then sendVector r.vec s else s

/-! The recorder (R634 to R639). -/

/-- Bytes of a record with its header (R634). -/
def Rec.len (r : Rec) : Nat := 16 + r.body.length

/-- Size of the SRAM ring (R637). -/
def ringSize : Nat := 1048576

/-- The next SEQ (R635). -/
def State.recSeq (s : State) : BitVec 64 := BitVec.ofNat 64 (s.prime.bootcnt.toNat * 4294967296 + s.test.seq.toNat)

/-- Bytes of the records of a ring. -/
def recBytes : List Rec → Nat
  | [] => 0
  | r :: t => r.len + recBytes t

/-- Drop records from the oldest until `room` bytes are free: the ring and how many records went. -/
def ringTrim : Nat → List Rec → List Rec × Nat
  | _, [] => ([], 0)
  | room, r :: t =>
    if recBytes (r :: t) + room ≤ ringSize then (r :: t, 0)
    else let (q, n) := ringTrim room t; (q, n + 1)

/-- Put one record into the ring, overwriting the oldest; answers how many records were overwritten
before they were spilled. -/
def ringAppend (r : Rec) (t : Test) : Test × Nat :=
  let (ring, gone) := ringTrim r.len t.ring
  let keep := ring.length
  let lostN := t.unspilled - keep
  let ptr := t.ringPtr + r.len
  ({ t with ring := ring ++ [r], unspilled := (t.unspilled - lostN) + 1
            ringPtr := if ptr ≥ ringSize then 0 else ptr }, if gone = 0 then 0 else lostN)

/-- R637: a record goes to the ring; a pad closes the ring's end when the record does not fit there. -/
def ringPut (r : Rec) (t : Test) : Test × Nat :=
  let left := ringSize - t.ringPtr
  if r.len ≤ left then ringAppend r t
  else if left < 16 then ringAppend r { t with ringPtr := 0 }
  else
    let (t, n) := ringAppend { seq := r.seq, ty := 0, src := 0xFFFF, crit := false,
                               body := List.replicate (left - 16) 0 } t
    let (t, m) := ringAppend r { t with ringPtr := 0 }
    (t, n + m)

/-- R590, R591: program the erase-log entry of a sector. A full triad is erased once the other one is current. -/
def FBank.logBegin (x : Nat) (k : FBank) : FBank :=
  let cur := if k.logCur = 0 then k.eraseLog.1 else k.eraseLog.2
  let k' : FBank := if cur.length < 8192 then k else
    { k with
      logCur := 1 - k.logCur
      queue := k.queue ++ [{ erase := true, sector := x / 512 * 512 + 233 + 3 * k.logCur, left := 2, purpose := .eraseLog }] }
  { k' with eraseLog := if k'.logCur = 0 then (k'.eraseLog.1 ++ [(x, false)], k'.eraseLog.2)
                        else (k'.eraseLog.1, k'.eraseLog.2 ++ [(x, false)]) }

/-- The first begun entry of a sector becomes done. -/
def logMark (x : Nat) : List (Nat × Bool) → List (Nat × Bool)
  | [] => []
  | e :: t => if e = (x, false) then (x, true) :: t else e :: logMark x t

/-- R590: after the sector verifies, its latest entry is programmed again as done. -/
def FBank.logDone (x : Nat) (k : FBank) : FBank :=
  let f := fun (l : List (Nat × Bool)) => (logMark x l.reverse).reverse
  let first := if k.logCur = 0 then k.eraseLog.1 else k.eraseLog.2
  let cur := if first.contains (x, false) then k.logCur else 1 - k.logCur
  { k with eraseLog := if cur = 0 then (f k.eraseLog.1, k.eraseLog.2) else (k.eraseLog.1, f k.eraseLog.2) }

/-- R581: the sector that holds the content of a sector now. -/
def FBank.place (k : FBank) (x : Nat) : Nat :=
  match k.spares.find? (fun e => e.2 == x) with
  | some e => e.1
  | none => x

/-- R587, R590: an operation takes the bank; an erase has its entry in the log first. -/
def FBank.take (o : FOp) (k : FBank) : FBank :=
  let o := { o with sector := k.place o.sector }
  let k := if o.erase ∧ o.pulses = 0 then k.logBegin o.sector else k
  { k with op := some o }

/-- Place of word `w` of the marker triad that a sector lies in (R578, R579). -/
def markPlace (sector w : Nat) : Nat := (sector % 512 - 224) / 3 * 8192 + w

/-- A marker word as it reads; an erased one is all ones. -/
def FBank.mark (k : FBank) (w : Nat) : BitVec 64 := tabGet (BitVec.allOnes 64) k.marks w

/-- R584: the marker words of a program that take a pulse, the next one first: a word that holds its value takes none. None
where the next one would change a bit from 0 to 1, which the flash refuses with NOT_ERASED. -/
def FBank.dueWords (k : FBank) : List (Nat × BitVec 64) → Option (List (Nat × BitVec 64))
  | [] => some []
  | (w, v) :: l =>
    if v = k.mark w then k.dueWords l
    else if v &&& ~~~k.mark w = 0 then some ((w, v) :: l)
    else none

/-- R584, R587: an operation takes the bank, but for a marker program without a word that takes a pulse. -/
def FBank.begin (o : FOp) (k : FBank) : Option FBank :=
  if o.words.isEmpty then some (FBank.take o k)
  else match k.dueWords o.words with
    | some (w :: l) => some (FBank.take { o with words := w :: l, left := l.length } k)
    | _ => none

/-- R588, R589: the first operation of the queue that takes the bank; after a power failure marker programs alone. -/
def FBank.startNext (fail : Bool) : List FOp → FBank → FBank
  | [], k => { k with queue := [] }
  | o :: q, k =>
    if fail && !o.marker then { k with queue := o :: q }
    else match FBank.begin o { k with queue := q } with
      | some k => k
      | none => FBank.startNext fail q k

/-- R588: start the next operation of an idle flash bank. -/
def flashStart (b : Nat) (s : State) : State :=
  let fail := s.power.pwrFail
  s.modFbank b (fun k => if k.op.isSome then k else FBank.startNext fail k.queue k)

/-- R588: queue a flash operation; a marker program of the power log, role record or erase log goes
ahead of queued image, configuration and recorder work. -/
def flashQueue (b : Nat) (o : FOp) (s : State) : State :=
  let s := s.modFbank b (fun k =>
    if o.marker then
      { k with queue := k.queue.filter (fun q => q.marker) ++ [o] ++ k.queue.filter (fun q => !q.marker) }
    else { k with queue := k.queue ++ [o] })
  flashStart b s

/-- The 64-bit marker words of a record (R578). -/
def recordWords (d : Bytes) : List (BitVec 64) :=
  (List.range (d.length / 8)).map (fun i => BitVec.ofNat 64 (leVal (slice d (8 * i) 8)))

/-- R578, R588: program words of a marker triad from word `w` on. -/
def flashMarks (b sector w : Nat) (p : FPurpose) (l : List (BitVec 64)) (s : State) : State :=
  flashQueue b { erase := false, sector := 512 * b + sector, left := l.length - 1, marker := true, purpose := p
                 words := l.zipIdx.map (fun e => (markPlace sector (w + e.2), e.1)) } s

/-- A ring of records over one triad of each bank (R519, R521): record `n` goes to its place; when it fills a triad, the
other one is erased for the records to come. -/
def flashRing (sector size n : Nat) (p e : FPurpose) (l : List (BitVec 64)) (s : State) : State :=
  let per := 8192 / size
  let bank := n / per % 2
  let s := flashMarks bank sector (n % per * size) p l s
  if n % per = per - 1 ∧ n ≥ per then
    flashQueue (1 - bank) { erase := true, sector := 512 * (1 - bank) + sector, left := 2, purpose := e } s
  else s

/-- Bytes of the critical store (R638): 64 sectors of each bank. -/
def critSize : Nat := 128 * 65536

/-- Bank and global sector of a byte of the critical store (R579, R638). -/
def critSector (p : Nat) : Nat × Nat :=
  let k := p / 65536
  (k / 64, 512 * (k / 64) + 160 + k % 64)

/-- R638: append a critical record to the critical store; answers whether a sector was erased for it. -/
def critPut (r : Rec) (s : State) : State × Bool :=
  let p := s.test.critPtr
  let stop := p + r.len
  let sec := (stop - 1) / 65536
  let fresh := p % 65536 = 0 ∨ sec ≠ p / 65536
  let old := s.test.critical.filter (fun e => e.1 / 65536 == sec % 128)
  let erase := decide fresh && !old.isEmpty
  let s := s.modTest (fun t => { t with
    critical := (if erase then t.critical.filter (fun e => e.1 / 65536 != sec % 128) else t.critical) ++ [(p, r)]
    critPtr := stop % critSize })
  let (eb, es) := critSector (sec * 65536 % critSize)
  let s := if erase then flashQueue eb { erase := true, sector := es, left := 0, purpose := .criticalErase } s else s
  let (b, g) := critSector p
  (flashQueue b { erase := false, sector := g, left := (r.len / 8) - 1, purpose := .critical r.seq } s, erase)

/-- R635, R637, R639: one record into ring and critical store. Answers the state, how many unspilled
records it overwrote, and whether a critical sector was erased. -/
def recPut (ty src : Nat) (crit : Bool) (body : Bytes) (s : State) : State × Nat × Bool :=
  if !s.test.recRun then (s, 0, false)
  else
    let r : Rec := { seq := s.recSeq, ty, src, crit, body }
    let s := s.modTest (fun t => { t with seq := t.seq + 1 })
    let (s, lostN) :=
      if s.test.frozen then
        (s.modTest (fun t => { t with
          lost := sat16 t.lost
          dropped := match t.dropped with
            | none => some (r.seq, r.seq, 1)
            | some (a, _, n) => some (a, r.seq, n + 1) }), 0)
      else
        let (t, n) := ringPut r s.test
        ({ s with test := { t with lost := Nat.min 65535 (t.lost + n) } }, n)
    if crit then let (s, e) := critPut r s; (s, lostN, e) else (s, lostN, false)

/-- Body of an event record: event, unit, 8 bytes of detail (log entry 12, DESIGN CHOICE). -/
def eventBody (x unit detail : Nat) : Bytes := leBytes 2 x ++ leBytes 2 unit ++ leBytes 4 0 ++ leBytes 8 detail

/-- Body of a drop record (R636). -/
def dropBody (count : Nat) (first last : BitVec 64) : Bytes :=
  leBytes 4 count ++ leBytes 4 0 ++ leBytes 8 first.toNat ++ leBytes 8 last.toNat

/-- R636 to R638: one record, with the drop record and events 985 and 986 that it brings about. -/
def record (ty src : Nat) (crit : Bool) (body : Bytes) (s : State) : State :=
  let oldest := match s.test.ring with | r :: _ => r.seq | [] => 0
  let (s, n, e) := recPut ty src crit body s
  let s := if n = 0 then s else
    let s := (recPut 2 0xFFFF false (dropBody n oldest (oldest + BitVec.ofNat 64 (n - 1))) s).1
    let s := raiseBits 985 s
    (recPut 1 985 false (eventBody 985 0 n) s).1
  if e then (recPut 1 986 false (eventBody 986 0 0) (raiseBits 986 s)).1 else s

/-- R644: raise event x for a unit, with detail. R21: a reserved number is never raised. -/
def raiseWith (x unit detail : Nat) (s : State) : State :=
  if eventReserved x then s
  else record 1 x (eventCritical x) (eventBody x unit detail) (raiseBits x s)

/-- R644 with no detail. -/
def raise (x : Nat) (s : State) : State := raiseWith x 0 0 s

/-! Power log (R519, R520). -/

/-- RL_STAT.STATE encoding (R524). -/
def RailSt.code : RailSt → Nat
  | .off => 0 | .ramping => 1 | .good => 2 | .falling => 3 | .discharging => 4 | .failed => 5 | .unused => 6

/-- Bytes of a power-log record before its zero bytes (R519). The bytes after JTEMP are those of log entry 88, DESIGN CHOICE. -/
def PlogRec.bytes (r : PlogRec) : Bytes :=
  let b := [0x50, 0x4C, 0x4F, 0x47] ++ leBytes 4 r.bootcnt ++ leBytes 8 r.devtime ++ leBytes 8 r.pseq
    ++ [BitVec.ofNat 8 r.kind, BitVec.ofNat 8 r.firstRail, BitVec.ofNat 8 r.firstCause, BitVec.ofNat 8 r.wlstate,
      BitVec.ofNat 8 r.parts, BitVec.ofNat 8 r.stuck] ++ leBytes 2 r.flags ++ leBytes 8 r.dirty ++ leBytes 8 r.drainNs
    ++ leBytes 8 0 ++ leBytes 8 0
  let b := b ++ r.railMv.flatMap (leBytes 2) ++ r.railSt.flatMap (leBytes 1)
  b ++ leBytes 4 r.cisMv ++ leBytes 4 r.cisCap ++ leBytes 4 r.cisEsr ++ leBytes 4 r.emeas ++ leBytes 4 r.vinMv
    ++ r.jtemp.flatMap (fun t => leBytes 2 t.toNat)

/-- The 72 words of a power-log record before COMMIT (R519). -/
def PlogRec.words (r : PlogRec) : List (BitVec 64) :=
  recordWords ((r.bytes ++ List.replicate 576 0).take 576)

/-- R519: the records of the power log whose COMMIT word reads zero, newest first. -/
def State.plogValid (s : State) : List PlogRec :=
  s.power.plog.filter (fun r => (s.fbank (r.pseq / 112 % 2)).mark (markPlace 224 (r.pseq % 112 * 73 + 72)) == 0)

/-- R519, R520: write a power-log record of a kind, with drain flags (bit 0 complete, bit 1 incomplete)
and the present snapshot; the two flash triads carry the ring, 112 records each (R521). -/
def powerLogF (kind flags : Nat) (s : State) : State :=
  let p := s.power
  let r : PlogRec := {
    bootcnt := s.prime.bootcnt.toNat, devtime := s.devtime, pseq := p.pseq, kind
    firstRail := p.firstRail, firstCause := p.firstCause, wlstate := p.wl, parts := p.parts, stuck := p.stuck
    flags := flags + 4 * bit p.usedDis
    dirty := p.drainInfo.1, drainNs := p.drainInfo.2
    railMv := (List.range 48).map (fun i => (s.rail i).mv)
    railSt := (List.range 48).map (fun i => (s.rail i).st.code)
    cisMv := p.cisMv, cisCap := p.cap, cisEsr := p.esr, emeas := p.emeas, vinMv := p.vinMv, jtemp := p.jtemp }
  let full := p.pseq % 112 = 111
  let s := s.modPower (fun p => { p with plog := if full then (r :: p.plog).take 112 else r :: p.plog, pseq := p.pseq + 1 })
  flashRing 224 73 p.pseq .plog .plogErase (r.words ++ [0]) s

/-- R519, R520: a power-log record of a kind, outside a drain. -/
def powerLog (kind : Nat) (s : State) : State := powerLogF kind 0 s

/-! Completion of commands (R429 to R440). -/

/-- STATUS codes (R446). -/
def stOk : Nat := 0
def stBusy : Nat := 1
def stInvalid : Nat := 2
def stRefused : Nat := 3
def stAborted : Nat := 4
def stNotFound : Nat := 5
def stLifecycle : Nat := 6
def stMediaError : Nat := 7
def stTimeout : Nat := 8
def stRole : Nat := 9

/-- R429: the entries of a response. -/
def rspEntries (r : Rsp) : List FEntry :=
  let n := Nat.max 1 (ceilDiv r.block.length 56)
  (List.range n).map (fun i =>
    leBytes 2 r.code ++ leBytes 2 r.tag.toNat ++ leBytes 1 n ++ leBytes 1 i ++ leBytes 1 r.status
      ++ leBytes 1 r.rflags ++ slice r.block (56 * i) 56)

/-- First twin port in service. -/
def State.twinUp (s : State) : Option Nat := [0, 1, 2, 3].find? (fun t => (s.tport t).st == 2)

/-- R246: the whole pieces of a port's frame stream go out, each on the next lane; a lane sends an alignment codeword
before each nineteen. -/
def cutPieces : Nat → Nat → State → State
  | 0, _, s => s
  | n + 1, t, s =>
    let p := s.tport t
    if p.lane.length < 320 then s
    else
      let l := p.pieces % 4
      let s := if p.pieces / 4 % 19 = 0 then s.send (.twinAlign t l s.twin.pair) else s
      cutPieces n t ((s.send (.twinPiece t l (laneCodeword (p.lane.take 320)))).modTport t (fun p => { p with
        lane := p.lane.drop 320, pieces := p.pieces + 1 }))

/-- R246: bytes enter a port's frame stream. -/
def laneBytes (t : Nat) (b : Bytes) (s : State) : State :=
  let s := s.modTport t (fun p => { p with lane := p.lane ++ b })
  cutPieces ((s.tport t).lane.length / 320) t s

/-- R246, R249: one frame on a port. -/
def sendFrame (t : Nat) (h : TwinHead) (b : TwinBody) (s : State) : State :=
  laneBytes t (frameBytes h b) (s.send (.twin t h.ctrl h.epoch h.lsn h.lseq (if h.lackv then some h.lack else none)
    (if h.lnakv then some h.lack else none) b))

/-- R246: the lanes run on while no frame comes: zero bytes, which begin no frame, fill the piece begun (log entry 127,
DESIGN CHOICE). -/
def fillLanes (s : State) : State :=
  forEach ([0, 1, 2, 3].filter (fun t => (s.tport t).st == 2 && !(s.tport t).lane.isEmpty)) (fun t s =>
    laneBytes t (List.replicate (320 - (s.tport t).lane.length) 0) s) s

/-- LSN field of a frame that is not LOG: highest LSN logged by a serving twin, applied by another (R249). -/
def State.frameLsn (s : State) : Lsn := if s.serving then s.twin.sent else s.twin.applied

/-- Send a control frame on one port (R249, R251). -/
def ctlOn (t : Nat) (b : TwinBody) (s : State) : State :=
  sendFrame t { ctrl := true, epoch := s.twin.epoch, lsn := s.frameLsn, lseq := 0 } b s

/-- R421, R450, R453: write a response. Mailbox 4 carries it as an MCTP message, mailbox 5 as MAILBOX
frames of the control lane; the others keep it in the response FIFO. -/
def respond (m : Nat) (r : Rsp) (s : State) : State :=
  let es := rspEntries r
  let was := (s.mbx m).rsps.isEmpty
  let s :=
    if m = 4 then s.send (.mctp 0x7E es.flatten)
    else if m = 5 then
      match s.twinUp with
      | some t => forEach es (fun e s => ctlOn t (.mailboxRsp e) s) s
      | none => s
    else s.modMbx m (fun b => { b with rsps := b.rsps ++ es })
  let s := if was then raiseWith (896 + 8 * m) m r.code s else s
  if r.status = stRefused then raiseWith (896 + 8 * m + 3) m r.code s else s

/-- Result blocks by status (R430's section). -/
def blkBusy (hint : Nat) : Bytes := leBytes 4 (Nat.min hint 4294967295)
def blkRefused (reason unit : Nat) : Bytes := leBytes 2 reason ++ leBytes 2 unit
def blkMedia (off : Nat) : Bytes := leBytes 4 off
def State.blkRole (s : State) : Bytes := leBytes 4 s.twin.role.code ++ leBytes 4 s.twin.epoch.toNat

/-- R437: the status record of a command's end. -/
def statusEnd (r : Running) (status rflags reason : Nat) (s : State) : State :=
  s.modCtl (fun c => { c with status := c.status.map (fun e =>
    if e.mbx = r.mbx ∧ e.code = r.code ∧ e.tag = r.tag ∧ e.status = none
    then { e with status := some status, rflags, reason } else e) })

/-- R439: the completion writer. A marked long-running command ends ABORTED before its point of no
return, and normally with ABORT_LATE after it. -/
def finishWith (r : Running) (status : Nat) (block : Bytes) (s : State) : State :=
  let abort := r.marked && !r.past && r.kind == .long
  let status := if abort then stAborted else status
  let block := if abort then [] else block
  let rflags := bit (r.marked && r.past) + 2 * bit (r.kind == .long)
  let reason := if status = stRefused then leVal (block.take 2) else 0
  let s := s.modCtl (fun c => { c with running := c.running.filter (fun q => q.id != r.id) })
  let s := s.modMbx r.mbx (fun b => { b with reserved := b.reserved - r.rsv })
  let s := if r.kind == .immediate then s else statusEnd r status rflags reason s
  if r.orphan then s else respond r.mbx { code := r.code, tag := r.tag, status, rflags, block } s

/-- End the command numbered `id`, if it still runs. -/
def finish (id status : Nat) (block : Bytes) (s : State) : State :=
  match s.ctl.running.find? (fun r => r.id == id) with
  | some r => finishWith r status block s
  | none => s

/-- End each of several commands. -/
def finishAll (ids : List Nat) (status : Nat) (block : Bytes) (s : State) : State :=
  forEach ids (fun i s => finish i status block s) s

/-- Mark a command as past its point of no return. -/
def setPast (id : Nat) (s : State) : State :=
  s.modCtl (fun c => { c with running := c.running.map (fun r => if r.id = id then { r with past := true } else r) })

/-- True when the command numbered `id` is marked for abort and not past its point of no return. -/
def State.abortable (s : State) (id : Nat) : Bool :=
  s.ctl.running.any (fun r => r.id == id && r.marked && !r.past)

end Sys2Proof.Machine
end

