-- ==== Sys2Proof/Machine/MbxOps.lean ====
section
/-! DEFINITION. Mailbox FIFOs, ownership and framing (R419 to R430), and the command table (R441). -/

namespace Sys2Proof.Machine

open Sys2Proof

/-- Entries of a FIFO (R419). -/
def fifoSize : Nat := 32

/-- Kind of a command of the command table; none for a reserved code (R22, R441). REGISTER_GRANT stands as immediate. -/
def cmdKind (code : Nat) : Option CmdKind :=
  let g := code / 256
  let c := code % 256
  let upTo := fun (n : Nat) (l w : List Nat) => if c = 0 ∨ c > n then none
    else if l.contains c then some CmdKind.long else if w.contains c then some .waiting else some .immediate
  match g with
  | 0x00 => upTo 3 [] []
  | 0x01 => upTo 0xC [] []
  | 0x02 => upTo 9 [1] [8, 9]
  | 0x03 => upTo 4 [1] [2]
  | 0x04 => upTo 7 [2] [6]
  | 0x05 => upTo 5 [1] [2]
  | 0x06 => upTo 9 [1, 2, 3, 4] [5, 6, 7]
  | 0x07 => upTo 5 [] []
  | 0x08 => upTo 3 [] []
  | 0x09 => upTo 5 [3] []
  | 0x0A => upTo 2 [1] []
  | _ => none

/-- R441: mailboxes that accept a group. -/
def groupMbx (code m : Nat) : Bool :=
  match code / 256 with
  | 0x00 => true
  | 0x01 | 0x02 => decide (m ≤ 3) || m == 6 || m == 7
  | 0x03 | 0x06 | 0x08 | 0x09 => m != 5
  | 0x04 | 0x07 => decide (m ≤ 3)
  | 0x05 => m != 5 || code == 0x0505
  | _ => m == 4 || m == 6 || m == 7

/-- R441: life-cycle states in which a group is allowed. -/
def groupLc (code : Nat) (l : LcState) : Bool :=
  match code / 256 with
  | 0x00 | 0x08 => true
  | 0x02 | 0x03 => l == .provision || l == .deployed
  | 0x04 | 0x07 => l == .deployed
  | _ => l != .endOfLife

/-! FIFOs. -/

/-- R414, R426: both FIFOs of a mailbox are emptied; responses of commands already taken are discarded. -/
def mbxEmpty (m : Nat) (s : State) : State :=
  let s := s.modMbx m (fun b => { b with cmds := [], rsps := [], reserved := 0 })
  s.modCtl (fun c => { c with running := c.running.map (fun r => if r.mbx = m then { r with orphan := true, rsv := 0 } else r) })

/-- R426: a mailbox loses its owner and its FIFOs are emptied. -/
def mbxRelease (m : Nat) (s : State) : State := mbxEmpty m (s.modMbx m (fun b => { b with token := 0, leaseEnd := 0, eid := 0 }))

/-- R420: the pointer copies of a FIFO are compared; one that disagrees empties its FIFO. -/
def ptrCheck (m : Nat) (s : State) : State :=
  let b := s.mbx m
  if b.ptrOk = (true, true) then s
  else
    raiseWith (896 + 8 * m + 2) m 0 (s.modMbx m (fun b => { b with
      cmds := if b.ptrOk.1 then b.cmds else [], rsps := if b.ptrOk.2 then b.rsps else [], ptrOk := (true, true), ptrErr := true }))

/-- R419, R421: a push into a full FIFO is ignored and sets OVERRUN. -/
def setOverrun (m : Nat) (s : State) : State :=
  if (s.mbx m).overrun then s else raiseWith (896 + 8 * m + 1) m 0 (s.modMbx m (fun b => { b with overrun := true }))

/-! Framing (R429, R430). -/

/-- Fields of an entry header. -/
def entCode (e : FEntry) : Nat := leVal (slice e 0 2)
def entTag (e : FEntry) : Nat := leVal (slice e 2 2)
def entNent (e : FEntry) : Nat := leVal (slice e 4 1)
def entSeq (e : FEntry) : Nat := leVal (slice e 5 1)
def entRsv (e : FEntry) : Nat := leVal (slice e 6 2)

/-- Bytes of a command's parameter block, where the manual lays the block out: commands without parameters, ABORT's TAG and
PARK_DRAWER's drawer, and LC_ADVANCE with ILEN bytes of item data (R626). Other blocks' lengths are left open (log entry 110, DEDUCED). -/
def blockLen (h : FEntry) : Option Nat :=
  match entCode h with
  | 0x0001 | 0x0501 | 0x0502 | 0x0505 | 0x0604 | 0x0609 | 0x0801 | 0x0802 | 0x0905 | 0x0A02 => some 0
  | 0x0301 => some 1
  | 0x0003 => some 2
  | 0x0A01 => some (200 + leVal (slice h 10 2))
  | _ => none

/-- R430: no byte of entry number `i` beyond the defined parameters is set. -/
def blockOk (h e : FEntry) (i : Nat) : Bool :=
  match blockLen h with
  | some n => (e.drop (8 + (n - 56 * i))).all (· == 0)
  | none => true

/-- R430: entry number `i` of the command that `h` heads has no framing fault. -/
def entryOk (h e : FEntry) (i : Nat) : Bool :=
  entCode e == entCode h && entTag e == entTag h && entNent e == entNent h && entSeq e == i && entRsv e == 0
    && decide (1 ≤ entNent h) && decide (entNent h ≤ 16) && blockOk h e i

/-- Index of the first faulty entry of the command at a FIFO's head; none while no fault shows. A reserved code is a
fault of the first entry (R22). -/
def headFault (l : List FEntry) : Option Nat :=
  match l with
  | [] => none
  | h :: _ =>
    if (cmdKind (entCode h)).isNone then some 0
    else (List.range (Nat.min l.length (Nat.max 1 (entNent h)))).find? (fun i => !entryOk h (l.getD i []) i)

/-- R422: response entries free for a further command. -/
def rspRoom (b : Mbx) : Nat := fifoSize - b.rsps.length - b.reserved

/-- R430: answer faulty commands at the head of a command FIFO INVALID, as room for answers allows. -/
def framingAux : Nat → Nat → State → State
  | 0, _, s => s
  | n + 1, m, s =>
    let b := s.mbx m
    match b.cmds, headFault b.cmds with
    | h :: _, some i =>
      if rspRoom b = 0 then s
      else
        let s := s.modMbx m (fun b => { b with cmds := b.cmds.drop (i + 1) })
        framingAux n m (respond m { code := entCode h, tag := BitVec.ofNat 16 (entTag h), status := stInvalid } s)
    | _, _ => s

/-- R430. -/
def framing (m : Nat) (s : State) : State := framingAux (s.mbx m).cmds.length m s

/-- R419, R424: append one entry to a command FIFO; answers whether it was accepted. -/
def mbxPush (m : Nat) (e : FEntry) (s : State) : State × Bool :=
  let s := ptrCheck m s
  if (s.mbx m).cmds.length ≥ fifoSize then (setOverrun m s, false)
  else (framing m (s.modMbx m (fun b => { b with cmds := b.cmds ++ [e] })), true)

/-- R431: the entries of a command taken leave the head of its FIFO, where they stand there. -/
def mbxTake (m code tag nent : Nat) (s : State) : State :=
  match (s.mbx m).cmds with
  | h :: _ =>
    if entCode h = code ∧ entTag h = tag then
      framing m (s.modMbx m (fun b => { b with cmds := b.cmds.drop (Nat.min nent (entNent h)) }))
    else s
  | [] => s

end Sys2Proof.Machine
end

