-- ==== Sys2Proof/Machine/Aes.lean ====
section
/-! DEFINITION. AES (FIPS 197), AES-CMAC and the counter-mode key derivation of R461, and AES-XTS of one block as R463
uses it. -/

namespace Sys2Proof.Machine

open Sys2Proof

/-! The field of AES, x^8 + x^4 + x^3 + x + 1. -/

/-- Multiplication by x. -/
def aesDouble (a : Byte) : Byte := if a.msb then (a <<< 1) ^^^ 0x1B else a <<< 1

/-- Product by a constant below 16. -/
def aesTimes (m : Nat) (x : Byte) : Byte :=
  let term := fun (i : Nat) => if m.testBit i then x else 0
  aesDouble (aesDouble (aesDouble (term 3) ^^^ term 2) ^^^ term 1) ^^^ term 0

/-- The substitution table of the standard. -/
def sbox : Bytes :=
  [0x63, 0x7C, 0x77, 0x7B, 0xF2, 0x6B, 0x6F, 0xC5, 0x30, 0x01, 0x67, 0x2B, 0xFE, 0xD7, 0xAB, 0x76]
  ++ [0xCA, 0x82, 0xC9, 0x7D, 0xFA, 0x59, 0x47, 0xF0, 0xAD, 0xD4, 0xA2, 0xAF, 0x9C, 0xA4, 0x72, 0xC0]
  ++ [0xB7, 0xFD, 0x93, 0x26, 0x36, 0x3F, 0xF7, 0xCC, 0x34, 0xA5, 0xE5, 0xF1, 0x71, 0xD8, 0x31, 0x15]
  ++ [0x04, 0xC7, 0x23, 0xC3, 0x18, 0x96, 0x05, 0x9A, 0x07, 0x12, 0x80, 0xE2, 0xEB, 0x27, 0xB2, 0x75]
  ++ [0x09, 0x83, 0x2C, 0x1A, 0x1B, 0x6E, 0x5A, 0xA0, 0x52, 0x3B, 0xD6, 0xB3, 0x29, 0xE3, 0x2F, 0x84]
  ++ [0x53, 0xD1, 0x00, 0xED, 0x20, 0xFC, 0xB1, 0x5B, 0x6A, 0xCB, 0xBE, 0x39, 0x4A, 0x4C, 0x58, 0xCF]
  ++ [0xD0, 0xEF, 0xAA, 0xFB, 0x43, 0x4D, 0x33, 0x85, 0x45, 0xF9, 0x02, 0x7F, 0x50, 0x3C, 0x9F, 0xA8]
  ++ [0x51, 0xA3, 0x40, 0x8F, 0x92, 0x9D, 0x38, 0xF5, 0xBC, 0xB6, 0xDA, 0x21, 0x10, 0xFF, 0xF3, 0xD2]
  ++ [0xCD, 0x0C, 0x13, 0xEC, 0x5F, 0x97, 0x44, 0x17, 0xC4, 0xA7, 0x7E, 0x3D, 0x64, 0x5D, 0x19, 0x73]
  ++ [0x60, 0x81, 0x4F, 0xDC, 0x22, 0x2A, 0x90, 0x88, 0x46, 0xEE, 0xB8, 0x14, 0xDE, 0x5E, 0x0B, 0xDB]
  ++ [0xE0, 0x32, 0x3A, 0x0A, 0x49, 0x06, 0x24, 0x5C, 0xC2, 0xD3, 0xAC, 0x62, 0x91, 0x95, 0xE4, 0x79]
  ++ [0xE7, 0xC8, 0x37, 0x6D, 0x8D, 0xD5, 0x4E, 0xA9, 0x6C, 0x56, 0xF4, 0xEA, 0x65, 0x7A, 0xAE, 0x08]
  ++ [0xBA, 0x78, 0x25, 0x2E, 0x1C, 0xA6, 0xB4, 0xC6, 0xE8, 0xDD, 0x74, 0x1F, 0x4B, 0xBD, 0x8B, 0x8A]
  ++ [0x70, 0x3E, 0xB5, 0x66, 0x48, 0x03, 0xF6, 0x0E, 0x61, 0x35, 0x57, 0xB9, 0x86, 0xC1, 0x1D, 0x9E]
  ++ [0xE1, 0xF8, 0x98, 0x11, 0x69, 0xD9, 0x8E, 0x94, 0x9B, 0x1E, 0x87, 0xE9, 0xCE, 0x55, 0x28, 0xDF]
  ++ [0x8C, 0xA1, 0x89, 0x0D, 0xBF, 0xE6, 0x42, 0x68, 0x41, 0x99, 0x2D, 0x0F, 0xB0, 0x54, 0xBB, 0x16]

/-- The substitution of a byte. -/
def subByte (a : Byte) : Byte := sbox.getD a.toNat 0

/-- Its inverse. -/
def subByteInv (a : Byte) : Byte := BitVec.ofNat 8 (sbox.idxOf a)

/-! The cipher. A block is 16 bytes, in the order of the standard's columns. -/

/-- x^n, the round constants. -/
def aesRcon : Nat → Byte
  | 0 => 1
  | n + 1 => aesDouble (aesRcon n)

/-- The next word of the key schedule of a key of `nk` words. -/
def nextKeyWord (nk : Nat) (w : List Bytes) : Bytes :=
  let i := w.length
  let t := w.getD (i - 1) []
  let t := if i % nk = 0 then xorBytes ((slice t 1 3 ++ slice t 0 1).map subByte) [aesRcon (i / nk - 1), 0, 0, 0]
    else if nk = 8 ∧ i % nk = 4 then t.map subByte else t
  xorBytes (w.getD (i - nk) []) t

/-- `n` further words of the schedule. -/
def moreKeyWords (nk : Nat) : Nat → List Bytes → List Bytes
  | 0, w => w
  | n + 1, w => moreKeyWords nk n (w ++ [nextKeyWord nk w])

/-- Rounds by the length of the key in words. -/
def aesRounds (nk : Nat) : Nat := nk + 6

/-- The round keys of a key of 16 or 32 bytes, in order. -/
def aesKeys (key : Bytes) : List Bytes :=
  let nk := key.length / 4
  let w := moreKeyWords nk (4 * (aesRounds nk + 1) - nk) ((List.range nk).map (fun i => slice key (4 * i) 4))
  (List.range (aesRounds nk + 1)).map (fun r => (List.range 4).flatMap (fun c => w.getD (4 * r + c) []))

/-- Row r of the block moves r places. -/
def shiftRows (b : Bytes) : Bytes := (List.range 16).map (fun i => b.getD ((i + 4 * (i % 4)) % 16) 0)

/-- Its inverse. -/
def shiftRowsInv (b : Bytes) : Bytes := (List.range 16).map (fun i => b.getD ((i + 12 * (i % 4)) % 16) 0)

/-- One column times a circulant matrix with the first row `m`. -/
def mixColumn (m : List Nat) (c : Bytes) : Bytes :=
  (List.range 4).map (fun i => (List.range 4).foldl (fun acc k => acc ^^^ aesTimes (m.getD ((k + 4 - i) % 4) 0) (c.getD k 0)) 0)

/-- Each column of a block. -/
def mixWith (m : List Nat) (b : Bytes) : Bytes := (List.range 4).flatMap (fun c => mixColumn m (slice b (4 * c) 4))

/-- Encryption of one block. -/
def aesEncrypt (key b : Bytes) : Bytes :=
  let ks := aesKeys key
  let n := ks.length - 1
  let mid := (ks.drop 1).take (n - 1)
  let b := mid.foldl (fun b k => xorBytes (mixWith [2, 3, 1, 1] (shiftRows (b.map subByte))) k) (xorBytes b (ks.getD 0 []))
  xorBytes (shiftRows (b.map subByte)) (ks.getD n [])

/-- Decryption of one block. -/
def aesDecrypt (key b : Bytes) : Bytes :=
  let ks := (aesKeys key).reverse
  let n := ks.length - 1
  let mid := (ks.drop 1).take (n - 1)
  let b := mid.foldl (fun b k => mixWith [14, 11, 13, 9] (xorBytes ((shiftRowsInv b).map subByteInv) k)) (xorBytes b (ks.getD 0 []))
  xorBytes ((shiftRowsInv b).map subByteInv) (ks.getD n [])

/-! CMAC (NIST SP 800-38B) and the key derivation of R461. -/

/-- Doubling of a 16-byte string, most significant byte first. -/
def cmacDouble (b : Bytes) : Bytes :=
  let v := BitVec.ofNat 128 (beVal b)
  beBytes 16 (if v.msb then (v <<< 1) ^^^ 0x87 else v <<< 1).toNat

/-- AES-CMAC of a message. -/
def cmac (key msg : Bytes) : Bytes :=
  let k1 := cmacDouble (aesEncrypt key (List.replicate 16 0))
  let n := Nat.max 1 ((msg.length + 15) / 16)
  let tail := msg.drop (16 * (n - 1))
  let last := if tail.length = 16 then xorBytes tail k1
    else xorBytes (slice (tail ++ [0x80]) 0 16) (cmacDouble k1)
  let c := (List.range (n - 1)).foldl (fun c i => aesEncrypt key (xorBytes c (slice msg (16 * i) 16))) (List.replicate 16 0)
  aesEncrypt key (xorBytes c last)

/-- R461: output block `i` of the derivation. -/
def kdfBlock (ki label context : Bytes) (i : Nat) : Bytes :=
  cmac ki (leBytes 1 i ++ label ++ [0x00] ++ context ++ [0x01, 0x00])

/-- R461: the 32-byte result, block 1 followed by block 2. -/
@[irreducible] def kdf (ki label context : Bytes) : Bytes := kdfBlock ki label context 1 ++ kdfBlock ki label context 2

/-- The bytes of an ASCII string. -/
def asciiBytes (t : String) : Bytes := t.toList.map (fun c => BitVec.ofNat 8 c.toNat)

/-! XTS (R462, R463). -/

/-- Multiplication of a tweak value by α: byte 0 is the least significant. -/
def tweakDouble (t : Bytes) : Bytes :=
  let v := BitVec.ofNat 128 (leVal t)
  leBytes 16 (if v.msb then (v <<< 1) ^^^ 0x87 else v <<< 1).toNat

/-- T ⊗ α^j. -/
def tweakAt (t : Bytes) : Nat → Bytes
  | 0 => t
  | j + 1 => tweakDouble (tweakAt t j)

/-- R463: the tweak value of block `j` under the key pair K1 ‖ K2, for the tweak number `n`. -/
def xtsTweak (key : Bytes) (n j : Nat) : Bytes := tweakAt (aesEncrypt (slice key 32 32) (leBytes 16 n)) j

/-- R463: XTS-AES-256 of one block: key pair, tweak number, block number, block with byte 0 least significant. -/
@[irreducible] def xtsEncrypt (key : Bytes) (n j : Nat) (p : BitVec 128) : BitVec 128 :=
  let t := xtsTweak key n j
  BitVec.ofNat 128 (leVal (xorBytes (aesEncrypt (slice key 0 32) (xorBytes (leBytes 16 p.toNat) t)) t))

/-- R463: the inverse of `xtsEncrypt`. -/
@[irreducible] def xtsDecrypt (key : Bytes) (n j : Nat) (c : BitVec 128) : BitVec 128 :=
  let t := xtsTweak key n j
  BitVec.ofNat 128 (leVal (xorBytes (aesDecrypt (slice key 0 32) (xorBytes (leBytes 16 c.toNat) t)) t))

end Sys2Proof.Machine
end

