-- ==== Sys2Proof/Machine/Gcm.lean ====
section
/-! DEFINITION. AES-256-GCM (NIST SP 800-38D) with a 96-bit nonce and a 128-bit tag (R310), AES Key Wrap (RFC 3394) and
AES Key Wrap with Padding (RFC 5649), which R472 accepts, and the Internet checksum of UDP (R302). -/

namespace Sys2Proof.Machine

open Sys2Proof

/-! GCM. The first bit of a block is the most significant bit of its first byte. -/

/-- One step of a product: bit `i` of `x` adds the multiple `v` of the other factor, which then moves on. -/
def ghashStep (x : BitVec 128) (zv : BitVec 128 × BitVec 128) (i : Nat) : BitVec 128 × BitVec 128 :=
  let (z, v) := zv
  (if x.getMsbD i then z ^^^ v else z, if v.getLsbD 0 then (v >>> 1) ^^^ (0xE1#128 <<< 120) else v >>> 1)

/-- Product in the field of GHASH. -/
def ghashMul (x y : BitVec 128) : BitVec 128 := ((List.range 128).foldl (ghashStep x) (0, y)).1

/-- A byte string in blocks of 16, the last one filled with zeros. -/
def blocks16 (b : Bytes) : List Bytes := (List.range (ceilDiv b.length 16)).map (fun i => slice b (16 * i) 16)

/-- GHASH under the hash subkey `h`. -/
def ghash (h : BitVec 128) (l : List Bytes) : BitVec 128 :=
  l.foldl (fun y b => ghashMul (y ^^^ BitVec.ofNat 128 (beVal b)) h) 0

/-- R460: the hash subkey of a key. -/
def gcmSubkey (key : Bytes) : BitVec 128 := BitVec.ofNat 128 (beVal (aesEncrypt key (List.replicate 16 0)))

/-- Counter block `n` of a nonce. -/
def gcmCounter (nonce : BitVec 96) (n : Nat) : Bytes := beBytes 12 nonce.toNat ++ beBytes 4 n

/-- R310: the payload with the key stream of a nonce: encryption, and decryption too. -/
@[irreducible] def gcmCrypt (key : Bytes) (nonce : BitVec 96) (data : Bytes) : Bytes :=
  (List.range (ceilDiv data.length 16)).flatMap (fun i =>
    xorBytes ((data.drop (16 * i)).take 16) ((aesEncrypt key (gcmCounter nonce (2 + i))).take (data.length - 16 * i)))

/-- R310: the tag over the authenticated data and the ciphertext. -/
@[irreducible] def gcmTag (key : Bytes) (nonce : BitVec 96) (aad text : Bytes) : BitVec 128 :=
  let lens := beBytes 8 (8 * aad.length) ++ beBytes 8 (8 * text.length)
  ghash (gcmSubkey key) (blocks16 aad ++ blocks16 text ++ [lens])
    ^^^ BitVec.ofNat 128 (beVal (aesEncrypt key (gcmCounter nonce 1)))

/-! Key wrap (R472). A wrapped key is the register A followed by `n` semiblocks of 8 bytes. -/

/-- Step `t` of the wrapping, counted from 1. -/
def wrapStep (kek : Bytes) (n : Nat) (x : Bytes × List Bytes) (t : Nat) : Bytes × List Bytes :=
  let i := (t - 1) % n
  let b := aesEncrypt kek (x.1 ++ x.2.getD i [])
  (xorBytes (slice b 0 8) (beBytes 8 t), x.2.set i (slice b 8 8))

/-- Its inverse. -/
def unwrapStep (kek : Bytes) (n : Nat) (x : Bytes × List Bytes) (t : Nat) : Bytes × List Bytes :=
  let i := (t - 1) % n
  let b := aesDecrypt kek (xorBytes x.1 (beBytes 8 t) ++ x.2.getD i [])
  (slice b 0 8, x.2.set i (slice b 8 8))

/-- The semiblocks of a byte string. -/
def semiblocks (b : Bytes) : List Bytes := (List.range (b.length / 8)).map (fun i => slice b (8 * i) 8)

/-- Wrapping under an initial value: of one semiblock by one block of the cipher (RFC 5649), of more by six passes. -/
def wrapUnder (kek iv data : Bytes) : Bytes :=
  let n := data.length / 8
  if n ≤ 1 then aesEncrypt kek (iv ++ data)
  else
    let (a, r) := ((List.range (6 * n)).map (· + 1)).foldl (wrapStep kek n) (iv, semiblocks data)
    a ++ r.flatten

/-- The register A and the data that a wrapped key of at least two semiblocks holds. -/
def unwrapUnder (kek blob : Bytes) : Bytes × Bytes :=
  let n := blob.length / 8 - 1
  if n ≤ 1 then
    let b := aesDecrypt kek (slice blob 0 16)
    (slice b 0 8, slice b 8 8)
  else
    let (a, r) := ((List.range (6 * n)).reverse.map (· + 1)).foldl (unwrapStep kek n) (slice blob 0 8, (semiblocks blob).drop 1)
    (a, r.flatten)

/-- R468, R469: a key under the KEK, wrapped as RFC 3394 does. -/
@[irreducible] def wrapKey (kek data : Bytes) : Bytes := wrapUnder kek (List.replicate 8 0xA6) data

/-- R472: what a blob unwraps to under a key: RFC 3394 by its initial value, or RFC 5649 by the first four bytes of its own,
whose last four give the length of the material; none where the integrity check fails. -/
@[irreducible] def unwrapKey (kek blob : Bytes) : Option Bytes :=
  if blob.length < 16 ∨ blob.length % 8 ≠ 0 then none
  else
    let (a, d) := unwrapUnder kek blob
    let len := beVal (slice a 4 4)
    if a = List.replicate 8 0xA6 ∧ blob.length ≥ 24 then some d
    else if slice a 0 4 = [0xA6, 0x59, 0x59, 0xA6] ∧ len ≤ d.length ∧ d.length < len + 8 ∧ (d.drop len).all (· == 0) then
      some (d.take len)
    else none

/-! The checksum of UDP (RFC 768). -/

/-- Sum of the 16-bit words of a byte string, the last one filled with a zero byte. -/
def wordSum : Bytes → Nat
  | [] => 0
  | [a] => 256 * a.toNat
  | a :: b :: t => 256 * a.toNat + b.toNat + wordSum t

/-- Carries folded back in. -/
def foldCarry (n : Nat) : Nat := n % 65536 + n / 65536

/-- The checksum of a byte string; never 0, which stands for no checksum. -/
@[irreducible] def udpChecksum (b : Bytes) : Nat :=
  let n := 65535 - foldCarry (foldCarry (foldCarry (wordSum b)))
  if n = 0 then 65535 else n

end Sys2Proof.Machine
end

