-- ==== Sys2Proof/Machine/Wire.lean ====
section
/-! DEFINITION. Vorwiri packets as bytes: the header of R305, the payloads of R307, the seal of R310 and R311, and the UDP
datagram of R302 and R304. -/

namespace Sys2Proof.Machine

open Sys2Proof

/-! The header. -/

/-- The 40 bytes of a header; every reserved field is zero and VER is 1. -/
def Hdr.bytes (h : Hdr) : Bytes :=
  beBytes 1 (16 + h.kg % 16) ++ beBytes 1 h.opcode
    ++ beBytes 1 (bit h.first + fld 1 (bit h.last) + fld 2 (bit h.durable) + fld 3 (bit h.retx))
    ++ beBytes 1 (h.path % 8 + fld 3 h.epl.toNat) ++ beBytes 2 h.conn ++ beBytes 6 h.psn.toNat ++ beBytes 4 h.msgId.toNat
    ++ beBytes 4 h.msgOff ++ beBytes 2 h.plen ++ beBytes 4 h.akey.toNat ++ beBytes 8 h.raddr ++ beBytes 4 h.climit.toNat
    ++ beBytes 2 0

/-- R310: the authenticated data, with RETX and PATH taken as zero. -/
def Hdr.aad (h : Hdr) : Bytes := { h with retx := false, path := 0 }.bytes

/-- The header of a packet that arrives, by its opcode. -/
def header (p : Pkt) (opcode : Nat) : Hdr :=
  { kg := p.kg.toNat, opcode, first := p.first, last := p.last, durable := p.durable, retx := p.retx, path := p.path, epl := p.epl
    conn := p.conn.toNat, psn := p.psn, msgId := p.msgId, msgOff := p.msgOff.toNat, plen := p.plen.toNat, akey := p.akey
    raddr := p.raddr.toNat, climit := p.climit }

/-! Payloads. -/

/-- Bit n of the list, numbered as SACK numbers it: bit 7 − (n mod 8) of byte n div 8. -/
def mapBytes (n : Nat) (l : List Nat) : Bytes :=
  (List.range n).map (fun i => (List.range 8).foldl (fun b j => if l.contains (8 * i + j) then b ||| (0x80 >>> j) else b) 0)

/-- R274: the 24 bytes of a witness message. -/
def witPayload (b : WitBody) : Bytes :=
  [b.wtype, b.twin, b.role, b.result] ++ beBytes 4 b.epoch.toNat ++ beBytes 8 b.pair.toNat ++ beBytes 4 b.wseq.toNat ++ [b.server, 0]
    ++ beBytes 2 b.leaseMs.toNat

/-- The bytes that an ACK of a host carries. -/
def ackPayload (b : AckBody) : Bytes :=
  beBytes 6 b.cumpsn.toNat ++ beBytes 2 b.rsv.toNat ++ beBytes 32 b.sack.toNat ++ beBytes 4 b.cused.toNat ++ beBytes 4 b.cseen.toNat
    ++ beBytes 4 b.dropcnt.toNat ++ beBytes 4 b.cecnt.toNat

/-- OPCODE (R307). -/
def NetBody.code : NetBody → Nat
  | .readResp .. => 0x04
  | .flushResp .. => 0x06
  | .atomicResp _ => 0x09
  | .ack .. => 0x0A
  | .nak .. => 0x0B
  | .probe _ => 0x0C
  | .witness _ => 0x0D
  | .takeover .. => 0x0E

/-- The payload (tables of R307 and R308). -/
def NetBody.bytes : NetBody → Bytes
  | .readResp _ _ _ _ data => data
  | .flushResp dwmark drops => beBytes 4 dwmark.toNat ++ mapBytes 128 drops
  | .atomicResp old => old
  | .ack _ cum sack vwmark dwmark dropcnt cecnt =>
    beBytes 6 cum.toNat ++ beBytes 2 0 ++ mapBytes 32 (sack.map (fun p => dist cum p - 1)) ++ beBytes 4 vwmark.toNat
      ++ beBytes 4 dwmark.toNat ++ beBytes 4 dropcnt.toNat ++ beBytes 4 cecnt.toNat
  | .nak code sub npsn hint detail =>
    beBytes 1 code ++ beBytes 1 sub ++ beBytes 6 npsn.toNat ++ beBytes 4 hint ++ beBytes 4 detail.toNat ++ beBytes 4 0
  | .probe req => beBytes 4 req
  | .witness b => witPayload b
  | .takeover epoch wmark vpsn tpsn dropcnt =>
    beBytes 4 epoch.toNat ++ beBytes 4 wmark.toNat ++ beBytes 6 vpsn.toNat ++ beBytes 6 tpsn.toNat ++ beBytes 4 dropcnt.toNat
      ++ beBytes 4 0

/-- PLEN of a packet the controller sends (table of R307). -/
def NetBody.size : NetBody → Nat
  | .readResp _ _ _ _ data => data.length
  | .witness _ => 24
  | .ack .. => 56
  | .nak .. => 20
  | .flushResp .. => 132
  | .atomicResp _ => 8
  | .probe _ => 4
  | .takeover .. => 28

/-- Header fields that the payload's opcode uses (R307): FIRST, LAST, DURABLE, MSG_OFF and RADDR. -/
def NetBody.fields : NetBody → Bool × Bool × Bool × Nat × Nat
  | .readResp off first last raddr _ => (first, last, false, off, raddr)
  | .witness _ => (true, true, false, 0, 0)
  | .ack durable .. => (false, false, durable, 0, 0)
  | .nak .. | .flushResp .. | .atomicResp _ | .probe _ | .takeover .. => (false, false, false, 0, 0)

/-! The seal. -/

/-- R311: the nonce of a packet the controller sends. -/
def txNonce (salt : BitVec 32) (ctl : Bool) (epoch : Epoch) (psn : Psn) : BitVec 96 :=
  salt ++ BitVec.ofNat 64 (2 ^ 63 + (if ctl then 2 ^ 62 else 0) + epoch.toNat % 16384 * 2 ^ 48 + psn.toNat)

/-- R311: the nonce of a packet of the other end. -/
def rxNonce (salt : BitVec 32) (ctl : Bool) (epoch : Epoch) (psn : Psn) : BitVec 96 :=
  salt ++ BitVec.ofNat 64 ((if ctl then 2 ^ 62 else 0) + epoch.toNat % 16384 * 2 ^ 48 + psn.toNat)

/-- R304, R310: header, ciphertext and tag. -/
def sealed (h : Hdr) (key : ConnKey) (nonce : BitVec 96) (payload : Bytes) : Bytes :=
  let text := gcmCrypt key.bytes nonce payload
  h.bytes ++ text ++ beBytes 16 (gcmTag key.bytes nonce h.aad text).toNat

/-- R310: the tag of a packet under a key and nonce, by its opcode and payload. -/
@[irreducible] def sealTag (p : Pkt) (opcode : Nat) (key : ConnKey) (nonce : BitVec 96) (payload : Bytes) : BitVec 128 :=
  gcmTag key.bytes nonce (header p opcode).aad (gcmCrypt key.bytes nonce payload)

/-! The datagram. -/

/-- R302: the header that UDP's checksum covers beside the datagram, for addresses of IPv4 (RFC 768) or IPv6 (RFC 8200). -/
def pseudoHeader (p : Path) (len : Nat) : Bytes :=
  if p.v6 then beBytes 16 p.svcAddr ++ beBytes 16 p.hostAddr ++ beBytes 4 len ++ beBytes 4 17
  else beBytes 4 p.svcAddr ++ beBytes 4 p.hostAddr ++ beBytes 2 17 ++ beBytes 2 len

/-- R302, R336: the UDP datagram of a payload on a path, from port 46018 to the path's host source port. -/
def datagram (p : Path) (payload : Bytes) : Bytes :=
  let len := 8 + payload.length
  let head := beBytes 2 46018 ++ beBytes 2 p.hostUdp ++ beBytes 2 len
  head ++ beBytes 2 (udpChecksum (pseudoHeader p len ++ head ++ beBytes 2 0 ++ payload)) ++ payload

end Sys2Proof.Machine
end

