-- ==== Sys2Proof/Machine/KeyOps.lean ====
section
/-! DEFINITION. Cipher engines in and out of service (R459), and the key palette (R469, R470). -/

namespace Sys2Proof.Machine

open Sys2Proof

/-- The engine in service that carries the work of engine e: itself, or the next in ascending order modulo 8 (R459). -/
def State.nextEngine (s : State) (e : Nat) : Option Nat :=
  ((List.range 8).map (fun k => (e + k) % 8)).find? (fun x => (s.engine x).inServ)

/-! Jobs and their contexts (R457, R458, R470, R475, R476, R478). -/

/-- R457: the engine of a network port's GCM. -/
def portEngine (p : Nat) : Nat := p % 8

/-- R457: the engine of a stripe group's XTS: engine e serves groups e and e + 8. -/
def groupEngine (g : Nat) : Nat := g % 8

/-- An inline job: a packet (R458). -/
def Job.inline (j : Job) : Bool := j.mode == 1 || j.mode == 2

/-- The 4-byte owner tag of a key: CONN and generation, or NSID (R475). -/
def ownerTag : KeyTag → Bytes
  | .conn c g => leBytes 2 c ++ leBytes 1 g ++ [0]
  | .ns n => leBytes 4 n

/-- R475: the 128-byte context record of a job. -/
def Job.context (j : Job) : Bytes :=
  leBytes 1 j.mode ++ leBytes 3 0 ++ ownerTag j.tag ++ slice j.ctr 0 16 ++ slice j.hash 0 16 ++ leBytes 8 j.aad ++ leBytes 8 j.text
    ++ leBytes 8 j.total ++ leBytes 64 0

/-- R475: the job that a context record restores. -/
def contextJob (b : Bytes) : Job :=
  let mode := leVal (slice b 0 1)
  { mode, tag := if mode ≤ 2 then .conn (leVal (slice b 4 2)) (leVal (slice b 6 1)) else .ns (leVal (slice b 4 4))
    ctr := slice b 8 16, hash := slice b 24 16, aad := leVal (slice b 40 8), text := leVal (slice b 48 8)
    total := leVal (slice b 56 8) }

/-- A key is in a palette slot. -/
def State.hasSlot (s : State) (tag : KeyTag) : Bool := s.cipher.slots.any (fun k => k.tag == tag)

/-- R475, R476: a job's context goes into the keys client, wrapped. -/
def saveContext (e : Nat) (susp : Bool) (j : Job) (s : State) : State :=
  s.modCipher (fun c => { c with contexts := c.contexts ++ [{ engine := e, bytes := j.context, kek := c.kek, susp }] })

/-- R476: a context that fails to unwrap fails its job; event 878. A received packet that it held counts as one that fails
check 6 of R316; a media job is issued again from its intent. -/
def failContext (x : Saved) (s : State) : State :=
  let s := if (contextJob x.bytes).mode = 2 then s.modNport x.engine (fun n => { n with dropAuth := sat16 n.dropAuth }) else s
  raise 878 s

/-- R475, R476: restore a context on engine e. Its job runs to its end, or waits for its key there. -/
def restoreContext (e : Nat) (x : Saved) (s : State) : State :=
  let s := s.modCipher (fun c => { c with contexts := c.contexts.erase x })
  let j := contextJob x.bytes
  if x.kek.isNone ∨ x.kek ≠ s.cipher.kek then failContext x s
  else if s.hasSlot j.tag then s
  else s.modEngine e (fun k => { k with jobs := k.jobs ++ [j] })

/-- Every pipeline of an engine has a job; one that waits for its key holds the pipeline it began on (log entry 137, DESIGN
CHOICE). -/
def Engine.busy (k : Engine) : Bool := decide (k.jobs.length ≥ (setBits 8 k.pipes).length)

/-- R478: a suspended job resumes on its engine after at most 16 inline jobs, or once a pipeline is idle. -/
def resumeJobs (e : Nat) (s : State) : State :=
  forEach (s.cipher.contexts.filter (fun x => x.susp && x.engine == e)) (fun x s =>
    if x.since ≥ 16 ∨ !(s.engine e).busy then restoreContext e x s else s) s

/-- R475, R478: an inline job begins on an engine whose pipelines are all busy: the oldest media job is suspended. -/
def suspendFor (e : Nat) (s : State) : State :=
  let k := s.engine e
  match if s.cipher.blockSusp && k.busy then k.jobs.find? (fun j => !j.inline) else none with
  | some j => saveContext e true j (s.modEngine e (fun k => { k with jobs := k.jobs.erase j, susp := sat16 k.susp }))
  | none => s

/-- R457, R478: a job begins on the engine that carries the work of engine e; with its key in no slot it waits there. -/
def beginJob (e : Nat) (j : Job) (s : State) : State :=
  let c := (s.engine e).carrier.getD e
  let s := if j.inline then
      resumeJobs c ((suspendFor c s).modCipher (fun x => { x with
        contexts := x.contexts.map (fun y => if y.susp ∧ y.engine = c then { y with since := y.since + 1 } else y) }))
    else s
  if s.hasSlot j.tag then s else s.modEngine c (fun k => { k with jobs := k.jobs ++ [j] })

/-- The jobs of a key leave the engines: they run to their end, or fail with it. -/
def dropJobs (tag : KeyTag) (s : State) : State :=
  forEach (List.range 8) (fun e s =>
    if (s.engine e).jobs.any (fun j => j.tag == tag) then
      resumeJobs e (s.modEngine e (fun k => { k with jobs := k.jobs.filter (fun j => j.tag != tag) }))
    else s) s

/-- R479: every palette slot and the KEK are erased, and every job in progress ends without output. -/
def eraseKeys (s : State) : State :=
  s.modCipher (fun c => { c with
    slots := [], unwrapping := [], kek := none, contexts := [], engines := c.engines.map (fun k => { k with jobs := [] }) })

/-- R459, R475: the jobs of engines out of service are saved, and go on with the next engine in service. -/
def moveJobs (s : State) : State :=
  let s := forEach ((List.range 8).filter (fun e => !(s.engine e).inServ)) (fun e s =>
    forEach (s.engine e).jobs (saveContext e false) (s.modEngine e (fun k => { k with jobs := [] }))) s
  forEach (s.cipher.contexts.filter (fun x => !(s.engine x.engine).inServ)) (fun x s =>
    match s.nextEngine x.engine with
    | some n => restoreContext n x s
    | none => s) s

/-- R459: each engine's work lies with the first engine in service from it on. Event 879 when work moves. -/
def handOver (s : State) : State :=
  let moves := (List.range 8).any (fun e => (s.engine e).carrier.isSome && (s.engine e).carrier != s.nextEngine e
    && (s.nextEngine e).isSome)
  let s := moveJobs (forEach (List.range 8) (fun e s => s.modEngine e (fun k => { k with
    carrier := s.nextEngine e, handed := (s.nextEngine e).isSome && s.nextEngine e != some e })) s)
  if moves then raise 879 s else s

/-- R459: an engine leaves service. -/
def engineOut (e : Nat) (s : State) : State :=
  if !(s.engine e).inServ then s
  else handOver (raiseWith (864 + e) e 0 (s.modEngine e (fun k => { k with inServ := false })))

/-- R459: pipelines 0 to 5 carry inline jobs, 6 and 7 media jobs; a class without a pipeline takes the engine out. -/
def pipesOk (p : BitVec 8) : Bool := p &&& 0x3F != 0 && p &&& 0xC0 != 0

/-- Palette slots (R469). -/
def paletteSize : Nat := 1024

/-- R470: a key in no slot is counted, event 875 above 10,000 in one second, and unwraps. -/
def keyMiss (tag : KeyTag) (s : State) : State :=
  let fresh := decide (s.now ≥ s.cipher.missAt + 1000000000)
  let n := if fresh then 1 else s.cipher.missWin + 1
  let s := s.modCipher (fun c => { c with
    misses := sat32 c.misses, missWin := n, missAt := if fresh then s.now else c.missAt
    unwrapping := if c.unwrapping.contains tag then c.unwrapping else c.unwrapping ++ [tag] })
  if n = 10001 then raise 875 s else s

/-- R457, R469, R470: a job of engine e's work uses its key. -/
def keyUse (e : Nat) (j : Job) (s : State) : State :=
  let s := beginJob e j s
  if s.hasSlot j.tag then
    s.modCipher (fun c => { c with
      slots := c.slots.filter (fun k => k.tag != j.tag) ++ [{ tag := j.tag, used := s.now }] })
  else keyMiss j.tag s

/-- R311, R457: the GCM job of a packet of `len` bytes on a network port. -/
def gcmJob (decrypt : Bool) (port c gen : Nat) (nonce : BitVec 96) (len : Nat) (s : State) : State :=
  keyUse (portEngine port) { mode := if decrypt then 2 else 1, tag := .conn c gen, ctr := beBytes 12 nonce.toNat ++ beBytes 4 2, total := len } s

/-- R457, R463: the XTS job of a codeword of a group; its tweak value is the encrypted tweak of its first block. -/
def xtsJob (decrypt : Bool) (g ns off : Nat) (key : Bytes) (s : State) : State :=
  keyUse (groupEngine g) { mode := if decrypt then 4 else 3, tag := .ns ns, ctr := xtsTweak key (ns * 2 ^ 64 + off / 256) 0, total := 256 } s

/-- R469, R470: a key takes a slot, and the jobs that wait for it run; it is that of the oldest last use when none is free; the key it held is kept wrapped. -/
def keyLoad (tag : KeyTag) (s : State) : State :=
  dropJobs tag <| s.modCipher (fun c =>
    let (old, rest) := if c.slots.length ≥ paletteSize then (c.slots.take 1, c.slots.drop 1) else ([], c.slots)
    { c with
      slots := rest.filter (fun k => k.tag != tag) ++ [{ tag, used := s.now }]
      wrapped := (c.wrapped ++ old.map (·.tag)).filter (fun t => t != tag)
      unwrapping := c.unwrapping.filter (fun t => t != tag) })

/-- R469: a new key that no slot holds is kept wrapped. -/
def keyKeep (tag : KeyTag) (s : State) : State :=
  s.modCipher (fun c => { c with wrapped := if c.wrapped.contains tag then c.wrapped else c.wrapped ++ [tag] })

end Sys2Proof.Machine
end

