-- ==== Sys2Proof/Machine/Hsiao.lean ====
section
/-! DEFINITION. The (72,64) Hsiao SEC-DED code of a DRAM word (R555, R557). The manual names no parity-check matrix: its
columns are the 56 vectors of weight 3 and eight of weight 5, which eight and in which order being free (log entry 138,
DESIGN CHOICE). -/

namespace Sys2Proof.Machine

open Sys2Proof

/-- Ones of a byte. -/
def weight8 (b : BitVec 8) : Nat := ((List.range 8).filter (fun i => b.getLsbD i)).length

/-- The bytes of a weight, rising. -/
def ofWeight (w : Nat) : List (BitVec 8) := ((List.range 256).map (BitVec.ofNat 8)).filter (fun b => weight8 b == w)

/-- `n` members of a list, each taken from those that are left by a free number. -/
def draw (pick : Nat → Nat) : Nat → List (BitVec 8) → List (BitVec 8)
  | 0, _ => []
  | n + 1, l =>
    match l[pick n % l.length]? with
    | some b => b :: draw pick n (l.erase b)
    | none => []

/-- R555: the columns of the parity-check matrix over the 64 data bits. -/
def hsiaoColumns : List (BitVec 8) :=
  draw (fun n => Config.hsiaoPick (64 + n)) 64 (ofWeight 3 ++ draw Config.hsiaoPick 8 (ofWeight 5))

/-- The columns of the ones of a word, added. -/
def columnSum (d : BitVec 64) : List (BitVec 8) → Nat → BitVec 8
  | [], _ => 0
  | c :: l, i => (if d.getLsbD i then c else 0) ^^^ columnSum d l (i + 1)

/-- The 8 computed check bits of a word. -/
def hsiaoCheck (d : BitVec 64) : BitVec 8 := columnSum d hsiaoColumns 0

/-- R555: the check byte that is stored, the complement of the computed bits. -/
def storedCheck (d : BitVec 64) : BitVec 8 := ~~~hsiaoCheck d

/-- What the check of a word that was read finds (R557): the word is right, it is corrected to a value, or it is not. -/
inductive WordCheck where
  | clean
  | corrected (d : BitVec 64)
  | uncorrectable
  deriving DecidableEq, Repr

/-- R555, R557: a word and its check byte as they were read. One flipped bit gives a column of odd weight; two give a sum of
even weight, which no column equals. -/
def checkWord (d : BitVec 64) (c : BitVec 8) : WordCheck :=
  let syn := hsiaoCheck d ^^^ ~~~c
  if syn = 0 then .clean
  else if weight8 syn % 2 = 0 then .uncorrectable
  else if weight8 syn = 1 then .corrected d
  else if hsiaoColumns.contains syn then .corrected (d ^^^ (1#64 <<< hsiaoColumns.idxOf syn))
  else .uncorrectable

end Sys2Proof.Machine
end

