-- ==== Sys2Proof/Machine/Code.lean ====
section
/-! DEFINITION. The codeword code (R102 to R107): two interleaved RS(144,128) codes over GF(2^8), the
marker offsets, the decoder, and the row's XOR. -/

namespace Sys2Proof.Machine

open Sys2Proof

/-! GF(2^8), x^8 + x^4 + x^3 + x^2 + 1 with α = 0x02 (R102). -/

/-- Multiplication by α. -/
def gfDouble (a : Byte) : Byte := if a.msb then (a <<< 1) ^^^ 0x1D else a <<< 1

/-- Product, over the bits of `b` from bit n − 1 down. -/
def gfMulAux (a b : Byte) : Nat → Byte → Byte
  | 0, acc => acc
  | n + 1, acc => gfMulAux a b n (let t := gfDouble acc; if b.getLsbD n then t ^^^ a else t)

/-- Product in GF(2^8). -/
def gfMul (a b : Byte) : Byte := gfMulAux a b 8 0

/-- α^n. -/
def gfAlpha : Nat → Byte
  | 0 => 1
  | n + 1 => gfDouble (gfAlpha n)

/-- Square. -/
def gfSq (a : Byte) : Byte := gfMul a a

/-- Inverse, a^254; 0 for 0. -/
def gfInv (a : Byte) : Byte :=
  let a2 := gfSq a; let a4 := gfSq a2; let a8 := gfSq a4; let a16 := gfSq a8
  let a32 := gfSq a16; let a64 := gfSq a32; let a128 := gfSq a64
  gfMul a128 (gfMul a64 (gfMul a32 (gfMul a16 (gfMul a8 (gfMul a4 a2)))))

/-- Value at x of the polynomial whose coefficients are listed from the highest power down. -/
def polyEval (x : Byte) : List Byte → Byte := List.foldl (fun acc c => gfMul acc x ^^^ c) 0

/-- Sum of polynomials listed from the constant term up. -/
def polyAdd : List Byte → List Byte → List Byte
  | [], b => b
  | a, [] => a
  | x :: a, y :: b => (x ^^^ y) :: polyAdd a b

/-- Multiple of a polynomial. -/
def polyScale (k : Byte) (p : List Byte) : List Byte := p.map (gfMul k)

/-- Product of polynomials listed from the constant term up. -/
def polyMul : List Byte → List Byte → List Byte
  | [], _ => []
  | a :: t, b => polyAdd (polyScale a b) (0 :: polyMul t b)

/-- g(x) of R102 from the constant term up: the product of (x − α^j) for j from 0 to n − 1. -/
def rsGen : Nat → List Byte
  | 0 => [1]
  | n + 1 => polyMul (rsGen n) [gfAlpha n, 1]

/-- One step of the division by g: `reg` holds the remainder from the highest power down. -/
def rsStep (gen : List Byte) (reg : List Byte) (d : Byte) : List Byte :=
  match reg with
  | [] => []
  | h :: t => xorBytes (t ++ [0]) (polyScale (h ^^^ d) gen)

/-- R103: the 16 check bytes of the 128 data bytes of an interleave, highest power first. -/
def rsCheck (data : List Byte) : List Byte :=
  let gen := ((rsGen 16).take 16).reverse
  data.foldl (rsStep gen) (List.replicate 16 0)

/-- Syndromes S_0 to S_15 of the 144 symbols of an interleave. -/
def rsSyndromes (r : List Byte) : List Byte := (List.range 16).map (fun j => polyEval (gfAlpha j) r)

/-- Working state of the Berlekamp–Massey iteration. -/
structure BmState where
  /-- Locator, from the constant term up. -/
  c : List Byte := [1]
  /-- Locator before the latest length change. -/
  b : List Byte := [1]
  /-- Length. -/
  l : Nat := 0
  /-- Steps since that change. -/
  m : Nat := 1
  /-- Discrepancy at that change. -/
  d : Byte := 1

/-- One step on syndrome n. -/
def bmStep (syn : List Byte) (s : BmState) (n : Nat) : BmState :=
  let d := (List.range (s.l + 1)).foldl (fun acc i => acc ^^^ gfMul (s.c.getD i 0) (syn.getD (n - i) 0)) 0
  if d = 0 then { s with m := s.m + 1 }
  else
    let c := polyAdd s.c (polyScale (gfMul d (gfInv s.d)) (List.replicate s.m 0 ++ s.b))
    if 2 * s.l ≤ n then { c, b := s.c, l := n + 1 - s.l, m := 1, d }
    else { s with c, m := s.m + 1 }

/-- Correct the 144 symbols of an interleave with at most `t` corrections: the corrected symbols and
how many were corrected. -/
def rsDecode (t : Nat) (r : List Byte) : Option (List Byte × Nat) :=
  let syn := rsSyndromes r
  if syn.all (· == 0) then some (r, 0)
  else
    let s := (List.range 16).foldl (bmStep syn) {}
    if s.l > t then none
    else
      let omega := (polyMul syn s.c).take 16
      let deriv := (List.range s.c.length).map (fun i => if i % 2 = 0 then s.c.getD (i + 1) 0 else 0)
      let roots := (List.range 144).filter (fun i => polyEval (gfInv (gfAlpha (143 - i))) s.c.reverse == 0)
      if roots.length ≠ s.l then none
      else
        let fix := roots.foldl (fun acc i =>
          let x := gfAlpha (143 - i)
          let xi := gfInv x
          let e := gfMul x (gfMul (polyEval xi omega.reverse) (gfInv (polyEval xi deriv.reverse)))
          modAt acc i (fun v => v ^^^ e)) r
        if (rsSyndromes fix).all (· == 0) then some (fix, s.l) else none

/-- R103: symbols of interleave i of a 288-byte sector. -/
def interleave (i : Nat) (sec : Bytes) : Bytes :=
  (List.range 128).map (fun j => sec.getD (2 * j + i) 0) ++ (List.range 16).map (fun j => sec.getD (256 + 2 * j + i) 0)

/-- The sector of two interleaves. -/
def mergeSym : List Byte → List Byte → Bytes
  | a :: x, b :: y => a :: b :: mergeSym x y
  | _, _ => []

/-- The sector of two interleaves. -/
def deinterleave (a b : Bytes) : Bytes := mergeSym (a.take 128) (b.take 128) ++ mergeSym (a.drop 128) (b.drop 128)

/-- B_b of R104: byte j is α^(32b + j). -/
def markerBase (b : Nat) : Bytes := (List.range 32).map (fun j => gfAlpha (32 * b + j))

/-- M(m) of R104. -/
def markerOffset (m : BitVec 4) : Bytes :=
  (setBits 4 m).foldl (fun acc b => xorBytes acc (markerBase b)) (List.replicate 32 0)

/-- A sector with the marker offset of m added to its check bytes. -/
def addMarker (m : BitVec 4) (sec : Bytes) : Bytes := sec.take 256 ++ xorBytes (sec.drop 256) (markerOffset m)

/-- The data bytes with every poisoned line zero (R104). -/
def zeroLines (m : BitVec 4) (data : Bytes) : Bytes :=
  (List.range 4).flatMap (fun l => if m.getLsbD l then List.replicate 64 0 else slice data (64 * l) 64)

/-- R103, R104: the stored sector of 256 data bytes with line mask m. -/
def encodeSector (m : BitVec 4) (data : Bytes) : Bytes :=
  let d := zeroLines m data
  let c0 := rsCheck ((List.range 128).map (fun j => d.getD (2 * j) 0))
  let c1 := rsCheck ((List.range 128).map (fun j => d.getD (2 * j + 1) 0))
  addMarker m (d ++ mergeSym c0 c1)

/-- A decoded sector: all 288 bytes with the marker offset kept, line mask, corrections of each interleave. -/
structure Decoded where
  /-- The 288 bytes. -/
  sec : Bytes
  /-- Line mask. -/
  mask : BitVec 4
  /-- The larger of the interleaves' corrections. -/
  fixes : Nat
  deriving DecidableEq, Repr

/-- Both interleaves decoded with at most t corrections each, after the offset of m is removed. -/
def decodeAs (t : Nat) (m : BitVec 4) (sec : Bytes) : Option Decoded :=
  let plain := addMarker m sec
  match rsDecode t (interleave 0 plain), rsDecode t (interleave 1 plain) with
  | some (a, na), some (b, nb) => some { sec := addMarker m (deinterleave a b), mask := m, fixes := Nat.max na nb }
  | _, _ => none

/-- R105: offset 0 with at most 8 corrections in each interleave; failing that, the single offset with
at most 4. -/
def decodeSector (sec : Bytes) : Option Decoded :=
  match decodeAs 8 0 sec with
  | some d => some d
  | none =>
    match (List.range 15).filterMap (fun i => decodeAs 4 (BitVec.ofNat 4 (i + 1)) sec) with
    | [d] => some d
    | _ => none

/-- Bytewise XOR of sectors (R106, R107). -/
def xorAll : List Bytes → Bytes := List.foldl xorBytes (List.replicate 288 0)

/-- R105 applied to a sector that some operation computed: its mask, 0 when it does not decode. -/
def sectorMask (sec : Bytes) : BitVec 4 :=
  match decodeSector sec with
  | some d => d.mask
  | none => 0

end Sys2Proof.Machine
end

