-- ==== Sys2Proof/Machine/Layout.lean ====
section
/-! DEFINITION. Media geometry, the address decode, and the routing of pool units (R69 to R100). -/

namespace Sys2Proof.Machine

open Sys2Proof

/-- Rows of an easel (R76). -/
def easelRows : Nat := 1048640
/-- Rows of a namespace unit (2^20 data rows). -/
def ringRows : Nat := 1048576

/-- R72: sectors that a module provides. -/
def Descriptor.sectors (d : Descriptor) : Nat := d.dieCount * d.dieCap / 288

/-- Die count D of the module on a channel; 16 where none is known. -/
def State.dies (s : State) (c : Nat) : Nat :=
  match (s.chan c).desc with
  | some d => if d.dieCount = 0 then 16 else d.dieCount
  | none => 16

/-- R72: die and die address of a sector on a channel. -/
def State.dieOf (s : State) (c grow : Nat) : Nat × Nat := (grow % s.dies c, grow / s.dies c)

/-- f of R84. -/
def feistelF (v : Nat) (k : BitVec 10) : Nat := ((v ^^^ k.toNat) * 421 + 341) % 1024

/-- R84: the permutation of a 20-bit row. -/
def feistel (x : Nat) (key : List (BitVec 10)) : Nat :=
  let (l, r) := key.foldl (fun (lr : Nat × Nat) k => (lr.2, lr.1 ^^^ feistelF lr.2 k)) (x / 1024, x % 1024)
  l * 1024 + r

/-- R84 undone: the row whose permutation is `y`. -/
def feistelInv (y : Nat) (key : List (BitVec 10)) : Nat :=
  let (l, r) := key.reverse.foldl (fun (lr : Nat × Nat) k => (lr.2 ^^^ feistelF lr.1 k, lr.1)) (y / 1024, y % 1024)
  l * 1024 + r

/-- R85. -/
def startGap (x start gap : Nat) : Nat :=
  let t := (x + start) % ringRows
  if t ≥ gap then t + 1 else t

/-- R85 undone: the permuted row that a ring slot holds; none for the gap. -/
def startGapInv (slot start gap : Nat) : Option Nat :=
  if slot = gap then none
  else
    let t := if slot > gap then slot - 1 else slot
    some ((t + ringRows - start % ringRows) % ringRows)

/-- R86. -/
def spareRemap (remap : List (Nat × Nat)) (slot : Nat) : Nat :=
  match remap.find? (fun e => e.2 == slot) with
  | some (k, _) => 1048577 + k
  | none => slot

/-- Where a codeword is stored: the result of R83. -/
structure Place where
  /-- Stripe group. -/
  g : Nat
  /-- Easel. -/
  e : Nat
  /-- Group row. -/
  grow : Nat
  /-- Channel position. -/
  pos : Nat
  /-- Media channel. -/
  chan : Nat
  /-- Die. -/
  die : Nat
  /-- Die address. -/
  daddr : Nat
  /-- Data position c of the row. -/
  c : Nat
  deriving DecidableEq, Repr

/-- R71: channel position of data codeword c of group row G. -/
def dataPos (grow c : Nat) : Nat := (grow % 9 + 1 + c) % 9
/-- R71: parity position of group row G. -/
def parityPos (grow : Nat) : Nat := grow % 9
/-- Data position of channel position `pos` in row G; none for parity. -/
def posData (grow pos : Nat) : Option Nat :=
  if pos = grow % 9 then none else some ((pos + 9 - grow % 9 + 8) % 9)

/-- Group row of a slot of easel e (R76, R86). -/
def slotRow (ea : Easel) (e slot : Nat) : Nat := e * easelRows + spareRemap ea.remap slot

/-- R83: decode of a namespace offset; none outside the namespace. -/
def State.decodeOff (s : State) (nsid off : Nat) : Option Place :=
  match s.ns nsid with
  | none => none
  | some n =>
    match n.units[off / 2147483648]? with
    | none => none
    | some (g, e) =>
      let ea := s.easel (easelKey g e)
      let lrow := off / 2048 % ringRows
      let c := off / 256 % 8
      let grow := slotRow ea e (startGap (feistel lrow ea.key) ea.start ea.gap)
      let pos := dataPos grow c
      let ch := grpChan g pos
      let (die, daddr) := s.dieOf ch grow
      some { g, e, grow, pos, chan := ch, die, daddr, c }

/-- Namespace and row offset that a group row of an easel holds: the decode undone. -/
def State.rowOwner (s : State) (g grow : Nat) : Option (Nat × Nat) :=
  let e := grow / easelRows
  let loc := grow % easelRows
  if e ≥ (s.grp g).eg then none
  else
    let ea := s.easel (easelKey g e)
    if ea.nsid = 0 then none
    else
      let slot := if loc ≤ ringRows then (if ea.remap.any (fun r => r.2 == loc) then none else some loc)
        else (ea.remap.find? (fun r => r.1 + 1048577 == loc)).map (·.2)
      match slot with
      | none => none
      | some sl =>
        match startGapInv sl ea.start ea.gap with
        | none => none
        | some p => some (ea.nsid, ea.unit * 2147483648 + feistelInv p ea.key * 2048)

/-- The codeword at a channel position of a group row: namespace and offset. -/
def State.cwAt (s : State) (g grow pos : Nat) : Option (Nat × Nat) :=
  match posData grow pos, s.rowOwner g grow with
  | some c, some (n, off) => some (n, off + 256 * c)
  | _, _ => none

/-- Size of a namespace in bytes. -/
def Ns.size (n : Ns) : Nat := n.units.length * 2147483648

/-- R686: a live group. -/
def State.live (s : State) (g : Nat) : Bool :=
  let st := (s.grp g).st
  let d := s.drw (grpDrawer g)
  st != .unformatted && st != .failed
    && (d.st == .awake || (d.st == .parking && (d.step == .p1 || d.step == .p2 || d.step == .p3)))

/-- Easels of a group that hold no unit. -/
def State.freeEasels (s : State) (g : Nat) : Nat :=
  let used := s.easels.filter (fun e => e.1 / 4096 == g && e.2.nsid != 0)
  (s.grp g).eg - used.length

/-- R77: first metadata row of a group. -/
def State.metaRow (s : State) (g : Nat) : Nat := (s.grp g).eg * easelRows

/-- R80: lowest free easel of a group. -/
def State.lowestFree (s : State) (g : Nat) : Option Nat :=
  let used := (s.easels.filter (fun e => e.1 / 4096 == g && e.2.nsid != 0)).map (fun e => e.1 % 4096)
  let k := used.foldl (fun k u => if u = k then k + 1 else k) 0
  if k < (s.grp g).eg then some k else none

/-- Drawers that a namespace spans. -/
def State.nsDrawers (s : State) (nsid : Nat) : List Nat :=
  match s.ns nsid with
  | some n => n.units.foldl (fun l u => insNat l (grpDrawer u.1)) []
  | none => []

/-- Drawers under a byte range of a namespace. -/
def State.rangeDrawers (s : State) (nsid off len : Nat) : List Nat :=
  match s.ns nsid with
  | some n =>
    let a := off / 2147483648
    let b := (off + len - 1) / 2147483648
    ((n.units.drop a).take (b + 1 - a)).foldl (fun l u => insNat l (grpDrawer u.1)) []
  | none => []

/-- R289: index of the 64 KiB tile of a namespace offset in the written-since-split bitmap. -/
def State.tileIdx (s : State) (nsid off : Nat) : Option Nat :=
  match s.ns nsid with
  | some n =>
    match n.units[off / 2147483648]? with
    | some (g, e) => some ((g * 3640 + e) * 32768 + (off / 2048 % ringRows) / 32)
    | none => none
  | none => none

/-- Namespace and offset of a tile; none when its easel holds no unit. -/
def State.tileOff (s : State) (idx : Nat) : Option (Nat × Nat) :=
  let k := idx / 32768
  let ea := s.easel (easelKey (k / 3640) (k % 3640))
  if ea.nsid = 0 then none else some (ea.nsid, ea.unit * 2147483648 + idx % 32768 * 65536)

/-! Encryption at rest (R462 to R466). -/

/-- A 16-byte block as a number, first byte least significant. -/
def blockVal (b : Bytes) : BitVec 128 := BitVec.ofNat 128 (leVal b)

/-- R463, R464: the 256 data bytes of a codeword through a block function. -/
def xtsWith (f : Bytes → Nat → Nat → BitVec 128 → BitVec 128) (key : Bytes) (nsid off : Nat) (d : Bytes) : Bytes :=
  (List.range 16).flatMap (fun i =>
    leBytes 16 (f key (nsid * 2 ^ 64 + off / 256) i (blockVal (slice d (16 * i) 16))).toNat)

/-- Key material of an encrypted namespace; none where it is not encrypted. -/
def State.nsKey (s : State) (nsid : Nat) : Option Bytes :=
  match s.ns nsid with
  | some n =>
    if n.encrypted then
      match n.blob with
      | some b => s.cipher.kek.bind (fun k => unwrapKey k.bytes b)
      | none => none
    else none
  | none => none

/-- R474, R481: the namespace is encrypted and its key cannot be had. -/
def State.keyLost (s : State) (nsid : Nat) : Bool :=
  (match s.ns nsid with | some n => n.encrypted | none => false) && (s.nsKey nsid).isNone

/-- R104, R464, R466: the stored sector of a codeword's 256 clear bytes with poison mask m. -/
def State.storeCw (s : State) (nsid off : Nat) (d : Bytes) (m : BitVec 4) : Bytes :=
  match s.nsKey nsid with
  | some k => encodeSector m (xtsWith xtsEncrypt k nsid off d)
  | none => encodeSector m d

/-- R464, R466: clear data of a decoded sector's 256 bytes; poisoned lines read zero. -/
def State.loadCw (s : State) (nsid off : Nat) (sec : Bytes) (m : BitVec 4) : Bytes :=
  match s.nsKey nsid with
  | some k => zeroLines m (xtsWith xtsDecrypt k nsid off (sec.take 256))
  | none => sec.take 256

end Sys2Proof.Machine
end

