-- ==== Sys2Proof/Machine/MediaLink.lean ====
section
/-! DEFINITION. The Noldan media link: flits and link-level retry (R149 to R156), tags, credits and the
issue of commands (R157 to R163), training actions (R145 to R148). -/

namespace Sys2Proof.Machine

open Sys2Proof

/-- Opcode of R157. -/
def MOp.code : MOp → Nat
  | .readCw => 1 | .writeCw => 2 | .dieStatus => 3 | .dieReset => 4 | .temp => 5 | .descriptor => 6

/-- Commands of the die queues; the others use the management queue (R157). -/
def MOp.dieQueue : MOp → Bool
  | .readCw | .writeCw => true
  | _ => false

/-- The 12-byte transaction header of a command (R157). -/
def cmdHeader (m : MCmd) (tag : Nat) : Bytes :=
  leBytes 1 m.op.code ++ leBytes 1 m.die ++ leBytes 2 tag ++ leBytes 4 m.daddr ++ leBytes 2 m.arg ++ leBytes 2 0

/-- A 64-byte flit of a type, sequence number and body (R149). -/
def mkFlit (ftype : Nat) (seq : BitVec 12) (body : Bytes) : Bytes :=
  let b := leBytes 2 (ftype * 4096 + seq.toNat) ++ slice body 0 60
  b ++ leBytes 2 (crc16 b).toNat

/-- One bit of the additive scrambler x^31 + x^28 + 1: the bit of its keystream, and the register after it. The last
stage gives the keystream (log entry 115, DESIGN CHOICE). -/
def scrBit (r : BitVec 31) : Bool × BitVec 31 :=
  let out := r.getLsbD 30
  (out, (r <<< 1) ||| (if out != r.getLsbD 27 then 1#31 else 0#31))

/-- One byte, its least significant bit first (log entry 115, DESIGN CHOICE). -/
def scrByte (r : BitVec 31) (b : Byte) : Byte × BitVec 31 :=
  (List.range 8).foldl (fun (acc : Byte × BitVec 31) i =>
    let (k, r) := scrBit acc.2
    (if k then acc.1 ^^^ (1#8 <<< i) else acc.1, r)) (b, r)

/-- R144: bytes of data blocks scrambled, or descrambled, with the register after them. -/
def scramble : BitVec 31 → Bytes → Bytes × BitVec 31
  | r, [] => ([], r)
  | r, b :: t =>
    let (x, r) := scrByte r b
    let (l, r) := scramble r t
    (x :: l, r)

/-- R144, R149: the four data blocks of a flit on the controller's lane. -/
def sendBlocks (c : Nat) (f : Bytes) (s : State) : State :=
  let (b, r) := scramble (s.chan c).txScr f
  (s.modChan c (fun k => { k with txScr := r })).send (.flit c b)

/-- R151, R154: send one sequenced flit and keep it in the replay buffer. -/
def sendFlit (c ftype : Nat) (body : Bytes) (s : State) : State :=
  let f := mkFlit ftype (s.chan c).txNext body
  sendBlocks c f (s.modChan c (fun k => { k with txBuf := k.txBuf ++ [f], txNext := k.txNext + 1 }))

/-- An IDLE flit, with the number that the next sequenced flit will take (R149, R151). -/
def sendIdle (c : Nat) (s : State) : State := sendBlocks c (mkFlit 0 (s.chan c).txNext []) s

/-- R149, R150: the flits of a command: HDR, or DATA0 and four DATAN for a sector. -/
def sendCommandFlits (c : Nat) (m : MCmd) (tag : Nat) (s : State) : State :=
  let h := cmdHeader m tag
  match m.op with
  | .writeCw =>
    let body := h ++ slice m.sector 0 288
    let s := sendFlit c 2 (slice body 0 60) s
    forEach [1, 2, 3, 4] (fun i s => sendFlit c 3 (slice body (60 * i) 60) s) s
  | _ => sendFlit c 1 h s

/-- Flits that a command occupies. -/
def MCmd.flits (m : MCmd) : Nat := match m.op with | .writeCw => 5 | _ => 1

/-- R163: no command to a sector with a WRITE_CW outstanding, no WRITE_CW to one with a READ_CW outstanding. -/
def sectorFree (tags : List TagRec) (m : MCmd) : Bool :=
  !m.op.dieQueue || !tags.any (fun t => t.cmd.op.dieQueue && t.cmd.die == m.die && t.cmd.daddr == m.daddr
    && (t.cmd.op == .writeCw || m.op == .writeCw))

/-- Lowest free tag below 1,024 (R159). -/
def freeTag (tags : List TagRec) : Option Nat :=
  if tags.length ≥ 1024 then none else (List.range 1024).find? (fun t => !tags.any (fun r => r.tag == t))

/-- R160: credit of a command's queue. -/
def Chan.credit (k : Chan) (m : MCmd) : Nat := if m.op.dieQueue then k.dieCredit.getD m.die 0 else k.mgmtCredit

/-- R160: change the credit of a command's queue. -/
def Chan.addCredit (k : Chan) (m : MCmd) (f : Nat → Nat) : Chan :=
  if m.op.dieQueue then { k with dieCredit := modAt k.dieCredit m.die f } else { k with mgmtCredit := f k.mgmtCredit }

/-- R130, R154, R159, R160, R163: the command may be issued now. `held` are earlier waiting commands, whose
sectors it does not overtake; a command answered DIE_ABORTED waits for the DIE_RESET response (R165). -/
def Chan.canIssue (k : Chan) (held : List MCmd) (m : MCmd) : Bool :=
  k.link == .active && decide (k.credit m > 0) && sectorFree k.tags m
    && decide (k.txBuf.length + m.flits ≤ 256)
    && (!m.yields || decide ((k.tags.filter (fun t => t.cmd.fg)).length < 8))
    && !(m.reissued && k.tags.any (fun t => t.cmd.op == .dieReset && t.cmd.die == m.die))
    && !held.any (fun h => h.op.dieQueue && m.op.dieQueue && h.die == m.die && h.daddr == m.daddr)

/-- Issue a command under a tag (R159, R160). -/
def issue (c tag : Nat) (m : MCmd) (s : State) : State :=
  let s := s.modChan c (fun k => { k.addCredit m (· - 1) with tags := k.tags ++ [{ tag, cmd := m }] })
  (sendCommandFlits c m tag s).send (.media c tag m)

/-- Walk the waiting commands, issuing each that can be issued; answers those that still wait. -/
def issueWalk (c : Nat) : List MCmd → List MCmd → State → State × List MCmd
  | [], held, s => (s, held)
  | m :: t, held, s =>
    match freeTag (s.chan c).tags with
    | some tag =>
      if (s.chan c).canIssue held m then issueWalk c t held (issue c tag m s)
      else issueWalk c t (held ++ [m]) s
    | none => (s, held ++ m :: t)

/-- Issue every waiting command of a channel that can be issued. -/
def pumpChan (c : Nat) (s : State) : State :=
  let (s, held) := issueWalk c (s.chan c).waiting [] s
  s.modChan c (fun k => { k with waiting := held })

/-- Hand a command to a channel. -/
def submit (c : Nat) (m : MCmd) (s : State) : State :=
  pumpChan c (s.modChan c (fun k => { k with waiting := k.waiting ++ [m] }))

/-- R159, R160: take the response of the command outstanding under a tag: it frees the tag and returns
the credit. None when no command of that opcode holds the tag. -/
def takeTag (c tag : Nat) (op : MOp) (s : State) : Option (TagRec × State) :=
  match (s.chan c).tags.find? (fun t => t.tag == tag) with
  | some t =>
    if t.cmd.op = op then
      some (t, s.modChan c (fun k =>
        { k.addCredit t.cmd (· + 1) with tags := k.tags.filter (fun r => r.tag != tag) }))
    else none
  | none => none

/-- Foreground commands outstanding on a channel (R130). -/
def State.fgCount (s : State) (c : Nat) : Nat := ((s.chan c).tags.filter (fun t => t.cmd.fg)).length

/-! Link-level retry. -/

/-- Body of an LCTL flit (R149). -/
def lctlBody (ack nak : Option (BitVec 12)) (retrain quiesce : Bool) : Bytes :=
  leBytes 1 (bit ack.isSome + 2 * bit nak.isSome + 4 * bit retrain + 8 * bit quiesce) ++ leBytes 1 0
    ++ leBytes 2 (ack.getD 0).toNat ++ leBytes 2 (nak.getD 0).toNat

/-- Send an LCTL of the controller (R149), with the number that the next sequenced flit will take (R151). -/
def sendLctl (c : Nat) (ack nak : Option (BitVec 12)) (retrain quiesce : Bool) (s : State) : State :=
  sendBlocks c (mkFlit 4 (s.chan c).txNext (lctlBody ack nak retrain quiesce)) s

/-- The last number accepted in order, for ACK_SEQ. -/
def Chan.lastRx (k : Chan) : BitVec 12 := k.rxExp - 1

/-- R146, R147: start a retraining of an ACTIVE link with its last presets. -/
def startRetrain (c : Nat) (s : State) : State :=
  if (s.chan c).link = .active then
    let s := s.modChan c (fun k => { k with
      link := .retrain, retrains := sat8 k.retrains, shortTrain := true, secondTry := false
      trn1Lock := 0, eqTry := none, eqDone := false, trn2Seen := 0, confirmErr := false })
    s.send (.trn1 c (s.chan c).cPreset 15 false true)
  else s

/-- R145: start full training of a channel: TRN1 with preset 5. -/
def startTraining (c : Nat) (s : State) : State :=
  let s := s.modChan c (fun k => { k with
    link := .detect, cPreset := 5, trn1Lock := 0, eqTry := none, eqDone := false, shortTrain := false, secondTry := false
    trn2Seen := 0, confirmErr := false })
  s.send (.trn1 c 5 15 false false)

/-- Reset of link and transaction state at a link's loss or its first training (R175, R177). The first number of each
direction after a training from DOWN is 0 (log entry 116, DESIGN CHOICE). -/
def Chan.clearLink (k : Chan) : Chan :=
  { k with rxExp := 0, rxNak := false, rxUnacked := 0, rxDataLeft := 0, txNext := 0, txBuf := [], replayRun := 0,
           tags := [], dieCredit := [], mgmtCredit := 4, crcTimes := [] }

/-- R152: a flit fails: discard it, and send a NAK unless one is outstanding. `crc` says it failed its
FCRC and counts toward R147. -/
def flitFail (c : Nat) (crc : Bool) (s : State) : State :=
  let k := s.chan c
  let times := if crc then s.now :: k.crcTimes.filter (fun t => s.now < t + 1000000) else k.crcTimes
  let count := crc || !k.rxNak
  let s := s.modChan c (fun k => { k with
    crcErr := if count then sat16 k.crcErr else k.crcErr, crcTimes := times, rxNak := true })
  let s := if k.rxNak then s else sendLctl c (some k.lastRx) (some k.rxExp) false false s
  if times.length > 16 then startRetrain c s else s

/-- R152, R153: a sequenced flit accepted; `data` is what it leaves owed of a sector. -/
def flitAccept (c data : Nat) (s : State) : State :=
  let s := s.modChan c (fun k => { k with
    rxExp := k.rxExp + 1, rxNak := false, rxUnacked := k.rxUnacked + 1, rxDataLeft := data })
  if (s.chan c).rxUnacked ≥ 32 then
    (sendLctl c (some (s.chan c).lastRx) none false false s).modChan c (fun k => { k with rxUnacked := 0 })
  else s

/-- R147, R155: resend the buffered flits from number `seq` on, in order. The count of replays without an advance goes on
over a retraining (log entry 117, DESIGN CHOICE). -/
def replayFrom (c : Nat) (seq : BitVec 12) (s : State) : State :=
  let k := s.chan c
  let first := k.txNext - BitVec.ofNat 12 k.txBuf.length
  let skip := dist first seq
  if skip < k.txBuf.length then
    let s := forEach (k.txBuf.drop skip) (sendBlocks c) s
    let s := s.modChan c (fun k => { k with replays := sat16 k.replays, replayRun := k.replayRun + 1 })
    if (s.chan c).replayRun ≥ 4 then startRetrain c s else s
  else s

/-- R154: every buffered flit up to and including `seq` is acknowledged. -/
def ackTo (c : Nat) (seq : BitVec 12) (s : State) : State :=
  let k := s.chan c
  let first := k.txNext - BitVec.ofNat 12 k.txBuf.length
  let n := dist first seq + 1
  if n ≤ k.txBuf.length then
    s.modChan c (fun k => { k with txBuf := k.txBuf.drop n, replayRun := 0 })
  else s

/-- LCTL fields of a good flit (LCTL body of R149). New flits follow a replay (R155). -/
def lctlRx (c : Nat) (f : Bytes) (s : State) : State :=
  let ctl := f.getD 2 0
  let ackSeq := BitVec.ofNat 12 (leVal (slice f 4 2))
  let nakSeq := BitVec.ofNat 12 (leVal (slice f 6 2))
  let s := if ctl.getLsbD 0 then ackTo c ackSeq s else s
  let s := if ctl.getLsbD 1 then replayFrom c nakSeq s else s
  let s := if ctl.getLsbD 2 then startRetrain c s else s
  pumpChan c s

/-- A flit of the module on an ACTIVE link (R149 to R153, R156): IDLE, HDR, DATA0, DATAN, LCTL; a
reserved type counts as a CRC error. -/
def flitRx (c : Nat) (f : Bytes) (s : State) : State :=
  if (s.chan c).link ≠ .active then s
  else
    let w := leVal (f.take 2)
    let ty := w / 4096
    let seq := BitVec.ofNat 12 w
    let k := s.chan c
    if leBytes 2 (crc16 (f.take 62)).toNat ≠ (f.drop 62).take 2 ∨ ty > 4 then flitFail c true s
    else if ty = 0 ∨ ty = 4 then
      let s := if later seq k.rxExp then (if k.rxNak then s else flitFail c false s) else s
      if ty = 4 then lctlRx c f s else s
    else if seq ≠ k.rxExp then (if k.rxNak then s else flitFail c false s)
    else flitAccept c (if ty = 2 then 4 else if ty = 3 then k.rxDataLeft - 1 else 0) s

/-- R148, R155: flit stream resumed after a retraining: replay from the oldest unacknowledged flit. -/
def resumeStream (c : Nat) (s : State) : State :=
  let k := s.chan c
  let s := forEach k.txBuf (sendBlocks c) s
  pumpChan c (if k.txBuf.isEmpty then s else s.modChan c (fun k => { k with replays := sat16 k.replays }))

/-- R149, R154: an IDLE flit on every lane that carries a flit stream, once in each flit time of 16.25 ns that passes while
no command comes (log entry 118, DESIGN CHOICE). -/
def idleFlits (s : State) : State :=
  if 4 * s.now / 65 = 4 * (s.now - 1) / 65 then s
  else forEach ((s.chans.filter (fun e => e.2.link == .active || e.2.link == .confirm)).map (·.1)) sendIdle s

/-- The channel reads its descriptor: two DESCRIPTOR commands, page halves 0 and 1 (R145, R157, R169). -/
def readDescriptor (c : Nat) (s : State) : State :=
  submit c { op := .descriptor, arg := 1, fg := false } (submit c { op := .descriptor, arg := 0, fg := false } s)

/-- A media command to a sector of a group row (R72). -/
def sectorCmd (s : State) (op : MOp) (g grow pos rowOp : Nat) (sector : Bytes) (fg : Bool) : MCmd :=
  let (die, daddr) := s.dieOf (grpChan g pos) grow
  { op, die, daddr, sector, grow, rowOp, fg }

end Sys2Proof.Machine
end

