-- ==== Sys2Proof/Machine/Rails.lean ====
section
/-! DEFINITION. Rails: targets, good and off conditions, enables, discharge, failure records (R486 to R491,
R505), and the first failure of a sequence. -/

namespace Sys2Proof.Machine

open Sys2Proof

/-- R488: target of a rail in mV, the nominal adjusted by the margin in force (R517: 0.5 % a step). -/
def Rail.target (r : Rail) : Nat := (r.nomMv * (200 + r.margin).toNat) / 200

/-- The sensed voltage lies within `pct` percent of the target. -/
def Rail.within (r : Rail) (pct : Nat) : Bool :=
  decide (r.target * (100 - pct) ≤ r.mv * 100) && decide (r.mv * 100 ≤ r.target * (100 + pct))

/-- R488: the rail is good. `byPg` marks a rail judged by its power-good input alone (R622). -/
def Rail.isGood (r : Rail) (byPg : Bool) : Bool := r.en && (r.pg || !r.pgUsed) && (byPg || r.within 12)

/-- R490: the rail is off. -/
def Rail.isOff (r : Rail) : Bool := !r.en && decide (r.mv * 10 < r.nomMv)

/-- The rail has been seen off, is unused, or reads off now (R487, R490). -/
def Rail.down (r : Rail) : Bool := r.st == .off || r.st == .unused || r.isOff

/-- Drawer of a drawer rail, and its D step (R6, R182). -/
def railDrawer (i : Nat) : Option (Nat × Nat) := if i < 16 then none else some ((i - 16) / 4, (i - 16) % 4)

/-- Enable a rail; one left unused is never enabled (R487). -/
def enableRail (i : Nat) (s : State) : State :=
  s.modRail i (fun r => if r.st = .unused then r else { r with en := true, dis := false, st := .ramping })

/-- Deassert a rail's enable (R494, R505). -/
def disableRail (i : Nat) (s : State) : State :=
  s.modRail i (fun r => if r.st = .unused then r
    else { r with en := false, warn := false, outAt := none, st := if r.isOff then .off else .falling })

/-- Rails 0 to 15 of a windlass step (R487). -/
def State.stepRails (s : State) (n : Nat) : List Nat :=
  (List.range 16).filter (fun i => (s.rail i).step == n && (s.rail i).st != .unused)

/-- R495: a rail of a step has settled in the up direction (good, or timed out) or down (off or timed out). -/
def Rail.settledUp (r : Rail) : Bool := r.st == .good || (r.st == .failed && r.en)
def Rail.settledDown (r : Rail) : Bool := r.st == .off || (r.st == .failed && !r.en)

/-- R489: event 736 + 2i + 0, counted in RL_EVENTS.FAULTS. -/
def railFault (i : Nat) (s : State) : State :=
  raiseWith (736 + 2 * i) i 0 (s.modRail i (fun r => { r with faults := sat16 r.faults }))

/-- R489: event 736 + 2i + 1, counted in RL_EVENTS.WARNS. -/
def railWarn (i : Nat) (s : State) : State :=
  raiseWith (736 + 2 * i + 1) i 0 (s.modRail i (fun r => { r with warns := sat16 r.warns }))

/-- R519, R520: record the first failure of a sequence; a record of the sequence already written takes it too. -/
def firstFailure (rail cause : Nat) (s : State) : State :=
  if s.power.firstRail = 0xFF ∧ s.power.firstCause = 0xFF then
    s.modPower (fun p => { p with firstRail := rail, firstCause := cause })
  else s

/-- R520: add the first failure to the newest record when that record has none, while rail 3 is good. -/
def patchRecord (rail cause : Nat) (s : State) : State :=
  match s.power.plog with
  | r :: t =>
    if r.firstRail = 0xFF ∧ r.firstCause = 0xFF ∧ (s.rail 3).st = .good then
      let r := { r with firstRail := rail, firstCause := cause }
      flashMarks (r.pseq / 112 % 2) 224 (r.pseq % 112 * 73 + 3) .plog ((r.words.drop 3).take 1)
        (s.modPower (fun p => { p with plog := r :: t }))
    else s
  | [] => s

/-- Junction of the two: first failure of the present sequence, added to its record where one is written. -/
def noteFailure (rail cause : Nat) (s : State) : State :=
  if s.power.firstRail = 0xFF ∧ s.power.firstCause = 0xFF then
    patchRecord rail cause (firstFailure rail cause s)
  else s

end Sys2Proof.Machine
end

