-- ==== Sys2Proof/Machine/SumpOps.lean ====
section
/-! DEFINITION. The sump: placement, line states, read layers, visibility of a line, dirty totals, the
dirty overflow, the DRAM pool and the written-since-split bitmap (R209 to R229, R289, R290). -/

namespace Sys2Proof.Machine

open Sys2Proof

/-- An image that holds nothing. -/
def imgEmpty (n : Nat) : Img := List.replicate n none

/-- The bytes of `top` where it has them, else those of `under`. -/
def imgOver : Img → Img → Img
  | [], u => u
  | o, [] => o
  | some b :: o, _ :: u => some b :: imgOver o u
  | none :: o, x :: u => x :: imgOver o u

/-- Every byte is held. -/
def imgFull (i : Img) : Bool := i.all Option.isSome

/-- Some byte is held. -/
def imgAny (i : Img) : Bool := i.any Option.isSome

/-- The bytes, zero where none is held. -/
def imgBytes (i : Img) : Bytes := i.map (fun b => b.getD 0)

/-- A full image. -/
def imgOf (d : Bytes) : Img := d.map some

/-- `n` bytes of an image from `off`, nothing held where it ends early. -/
def imgSlice (i : Img) (off n : Nat) : Img := (List.range n).map (fun k => i.getD (off + k) none)

/-- The 64-byte image of line `line` that bytes `d` at byte offset `off` write. -/
def lineImg (off : Nat) (d : Bytes) (line : Nat) : Img :=
  (List.range 64).map (fun k => if off ≤ 64 * line + k then d[64 * line + k - off]? else none)

/-- Lines that `len` bytes at `off` touch. -/
def touched (off len : Nat) : List Nat :=
  if len = 0 then [] else (List.range ((off + len - 1) / 64 + 1 - off / 64)).map (fun k => off / 64 + k)

/-- Image of a masked line write (CXL_WRITE, R255). -/
def maskImg (mask : BitVec 64) (d : Bytes) : Img :=
  (List.range 64).map (fun k => if mask.getLsbD k then some (d.getD k 0) else none)

/-- Usable sump size S in bytes (R58, R616). -/
def State.sumpSize (s : State) : Nat := (8 - s.sump.badBanks.length) * 12582912

/-- Lines of one bank. -/
def bankLines : Nat := 196608

/-- Lines in a state. -/
def State.linesIn (s : State) (st : LineState) : Nat := (s.sump.lines.filter (fun l => l.st == st)).length

/-- Reserve lines that row operations hold (R211). -/
def State.rsvHeld (s : State) : Nat := s.ops.foldl (fun n o => n + o.rsvLines) 0

/-- Lines in state intent: those taken into an update and those of the reserve (R213). -/
def State.intentLines (s : State) : Nat := s.linesIn .intent + s.rsvHeld

/-- Dirty total of R58 in bytes: visible-dirty and intent sump lines and dirty overflow data. -/
def State.dirtyTotal (s : State) : Nat := 64 * (s.linesIn .dirty + s.intentLines) + 256 * s.sump.overflow.length

/-- Lines outside the intent reserve that are in use in a bank. -/
def State.bankUsed (s : State) (b : Nat) : Nat := (s.sump.lines.filter (fun l => l.bank == b)).length

/-- Usable banks. -/
def State.banks (s : State) : List Nat := (List.range 8).filter (fun b => !s.sump.badBanks.contains b)

/-! The intent reserve (R211, R230). -/

/-- Of `k` lines laid in successive usable banks from the one that `first` names, those in bank `b` (R209). -/
def State.shareIn (s : State) (k first b : Nat) : Nat :=
  let n := s.banks.length
  match s.banks.findIdx? (fun x => x == b) with
  | some i => (k + n - 1 - (i + n - first % n) % n) / n
  | none => 0

/-- Reserve lines that an operation holds in a bank (log entry 132, DESIGN CHOICE). -/
def State.opIn (s : State) (o : RowOp) (b : Nat) : Nat := s.shareIn o.rsvLines o.id b

/-- Reserve lines of a bank allocated to stripe engines (SB_RSV.INUSE, R240). -/
def State.rsvIn (s : State) (b : Nat) : Nat := s.ops.foldl (fun n o => n + s.opIn o b) 0

/-- Reserve lines that one row update needs at most (R211). -/
def updateLines : Nat := 45

/-- Lines of a bank that each engine is guaranteed (R211). -/
def engineShare : Nat := 512

/-- Reserve lines of a bank that an engine's locked operations hold or may come to hold. -/
def State.engineLines (s : State) (g b : Nat) : Nat :=
  (s.ops.filter (fun o => o.grp == g && o.locked)).foldl (fun n o =>
    n + (if o.phase == .write || o.phase == .record then s.opIn o b else s.shareIn updateLines o.id b)) 0

/-- R211, R230: the group's engine can take a further operation: in every bank from its guaranteed lines, or from what the
engines share. -/
def State.reserveRoom (s : State) (g : Nat) : Bool :=
  let need := ceilDiv updateLines s.banks.length
  s.banks.all (fun b =>
    let above := fun (e : Nat) => s.engineLines e b - engineShare
    let own := s.engineLines g b
    decide (own + need ≤ engineShare)
      || decide ((List.range 16).foldl (fun n e => n + above e) (own + need - Nat.max own engineShare)
          ≤ s.sump.intentRsv - 16 * engineShare))

/-- Entries of an engine's merge buffer (R230). -/
def mergeEntries : Nat := 64

/-- Merge entries that an engine's updates hold. -/
def State.mergeHeld (s : State) (g : Nat) : Nat :=
  s.ops.foldl (fun n o => n + (match o.purpose with
    | .host _ _ cws => if o.grp == g && o.locked && o.phase == .read then cws.length else 0
    | _ => 0)) 0

/-- The merge buffer has entries for the eight codewords of a row. -/
def State.mergeRoom (s : State) (g : Nat) : Bool := decide (s.mergeHeld g + 8 ≤ mergeEntries)

/-- Regions of 64 KiB in a bank (R618). -/
def bankRegions : Nat := 192

/-- Free lines of a bank outside its intent reserve (R211); those of R610 are held out of use. -/
def State.bankFree (s : State) (b : Nat) : Nat :=
  bankLines - s.sump.intentRsv - s.bankUsed b - (s.test.heldRegions.filter (fun r => r / bankRegions == b)).length

/-- Lines outside the intent reserve that a grant of credit can reserve (R210): a reservation is a number of lines of the
whole sump, and a clean-cached line counts as free, since R209 frees it for a placement (log entry 129, DEDUCED). -/
def State.linesLeft (s : State) : Nat :=
  s.banks.length * (bankLines - s.sump.intentRsv)
    - (s.linesIn .pending + s.linesIn .dirty + s.linesIn .intent)
    - (s.sump.rsvNet + s.sump.rsvTwin + s.sump.rsvHost) - s.test.heldRegions.length

/-- First usable bank at or after `b`, cyclically. -/
def State.bankFrom (s : State) (b : Nat) : Option Nat :=
  ((List.range 8).map (fun k => (b + k) % 8)).find? (fun x => !s.sump.badBanks.contains x)

/-- R209: make room for one line in bank b: a free line, or the oldest clean-cached line of that bank. -/
def makeRoom (b : Nat) (s : State) : Option State :=
  if s.bankFree b > 0 then some s
  else
    match s.sump.lines.find? (fun l => l.bank == b && l.st == .clean) with
    | some l => some (s.modSump (fun u => { u with lines := u.lines.filter (fun x => x.id != l.id) }))
    | none => none

/-- R209, R213: place one line in the next usable bank; none when that bank has no room. -/
def placeLine (ns line : Nat) (st : LineState) (img : Img) (poison : Bool) (tag : Option (Nat × MsgId))
    (lsn : Lsn) (conns : List (Nat × MsgId)) (s : State) : Option State :=
  match s.bankFrom s.sump.nextBank with
  | none => none
  | some b =>
    match makeRoom b s with
    | none => none
    | some s => some (s.modSump (fun u => { u with
        lines := u.lines ++ [{ id := u.nextId, bank := b, ns, line, st, img, poison, tag, stamp := u.stamp, lsn, conns }]
        nextId := u.nextId + 1, nextBank := (b + 1) % 8 }))

/-- Newest visible sump version of a line. -/
def State.sumpLine (s : State) (ns line : Nat) : Option SumpLine :=
  (s.sump.lines.filter (fun l => l.ns == ns && l.line == line && l.st != .pending)).foldl
    (fun acc l => match acc with
      | some a => if l.stamp ≥ a.stamp then some l else some a
      | none => some l) none

/-- Dirty overflow entry of a codeword. -/
def State.ovEntry (s : State) (ns cw : Nat) : Option OvEntry :=
  s.sump.overflow.find? (fun e => e.ns == ns && e.cw == cw)

/-- Read-cache or prefetch copy of a codeword: data and poison mask. -/
def State.pageCw (s : State) (ns cw : Nat) : Option (Bytes × BitVec 4) :=
  match s.sump.pages.find? (fun p => p.ns == ns && p.cws.any (fun c => c.1 == cw)) with
  | some p => (p.cws.find? (fun c => c.1 == cw)).map (·.2)
  | none => none

/-- Content of one line as the layers above media hold it: bytes and poison. -/
structure View where
  /-- Bytes held. -/
  img : Img
  /-- The line is known to be poisoned. -/
  poison : Bool

/-- A layer over a view: a poisoned layer poisons the line, and a layer that covers the whole line clears
the poison below it (R125). -/
def View.under (v : View) (img : Img) (poison : Bool) : View :=
  if poison then { img := imgOver img v.img, poison := true }
  else { img := imgOver img v.img, poison := v.poison && !imgFull img }

/-- R214: the three upper layers of a line, over the media copy of its codeword where one is given. -/
def State.viewOver (s : State) (media : Option (Bytes × BitVec 4)) (ns line : Nat) : View :=
  let l := line % 4
  let cw := line / 4
  let base : View := match (s.pageCw ns cw <|> media) with
    | some (d, m) => { img := imgOf (slice d (64 * l) 64), poison := m.getLsbD l }
    | none => { img := imgEmpty 64, poison := false }
  let base := match s.ovEntry ns cw with
    | some e => base.under (imgSlice e.img (64 * l) 64) (e.poison.getLsbD l)
    | none => base
  match s.sumpLine ns line with
  | some x => base.under x.img x.poison
  | none => base

/-- R214 without media. -/
def State.view (s : State) (ns line : Nat) : View := s.viewOver none ns line

/-- The layers above media decide the line without media. -/
def View.known (v : View) : Bool := v.poison || imgFull v.img

/-! The DRAM pool (R224 to R227). -/

/-- Pages of the pool: 3,584 MiB of each usable DRAM channel (R224, R553), less 7 for each retired row (R569). -/
def State.poolPages (s : State) : Nat :=
  s.dram.usable.length * 3584 * 256 - 7 * s.dram.usable.foldl (fun n c => n + (s.drch c).retired.length) 0

/-- Pages that a client holds. Clients 3 to 6 keep what the manual's figures give them: their floor (log entry 130, DESIGN
CHOICE for client 5). -/
def State.poolUsed (s : State) (c : Nat) : Nat :=
  match c with
  | 0 => ceilDiv (s.sump.overflow.length * 320) 4096
  | 1 => (s.sump.pages.filter (fun p => p.client == 1)).length
  | 2 => (s.sump.pages.filter (fun p => p.client == 2)).length
  | 3 => 256 * 256
  | 4 => 64 * 256
  | 5 => 2048 * 256
  | 6 => 256 * 256
  | _ => 0

/-- Floor of a client in pages (R224). -/
def State.poolFloor (s : State) (c : Nat) : Nat :=
  256 * (match c with
    | 0 => 20360 | 1 => s.sump.readFloor | 2 => s.sump.pfFloor | 3 => 256 | 4 => 64 | 5 => 2048 | 6 => 256 | _ => 0)

/-- R221: ceiling of dirty overflow in bytes of data. -/
def State.ovCeiling (s : State) : Nat := s.dura.dmax - s.sumpSize

/-- R221: one more entry would pass the ceiling. -/
def State.atCeiling (s : State) : Bool := decide (256 * (s.sump.overflow.length + 1) > s.ovCeiling)

/-- Pages that no client holds. -/
def State.poolFree (s : State) : Nat := s.poolPages - (List.range 7).foldl (fun n c => n + s.poolUsed c) 0

/-- Pages of a client's floor that are in use, its own and those that others borrow from it. -/
def State.floorUsed (s : State) (c : Nat) : Nat :=
  (s.sump.pages.filter (fun p => p.src == c)).length
    + (if c = 1 ∨ c = 2 then 0 else Nat.min (s.poolUsed c) (s.poolFloor c))

/-- Pages of a client's floor that are free. -/
def State.floorFree (s : State) (c : Nat) : Nat := s.poolFloor c - s.floorUsed c

/-- Pages of the shared remainder that are free (R224): those in use are the pages taken from it, dirty overflow above its
floor, and pages taken from a floor that has been lowered since. -/
def State.sharedFree (s : State) : Nat :=
  s.poolPages - (List.range 7).foldl (fun n c => n + s.poolFloor c + (s.floorUsed c - s.poolFloor c)) 0
    - (s.sump.pages.filter (fun p => p.src == 7)).length - (s.poolUsed 0 - s.poolFloor 0)

/-- Oldest page among those that satisfy p. -/
def oldestPage (p : PoolPage → Bool) (l : List PoolPage) : Option PoolPage :=
  (l.filter p).foldl (fun acc x => match acc with
    | some a => if x.time < a.time then some x else some a
    | none => some x) none

/-- Remove one page. -/
def dropPage (x : PoolPage) (s : State) : State := s.modSump (fun u => { u with pages := u.pages.erase x })

/-- A client that can be evicted (R224). -/
def evictable (c : Nat) : Bool := c == 1 || c == 2

/-- R225: where a free page for a client comes from: its own floor, the shared remainder, and, for a client that can be
evicted, another's unused floor. -/
def State.freePage (s : State) (c : Nat) : Option Nat :=
  if s.poolFree = 0 then none
  else if s.floorFree c > 0 then some c
  else if s.sharedFree > 0 then some 7
  else if evictable c then [0, 1, 2].find? (fun i => decide (s.floorFree i > 0))
  else none

/-- R226: the page that is evicted for a client when none is free to it. Dirty overflow takes only a page of its own floor,
or one of the shared remainder (R225). -/
def State.victim (s : State) (c : Nat) : Option PoolPage :=
  let borrowed := fun (p : PoolPage) => p.src == c && p.client != c
  let above := fun (p : PoolPage) => decide (s.poolUsed p.client > s.poolFloor p.client) && (evictable c || p.src == 7)
  oldestPage borrowed s.sump.pages <|> oldestPage above s.sump.pages <|> oldestPage (fun p => p.client == c) s.sump.pages

/-- A free page, with where it comes from, or else the page that is evicted. -/
def takePage (free : Option Nat) (victim : Option PoolPage) (s : State) : Option (Nat × State) :=
  match free with
  | some f => some (f, s)
  | none => victim.map (fun x => (x.src, dropPage x s))

/-- R225, R226: a page for a client: free, or by eviction in R226's order; none when the need waits. -/
def poolNeed (c : Nat) (s : State) : Option (Nat × State) := takePage (s.freePage c) (s.victim c) s

/-- R227: present time stamp of a page, in ms ticks. -/
def State.tick (s : State) : Nat := s.now / 1000000

/-- R556: the words of a unit that new bytes touch, each completed from what the pool holds, with their check bytes. -/
def poolWords (draw : Nat) (old new : Img) : List (Nat × BitVec 64 × BitVec 8) :=
  let all := imgOver new old
  ((List.range 32).filter (fun k => imgAny (imgSlice new (8 * k) 8))).map (fun k =>
    let d := BitVec.ofNat 64 (leVal ((List.range 8).map (fun j => (all.getD (8 * k + j) none).getD (Config.poolByte draw (8 * k + j)))))
    (k, d, storedCheck d))

/-- R556: a client writes bytes of a codeword into its pool unit. -/
def poolWrite (client ns cw : Nat) (old new : Img) (s : State) : State :=
  s.freeVal.2.send (.poolWrite client ns cw (poolWords s.draws old new))

/-- Keep a clean copy of a codeword in the read cache (1) or as prefetch of a schedule (2). -/
def cacheCw (client sched ns cw : Nat) (d : Bytes) (m : BitVec 4) (s : State) : State :=
  let blk := cw / 16
  let mine := fun (p : PoolPage) => p.client == client && p.sched == sched && p.ns == ns && p.blk == blk
  let put := fun (p : PoolPage) => { p with time := s.tick, cws := tabPut p.cws cw (d, m) }
  let write := poolWrite client ns cw (imgEmpty 256) (imgOf d)
  if s.sump.pages.any mine then
    write <| s.modSump (fun u => { u with pages := u.pages.map (fun p => if mine p then put p else p) })
  else
    match poolNeed client s with
    | some (src, t) => write <| t.modSump (fun u => { u with
        pages := u.pages ++ [{ client, src, sched, ns, blk, time := s.tick, cws := [(cw, d, m)] }] })
    | none => s

/-- R227: an access stamps the pages that served it. -/
def touchPage (ns cw : Nat) (s : State) : State :=
  s.modSump (fun u => { u with
    pages := u.pages.map (fun p => if p.ns = ns ∧ p.blk = cw / 16 then { p with time := s.tick } else p)
    overflow := u.overflow.map (fun x => if x.ns = ns ∧ x.cw = cw then { x with time := s.tick } else x) })

/-- R215, R201: discard the read-cache and prefetch copies of a codeword; a page with none left is free. -/
def discardCopies (ns cw : Nat) (s : State) : State :=
  s.modSump (fun u => { u with
    pages := (u.pages.map (fun p => if p.ns = ns ∧ p.blk = cw / 16 then { p with cws := tabDel p.cws cw } else p)).filter
      (fun p => !p.cws.isEmpty) })

/-! Visibility of a line. -/

/-- Tiles of the written-since-split bitmap (R289). -/
def tileCount : Nat := 16 * 3640 * 32768

/-- R289, R292: a bit of the bitmap; after FULL the list names the bits that are clear. -/
def Twin.tileBit (t : Twin) (i : Nat) : Bool := if t.bitmapAll then !t.bitmap.contains i else t.bitmap.contains i
/-- Set a bit. -/
def Twin.setBit (t : Twin) (i : Nat) : Twin :=
  { t with bitmap := if t.bitmapAll then t.bitmap.erase i else insNat t.bitmap i }
/-- Clear a bit. -/
def Twin.clearBit (t : Twin) (i : Nat) : Twin :=
  { t with bitmap := if t.bitmapAll then insNat t.bitmap i else t.bitmap.erase i }
/-- Bits set. -/
def Twin.tileBits (t : Twin) : Nat := if t.bitmapAll then tileCount - t.bitmap.length else t.bitmap.length

/-- R290, R294: set the bitmap bit of the tile of a namespace offset, in SOLO. -/
def setTile (ns off : Nat) (s : State) : State :=
  if s.twin.role = .solo then
    match s.tileIdx ns off with
    | some i => s.modTwin (fun t => { t.setBit i with tileLsn := t.tileLsn.filter (fun e => e.1 != i) })
    | none => s
  else s

/-- R371: a visibility step that writes a line makes a gather over it stale. -/
def markGathers (ns line : Nat) (s : State) : State :=
  s.modXport (fun x => { x with gathers := x.gathers.map (fun g =>
    if g.ns = ns ∧ g.off / 64 ≤ line ∧ line ≤ (g.off + g.len - 1) / 64 then { g with stale := true } else g) })

/-- R377: keep the earliest write of a connection. -/
def earliestOf (l : List (Nat × MsgId)) (e : Nat × MsgId) : List (Nat × MsgId) :=
  match lookupNat e.1 l with
  | none => l ++ [e]
  | some m => if earlier e.2 m then l.map (fun x => if x.1 = e.1 then e else x) else l

/-- R377: writes whose bytes a poisoned line discards. -/
def notePoison (ws : List (Nat × MsgId)) (s : State) : State :=
  forEach ws (fun w s => s.modConn w.1 (fun k => match k.poisonMsg with
    | none => { k with poisonMsg := some w.2 }
    | some p => if earlier w.2 p then { k with poisonMsg := some w.2 } else k)) s

/-- R213: merge `img` over the line's previous sump version, which is freed unless it is an intent. -/
def mergePrev (ns line : Nat) (img : Img) (poison : Bool) (s : State) : Img × Bool × List (Nat × MsgId) × State :=
  match s.sumpLine ns line with
  | none => (img, poison, [], s)
  | some p =>
    let s := if p.st == .intent then s
      else s.modSump (fun u => { u with lines := u.lines.filter (fun x => x.id != p.id) })
    (imgOver img p.img, poison || (p.poison && !imgFull img), p.conns, s)

/-- The visibility step of one line's image (R31, R33, R125, R213, R215): the bytes become the line's
value in a dirty version. `id` names the pending line that becomes it; with none a new line is placed.
A partial write to a line known to be poisoned discards its bytes: its line keeps the poison. None when no line can be
placed. -/
def showLine (id : Option Nat) (ns line : Nat) (img : Img) (poison : Bool) (lsn : Lsn)
    (conns : List (Nat × MsgId)) (s : State) : Option State :=
  let s := markGathers ns line (setTile ns (64 * line) s)
  let old := id.bind (fun i => s.sump.lines.find? (fun x => x.id == i))
  let s := match old with
    | some o => s.modSump (fun u => { u with lines := u.lines.filter (fun x => x.id != o.id) })
    | none => s
  let lost := (s.view ns line).poison && !imgFull img && !poison
  let s := if lost then notePoison conns s else s
  let (img, poison, was, s) := mergePrev ns line (if lost then imgEmpty 64 else img) (poison || lost) s
  let s := discardCopies ns (line / 4) s
  let cs := (if lost then [] else conns).foldl earliestOf was
  match old with
  | some o => some (s.modSump (fun u => { u with
      lines := u.lines ++ [{ id := u.nextId, bank := o.bank, ns, line, st := .dirty, img, poison, stamp := u.stamp, lsn, conns := cs }]
      nextId := u.nextId + 1 }))
  | none => placeLine ns line .dirty img poison none lsn cs s

/-- Whether `n` further lines can be placed, each in its next bank, freeing clean-cached lines. -/
def roomFor (s : State) (n : Nat) : Bool :=
  s.banks.length != 0 && s.banks.all (fun b =>
    decide (ceilDiv n s.banks.length ≤ s.bankFree b + (s.sump.lines.filter (fun l => l.bank == b && l.st == .clean)).length))

/-- Room for `n` lines: those of a reservation (R210), or lines that no reservation holds. -/
def State.lineRoom (s : State) (reserved : Bool) (n : Nat) : Bool := roomFor s n && (reserved || decide (n ≤ s.linesLeft))

/-- R33: a new position in the total order of visibility steps and CXL.mem placements. -/
def nextStamp (s : State) : State := s.modSump (fun u => { u with stamp := u.stamp + 1 })

/-- Place each line of `len` bytes at `off` as a pending image of a message (R27, R213). -/
def placePending (ns off : Nat) (d : Bytes) (tag : Nat × MsgId) (lsn : Lsn) (s : State) : Option State :=
  (touched off d.length).foldl (fun (acc : Option State) line =>
    match acc with
    | none => none
    | some s =>
      -- a line of the same message that is already pending takes the new bytes
      if s.sump.lines.any (fun l => l.st == .pending && l.tag == some tag && l.ns == ns && l.line == line) then
        some (s.modSump (fun u => { u with lines := u.lines.map (fun l =>
          if l.st == .pending && l.tag == some tag && l.ns == ns && l.line == line
          then { l with img := imgOver (lineImg off d line) l.img, lsn } else l) }))
      else placeLine ns line .pending (lineImg off d line) false (some tag) lsn [] s) (some s)

/-- R41, R213: free the pending lines of a message. -/
def freePending (tag : Nat × MsgId) (s : State) : State :=
  s.modSump (fun u => { u with lines := u.lines.filter (fun l => !(l.st == .pending && l.tag == some tag)) })

/-- R31: every pending image of a message becomes its line's value; answers the lines written. -/
def showMessage (tag : Nat × MsgId) (lsn : Lsn) (s : State) : State × List (Nat × Nat) :=
  let mine := s.sump.lines.filter (fun l => l.st == .pending && l.tag == some tag)
  let s := nextStamp s
  mine.foldl (fun (acc : State × List (Nat × Nat)) l =>
    ((showLine (some l.id) l.ns l.line l.img false lsn [tag] acc.1).getD acc.1,
      acc.2 ++ [(l.ns, l.line)])) (s, [])

/-- Overflow entry of a codeword. -/
def State.overflowOf (s : State) (ns cw : Nat) : Option OvEntry :=
  s.sump.overflow.find? (fun x => x.ns == ns && x.cw == cw)

/-- R222, R227: an entry with a newer image over it. -/
def OvEntry.merged (now : Nat) (e x : OvEntry) : OvEntry :=
  { x with
    img := imgOver e.img x.img
    poison := e.poison ||| ((List.range 4).foldl (fun (m : BitVec 4) l =>
      if imgFull (imgSlice e.img (64 * l) 64) then m &&& ~~~(1#4 <<< l) else m) x.poison)
    stamp := Nat.min x.stamp e.stamp
    time := now
    lsn := serialMax x.lsn e.lsn
    conns := e.conns.foldl earliestOf x.conns }

/-- R222, R556: merge a dirty codeword image into its overflow entry, in the pool and its header. -/
def ovMerge (e : OvEntry) (s : State) : State :=
  let old := s.overflowOf e.ns e.cw
  let x := match old with | some x => OvEntry.merged s.tick e x | none => { e with time := s.tick }
  let s := s.modSump (fun u => { u with
    overflow := if old.isSome then u.overflow.map (fun y => if y.ns = e.ns ∧ y.cw = e.cw then x else y) else u.overflow ++ [x] })
  (poolWrite 0 e.ns e.cw (match old with | some y => y.img | none => imgEmpty 256) e.img s).send
    (.poolHeader x.ns x.cw (x.img.map Option.isSome) x.poison x.stamp)

end Sys2Proof.Machine
end

