-- ==== Sys2Proof/Machine/TwinLog.lean ====
section
/-! DEFINITION. Twin frames, their retry and credit (R249 to R253, R261), the input log (R254 to R257) and
the rolling digest (R266). -/

namespace Sys2Proof.Machine

open Sys2Proof

/-- Twin ports in service. -/
def State.twinPorts (s : State) : List Nat := [0, 1, 2, 3].filter (fun t => (s.tport t).st == 2)

/-- Send a control frame on the first port in service. -/
def ctlOne (b : TwinBody) (s : State) : State :=
  match s.twinUp with
  | some t => ctlOn t b s
  | none => s

/-- Send a control frame on every port in service. -/
def ctlAll (b : TwinBody) (s : State) : State := forEach s.twinPorts (fun t s => ctlOn t b s) s

/-- Bytes held in a port's replay buffer. -/
def TwinPort.held (p : TwinPort) : Nat := p.txBuf.foldl (fun n e => n + e.2.2.size) 0

/-- R251: one sequenced data frame on a port. -/
def dataOn (t : Nat) (d : TwinData) (s : State) : State :=
  let lsn := match d with | .log e => e.lsn | _ => s.frameLsn
  let p := s.tport t
  let s := s.modTport t (fun p => { p with
    txBuf := p.txBuf ++ [(p.txSeq, s.twin.epoch, d)], txSeq := p.txSeq + 1
    ackAt := if p.txBuf.isEmpty then s.now else p.ackAt })
  sendFrame t { ctrl := false, epoch := s.twin.epoch, lsn, lseq := p.txSeq } (.data d) s

/-- R253: the port in service whose replay buffer holds least, with room for the frame. -/
def State.dataPort (s : State) (d : TwinData) : Option Nat :=
  (s.twinPorts.filter (fun t => decide ((s.tport t).held + d.size ≤ 524288))).foldl (fun acc t => match acc with
    | none => some t
    | some a => if (s.tport t).held < (s.tport a).held then some t else some a) none

/-- R154 by R251: data frames that wait go out in order while a replay buffer has room. -/
def pumpData : Nat → State → State
  | 0, s => s
  | n + 1, s =>
    match s.twin.dataWait with
    | [] => s
    | d :: rest =>
      match s.dataPort d with
      | none => s
      | some t => pumpData n (dataOn t d (s.modTwin (fun w => { w with dataWait := rest })))

/-- Data frames for the peer, none after RELINQUISH (R271); one that no replay buffer takes waits (R154 by R251). -/
def sendAll (l : List TwinData) (s : State) : State :=
  if s.twin.relinquished.isSome then s
  else
    let s := s.modTwin (fun w => { w with dataWait := w.dataWait ++ l })
    pumpData s.twin.dataWait.length s

/-- Send a data frame. -/
def sendData (d : TwinData) (s : State) : State := sendAll [d] s

/-- R261: credit units of an entry. -/
def entryUnits (e : LogEntry) : Nat := ceilDiv (entryDlen e.body) 4096

/-- R261: send waiting entries in LSN order while the standby's credit and a port allow. -/
def pumpLogAux : Nat → State → State
  | 0, s => s
  | n + 1, s =>
    match s.twin.waiting with
    | [] => s
    | e :: rest =>
      let u := entryUnits e.entry
      if s.twin.relinquished.isSome ∨ !s.twin.dataWait.isEmpty then s
      else if dist s.twin.creditUsed s.twin.creditIn < u ∨ later s.twin.creditUsed s.twin.creditIn then s
      else match s.dataPort (.log e) with
        | none => s
        | some t =>
          pumpLogAux n (dataOn t (.log e) (s.modTwin (fun w => { w with
            waiting := rest, creditUsed := w.creditUsed + BitVec.ofNat 32 u })))

/-- R251, R261: what waits for a port or for credit goes out. -/
def pumpLog (s : State) : State :=
  let s := sendAll [] s
  pumpLogAux s.twin.waiting.length s

/-- Fold bytes into the digest (R266). -/
def foldDigest (b : Bytes) (s : State) : State := s.modTwin (fun w => { w with digest := crc64 w.digest b })

/-- R266: fold the LSN and KIND of an entry. -/
def foldEntry (lsn : Lsn) (kind : Nat) (s : State) : State := foldDigest (beBytes 6 lsn.toNat ++ beBytes 1 kind) s

/-- The 64 bytes of a line's value; a byte that only media holds is that of log entry 9, DESIGN CHOICE. -/
def State.lineBytes (s : State) (ns line : Nat) : Bytes :=
  let v := s.view ns line
  (List.range 64).map (fun k => match v.img.getD k none with
    | some b => b
    | none => Config.storedByte ns (64 * line + k))

/-- R266: fold NSID, offset and value of a line that a step wrote. -/
def foldLine (ns line : Nat) (s : State) : State :=
  foldDigest (beBytes 2 ns ++ beBytes 8 (64 * line) ++ s.lineBytes ns line) s

/-- Fold each of the lines that a step wrote, in ascending offset. -/
def foldLines (l : List (Nat × Nat)) (s : State) : State :=
  let sorted := (l.foldl (fun acc e => insNat acc (e.1 * 2 ^ 64 + e.2)) []).map (fun k => (k / 2 ^ 64, k % 2 ^ 64))
  forEach sorted (fun e s => foldLine e.1 e.2 s) s

/-- Entries are built: in ACTIVE, and in SOLO while a resync runs (R255, R293). -/
def State.logging (s : State) : Bool := s.twin.role == .active || (s.twin.role == .solo && s.twin.resync)

/-- Bytes of a namespace that an entry writes: offset and length. -/
def entrySpan : EntryBody → Option (Nat × Nat)
  | .netWrite _ nsoff _ _ _ op d =>
    match op with
    | .write | .writeDurable => some (nsoff, d.length)
    | _ => some (nsoff, 8)
  | .atomicResult nsoff .. => some (nsoff, 8)
  | .cxlWrite nsoff .. => some (nsoff, 64)
  | .resync nsoff .. => some (nsoff, 4096)
  | _ => none

/-- R290: keep the tiles that an entry writes until a matching digest covers it. -/
def noteTiles (lsn : Lsn) (e : LogEntry) (s : State) : State :=
  match entrySpan e.body with
  | none => s
  | some (off, len) =>
    let ts := ([off, off + len - 1].filterMap (fun o => s.tileIdx e.nsid o)).foldl insNat []
    s.modTwin (fun w => { w with tilesSince := w.tilesSince ++ ts.map (fun t => (lsn, t)) })

/-- R254: assign the next LSN to an entry and send it within credit. Where no entry is built, the LSN
stays. -/
def logEntry (e : LogEntry) (s : State) : State × Lsn :=
  if s.logging then
    let lsn := s.twin.sent + 1
    let l : Logged := { lsn, entry := e }
    let s := s.modTwin (fun w => { w with
      sent := lsn, unacked := w.unacked ++ [l], waiting := w.waiting ++ [l] })
    (pumpLog (noteTiles lsn e (foldEntry lsn (entryKind e.body) s)), lsn)
  else (s, s.twin.sent)

/-- An entry that names no connection. -/
def plainEntry (nsid : Nat) (body : EntryBody) : LogEntry :=
  { anchor := false, durable := false, conn := 0, msg := 0, nsid, body }

/-- Every entry up to `lsn` has been applied on the peer, or none is needed (R40, R44). -/
def State.ackedTo (s : State) (lsn : Lsn) : Bool :=
  s.twin.role == .solo || atOrBefore lsn s.twin.applied

/-- R266: fold the RESULT of a CONTROL entry. -/
def foldResult (result : Nat) (s : State) : State :=
  if s.logging then foldDigest (beBytes 2 result) s else s

/-- DRW_STATE.STATE encoding (R208). -/
def DrawerState.code : DrawerState → Nat
  | .parked => 0 | .waking => 1 | .awake => 2 | .parking => 3 | .dfault => 4

/-- R255, R687: log a CONTROL entry; the digest folds its RESULT. -/
def logControl (code : Nat) (tag : BitVec 16) (result : Nat) (cfg : Cfg) (s : State) : State × Lsn :=
  let (s, lsn) := logEntry (plainEntry 0 (.control code tag.toNat result cfg)) s
  (foldResult result s, lsn)

/-! Link-level retry of twin ports (R251, R252). -/

/-- R154 by R251: frames up to `seq` are acknowledged on a port. -/
def twinAckTo (t : Nat) (seq : BitVec 16) (s : State) : State :=
  let p := s.tport t
  let first := p.txSeq - BitVec.ofNat 16 p.txBuf.length
  let n := dist first seq + 1
  if n ≤ p.txBuf.length then
    pumpLog (s.modTport t (fun p => { p with txBuf := p.txBuf.drop n, ackAt := s.now }))
  else s

/-- R155 by R251: resend buffered frames of a port from number `seq`. -/
def twinReplay (t : Nat) (seq : BitVec 16) (s : State) : State :=
  let p := s.tport t
  let first := p.txSeq - BitVec.ofNat 16 p.txBuf.length
  let skip := dist first seq
  if skip < p.txBuf.length then
    let s := s.modTport t (fun p => { p with replays := sat16 p.replays })
    forEach (p.txBuf.drop skip) (fun (f : BitVec 16 × Epoch × TwinData) s =>
      sendFrame t { ctrl := false, epoch := f.2.1, lsn := (match f.2.2 with | .log e => e.lsn | _ => s.frameLsn), lseq := f.1 }
        (.data f.2.2) s) s
  else s

/-- Link acknowledgements that a frame carries (R249 LACK). -/
def twinAcks (h : TwinHdr) (s : State) : State :=
  if h.lackv then twinAckTo h.port h.lack s
  else if h.lnakv then twinReplay h.port (h.lack + 1) (twinAckTo h.port h.lack s)
  else s

/-- Send a LINK frame with an acknowledgement or a NAK (R249, R251). -/
def sendLink (t : Nat) (nak : Bool) (s : State) : State :=
  let last := (s.tport t).rxExp - 1
  sendFrame t { ctrl := true, epoch := s.twin.epoch, lsn := s.frameLsn, lseq := 0, lackv := !nak, lnakv := nak, lack := last }
    .link s

/-- R152 by R251: a sequenced data frame; `some` when it is accepted in order. -/
def twinAccept (h : TwinHdr) (s : State) : State × Bool :=
  let t := h.port.val
  let p := s.tport t
  if h.lseq = p.rxExp then
    let s := s.modTport t (fun p => { p with rxExp := p.rxExp + 1, rxNak := false, rxUnacked := p.rxUnacked + 1 })
    if (s.tport t).rxUnacked ≥ 32 then
      (sendLink t false (s.modTport t (fun p => { p with rxUnacked := 0 })), true)
    else (s, true)
  else if p.rxNak then (s, false)
  else (sendLink t true (s.modTport t (fun p => { p with rxNak := true })), false)

/-- R252: a port is taken out of service and retrained; its unacknowledged data frames go to the other ports, ahead of
what waits, unless RELINQUISH has been sent. -/
def twinPortOut (t : Nat) (s : State) : State :=
  let buf := (s.tport t).txBuf
  let s := s.modTport t (fun p => { p with st := 3, retrains := sat8 p.retrains, txBuf := [], rxNak := false, rxUnacked := 0, lane := [] })
  let s := raiseWith (640 + 8 * t) t 0 s
  if s.twin.relinquished.isSome then s
  else sendAll [] (s.modTwin (fun w => { w with dataWait := buf.map (fun f => f.2.2) ++ w.dataWait }))

end Sys2Proof.Machine
end

