-- ==== Sys2Proof/Machine/NetOut.lean ====
section
/-! DEFINITION. What the transport sends, and the outcomes that end a message or a connection: paths, nonces,
control and sequenced packets, credit, NAKs, drops, references, ERROR (R309 to R349, R356 to R370). -/

namespace Sys2Proof.Machine

open Sys2Proof

/-! References and grants (R362, R367). -/

/-- R362: a grant reaches DEAD; the commands that wait for it end. -/
def grantDead (g : Nat) (s : State) : State :=
  let ws := (s.grant g).waiters
  let s := s.modGrant g (fun k => { k with st := .dead, deadAt := s.now, waiters := [], pinWait := false, pinCmd := none })
  forEach ws (fun w s => if w.2 then finish w.1 stRefused (blkRefused 0x0418 0xFFFF) s else finish w.1 stOk [] s) s

/-- R367: a message gives up its grant and drawer references. -/
def releaseRefs (m : Msg) (s : State) : State :=
  let s := forEach m.span (fun d s => s.modDrw d (fun k => { k with refs := k.refs - 1 })) s
  match m.grant with
  | none => s
  | some (g, _, _) =>
    let s := s.modGrant g (fun k => { k with refs := k.refs - 1 })
    if (s.grant g).st = .revoking ∧ (s.grant g).refs = 0 then grantDead g s else s

/-! Messages of a connection. -/

/-- Message with an ID. -/
def Conn.msg (k : Conn) (id : MsgId) : Option Msg := k.msgs.find? (fun m => m.id == id)

/-- Change the message with an ID. -/
def Conn.modMsg (k : Conn) (id : MsgId) (f : Msg → Msg) : Conn :=
  { k with msgs := k.msgs.map (fun m => if m.id = id then f m else m) }

/-- Add a message, keeping the list in serial order. -/
def insMsg (m : Msg) : List Msg → List Msg
  | [] => [m]
  | a :: t => if earlier m.id a.id then m :: a :: t else a :: insMsg m t

/-- R331: keep the dropped IDs, and the NAKs, above the watermark and the 2,048 up to it. -/
def Conn.trimDropped (k : Conn) : Conn :=
  let keep := fun (d : MsgId) => later d k.wmark || decide (dist d k.wmark < 2048)
  { k with dropped := k.dropped.filter keep, naks := k.naks.filter (fun n => keep n.msg) }

/-- R36, R43: a message of a connection leaves as dropped or refused, and is counted in DROPCNT. -/
def Conn.dropId (k : Conn) (id : MsgId) : Conn :=
  Conn.trimDropped { k with msgs := k.msgs.filter (fun m => m.id != id), dropped := k.dropped ++ [id], dropcnt := k.dropcnt + 1 }

/-- R34 to R36, R196, R365: drop or refuse a message: its pending lines are freed, its references given up, a
DROP entry logged. Answers the entry's LSN, the anchor of what the drop releases. -/
def dropMsg (c : Nat) (id : MsgId) (reason : Nat) (s : State) : State × Lsn :=
  let k := s.conn c
  let s := match k.msg id with
    | some m => releaseRefs m (freePending (c, id) s)
    | none => s
  let (s, lsn) := logEntry { anchor := decide (id = k.wmark + 1), durable := false, conn := c, msg := id, nsid := 0, body := .drop reason } s
  (s.modConn c (fun k => k.dropId id), lsn)

/-! Packets sent. -/

/-- Key of a generation of a connection. -/
def Conn.key (k : Conn) (gen : Nat) : Option ConnKey := (lookupNat gen k.keys).map (·.1)

/-- R315: a direction's numbers, or the epoch, have run past the limit of the present generation. -/
def Conn.spent (k : Conn) (epoch : Epoch) : Bool :=
  decide (dist k.genStart.1 k.txPsn ≥ 2 ^ 47) || decide (dist k.genStart.2.1 k.txCsn ≥ 2 ^ 47)
    || decide (dist k.genStart.2.2 epoch ≥ 16384) || decide (dist k.genStartRx.2 k.cumPsn ≥ 2 ^ 47)
    || (match k.rxCsn with | some h => decide (dist k.genStartRx.1 h ≥ 2 ^ 47) | none => false)

/-- R2, R244, R273, R481: the controller may send a packet of this connection now. -/
def State.maySend (s : State) (k : Conn) : Bool := !s.cipher.erased && (k.wit || (s.serving && s.twin.hostTx))

/-- Raise a port event of a kind at most once per millisecond (R334, R341, R344, R316). -/
def portEvent (p k gap : Nat) (s : State) : State :=
  let last := lookupNat k (s.nport p).evAt
  if (match last with | some t => decide (s.now < t + gap) | none => false) then s
  else raiseWith (576 + 8 * p + k) p 0 (s.modNport p (fun n => { n with evAt := tabPut n.evAt k s.now }))

/-- Port of the latest packet of a connection. -/
def Conn.port (k : Conn) : Nat := match k.latest with | some p => p.port | none => 0

/-- XPORT entry of a connection (R255): RPSN, TPSN, credit and key generation. -/
def logXport (c : Nat) (s : State) : State :=
  let k := s.conn c
  let (s, _) := logEntry { anchor := false, durable := false, conn := c, msg := 0, nsid := 0,
                           body := .xport k.cumPsn k.txPsn k.limit.toNat k.gen } s
  s.modConn c (fun k => { k with logged := some (k.cumPsn, k.txPsn, k.limit, k.gen) })

/-- R344: a connection enters ERROR: incomplete messages dropped with reason 3, unacknowledged READ_RESP
discarded, XPORT entry logged (R356), event 576 + 8p + 2. -/
def connError (c : Nat) (s : State) : State :=
  if (s.conn c).st ≠ .opened then s
  else
    let p := (s.conn c).port
    let s := s.modConn c (fun k => { k with st := .error, txBuf := [], txWait := [], creditWait := none })
    let s := forEach ((s.conn c).msgs.filter (fun m => m.st == .incomplete)) (fun m s => (dropMsg c m.id 3 s).1) s
    let s := s.modNport p (fun n => { n with errors := satInc 32767 n.errors })
    portEvent p 2 1000000 (logXport c s)

/-- Header and UDP payload of a packet, sealed under the connection's present generation and epoch (R304, R305, R310, R311);
none without a key. -/
def State.packet (s : State) (c : Nat) (k : Conn) (path : Nat) (ctl : Bool) (psn : Psn) (msg : MsgId) (body : NetBody) :
    Option (Hdr × Bytes) :=
  (k.key k.gen).map (fun key =>
    let (first, last, durable, off, raddr) := body.fields
    let h : Hdr := {
      kg := k.gen % 16, opcode := body.code, first, last, durable, retx := false, path, epl := BitVec.ofNat 5 s.twin.epoch.toNat
      conn := c, psn, msgId := msg, msgOff := off, plen := body.size, akey := 0, raddr, climit := if ctl then k.limit else 0 }
    (h, sealed h key (txNonce k.salt ctl s.twin.epoch psn) body.bytes))

/-- Send a packet on a path (R300, R302, R303, R336, R345). Witness messages leave from the controller's own per-twin address
(R273). -/
def sendNet (k : Conn) (path : Path) (ctl : Bool) (h : Hdr) (body : NetBody) (payload : Bytes) (s : State) : State :=
  let own := Config.twinAddr s.twin.num path.port path.sub
  let path := if k.wit then { path with v6 := own.1, svcAddr := own.2 } else path
  let q := s.subPort path.port path.sub
  s.send (.net {
    path, vlan := q.vlan, pcp := q.pcp, ttl := 64, df := !path.v6, dscp := if ctl then s.xport.dscpCtrl else s.xport.dscpData
    ect := s.xport.ecnMark == 1, hdr := h, body, udp := datagram path payload })

/-- R310, R457: seal a packet in a GCM job, and send it. -/
def emit (c : Nat) (k : Conn) (path : Path) (ctl : Bool) (psn : Psn) (msg : MsgId) (body : NetBody) (s : State) : State :=
  match s.packet c k path.q ctl psn msg body with
  | none => s
  | some (h, payload) =>
    sendNet k path ctl h body payload (gcmJob false path.port c k.gen (txNonce k.salt ctl s.twin.epoch psn) body.size s)

/-- Path of the latest packet received; before any, that of log entry 28, DESIGN CHOICE. -/
def Conn.ctlPath (k : Conn) (c : Nat) : Path :=
  match k.latest with
  | some p => p
  | none =>
    let h := Config.hostPath c
    { q := 0, port := h.1, sub := h.2.1, hostAddr := h.2.2.1, hostUdp := h.2.2.2.1, v6 := h.2.2.2.2, svcAddr := 0, last := 0, live := false }

/-- R317, R321: send a control packet on the path of the latest packet received. -/
def sendCtl (c : Nat) (msg : MsgId) (body : NetBody) (s : State) : State :=
  let k := s.conn c
  if !s.maySend k then s
  else if k.spent s.twin.epoch then connError c s
  else emit c k (k.ctlPath c) true k.txCsn msg body (s.modConn c (fun k => { k with txCsn := k.txCsn + 1 }))

/-- R235: the sub-port of the path that a connection's ACK takes, when its link is down. -/
def State.ackBlocked (s : State) (k : Conn) : Option (Nat × Nat) :=
  match k.latest with
  | some p => if (s.subPort p.port p.sub).up then none else some (p.port, p.sub)
  | none => none

/-- R235, R320: send an ACK; every settled packet is now reported. It is built from the connection's state when it is sent:
while the link of its path is down the connection is marked in the port's map. -/
def sendAck (c : Nat) (durable : Bool) (msg : MsgId) (s : State) : State :=
  let k := s.conn c
  match s.ackBlocked k with
  | some (p, _) => s.modNport p (fun n => { n with ctlPend := insNat n.ctlPend c })
  | none =>
  let sack := k.settled.filter (fun p => decide (dist k.cumPsn p ≤ 256))
  (sendCtl c msg (.ack durable k.cumPsn sack k.wmark k.dwmark k.dropcnt k.cecnt) s).modConn c (fun k => { k with ackOwed := 0 })

/-- R316: rate limits of NAK_AUTH, NAK_EPOCH and NAK_SEQUENCE, and the time kept for each. -/
def nakGate (code now : Nat) (k : Conn) : Bool × Conn :=
  let ok := fun (t : Option Nat) (gap : Nat) => match t with | some t => decide (now ≥ t + gap) | none => true
  match code with
  | 6 => (ok k.nakAt.1 1000000, { k with nakAt := (some now, k.nakAt.2) })
  | 8 => (ok k.nakAt.2.1 1000, { k with nakAt := (k.nakAt.1, some now, k.nakAt.2.2) })
  | 5 => (ok k.nakAt.2.2 1000, { k with nakAt := (k.nakAt.1, k.nakAt.2.1, some now) })
  | _ => (true, k)

/-- R348: send a NAK, counted where a register counts it (R352, R384). -/
def sendNak (c : Nat) (r : NakRec) (npsn : Psn) (s : State) : State :=
  let k := s.conn c
  let (ok, k') := nakGate r.code s.now k
  if !ok then s
  else
    let s := s.modConn c (fun _ => k')
    let s := if r.code = 5 then s.modNport k.port (fun n => { n with nakSeq := sat16 n.nakSeq }) else s
    let s := if r.code = 1 then s.modXport (fun x => { x with access := sat16 x.access }) else s
    let s := if r.code = 2 then s.modXport (fun x => { x with revoked := sat16 x.revoked }) else s
    sendCtl c r.msg (.nak r.code r.sub npsn r.hint r.detail) s

/-- Keep a message's NAK for repetition (R330). -/
def Conn.keepNak (k : Conn) (r : NakRec) : Conn :=
  { k with naks := (k.naks.filter (fun n => n.msg != r.msg)) ++ [r] }

/-- R36, R348: refuse or drop a message with a NAK; answers the DROP entry's LSN. -/
def nakDrop (c : Nat) (id : MsgId) (code sub : Nat) (detail : BitVec 32) (hint reason : Nat) (npsn : Psn) (s : State) : State × Lsn :=
  let (s, lsn) := dropMsg c id reason s
  let r : NakRec := { msg := id, code, sub, detail, hint, time := s.now }
  (sendNak c r npsn (s.modConn c (fun k => k.keepNak r)), lsn)

/-! Sequenced packets (R318, R336 to R344). -/

/-- Next live path after `q` in ascending PATH order that no rate holds back. -/
def nextPath (k : Conn) (now q : Nat) (held : Bool) : Option Path :=
  let ok := fun (p : Path) => p.live && (!held || decide (p.nextAt ≤ now))
  let order := (List.range 8).map (fun i => (q + 1 + i) % 8)
  order.findSome? (fun i => k.paths.find? (fun p => p.q == i && ok p))

/-- Rate of a sub-port in Mb/s by the port's mode (R299). -/
def modeRate (mode : Nat) : Nat := if mode = 0 then 400000 else if mode = 1 then 200000 else 100000

/-- Charge a path's rate for a packet (R347). -/
def chargePath (q bytes now : Nat) (k : Conn) : Conn :=
  { k with paths := k.paths.map (fun p => if p.q = q then
      match p.rate with
      | some r => { p with nextAt := Nat.max now p.nextAt + bytes * 8000 / Nat.max r 1 }
      | none => p
    else p) }

/-- Body of a sequenced packet. -/
def TxPkt.body (p : TxPkt) : NetBody :=
  if p.wit then
    let b := p.data
    .witness { wtype := b.getD 0 0, twin := b.getD 1 0, role := b.getD 2 0, result := b.getD 3 0
               epoch := BitVec.ofNat 32 (beVal (slice b 4 4)), pair := BitVec.ofNat 64 (beVal (slice b 8 8))
               wseq := BitVec.ofNat 32 (beVal (slice b 16 4)), server := b.getD 20 0
               leaseMs := BitVec.ofNat 16 (beVal (slice b 22 2)) }
  else .readResp p.off p.first p.last p.raddr p.data

/-- Send the waiting sequenced packets that window, credit and paths allow. -/
def pumpTxAux : Nat → Nat → State → State
  | 0, _, s => s
  | n + 1, c, s =>
    let k := s.conn c
    match k.txWait with
    | [] => s
    | p :: rest =>
      if !s.maySend k ∨ dist k.peerCum k.txPsn > 256 then s
      else if !(atOrBefore (k.hostUsed + 1) k.hostLimit) then
        -- R340, R341: waiting for host credit, with a PROBE at once
        match k.creditWait with
        | some _ => s
        | none => sendCtl c 0 (.probe k.txWait.length)
            (s.modConn c (fun k => { k with creditWait := some s.now, probeIval := 20000 }))
      else if k.spent s.twin.epoch then connError c s
      else match (nextPath k s.now k.rrPath true <|> (if k.paths.any (·.live) then none else k.latest)) with
        | none => s
        | some path =>
          let p := { p with
            psn := k.txPsn, path := path.q, time := s.now, timer := 20000, retries := 0
            sent := s.packet c k path.q false k.txPsn p.msg p.body }
          let s := s.modConn c (fun k => chargePath path.q (p.data.length + 102) s.now { k with
            txWait := rest, txBuf := k.txBuf ++ [p], txPsn := k.txPsn + 1, hostUsed := k.hostUsed + 1
            rrPath := path.q, creditWait := none })
          pumpTxAux n c (emit c (s.conn c) path false p.psn p.msg p.body s)

/-- Send what can be sent of a connection's waiting sequenced packets. -/
def pumpTx (c : Nat) (s : State) : State := pumpTxAux (s.conn c).txWait.length c s

/-- Queue sequenced packets and send what can be sent. -/
def queueTx (c : Nat) (l : List TxPkt) (s : State) : State :=
  pumpTx c (s.modConn c (fun k => { k with txWait := k.txWait ++ l }))

/-! Credit granted to a host (R210, R223, R337 to R339, R688). -/

/-- Lines reserved for each unit. -/
def unitLines : Nat := 65

/-- Hold reservations for `units` of a connection, in place of those it holds now. -/
def setReserve (c units : Nat) (s : State) : State :=
  let old := (s.conn c).rsvUnits
  (s.modConn c (fun k => { k with rsvUnits := units })).modSump (fun u =>
    { u with rsvNet := u.rsvNet + unitLines * units - unitLines * old })

/-- R223: the spillway is at its ceiling and no line outside the reserve is free. -/
def State.creditBlocked (s : State) : Bool := s.atCeiling && s.banks.all (fun b => s.bankFree b == 0)

/-- R338: raise CLIMIT to the units received plus CREDIT_WIN, as free lines allow. Credit that has to wait for lines is
granted once they are free. -/
def renewCredit (c : Nat) (s : State) : State :=
  let k := s.conn c
  let want := k.creditWin - dist k.received k.limit
  let n := if s.creditBlocked then 0 else Nat.min want (s.linesLeft / unitLines)
  let s := s.modConn c (fun k => { k with short := decide (n < want) })
  if n = 0 then s
  else setReserve c (k.rsvUnits + n) (s.modConn c (fun k => { k with
    limit := k.limit + BitVec.ofNat 32 n, limitMax := serialMax k.limitMax (k.limit + BitVec.ofNat 32 n), lowerCsn := none }))

/-- R337: number of the unit that a PSN consumes in the epoch. -/
def Conn.unit (k : Conn) (psn : Psn) : BitVec 32 := BitVec.ofNat 32 (dist k.unit0 psn + 1)

/-- R210, R338: the unit of a packet that settles is consumed; its reservation's unused lines return. -/
def consumeUnit (c : Nat) (psn : Psn) (s : State) : State :=
  let k := s.conn c
  let s := setReserve c (k.rsvUnits - 1) (s.modConn c (fun k => { k with received := serialMax k.received (k.unit psn), usedAt := s.now }))
  renewCredit c s

/-- R317, R688: a connection's counts start afresh at a new epoch, within the units it has reserved. -/
def newEpochConn (c : Nat) (s : State) : State :=
  let k := s.conn c
  let n := Nat.min k.rsvUnits k.creditWin
  let s := setReserve c n s
  s.modConn c (fun k => { k with
    txCsn := 0, rxCsn := none, rxCsns := [], genStart := (k.genStart.1, 0, k.genStart.2.2), genStartRx := (0, k.genStartRx.2), hostUsed := 0, hostLimit := BitVec.ofNat 32 k.creditWin, received := 0
    limit := BitVec.ofNat 32 n, limitMax := BitVec.ofNat 32 n, cused := 0, lowerCsn := none, unit0 := k.cumPsn + 1
    creditWait := none })

/-- Every connection at a new epoch. -/
def newEpochAll (s : State) : State := forEach (s.xport.conns.map (·.1)) newEpochConn s

/-- R338: lower CLIMIT of an idle connection to the units received; reservations wait on R339. -/
def lowerCredit (c : Nat) (s : State) : State :=
  sendAck c false 0 (s.modConn c (fun k => { k with limit := k.received, lowerCsn := some k.txCsn, short := false }))

/-! Twin credit (R210, R260, R261). -/

/-- Units granted to the peer and not yet used. -/
def Twin.creditOpen (t : Twin) : Nat := dist t.creditRcv t.creditOut

/-- R210, R261: grant twin credit up to TWIN_CREDIT units, as free lines allow. -/
def grantTwin (s : State) : State :=
  let want := s.twin.twinCredit - s.twin.creditOpen
  let n := if s.creditBlocked then 0 else Nat.min want (s.linesLeft / unitLines)
  (s.modTwin (fun t => { t with
    creditOut := t.creditOut + BitVec.ofNat 32 n, creditShort := decide (n < want) && t.creditOpen + n == 0 })).modSump (fun u =>
    { u with rsvTwin := u.rsvTwin + unitLines * n })

/-- R260, R261: send APPLY_ACK on every port in service (log entry 133, DESIGN CHOICE). A port that is not in service keeps
it pending (R235). -/
def sendApplyAck (s : State) : State :=
  let s := grantTwin (s.modTwin (fun t => { t with ackCount := 0 }))
  let s := ctlAll (.applyAck s.twin.applied s.twin.creditOut) s
  forEach ((List.range 4).filter (fun t => !s.twinPorts.contains t)) (fun t s => s.modTport t (fun p => { p with ackDue := true })) s

end Sys2Proof.Machine
end

