-- ==== Sys2Proof/Machine/RoleOps.lean ====
section
/-! DEFINITION. Roles: fitness of the peer, the role record, entering FENCED, SOLO, ACTIVE and STANDBY,
RELINQUISH and its causes (R241 to R245, R268 to R272, R290, R518, R541). -/

namespace Sys2Proof.Machine

open Sys2Proof

/-- R268: the peer is fit. -/
def State.peerFit (s : State) : Bool :=
  let t := s.twin
  !t.resync
    && (match t.beat with
      | some b => b.role == 2 && b.epoch == t.epoch && b.health == 0 && decide (s.now ≤ b.time + 1000000)
      | none => false)
    && (match t.matchAt with
      | some m => decide (s.now ≤ m + 2000000)
      | none => false)

/-- R279: a heartbeat that reports the peer in STANDBY at the same epoch arrived within the last ms. -/
def State.standbyHeard (s : State) : Bool :=
  match s.twin.beat with
  | some b => b.role == 2 && b.epoch == s.twin.epoch && decide (s.now ≤ b.time + 1000000)
  | none => false

/-! The handshake body (R542) as the controller's present state gives it. -/

/-- STOP of R542; in priming an absent role record counts as STOP 2 (R534). -/
def State.stopCode (s : State) : Nat :=
  if s.twin.undrained ≠ 0 then 3
  else if s.prime.unclean ≠ 0 ∨ (s.twin.role = .priming ∧ s.prime.roleRead.isNone) then 2
  else if s.prime.replay ≠ 0 then 1 else 0

/-- LROLE, RESYNC, BITMAP and SPLIT of R542: as persisted while priming, as they stand afterwards. -/
def State.persisted (s : State) : Nat × Bool × Bool × Epoch :=
  if s.twin.role = .priming then
    match s.prime.roleRead with
    | some r => (r.lrole, r.resync, r.bitmap, r.split)
    | none => (0, false, false, 0)
  else (s.twin.role.code, s.twin.resync, s.prime.savedMap.isSome, s.prime.split)

/-- CFG of R542: CRC-64 over the committed namespace table, drawer records and HDM mapping. -/
def State.cfgCrc (s : State) : BitVec 64 :=
  let nss := s.ctl.nss.flatMap (fun e =>
    [e.1, e.2.units.length, bit e.2.parkable, bit e.2.visVarnish, bit e.2.cacheFill, bit e.2.encrypted])
  let drws := (List.range 8).flatMap (fun d => [bit (s.drw d).parkable, (s.drw d).parkIdle])
  crc64 (BitVec.allOnes 64) (Config.cfgBytes (nss ++ drws ++ s.host.hdm.map (fun h => h.nsid)))

/-- Highest LSN logged by a serving twin, applied by another. -/
def State.roleLsn (s : State) : Lsn := if s.serving then s.twin.sent else s.twin.applied

/-- Fields of bytes 1 to 31 of the HANDSHAKE body as they stand. -/
def State.hsNow (s : State) : HsBody :=
  let (lrole, resync, bitmap, split) := s.persisted
  { decide := false, twin := s.twin.num == 1, lrole, stop := s.stopCode, pepoch := s.twin.epoch
    lsn := s.roleLsn, resync, bitmap, split
    jtiles := s.twin.journalTiles.length, cfg := s.cfgCrc, newEpoch := 0, srole := 0, full := false }

/-- R541: write the role record, bytes 1 to 31 of the HANDSHAKE body. Its places in the triads of the two banks are those of
log entry 139, DESIGN CHOICE. -/
def writeRole (s : State) : State :=
  flashRing 227 4 s.prime.roleSeq .roleRec .roleErase (recordWords ((hsBytes s.hsNow).take 32))
    (s.modPrime (fun p => { p with roleRec := some s.hsNow, roleSeq := p.roleSeq + 1 }))

/-- A gap move or a spare move. -/
def RowPurpose.isMove : RowPurpose → Bool
  | .gap .. | .spare .. => true
  | _ => false

/-- Operations give up their locks (R10, R232): a host update's intent lines are visible-dirty again, and a move keeps
only the outcomes that it is to copy (R685). -/
def releaseOps (p : RowOp → Bool) (s : State) : State :=
  let gone := s.ops.filter (fun o => o.locked && o.phase == .read && p o)
  if gone.isEmpty then s
  else
    let ids := gone.map (·.id)
    ({ s with ops := s.ops.map (fun o => if ids.contains o.id then
        { o with locked := false, rsvLines := 0, lines := [], overflow := [], got := if o.purpose.isMove then o.fetched else o.got }
      else o) } : State).modSump (fun u => { u with lines := u.lines.map (fun l =>
        if l.st = .intent ∧ ids.contains l.op then { l with st := .dirty, op := 0 } else l) })

/-- R10, R114: the leases of row locks and intent lines of a superseded epoch are released. An operation that reads takes
them again; one that writes keeps its intent until its writes settle (R112). -/
def supersede (s : State) : State :=
  let s := releaseOps (fun _ => true) s
  { s with ops := s.ops.map (fun o => match o.phase with
      | .merge => { o with locked := false, phase := .read }
      | _ => { o with locked := false }) }

/-- R245, R541: the role and epoch change; event 996 where the role is another; role record. At a new epoch connections
count afresh, mailbox 5 is released (R428), and so are the row locks of the old one (R10; log entry 135, DEDUCED). -/
def changeRole (r : Role) (e : Epoch) (s : State) : State :=
  let s := if e = s.twin.epoch then s else supersede (mbxRelease 5 (newEpochAll s))
  let was := s.twin.role
  let s := s.modTwin (fun t => { t with role := r, epoch := e })
  writeRole (if was = r then s else raiseWith 996 0 r.code s)

/-! Margins (R517, R518). -/

/-- R517: address a rail's converter: PAGE written, VOUT_MODE asked. -/
def startMargin (rail : Nat) (step : Int) (cmd : Option Nat) (s : State) : State :=
  let r := s.rail rail
  let s := s.modPower (fun p => { p with margins := (p.margins.filter (fun m => m.rail != rail)) ++
    [{ rail, step, cmd, phase := 1 }] })
  (s.send (.pmbus (r.pmbPort - 1) r.pmbAddr r.pmbPage 0x00 r.pmbPage)).send (.pmbus (r.pmbPort - 1) r.pmbAddr r.pmbPage 0x20 0)

/-- R518: every margined rail returns to step 0, with one recorder record. -/
def marginsToZero (s : State) : State :=
  let rs := (List.range 48).filter (fun i => (s.rail i).margin != 0 || s.power.margins.any (fun m => m.rail == i))
  if rs.isEmpty then s
  else
    let s := forEach rs (fun i s => startMargin i 0 none s) s
    record 0x000A 0 false (leBytes 8 (maskOf 64 rs).toNat) s

/-! Entering a role. -/

/-- R244, R245: enter FENCED at the same epoch; host transmitters stop, and a takeover, swap or role
command in progress ends. -/
def enterFenced (cause : Nat) (s : State) : State :=
  let cmds := (match s.twin.swap with | .s1 c _ => [c] | .s2 c => [c] | .none => []) ++ s.twin.takeCmd.toList
  let s := s.modTwin (fun t => { t with
    hostTx := false, fcause := cause, askSolo := false, take := .none, takeCmd := none, swap := .none
    witReqs := t.witReqs.filter (fun r => r.wtype == 1), witRetry := none })
  let s := changeRole .fenced s.twin.epoch s
  finishAll cmds stRole s.blkRole s

/-- R270, R272: stop host transmitters and send RELINQUISH on every port in service. LAST is the highest
LSN sent. -/
def sendRelinquish (cause : Nat) (s : State) : State :=
  let last := match s.twin.waiting with
    | e :: _ => e.lsn - 1
    | [] => if s.serving then s.twin.sent else s.twin.applied
  let s := s.modTwin (fun t => { t with hostTx := false, relinquished := some cause, relLast := last, dataWait := [] })
  ctlAll (.relinquish last cause) s

/-- R290: the bitmap on entering SOLO: cleared, then the tiles written since the latest matching digest. -/
def startBitmap (s : State) : State :=
  s.modTwin (fun t => { t with
    bitmap := (t.tilesSince.filter (fun e => later e.1 t.matchLsn)).foldl (fun l e => insNat l e.2) []
    bitmapAll := false, tileLsn := [], walk := none, resync := false, resyncFull := false })

/-- Enter SOLO at an epoch: no entry waits for the peer any more (R44); a planned swap ends (log entry 13, DESIGN CHOICE). -/
def enterSolo (e : Epoch) (s : State) : State :=
  let cmds := match s.twin.swap with | .s1 c _ => [c] | .s2 c => [c] | .none => []
  let s := startBitmap s
  let s := s.modTwin (fun t => { t with
    unacked := [], waiting := [], dataWait := [], askSolo := false, witRetry := none, swap := .none, relinquished := none
    witReqs := t.witReqs.filter (fun r => r.wtype == 1) })
  let s := s.modPrime (fun p => { p with split := e })
  let s := marginsToZero (changeRole .solo e s)
  finishAll cmds stRole s.blkRole s

/-- R291: outside SOLO no bitmap is persisted. -/
def forgetBitmap (s : State) : State := s.modPrime (fun p => { p with savedMap := none, savedAll := false, split := 0 })

/-- Enter ACTIVE at an epoch; comparison of digests starts afresh. -/
def enterActive (e : Epoch) (s : State) : State :=
  marginsToZero (changeRole .active e ((forgetBitmap s).modTwin (fun t => { t with digestMiss := 0, askSolo := false })))

/-- Enter STANDBY at an epoch. -/
def enterStandby (e : Epoch) (s : State) : State :=
  changeRole .standby e ((forgetBitmap s).modTwin (fun t => { t with
    hostTx := false, unacked := [], waiting := [], dataWait := [], rx := [], askSolo := false, swap := .none, relinquished := none
    fcause := 0 }))

/-- R268, R269, R272: a relinquish cause in this controller. -/
def relinquishCause (s : State) : State :=
  match s.twin.role with
  | .active => if s.peerFit then enterFenced 1 (sendRelinquish 0 s) else s.modTwin (fun t => { t with health := 1 })
  | .standby => enterFenced 1 (sendRelinquish 3 s)
  | _ => s.modTwin (fun t => { t with health := 1 })

end Sys2Proof.Machine
end

