-- ==== Sys2Proof/Machine/RowOps.lean ====
section
/-! DEFINITION. The stripe engines: sector reads and the uncorrectable chain (R108, R116 to R126, R683, R684),
row operations under lock and intent (R111 to R115, R133, R134, R216 to R219), gap and spare moves (R87 to R97,
R685), scrub and settling (R128, R129, R539, R540), and module failure (R132, R177). -/

namespace Sys2Proof.Machine

open Sys2Proof

/-! Positions of a row. -/

/-- The module at a position holds the row's present sector (R133, R134). -/
def State.posHas (s : State) (g grow pos : Nat) : Bool :=
  let k := s.chan (grpChan g pos)
  k.health == .inService || (k.health == .rebuildTarget && decide (grow < (s.grp g).rebuildPtr))

/-- The sector at a position can be read from its module (R97, R164). -/
def State.posReadable (s : State) (g grow pos : Nat) : Bool :=
  s.posHas g grow pos && !(s.chan (grpChan g pos)).badRows.contains grow

/-- The sector at a position is written to its module; other writes complete as degraded. -/
def State.posWritable (s : State) (g grow pos : Nat) : Bool :=
  let k := s.chan (grpChan g pos)
  (k.health == .inService || (k.health == .rebuildTarget && decide (grow ≤ (s.grp g).rebuildPtr)))
    && !k.badRows.contains grow

/-- Positions that a rebuild writes. -/
def State.rebuildTargets (s : State) (g : Nat) : List Nat :=
  (List.range 9).filter (fun p => (s.chan (grpChan g p)).health == .rebuildTarget)

/-- Channel positions of a row's data. -/
def dataPoss (grow : Nat) : List Nat := (List.range 9).filter (fun p => p != parityPos grow)

/-! Entries. -/

def State.miss (s : State) (g grow pos : Nat) : Option Miss :=
  s.misses.find? (fun m => m.grp == g && m.grow == grow && m.pos == pos)

def modMiss (g grow pos : Nat) (f : Miss → Miss) (s : State) : State :=
  { s with misses := s.misses.map (fun m => if m.grp = g ∧ m.grow = grow ∧ m.pos = pos then f m else m) }

def dropMiss (g grow pos : Nat) (s : State) : State :=
  { s with misses := s.misses.filter (fun m => !(m.grp == g && m.grow == grow && m.pos == pos)) }

def State.op (s : State) (id : Nat) : Option RowOp := s.ops.find? (fun o => o.id == id)

def modOp (id : Nat) (f : RowOp → RowOp) (s : State) : State :=
  { s with ops := s.ops.map (fun o => if o.id = id then f o else o) }

/-- The write-back of an uncorrectable chain's outcome. -/
def RowPurpose.isChain : RowPurpose → Bool
  | .chain _ => true
  | _ => false

/-- R120: a chain's outcome is owed to the row, so that its parity may not yet agree with its settled sectors. -/
def State.chainDue (s : State) (g grow : Nat) : Bool :=
  s.misses.any (fun m => m.wb && m.grp == g && m.grow == grow)
    || s.ops.any (fun o => o.purpose.isChain && o.grp == g && o.grow == grow)

/-- R113, R120, R135: no other operation holds the lock of the rows that an operation works on, and the chain's
write-back goes first. -/
def State.lockFree (s : State) (o : RowOp) : Bool :=
  !s.ops.any (fun q => q.id != o.id && q.locked && q.grp == o.grp
    && (q.grow == o.grow || q.grow == o.dst || q.dst == o.grow || q.dst == o.dst))
  && (o.purpose.isChain || !(s.chainDue o.grp o.grow || s.chainDue o.grp o.dst))

/-- Add an operation; it takes its lock when it can. -/
def openOp (o : RowOp) (s : State) : State :=
  let (id, s) := s.fresh
  { s with ops := s.ops ++ [{ o with id, epoch := s.twin.epoch }] }

/-- R10, R232, R685: operations that wait on a sector whose chain goes on release their locks, also those that wait on
a parity sector which it helps to recompute. -/
def releaseLocks (m : Miss) (s : State) : State :=
  let through := s.misses.filter (fun x => x.grp == m.grp && x.grow == m.grow && m.waiters.contains (.rebuild x.pos))
  releaseOps (fun o => m.waiters.contains (.row o.id) || through.any (fun x => x.waiters.contains (.row o.id))) s

/-- A read of the scrub that waits for its channel is a foreground read once another reader needs it (R130). -/
def hurryRead (c grow : Nat) (fg : Bool) (s : State) : State :=
  pumpChan c (s.modChan c (fun k => { k with waiting := k.waiting.map (fun m =>
    if m.op = .readCw ∧ m.grow = grow ∧ m.yields then { m with yields := false, fg } else m) }))

/-- R116, R231: read one sector, joining its entry where one exists. Where no module holds the sector it goes
straight to the chain. A waiter that joins during a peer fetch gives up its lock (R232). -/
def readRaw (g grow pos : Nat) (w : Option Waiter) (fg yields forPeer : Bool) (s : State) : State :=
  let cmd : MCmd := { sectorCmd s .readCw g grow pos 0 [] fg with yields }
  match s.miss g grow pos with
  | some m =>
    let s := modMiss g grow pos (fun m => { m with
      waiters := m.waiters ++ w.toList, forPeer := m.forPeer && forPeer
      phase := if m.phase = .suspect then .reading else m.phase }) s
    match m.phase with
    | .suspect => submit (grpChan g pos) cmd s
    | .reading => if yields then s else hurryRead (grpChan g pos) grow fg s
    | .fetching => releaseLocks { m with waiters := w.toList } s
    | _ => s
  | none =>
    let m : Miss := { grp := g, grow, pos, cw := s.cwAt g grow pos, forPeer, waiters := w.toList }
    if s.posReadable g grow pos then submit (grpChan g pos) cmd { s with misses := s.misses ++ [m] }
    else { s with misses := s.misses ++ [{ m with phase := .rebuilding, absent := true }] }

/-- R109: the single re-read of a sector that follows its write-back. A read of it in progress was issued behind the
write (R163) and is that re-read; otherwise it follows the entry's waiters. -/
def rereadSector (g grow pos : Nat) (s : State) : State :=
  if !s.posReadable g grow pos then s
  else match s.miss g grow pos with
    | some m => modMiss g grow pos (fun x => if m.phase = .reading then { x with reread := true } else { x with rereadDue := true }) s
    | none => modMiss g grow pos (fun x => { x with reread := true }) (readRaw g grow pos none true false false s)

/-- R540: a row is suspect and not settled. -/
def State.suspect (s : State) (g grow : Nat) : Bool := (s.nv g).suspects.contains grow

/-- R539, R540: an operation that settles a suspect row, unless one works on it. -/
def openSettle (g grow : Nat) (s : State) : State :=
  if s.ops.any (fun o => o.grp == g && o.grow == grow && o.purpose == .settle) then s
  else openOp { id := 0, grp := g, grow, dst := grow, purpose := .settle, phase := .read } s

/-- R81: the row lies in an easel whose zero writes are unfinished, so that its unit is not yet accessible. -/
def State.filling (s : State) (g grow : Nat) : Bool := (s.easel (easelKey g (grow / easelRows))).filling

/-- R202: a read of a drawer that is parked or still waking is held to the end of its wake. -/
def State.asleep (s : State) (g : Nat) : Bool :=
  let d := s.drw (grpDrawer g)
  d.st == .parked || d.st == .waking || (d.st == .parking && d.step != .p1 && d.step != .p2 && d.step != .p3)

/-- A read of a row waits: R540 settles a suspect row first, R81 makes the unit accessible first, and R202 waits for a
wake. -/
def State.readHeld (s : State) (g grow : Nat) : Bool := s.suspect g grow || s.filling g grow || s.asleep g

/-- A read of a codeword's sector, held while its row cannot be read. -/
def readSector (g grow pos : Nat) (w : Waiter) (fg forPeer : Bool) (s : State) : State :=
  if s.readHeld g grow && (s.miss g grow pos).isNone then
    let s := { s with misses := s.misses ++
      [{ grp := g, grow, pos, cw := s.cwAt g grow pos, forPeer, waiters := [w], phase := .suspect }] }
    if s.suspect g grow then openSettle g grow s else s
  else readRaw g grow pos (some w) fg false forPeer s

/-- Read the sector of a codeword of a namespace. -/
def readCodeword (ns cw : Nat) (w : Waiter) (fg forPeer : Bool) (s : State) : State :=
  match s.decodeOff ns (256 * cw) with
  | some p => readSector p.g p.grow p.pos w fg forPeer s
  | none => s

/-! Images of a host update. -/

/-- The four lines of a codeword as an operation gathered them: its intent lines over its overflow entry. -/
def State.opLines (s : State) (o : RowOp) (ns cw : Nat) : List View :=
  (List.range 4).map (fun l =>
    let base : View := { img := imgEmpty 64, poison := false }
    let base := match (if o.overflow.contains cw then s.ovEntry ns cw else none) with
      | some e => base.under (imgSlice e.img (64 * l) 64) (e.poison.getLsbD l)
      | none => base
    match s.sump.lines.find? (fun x => x.op == o.id && x.ns == ns && x.line == 4 * cw + l) with
    | some x => base.under x.img x.poison
    | none => base)

/-- Writes whose bytes the operation gathered for a line (R377). -/
def State.opConns (s : State) (o : RowOp) (ns cw l : Nat) : List (Nat × MsgId) :=
  (match s.sump.lines.find? (fun x => x.op == o.id && x.ns == ns && x.line == 4 * cw + l) with
    | some x => x.conns | none => [])
  ++ (match (if o.overflow.contains cw then s.ovEntry ns cw else none) with
    | some e => e.conns | none => [])

/-- R217: every byte of the codeword is decided without its old data. -/
def fullCw (ls : List View) : Bool := ls.all View.known

/-- R133, R217, R540: the update computes parity from all eight data sectors. -/
def State.recomputes (s : State) (o : RowOp) (ns rowCw : Nat) (cws : List Nat) : Bool :=
  let g := s.grp o.grp
  (cws.length == 8 && cws.all (fun c => fullCw (s.opLines o ns (rowCw + c))))
    || cws.any (fun c => !s.posWritable o.grp o.grow (dataPos o.grow c))
    || (g.st == .rebuilding && decide (o.grow ≥ g.rebuildPtr))
    || s.suspect o.grp o.grow

/-- Positions that an operation reads. -/
def State.opReads (s : State) (o : RowOp) : List Nat :=
  match o.purpose with
  | .host ns off cws =>
    let full := fun c => fullCw (s.opLines o ns (off / 256 + c))
    if !s.posWritable o.grp o.grow (parityPos o.grow) then
      (cws.filter (fun c => !full c)).map (dataPos o.grow)
    else if s.recomputes o ns (off / 256) cws then
      ((List.range 8).filter (fun c => !(cws.contains c && full c))).map (dataPos o.grow)
    else cws.map (dataPos o.grow) ++ [parityPos o.grow]
  | .gap .. | .spare .. => dataPoss o.grow
  | .chain pos =>
    if pos = parityPos o.grow ∨ !s.posWritable o.grp o.grow (parityPos o.grow) then []
    else (dataPoss o.grow).filter (fun p => p != pos)
  | .rebuild => if (s.grp o.grp).rebuildOfFailed then dataPoss o.grow else s.rebuildTargets o.grp
  | .scrub _ => (List.range 9).filter (fun p => s.posHas o.grp o.grow p)
  | .settle => List.range 9
  | .scrubFix .. | .correct _ | .fill .. | .replay | .metaRow _ => []

/-- The operation yields to foreground commands (R9). -/
def RowPurpose.background : RowPurpose → Bool
  | .host .. | .chain _ | .correct _ | .settle | .metaRow _ => false
  | _ => true

/-- R130: the operation is a row of a scrub pass. -/
def RowPurpose.isScrub : RowPurpose → Bool
  | .scrub _ => true
  | _ => false

/-- Ask for the sectors that an operation needs. -/
def issueReads (id : Nat) (s : State) : State :=
  match s.op id with
  | none => s
  | some o =>
    let ps := (s.opReads o).filter (fun p => !o.got.any (fun e => e.1 == p))
    forEach ps (fun p s => readRaw o.grp o.grow p (some (.row id)) (!o.purpose.background) o.purpose.isScrub false s)
      (modOp id (fun o => { o with needs := ps }) s)

/-! Writes. -/

/-- Eight data codewords of a row with their parity sector, by position (R71). -/
def rowSectors (grow : Nat) (secs : List Bytes) : List (Nat × Bytes) :=
  ((List.range 8).map (fun c => (dataPos grow c, secs.getD c []))) ++ [(parityPos grow, xorAll secs)]

/-- R77: a metadata row with its 2,048 data bytes, a full stripe. -/
def openMeta (g : Nat) (k : MetaKind) (grow : Nat) (data : Bytes) (s : State) : State :=
  openOp { id := 0, grp := g, grow, dst := grow, purpose := .metaRow k, phase := .read,
           got := rowSectors grow ((List.range 8).map (fun c => encodeSector 0 (slice data (256 * c) 256))) } s

/-- The next `n` rows of a ring of the metadata region from a place on; it steps over the bad rows (R109). -/
def ringPlaces (bad : Nat → Bool) (size : Nat) : Nat → Nat → Nat → List Nat
  | 0, _, _ => []
  | f + 1, at_, n =>
    if n = 0 then []
    else if bad at_ then ringPlaces bad size f ((at_ + 1) % size) n
    else at_ :: ringPlaces bad size f ((at_ + 1) % size) (n - 1)

/-- Places in the ring of `size` rows that begins `first` rows into a group's metadata region (R77). -/
def State.places (s : State) (g first size at_ n : Nat) : List Nat :=
  let k := s.grp g
  ringPlaces (fun i => k.badMeta.contains (s.metaRow g + first + i)) size (k.badMeta.length + n) at_ n

/-- Write a row of the region that holds header, easel state, namespace table and the gap and spare journal. The manual
gives neither its place there nor its layout: both are free values (log entry 112, DESIGN CHOICE). -/
def headerRow (g : Nat) (k : MetaKind) (s : State) : State :=
  let n := s.draws
  let (v, s) := s.freeVal
  forEach (s.places g 0 4096 (v.toNat % 4096) 1) (fun r s => openMeta g k (s.metaRow g + r) (Config.metaBytes n) s) s

/-- The next row of the recorder spill ring (R77, R637). -/
def spillRow (g : Nat) (data : Bytes) (s : State) : State :=
  let size := (s.grp g).ng - (s.metaRow g + 69632)
  forEach (s.places g 69632 size (s.grp g).spillPtr 1) (fun r s =>
    openMeta g .spill (s.metaRow g + 69632 + r) data (s.modGrp g (fun k => { k with spillPtr := (r + 1) % size }))) s

/-- R188: the AWAKE record replaces the clean-park marker before the first media write. Its JHEAD passes the records of
stops that are over (log entry 65, DEDUCED). -/
def awakeRecord (g : Nat) (s : State) : State :=
  if (s.grp g).awakeRec then s
  else headerRow g .awake ((s.modGrp g (fun k => { k with awakeRec := true })).modNv g (fun n => { n with
    stop := some (.awake, s.twin.epoch, s.prime.bootcnt.toNat, n.jseq - 1, 0) }))

/-- R188: an AWAKE record is not yet acknowledged. -/
def State.awakeWaits (s : State) (g : Nat) : Bool := s.ops.any (fun o => o.grp == g && o.purpose == .metaRow .awake)

/-- R77: the copy of the namespace table that a group's metadata region holds is written again. The groups that carry
commands take it at once (log entry 134, DESIGN CHOICE). -/
def tableCopies (s : State) : State :=
  let works := fun (g : Nat) => (s.grp g).st != .unformatted && (s.drw (grpDrawer g)).st == .awake
  forEach ((List.range 16).filter works) (fun g s => headerRow g .nsTable (awakeRecord g s)) s

/-- A map of `n` bits, least significant first. -/
def bitMap (n : Nat) (l : List Nat) : Bytes :=
  (List.range ((n + 7) / 8)).map (fun i => BitVec.ofNat 8
    ((List.range 8).foldl (fun v b => if l.contains (8 * i + b) then v + 2 ^ b else v) 0))

/-- KIND of a drain-journal record (R535). -/
def JRec.kind : JRec → Nat
  | .drainStart .. => 1 | .intent .. => 2 | .tiles _ => 3 | .bitmap .. => 4 | .region _ => 5 | .drainEnd .. => 6

/-- Body of a drain-journal record (R535) of a group of `ng` rows. -/
def JRec.body (ng : Nat) : JRec → Bytes
  | .drainStart dirty cause => leBytes 8 dirty ++ leBytes 1 cause ++ leBytes 7 0
  | .intent grow images =>
    let ps := (List.range 9).filter (fun p => (lookupNat p images).isSome)
    leBytes 4 grow ++ leBytes 2 (ps.foldl (fun m p => m + 2 ^ p) 0) ++ leBytes 2 0
      ++ ps.flatMap (fun p => slice ((lookupNat p images).getD []) 0 288)
  | .tiles l => leBytes 4 l.length ++ leBytes 4 0 ++ l.flatMap (leBytes 8)
  | .bitmap first count l => leBytes 8 first ++ leBytes 4 count ++ leBytes 4 0 ++ bitMap count (l.map (fun i => i - first))
  | .region l => bitMap ((ng + 65535) / 65536) l
  | .drainEnd complete remain => leBytes 1 (bit complete) ++ leBytes 7 0 ++ leBytes 8 remain

/-- A drain-journal record as the ring holds it (R535), zero up to the next 64-byte boundary. -/
def JRec.bytes (r : JRec) (ng boot jseq : Nat) (epoch : Epoch) : Bytes :=
  let body := r.body ng
  let head : Bytes := [0x44, 0x4A, 0x52, 0x4E] ++ leBytes 1 r.kind ++ leBytes 3 0 ++ leBytes 4 body.length ++ leBytes 4 boot
    ++ leBytes 4 epoch.toNat ++ leBytes 8 jseq
  let rec_ := head ++ leBytes 4 (crc32 (head ++ body)).toNat ++ body
  slice rec_ 0 ((rec_.length + 63) / 64 * 64)

/-- Write a drain-journal record of a group (R535): each row of the ring that it touches is written whole. -/
def journal (g : Nat) (r : JRec) (s : State) : State :=
  let n := s.nv g
  let data := n.jbuf ++ r.bytes (s.grp g).ng s.prime.bootcnt.toNat n.jseq s.twin.epoch
  let k : MetaKind := match r with | .region l => .region l | _ => .journal n.jseq
  let rows := s.places g 4096 65536 (n.jpos / 2048) ((data.length + 2047) / 2048)
  let left := data.length % 2048
  let last := rows.getLastD 0
  forEach (rows.zipIdx) (fun x s =>
    openMeta g (if x.2 + 1 = rows.length then k else .journal n.jseq) (s.metaRow g + 4096 + x.1) (slice data (2048 * x.2) 2048) s)
    (s.modNv g (fun n => { n with
      journal := (n.jseq, r) :: n.journal, jseq := n.jseq + 1
      jpos := if left = 0 then 2048 * ((last + 1) % 65536) else 2048 * last + left
      jbuf := slice data (data.length - left) left }))

/-- Region of a group row (R535). -/
def regionOf (grow : Nat) : Nat := grow / 65536

/-- R536: one REGION record with the bits shown and those that wait. A bit that it clears is shown no more; one that it
sets is shown once the record is acknowledged. -/
def regionRecord (g : Nat) (drop : List Nat) (s : State) : State :=
  let n := s.nv g
  let kept := n.regions.filter (fun r => !drop.contains r)
  journal g (.region (n.regionWait.foldl insNat kept)) (s.modNv g (fun n => { n with
    regions := kept, regionWait := [], regionRec := s.now }))

/-- R536: a REGION record may be written: none is in progress, and at most one is written in 100 ms. -/
def State.regionFree (s : State) (g : Nat) : Bool :=
  let n := s.nv g
  (n.regionRec == 0 || decide (s.now ≥ n.regionRec + 100000000))
    && !s.ops.any (fun o => o.grp == g && (match o.purpose with | .metaRow (.region _) => true | _ => false))

/-- R536: the row's region may be written, as an acknowledged REGION record shows its bit. -/
def State.regionShown (s : State) (g grow : Nat) : Bool := (s.nv g).regions.contains (regionOf grow)

/-- R536: an operation asks for its region's bit; none while the record must wait. -/
def askRegion (g grow : Nat) (s : State) : Option State :=
  let r := regionOf grow
  let t := s.modNv g (fun n => { n with regionWait := insNat n.regionWait r })
  if s.regionFree g then some (regionRecord g [] t)
  else if (s.nv g).regionWait.contains r then none
  else some t

/-- R111, R112: the sectors go into intent lines and to the channels; writes to a missing or failed position
complete as degraded. -/
def issueWrites (id : Nat) (ws : List (Nat × Bytes)) (s : State) : State :=
  match s.op id with
  | none => s
  | some o =>
    let live := ws.filter (fun w => s.posWritable o.grp o.dst w.1)
    let taken := o.lines.length
    let s := s.modNv o.grp (fun n => if n.regions.contains (regionOf o.dst) then
      { n with regionAt := tabPut n.regionAt (regionOf o.dst) s.now } else n)
    let s := modOp id (fun o => { o with
      phase := .write, writes := ws, await := live.map (·.1), issued := live.length, rsvLines := 5 * ws.length - taken }) s
    forEach live (fun w s =>
      submit (grpChan o.grp w.1) (sectorCmd s .writeCw o.grp o.dst w.1 id w.2 (!o.purpose.background)) s) s

/-- The clear data and mask of a sector. R481: without the key of its namespace every line reads as poison. -/
def State.clearOf (s : State) (ns off : Nat) (sec : Bytes) : Bytes × BitVec 4 :=
  if s.keyLost ns then (List.replicate 256 0, 0xF)
  else
    let m := sectorMask sec
    (s.loadCw ns off sec m, m)

/-- R125, R217, R683: the new data and mask of one line from its gathered view and the old line. The Bool tells
that gathered bytes are discarded. -/
def newLine (v : View) (old : Option (Bytes × Bool)) : Bytes × Bool × Bool :=
  if v.poison then (List.replicate 64 0, true, false)
  else if imgFull v.img then (imgBytes v.img, false, false)
  else match old with
    | some (_, true) => (List.replicate 64 0, true, imgAny v.img)
    | some (d, false) => (imgBytes (imgOver v.img (imgOf d)), false, false)
    | none => (imgBytes v.img, false, false)

/-- R31, R213, R216: a host update's new codeword; its intent lines take the filled values. -/
def newCodeword (o : RowOp) (ns cw : Nat) (old : Option Bytes) (s : State) : Bytes × State :=
  let off := 256 * cw
  let ls := s.opLines o ns cw
  let od := old.map (s.clearOf ns off)
  let res := (List.range 4).map (fun l =>
    newLine (ls.getD l { img := imgEmpty 64, poison := false })
      (od.map (fun d => (slice d.1 (64 * l) 64, d.2.getLsbD l))))
  let mask := maskOf 4 ((List.range 4).filter (fun l => (res.getD l ([], false, false)).2.1))
  let sec := s.storeCw ns off (res.flatMap (·.1)) mask
  let lost := (List.range 4).filter (fun l => (res.getD l ([], false, false)).2.2)
  let s := forEach lost (fun l s => notePoison (s.opConns o ns cw l) s) s
  let s := s.modSump (fun u => { u with lines := u.lines.map (fun x =>
    if x.op = o.id ∧ x.ns = ns ∧ x.line / 4 = cw then
      let r := res.getD (x.line % 4) ([], false, false)
      { x with img := imgOf r.1, poison := r.2.1 }
    else x) })
  (sec, s)

/-- R111, R133, R217: the sectors that a host update writes, by position. -/
def hostWrites (o : RowOp) (ns off : Nat) (cws : List Nat) (s : State) : List (Nat × Bytes) × State :=
  let old := fun (p : Nat) => lookupNat p o.got
  let recompute := s.recomputes o ns (off / 256) cws
  let (news, s) := cws.foldl (fun (acc : List (Nat × Bytes) × State) c =>
    let (sec, s) := newCodeword o ns (off / 256 + c) (old (dataPos o.grow c)) acc.2
    (acc.1 ++ [(dataPos o.grow c, sec)], s)) ([], s)
  let par := parityPos o.grow
  if !s.posWritable o.grp o.grow par then (news, s)
  else if recompute then
    let all := (dataPoss o.grow).map (fun p => ((lookupNat p news) <|> old p).getD (List.replicate 288 0))
    (news ++ [(par, xorAll all)], s)
  else
    let parts := ((old par).getD []) :: news.flatMap (fun w => [w.2, (old w.1).getD []])
    (news ++ [(par, xorAll parts)], s)

/-- R90: the row's data sectors at the destination's positions, with parity. -/
def moveWrites (src dst : Nat) (got : List (Nat × Bytes)) : List (Nat × Bytes) :=
  rowSectors dst ((List.range 8).map (fun c => (lookupNat (dataPos src c) got).getD (List.replicate 288 0)))

/-- Dirty data of a row in the sump or the DRAM pool (R129). -/
def State.rowDirty (s : State) (ns off : Nat) : Bool :=
  s.sump.lines.any (fun l => (l.st == .dirty || l.st == .intent) && l.ns == ns && l.line / 32 == off / 2048)
    || s.sump.overflow.any (fun e => e.ns == ns && e.cw / 8 == off / 2048)

/-! Peer fetches (R121 to R123). -/

/-- R121: send a peer fetch for a codeword, and keep it until its answer or 5 ms have passed. -/
def sendFetch (g grow pos rowOp ns off : Nat) (s : State) : State :=
  let tag := s.twin.ftag % 65536
  let s := s.modTwin (fun t => { t with
    ftag := (t.ftag + 1) % 65536
    sentFetches := t.sentFetches ++ [{ ftag := tag, grp := g, grow, pos, rowOp, ns, off, time := s.now }] })
  sendData (.fetchReq ns off s.roleLsn tag) s

/-- R572, R610: fetch a codeword whose dirty content has an uncorrectable word. -/
def sendRepair (r : Bool × Nat) (ns off : Nat) (s : State) : State :=
  let tag := s.twin.ftag % 65536
  (sendFetch 16 0 0 0 ns off s).modTwin (fun t => { t with
    sentFetches := t.sentFetches.map (fun f => if f.ftag = tag then { f with repair := some r } else f) })

/-- The fetch is for a dirty overflow entry. -/
def SentFetch.ofOverflow (f : SentFetch) : Bool := match f.repair with | some (o, _) => o | none => false

/-- R573: a peer fetch for the dirty overflow entry of a codeword is outstanding. -/
def State.ovFetching (s : State) (ns cw : Nat) : Bool :=
  s.twin.sentFetches.any (fun f => f.ns == ns && f.off == 256 * cw && f.ofOverflow)

/-- R573: such a fetch is outstanding for a codeword of a row. -/
def State.rowFetching (s : State) (g grow : Nat) : Bool :=
  s.twin.sentFetches.any (fun f => f.ofOverflow && (match s.decodeOff f.ns f.off with
    | some p => p.g == g && p.grow == grow
    | none => false))

/-- R539: the peer is in step for a row rewrite, or R129: the controller has a peer to fetch from. -/
def State.fixFromPeer (s : State) (settling : Bool) : Bool :=
  if settling then
    (s.serving && s.peerFit) || (s.twin.role == .standby && !s.twin.resync && !s.twin.silent)
  else s.twin.role != .solo

/-- R129, R539: an inconsistent row is rewritten: from the peer's eight codewords with the lock released (R232),
or by its parity. A row of no namespace has no codeword to fetch, and its parity is rewritten in every role (log entry
113, DESIGN CHOICE). The recorder takes a record of type 0x0007. -/
def startFix (id : Nat) (orig : FixFrom) (s : State) : State :=
  match s.op id with
  | none => s
  | some o =>
    let s := record 0x0007 0 false (leBytes 4 o.grp ++ leBytes 4 o.grow) s
    match s.rowOwner o.grp o.grow with
    | some (ns, off) =>
      if s.fixFromPeer (orig == .settle) then
        let s := modOp id (fun o => { o with
          purpose := .scrubFix true orig, locked := false, needs := dataPoss o.grow, rsvLines := 0 }) s
        forEach (List.range 8) (fun c s => sendFetch o.grp o.grow (dataPos o.grow c) id ns (off + 256 * c) s) s
      else modOp id (fun o => { o with purpose := .scrubFix false orig, needs := [] }) s
    | none => modOp id (fun o => { o with purpose := .scrubFix false orig, needs := [] }) s

/-- R129: the sectors that a row rewrite writes: data that differs from the peer's, then parity. -/
def fixWrites (o : RowOp) : List (Nat × Bytes) :=
  let datas := (dataPoss o.grow).map (fun p =>
    (p, ((lookupNat p o.fetched) <|> lookupNat p o.got).getD (List.replicate 288 0)))
  (datas.filter (fun w => lookupNat w.1 o.got ≠ some w.2)) ++ [(parityPos o.grow, xorAll (datas.map (·.2)))]

/-! Spares (R95 to R97, R109). -/

/-- Ring slot whose row a group row holds; none for the gap, a retired slot, an unused spare or a metadata row. -/
def State.slotOf (s : State) (g grow : Nat) : Option (Nat × Nat) :=
  let e := grow / easelRows
  let loc := grow % easelRows
  if e ≥ (s.grp g).eg then none
  else
    let ek := easelKey g e
    let ea := s.easel ek
    let slot := if loc ≤ ringRows then (if ea.remap.any (fun r => r.2 == loc) then none else some loc)
      else (ea.remap.find? (fun r => r.1 + 1048577 == loc)).map (·.2)
    match slot with
    | some sl => if sl = ea.gap then none else some (ek, sl)
    | none => none

/-- The group can take gap and spare moves (R88). -/
def State.takesMoves (s : State) (g : Nat) : Bool :=
  let d := s.drw (grpDrawer g)
  d.st == .awake && !d.draining && s.prime.drain.isNone && (s.grp g).st != .unformatted

/-- R95 to R97: retire the slot of a row that holds a sector failed for good, with the lowest unused spare; the
easel is WORN when all 63 are used. -/
def trySpare (g grow : Nat) (s : State) : State :=
  match s.slotOf g grow with
  | none => s
  | some (ek, slot) =>
    let ea := s.easel ek
    if ea.worn || ea.moving || !s.takesMoves g then s
    else if ea.spares ≥ 63 then s.modEasel ek (fun x => { x with worn := true })
    else
      let k := ea.spares
      let s := s.modEasel ek (fun x => { x with moving := true })
      let s := forEach (List.range 9) (fun p s => s.modChan (grpChan g p) (fun c =>
        if c.badRows.contains grow then { c with retiring := true } else c)) s
      openOp { id := 0, grp := g, grow, dst := grow / easelRows * easelRows + 1048577 + k,
               purpose := .spare ek slot k, phase := .read } s

/-- R109: a sector has failed for good. A metadata row goes to the bad-row list. -/
def failForGood (c grow : Nat) (s : State) : State :=
  let g := chGroup c
  if grow ≥ s.metaRow g then
    if (s.grp g).badMeta.contains grow then s
    else headerRow g .header (s.modGrp g (fun k => { k with badMeta := insNat k.badMeta grow }))
  else if (s.chan c).badRows.contains grow then s
  else trySpare g grow (s.modChan c (fun k => { k with badRows := insNat k.badRows grow }))

/-- Spare moves that had to wait. -/
def trySpares (g : Nat) (s : State) : State :=
  forEach (List.range 9) (fun p s =>
    forEach (s.chan (grpChan g p)).badRows (fun r s => trySpare g r s) s) s

/-! Settlement. -/

/-- R87: count an operation's sector writes at the easel, saturating at 2,047. -/
def countWrites (g grow n : Nat) (s : State) : State :=
  let e := grow / easelRows
  if n = 0 ∨ e ≥ (s.grp g).eg then s
  else s.modEasel (easelKey g e) (fun x => { x with wcount := Nat.min 2047 (x.wcount + (if n = 1 then 2 else n)) })

/-- R213, R218: the intent lines of a settled update become clean-cached where still newest, else free; its
overflow entries are freed. -/
def releaseLines (o : RowOp) (ns : Nat) (s : State) : State :=
  s.modSump (fun u => { u with
    lines := u.lines.filterMap (fun x =>
      if x.op = o.id ∧ x.st = .intent then
        if u.lines.any (fun y => y.ns == x.ns && y.line == x.line && y.st != .pending && y.id != x.id
            && decide (y.stamp ≥ x.stamp) && decide (y.id > x.id))
        then none else some { x with st := .clean, op := 0 }
      else some x)
    overflow := u.overflow.filter (fun e => !(e.ns == ns && o.overflow.contains e.cw)) })

/-- R90: one gap move's update of gap and start. -/
def Easel.moved (x : Easel) : Easel :=
  if x.gap = 0 then { x with gap := 1048576, start := (x.start + 1) % ringRows, moves := x.moves + 1, moving := false }
  else { x with gap := x.gap - 1, moves := x.moves + 1, moving := false }

/-- The nine zero sectors of a slot of a newly allocated easel (R81). -/
def State.zeroRow (s : State) (g grow : Nat) : List (Nat × Bytes) :=
  rowSectors grow ((List.range 8).map (fun c => match s.cwAt g grow (dataPos grow c) with
    | some (ns, off) => s.storeCw ns off (List.replicate 256 0) 0
    | none => encodeSector 0 (List.replicate 256 0)))

/-- R81: the slots that an easel's fill writes: the ring, then the spares in use. -/
def nextFill (ea : Easel) (slot : Nat) : Option Nat :=
  if slot < ringRows then some (slot + 1)
  else
    let k := slot - ringRows
    ((List.range 63).find? (fun i => decide (i ≥ k) && ea.remap.any (fun r => r.1 == i))).map (fun i => ringRows + 1 + i)

/-- N_g and E_g that a format fixes (R73). -/
def State.formatSize (s : State) (g : Nat) : Nat × Nat :=
  let n := (List.range 9).foldl (fun n p => match (s.chan (grpChan g p)).desc with
    | some d => Nat.min n (Descriptor.sectors d)
    | none => 0) 3817748707
  (n, Nat.min 3640 ((n - 262144) / easelRows))

/-- Start the fill of one slot. -/
def openFill (ek slot : Nat) (s : State) : State :=
  let grow := ek % 4096 * easelRows + slot
  openOp { id := 0, grp := ek / 4096, grow, dst := grow, purpose := .fill ek slot, phase := .read } s

/-- Start the zero writes of an easel (R81). -/
def startFill (ek : Nat) (s : State) : State :=
  openFill ek 0 (s.modEasel ek (fun x => { x with filling := true }))

/-- Four fresh round keys from one draw (R81). -/
def roundKeys (v : BitVec 512) : List (BitVec 10) :=
  [BitVec.ofNat 10 v.toNat, BitVec.ofNat 10 (v.toNat / 1024), BitVec.ofNat 10 (v.toNat / 1048576),
    BitVec.ofNat 10 (v.toNat / 1073741824)]

/-- R81, R97: an easel as a format leaves it. -/
def formatEasel (ek : Nat) (s : State) : State :=
  let (v, s) := s.draw
  s.modEasel ek (fun _ => { key := roundKeys v })

/-- R73 to R75: the group is marked as formatting, with its row and easel counts fixed and fresh easels. -/
def formatMark (g : Nat) (s : State) : State :=
  let (n, e) := s.formatSize g
  let s := forEach (List.range 9) (fun p s => s.modChan (grpChan g p) (fun k => { k with
    health := .inService, badRows := [], retiring := false })) s
  let s := { s with gnv := tabDel s.gnv g, easels := s.easels.filter (fun x => x.1 / 4096 != g) }
  let s := s.modGrp g (fun k => { rebuildShare := k.rebuildShare, autoRebuild := k.autoRebuild, ng := n, eg := e, formatting := true })
  forEach ((List.range e).map (easelKey g)) formatEasel s

/-- Command codes that long work ends. -/
def codeFormat : Nat := 0x0201
def codeScrubNow : Nat := 0x0601
def codeRebuild : Nat := 0x0602
def codeSanitize : Nat := 0x0603

/-- End the running commands of a code and unit. -/
def finishUnit (code unit status : Nat) (block : Bytes) (s : State) : State :=
  finishAll ((s.ctl.running.filter (fun r => r.code == code && r.unit == unit)).map (·.id)) status block s

/-- True when a running command of a code and unit is marked for abort. -/
def State.unitAborted (s : State) (code unit : Nat) : Bool :=
  s.ctl.running.any (fun r => r.code == code && r.unit == unit && r.marked && !r.past)

/-- A fill of an easel has ended: a format goes on to its next easel, and ends with the group SOUND; a sanitize
ends when no easel of its namespace is left. -/
def fillDone (ek : Nat) (s : State) : State :=
  let g := ek / 4096
  let s := headerRow g (.easel ek) (s.modEasel ek (fun x => { x with filling := false }))
  if (s.grp g).formatting then
    if ek % 4096 + 1 < (s.grp g).eg then startFill (ek + 1) s
    else
      let bad := (List.range 9).filter (fun p => (s.chan (grpChan g p)).health != .inService)
      finishUnit codeFormat g stOk [] (headerRow g .header <| s.modGrp g (fun k => { k with
        formatting := false, passStart := s.now, failPos := bad[0]?, failPos2 := bad[1]?, failMore := bad.drop 2
        st := if bad.isEmpty then .sound else if bad.length = 1 then .degraded else .failed }))
  else
    let ns := (s.easel ek).nsid
    match s.ns ns with
    | some n =>
      if n.units.any (fun u => (s.easel (easelKey u.1 u.2)).filling) then s else finishUnit codeSanitize ns stOk [] s
    | none => s

/-- R134: the rebuild pointer passes a row; at N_g the group is SOUND. -/
def rebuildNext (g grow : Nat) (s : State) : State :=
  if (s.grp g).rebuildPtr ≠ grow ∨ (s.grp g).st ≠ .rebuilding then s
  else
    let s := s.modGrp g (fun k => { k with rebuildPtr := grow + 1 })
    if grow + 1 < (s.grp g).ng then s
    else
      let s := forEach (s.rebuildTargets g) (fun p s => s.modChan (grpChan g p) (fun k => { k with health := .inService })) s
      let s := s.modGrp g (fun k => { k with
        st := .sound, failPos := none, failPos2 := none, failMore := [], rebuildOfFailed := false, paused := false })
      finishUnit codeRebuild g stOk [] (record 0x0008 0 false (leBytes 4 g ++ leBytes 4 (grow + 1)) s)

/-- R141: CH_HEALTH.RETIRING shows the spare moves that run. -/
def showRetiring (g : Nat) (s : State) : State :=
  forEach (List.range 9) (fun p s => s.modChan (grpChan g p) (fun c => { c with
    retiring := s.ops.any (fun o => o.grp == g && c.badRows.contains o.grow
      && (match o.purpose with | .spare .. => true | _ => false)) })) s

/-- R37, R214: a row whose media has changed makes the gathers stale that took its old sectors, and an atomic that took
its line from them asks again. -/
def staleRow (ns off : Nat) (s : State) : State :=
  s.modXport (fun x => { x with
    gathers := x.gathers.map (fun g =>
      if g.ns = ns ∧ g.got.any (fun e => decide (e.1 / 8 = off / 2048)) then { g with stale := true } else g)
    conns := x.conns.map (fun e => (e.1, { e.2 with msgs := e.2.msgs.map (fun m =>
      if m.ns = ns ∧ m.raddr / 2048 = off / 2048 then { m with line := none } else m) })) })

/-- What an operation leaves when it has settled (R112), beside its lock. -/
def settleEffect (o : RowOp) (s : State) : State :=
  let seen := fun (s : State) => s.modNv o.grp (fun n => { n with suspects := n.suspects.filter (fun r => r != o.grow) })
  match o.purpose with
  | .host ns off _ => seen (countWrites o.grp o.dst o.issued (staleRow ns off (releaseLines o ns s)))
  | .gap ek _ _ => s.modEasel ek Easel.moved
  | .spare ek slot k =>
    let s := s.modEasel ek (fun x => { x with
      remap := tabPut (x.remap.filter (fun r => r.2 != slot)) k slot, spares := Nat.max x.spares (k + 1), moving := false })
    showRetiring o.grp (forEach (List.range 9) (fun p s => s.modChan (grpChan o.grp p) (fun c => { c with
      badRows := c.badRows.filter (fun r => r != o.grow) })) s)
  | .chain pos =>
    modMiss o.grp o.grow pos (fun m => { m with wb := false, rereadDue := true }) (countWrites o.grp o.dst o.issued s)
  | .correct pos => rereadSector o.grp o.grow pos (countWrites o.grp o.dst o.issued s)
  | .rebuild => rebuildNext o.grp o.grow s
  | .scrubFix .. =>
    let s := match s.rowOwner o.grp o.grow with | some (ns, off) => staleRow ns off s | none => s
    seen (countWrites o.grp o.dst o.issued s)
  | .settle => seen s
  | .fill ek slot =>
    match nextFill (s.easel ek) slot with
    | some n => openFill ek n s
    | none => fillDone ek s
  | .replay => countWrites o.grp o.dst o.issued s
  | .metaRow (.region l) => s.modNv o.grp (fun n => { n with regions := l })
  | .metaRow .format => startFill (easelKey o.grp 0) s
  | .scrub _ | .metaRow _ => s

/-- Positions whose sectors the operation has written. -/
def RowOp.written (o : RowOp) : List Nat := o.writes.map (·.1)

/-- R116, R683, R685: miss-tracking entries of a row whose media has changed. A sector that was written is read again,
or needs no write-back; a rebuild of another sector starts again from the row's present sectors. -/
def renewMiss (o : RowOp) (m : Miss) (s : State) : State :=
  let fresh : Miss := { m with started := false, got := [], needs := [], chained := false }
  let inChain := m.phase == .rebuilding || m.phase == .fetching
  let put := fun (x : Miss) => modMiss m.grp m.grow m.pos (fun _ => x)
  if !o.written.contains m.pos then (if m.phase = .rebuilding then put fresh s else s)
  else if m.phase = .settled then put { m with wb := false } s
  else if !inChain then s
  else
    let s := s.modTwin (fun t => { t with
      sentFetches := t.sentFetches.filter (fun f => !(f.rowOp == 0 && f.grp == m.grp && f.grow == m.grow && f.pos == m.pos)) })
    if s.posReadable m.grp m.grow m.pos then
      submit (grpChan m.grp m.pos) (sectorCmd s .readCw m.grp m.grow m.pos 0 [] true)
        (put { fresh with phase := .reading, uncor := false, absent := false } s)
    else put { fresh with phase := .rebuilding } s

/-- Every entry of a row that an operation has written. -/
def renewMisses (o : RowOp) (s : State) : State :=
  if o.writes.isEmpty then s
  else forEach (s.misses.filter (fun m => m.grp == o.grp && m.grow == o.dst)) (renewMiss o) s

/-- The check that a row rewrite came from. -/
def FixFrom.purpose : FixFrom → RowPurpose
  | .patrol => .scrub false
  | .scrubNow => .scrub true
  | .settle => .settle

/-- An unlocked operation whose row another update has settled starts its reads again (R685), and a check of the row
starts anew (R129). A write-back keeps its sector; it falls away where the update wrote that sector (R108, R683). -/
def restartReads (o : RowOp) (s : State) : State :=
  if o.writes.isEmpty then s
  else
    let hit := fun (q : RowOp) => q.grp == o.grp && q.grow == o.dst && q.phase == .read && !q.locked
    let ended := fun (q : RowOp) => match q.purpose with
      | .chain p | .correct p => hit q && o.written.contains p
      | _ => false
    let again := fun (q : RowOp) => match q.purpose with
      | .chain p | .correct p => { q with got := q.got.filter (fun e => e.1 == p) }
      | .metaRow _ | .replay | .fill .. => q
      | .scrubFix _ f => { q with purpose := f.purpose, got := [], fetched := [], needs := [] }
      | _ => { q with got := [], fetched := [] }
    let fixes := (s.ops.filter (fun q => hit q && (match q.purpose with | .scrubFix .. => true | _ => false))).map (·.id)
    ({ s with ops := (s.ops.filter (fun q => !ended q)).map (fun q => if hit q then again q else q) } : State).modTwin
      (fun t => { t with sentFetches := t.sentFetches.filter (fun f => !fixes.contains f.rowOp) })

/-- R112: the operation has settled: its lines and lock are released. -/
def settleOne (o : RowOp) (s : State) : State :=
  let s := { s with ops := s.ops.filter (fun q => q.id != o.id) }
  let s := s.modNv o.grp (fun n => if n.regions.contains (regionOf o.dst) then
    { n with regionAt := tabPut n.regionAt (regionOf o.dst) s.now } else n)
  trySpares o.grp (restartReads o (renewMisses o (settleEffect o s)))

/-- R90, R95: the move whose gap or spare record this is. -/
def State.moveOf (s : State) (k : MetaKind) : Option RowOp :=
  s.ops.find? (fun o => o.phase == .record && (match o.purpose, k with
    | .gap ek _ _, .gap e => ek == e
    | .spare ek sl i, .spare e sl' i' => ek == e && sl == sl' && i == i'
    | _, _ => false))

/-- R90, R112: an operation has settled. The acknowledgement of a gap or spare record completes its move. -/
def settleOp (o : RowOp) (s : State) : State :=
  let s := settleOne o s
  match o.purpose with
  | .metaRow k => match s.moveOf k with
    | some q => settleOne q s
    | none => s
  | _ => s

/-- R90, R93: a move whose copy is acknowledged appends its record to the gap and spare journal. -/
def appendRecord (o : RowOp) (s : State) : State :=
  let s := modOp o.id (fun x => { x with phase := .record }) s
  match o.purpose with
  | .gap ek _ _ => headerRow o.grp (.gap ek) s
  | .spare ek slot k => headerRow o.grp (.spare ek slot k) s
  | _ => s

/-- R93: gap and spare moves are abandoned with their locks; gap, start and remap stay. -/
def abandonMoves (s : State) : State :=
  let moves := s.ops.filter (fun o => o.purpose.isMove)
  let s := { s with ops := s.ops.filter (fun o => !o.purpose.isMove
    && (match o.purpose with | .metaRow (.gap _) | .metaRow (.spare ..) => false | _ => true)) }
  forEach moves (fun o s => match o.purpose with
    | .gap ek _ _ => s.modEasel ek (fun x => { x with moving := false })
    | .spare ek _ _ => showRetiring o.grp (s.modEasel ek (fun x => { x with moving := false }))
    | _ => s) s

/-! The uncorrectable chain. -/

/-- R118: the outcome of an uncorrectable sector is decided: the recorder takes one record, none for a parity sector,
which is no separate outcome, and the lines that no step yielded (`fresh`) are counted. -/
def decideOutcome (m : Miss) (sec : Bytes) (fresh : BitVec 4) (chained : Bool) (s : State) : State :=
  let mask := sectorMask sec
  let s := s.modGrp m.grp (fun g => { g with poisonLines := Nat.min 4294967295 (g.poisonLines + (setBits 4 fresh).length) })
  let s := modMiss m.grp m.grow m.pos (fun m => { m with phase := .settled, sec, chained, wb := m.uncor && !m.absent }) s
  if m.uncor ∧ m.pos ≠ parityPos m.grow then
    record 0x0003 (grpChan m.grp m.pos) false
      (leBytes 4 m.grp ++ leBytes 4 m.grow ++ leBytes 4 m.pos ++ leBytes 4 mask.toNat) s
  else s

/-- R117 steps 2 and 3. -/
def chainNext (m : Miss) (s : State) : State :=
  let s := releaseLocks m s
  match m.cw with
  | some (ns, off) =>
    if s.twin.role ≠ .solo ∧ !m.forPeer then
      sendFetch m.grp m.grow m.pos 0 ns off (modMiss m.grp m.grow m.pos (fun m => { m with phase := .fetching }) s)
    else decideOutcome m (encodeSector 0xF (List.replicate 256 0)) 0xF true s
  | none => decideOutcome m (encodeSector 0xF (List.replicate 256 0)) 0xF true s

/-- A sector's step 1 fails, as another sector of its row is not to be had. -/
def failRebuild (g grow pos : Nat) (s : State) : State :=
  match s.miss g grow pos with
  | some m => if m.phase = .rebuilding ∧ pos ≠ parityPos grow then chainNext m s else s
  | none => s

/-- Start step 1 of R117 (R107), or the recomputation of a parity sector (R119, R684). A sector that step 2 or 3 gave
does not agree with the row's parity until its write-back, so that step 1 cannot use it. -/
def startRebuild (m : Miss) (s : State) : State :=
  let others := if m.pos = parityPos m.grow then dataPoss m.grow else (List.range 9).filter (fun p => p != m.pos)
  let gone := fun p => match s.miss m.grp m.grow p with
    | some x => x.phase == .rebuilding || x.phase == .fetching || (x.phase == .settled && x.chained)
    | none => !s.posReadable m.grp m.grow p
  if m.pos ≠ parityPos m.grow ∧ others.any gone then chainNext m s
  else
    let s := modMiss m.grp m.grow m.pos (fun m => { m with started := true, needs := others, got := [] }) s
    forEach others (fun p s => readRaw m.grp m.grow p (some (.rebuild m.pos)) true false false s) s

/-- R105, R117, R132, R268: a sector is uncorrectable. Sectors that it was to help rebuild fail their step 1. -/
def sectorUncor (c : Nat) (m : Miss) (s : State) : State :=
  let s := s.modChan c (fun k => { k with
    ueTotal := sat32 k.ueTotal
    ueRows := (m.grow, s.now) :: k.ueRows.filter (fun e => e.1 != m.grow && decide (s.now < e.2 + 1000000000)) })
  let s := s.modTwin (fun t => { t with ueTimes := s.now :: t.ueTimes.filter (fun x => s.now < x + 100000000) })
  let s := raiseWith (4 * c + 1) c m.grow s
  let helped := m.waiters.filterMap (fun w => match w with | .rebuild p => some p | _ => none)
  let fails := helped.filter (fun p => p != parityPos m.grow)
  let s := modMiss m.grp m.grow m.pos (fun m => { m with
    phase := .rebuilding, uncor := true, started := false
    waiters := m.waiters.filter (fun w => match w with | .rebuild p => p == parityPos m.grow | _ => true) }) s
  let s := forEach fails (fun p s => failRebuild m.grp m.grow p s) s
  if s.twin.ueTimes.length > s.twin.ueStorm then relinquishCause s else s

/-! Delivery. -/

/-- R214, R227, R228: a codeword's clear data from media for a reader; it enters the read cache when the
namespace has CACHE_FILL and no newer layer holds the codeword. -/
def fillCache (ns cw : Nat) (d : Bytes) (m : BitVec 4) (s : State) : State :=
  match s.ns ns with
  | some n =>
    if n.cacheFill && (s.ovEntry ns cw).isNone && !s.sump.lines.any (fun l => l.ns == ns && l.line / 4 == cw)
    then cacheCw 1 0 ns cw d m s else s
  | none => s

/-- Codewords of a range for which the layers above media do not decide every line read. -/
def State.mediaNeeds (s : State) (ns off len : Nat) : List Nat :=
  ((touched off len).filter (fun l => !(s.view ns l).known)).foldl (fun acc l => insNat acc (l / 4)) []

/-- The 256 bytes and mask of a codeword as the layers over a media copy give it. -/
def State.cwView (s : State) (media : Option (Bytes × BitVec 4)) (ns cw : Nat) : Bytes × BitVec 4 :=
  let vs := (List.range 4).map (fun l => s.viewOver media ns (4 * cw + l))
  (vs.flatMap (fun v => if v.poison then List.replicate 64 0 else imgBytes v.img),
    maskOf 4 ((List.range 4).filter (fun l => (vs.getD l { img := [], poison := false }).poison)))

/-- R121: answer a held peer fetch with the visible value of each line. -/
def answerFetch (h : HeldFetch) (media : Option (Bytes × BitVec 4)) (s : State) : State :=
  let (d, m) := s.cwView media h.ns (h.off / 256)
  sendData (.fetchResp h.ftag m d)
    ((touchPage h.ns (h.off / 256) s).modTwin (fun t => { t with heldFetches := t.heldFetches.filter (fun x => x.id != h.id) }))

/-- Hand a settled sector to one waiter (R118). -/
def deliver (m : Miss) (w : Waiter) (s : State) : State :=
  let clear := m.cw.map (fun (ns, off) => s.clearOf ns off m.sec)
  match w with
  | .row id => modOp id (fun o => if !o.needs.contains m.pos then o else { o with
      got := o.got ++ [(m.pos, m.sec)], needs := o.needs.filter (fun p => p != m.pos)
      fetched := if m.chained && o.purpose.isMove then o.fetched ++ [(m.pos, m.sec)] else o.fetched }) s
  | .rebuild p => modMiss m.grp m.grow p (fun x => if !x.needs.contains m.pos then x else { x with
      got := x.got ++ [(m.pos, m.sec)], needs := x.needs.filter (fun q => q != m.pos) }) s
  | .gather id =>
    match m.cw, clear with
    | some (ns, off), some (d, k) =>
      let s := s.modXport (fun x => { x with gathers := x.gathers.map (fun g =>
        if g.id = id then { g with
          got := tabPut g.got (off / 256) (d, k), needs := g.needs.filter (fun c => c != off / 256) } else g) })
      fillCache ns (off / 256) d k s
    | _, _ => s
  | .peer id =>
    match s.twin.heldFetches.find? (fun h => h.id == id) with
    | some h => answerFetch h clear s
    | none => s
  | .stage h =>
    match m.cw, clear with
    | some (ns, off), some (d, k) =>
      match s.sched h with
      | some q =>
        if q.done || !meets (q.extents.drop q.cursor) off 256 then s
        else
          let (d, k) := s.cwView (some (d, k)) ns (off / 256)
          cacheCw 2 h ns (off / 256) d k s
      | none => s
    | _, _ => s
  | .atomic c id =>
    match m.cw, clear with
    | some (ns, off), some md =>
      s.modConn c (fun k => k.modMsg id (fun x =>
        let v := s.viewOver (some md) ns (x.raddr / 64)
        if x.ns = ns ∧ x.raddr / 256 = off / 256 then { x with line := some (imgBytes v.img, v.poison) } else x))
    | _, _ => s

/-! The engine's own progress. -/

/-- The write-back of a settled chain (R119, R120, R684). -/
def openChain (m : Miss) (s : State) : State :=
  openOp { id := 0, grp := m.grp, grow := m.grow, dst := m.grow, purpose := .chain m.pos, phase := .read,
           got := [(m.pos, m.sec)] } s

/-- R464, R468: an XTS job of a codeword of an encrypted namespace. -/
def nsKeyUse (decrypt : Bool) (g ns off : Nat) (s : State) : State :=
  match s.nsKey ns with
  | some key => xtsJob decrypt g ns off key s
  | none => s

/-- R464: a sector that a reader takes in clear is decrypted, once for all of them. -/
def decryptFor (m : Miss) (s : State) : State :=
  let clear := m.waiters.any (fun w => match w with | .row _ | .rebuild _ => false | _ => true)
  match m.cw with
  | some (ns, off) => if clear then nsKeyUse true m.grp ns off s else s
  | none => s

/-- What a miss-tracking entry does next; none while it waits. -/
def missTick (s : State) (m : Miss) : Option State :=
  match m.phase with
  | .suspect =>
    if s.readHeld m.grp m.grow then none
    else if s.posReadable m.grp m.grow m.pos then
      some (submit (grpChan m.grp m.pos) (sectorCmd s .readCw m.grp m.grow m.pos 0 [] true)
        (modMiss m.grp m.grow m.pos (fun m => { m with phase := .reading }) s))
    else some (modMiss m.grp m.grow m.pos (fun m => { m with phase := .rebuilding, absent := true }) s)
  | .reading | .fetching => none
  | .rebuilding =>
    if s.ops.any (fun o => o.grp == m.grp && o.dst == m.grow && o.phase == .write) then none
    else if !m.started then some (startRebuild m s)
    else if m.needs.isEmpty then some (decideOutcome m (xorAll (m.got.map (·.2))) 0 false s)
    else none
  | .settled =>
    if !m.waiters.isEmpty then
      some (forEach m.waiters (fun w s => deliver m w s)
        (modMiss m.grp m.grow m.pos (fun m => { m with waiters := [] }) (decryptFor m s)))
    else if !m.wb then
      if m.rereadDue && s.posReadable m.grp m.grow m.pos then
        some (submit (grpChan m.grp m.pos) (sectorCmd s .readCw m.grp m.grow m.pos 0 [] true)
          (modMiss m.grp m.grow m.pos (fun m => { m with
            phase := .reading, reread := true, rereadDue := false, uncor := false, chained := false }) s))
      else some (dropMiss m.grp m.grow m.pos s)
    else if s.ops.any (fun o => o.grp == m.grp && o.grow == m.grow && o.purpose == .chain m.pos) then none
    else some (openChain m s)

/-- R54: record the tiles of lines that drain unacknowledged. -/
def writeTiles (g : Nat) (ts : List Nat) (s : State) : State :=
  let fresh := ts.filter (fun t => !s.twin.journalTiles.contains t)
  if fresh.isEmpty then s
  else journal g (.tiles fresh) (s.modTwin (fun t => { t with journalTiles := fresh.foldl insNat t.journalTiles }))

/-- R262: the line may go to media: its entry is applied on the peer, or a drain runs. -/
def State.mayDrain (s : State) (lsn : Lsn) : Bool := s.twin.role != .active || s.prime.drain.isSome || s.ackedTo lsn

/-- R54: the acknowledgement of the line's entry was never received. -/
def State.neverAcked (s : State) (lsn : Lsn) : Bool :=
  (s.twin.role == .active || s.twin.role == .fenced) && !s.ackedTo lsn

/-- R217, R218: gather the dirty content of a row into the update's intent. -/
def gatherRow (o : RowOp) (ns off : Nat) (s : State) : State :=
  let mine := fun (l : SumpLine) => l.st == .dirty && l.ns == ns && l.line / 32 == off / 2048 && s.mayDrain l.lsn
  let ov := s.sump.overflow.filter (fun e => e.ns == ns && e.cw / 8 == off / 2048 && s.mayDrain e.lsn)
  let lines := s.sump.lines.filter mine
  let cws := (lines.map (fun (l : SumpLine) => l.line / 4 % 8) ++ ov.map (fun (e : OvEntry) => e.cw % 8)).foldl insNat []
  let risky := (lines.filter (fun l => s.neverAcked l.lsn)).map (fun l => s.tileIdx ns (64 * l.line))
    ++ (ov.filter (fun e => s.neverAcked e.lsn)).map (fun e => s.tileIdx ns (256 * e.cw))
  let s := writeTiles o.grp ((risky.filterMap id).foldl insNat []) s
  let s := s.modSump (fun u => { u with lines := u.lines.map (fun l => if mine l then { l with st := .intent, op := o.id } else l) })
  modOp o.id (fun x => { x with
    purpose := .host ns off cws, phase := .read, lines := lines.map (·.id), overflow := ov.map (·.cw)
    rsvLines := 4 * ov.length + 5 }) s

/-- Links of a group's drawer carry commands. -/
def State.grpWorks (s : State) (g : Nat) : Bool :=
  let d := s.drw (grpDrawer g)
  (s.grp g).st != .unformatted
    && (d.st == .awake || (d.st == .parking && (d.step == .p1 || d.step == .p2)))

/-- The update has gathered nothing. -/
def State.emptyUpdate (s : State) (id : Nat) : Bool :=
  match s.op id with
  | some o => (match o.purpose with | .host _ _ [] => true | _ => false)
  | none => false

/-- R9, R130: every channel of the group has fewer than 8 foreground commands outstanding. -/
def State.quietGroup (s : State) (g : Nat) : Bool := (List.range 9).all (fun p => decide (s.fgCount (grpChan g p) < 8))

/-- R129: the row has dirty data in the sump or the DRAM pool. -/
def State.dirtyRow (s : State) (g grow : Nat) : Bool :=
  match s.rowOwner g grow with | some (ns, off) => s.rowDirty ns off | none => false

/-- The operation is a row of the patrol pass, or of the SCRUB_NOW pass. -/
def RowOp.inPass (o : RowOp) (now : Bool) : Bool :=
  match o.purpose with
  | .scrub n => n == now
  | .scrubFix _ f => f == (if now then .scrubNow else .patrol)
  | _ => false

/-- An operation holds its lock and its sectors: compute and issue its writes, or end it. -/
def proceed (o : RowOp) (s : State) : State :=
  match o.purpose with
  | .host ns off cws => let (ws, s) := hostWrites o ns off cws s; issueWrites o.id ws s
  | .gap .. | .spare .. => issueWrites o.id (moveWrites o.grow o.dst o.got) s
  | .chain pos =>
    let par := parityPos o.grow
    let own := (pos, (lookupNat pos o.got).getD [])
    if pos = par ∨ !s.posWritable o.grp o.grow par then issueWrites o.id [own] s
    else issueWrites o.id [own, (par, xorAll (o.got.map (·.2)))] s
  | .rebuild =>
    let par := parityPos o.grow
    if (s.grp o.grp).rebuildOfFailed then
      let ws := (s.rebuildTargets o.grp).filterMap (fun p => (lookupNat p o.got).map (fun x => (p, x)))
      issueWrites o.id (ws ++ [(par, xorAll (o.got.map (·.2)))]) s
    else issueWrites o.id o.got s
  | .scrub now =>
    let bad := o.got.length == 9 && xorAll (o.got.map (·.2)) != List.replicate 288 0
    if bad then
      let s := if now then s else s.modGrp o.grp (fun g => { g with incons := sat8 g.incons })
      if s.dirtyRow o.grp o.grow then settleOp o s else startFix o.id (if now then .scrubNow else .patrol) s
    else settleOp o s
  | .settle =>
    if xorAll (o.got.map (·.2)) = List.replicate 288 0 then settleOp o s else startFix o.id .settle s
  | .scrubFix _ f =>
    if f ≠ .settle ∧ s.dirtyRow o.grp o.grow then settleOp o s else issueWrites o.id (fixWrites o) s
  | .correct pos => issueWrites o.id [(pos, (lookupNat pos o.got).getD [])] s
  | .fill .. => issueWrites o.id (s.zeroRow o.grp o.grow) s
  | .replay | .metaRow _ => issueWrites o.id o.got s

/-- The operation writes media. -/
def RowPurpose.writes : RowPurpose → Bool
  | .scrub _ | .settle => false
  | _ => true

/-- The write of a metadata row, which needs no AWAKE record and no bit of the dirty-region map before it. -/
def RowPurpose.isMeta : RowPurpose → Bool
  | .metaRow _ => true
  | _ => false

/-- R92: a media read addressed to the slot is outstanding. -/
def State.slotRead (s : State) (g grow : Nat) : Bool :=
  decide (grow < s.metaRow g) && s.misses.any (fun m => m.grp == g && m.grow == grow && m.phase == .reading)

/-- A host update issues its reads; with nothing left to write it is over. -/
def beginUpdate (id : Nat) (s : State) : State :=
  if s.emptyUpdate id then { s with ops := s.ops.filter (fun q => q.id != id) } else issueReads id s

/-- R232: an operation takes its lock, again where it had given it up, and asks for the sectors that it lacks. -/
def takeLock (o : RowOp) (s : State) : State :=
  let s := modOp o.id (fun o => { o with locked := true, epoch := s.twin.epoch }) s
  match o.purpose with
  | .host ns off _ =>
    let s := if o.lines.isEmpty && o.overflow.isEmpty then gatherRow o ns off s else s
    beginUpdate o.id s
  | .scrubFix true _ => s
  | _ => issueReads o.id s

/-- R75: the format of the group is aborted before its header is written. -/
def State.formatAborted (s : State) (o : RowOp) : Bool := o.purpose == .metaRow .format && s.unitAborted codeFormat o.grp

/-- R75: the write of the header that marks the group as formatting is the point of no return. -/
def passFormat (o : RowOp) (s : State) : State :=
  if o.purpose = .metaRow .format then
    forEach ((s.ctl.running.filter (fun r => r.code == codeFormat && r.unit == o.grp)).map (·.id)) setPast (formatMark o.grp s)
  else s

/-- What a locked operation that has its sectors does: R188 and R536 come before a write of a row update, and no write
into a slot begins while a read of it is outstanding (R92). -/
def lockedTick (s : State) (o : RowOp) : Option State :=
  if s.formatAborted o then
    some (finishUnit codeFormat o.grp stAborted [] { s with ops := s.ops.filter (fun q => q.id != o.id) })
  else if !o.purpose.writes then some (proceed o s)
  else if o.purpose.isMeta then some (proceed o (passFormat o s))
  else if !(s.grp o.grp).awakeRec then some (awakeRecord o.grp s)
  else if s.awakeWaits o.grp || s.slotRead o.grp o.dst then none
  else if s.regionShown o.grp o.dst then some (proceed o s)
  else askRegion o.grp o.dst s

/-- R217: MERGE_WAIT has ended: the row's dirty content is gathered into the intent, once the merge buffer has room. -/
def endMerge (o : RowOp) (s : State) : State :=
  match o.purpose with
  | .host ns off _ =>
    if !s.mergeRoom o.grp then modOp o.id (fun x => { x with phase := .read, locked := false }) s
    else
    let s := nsKeyUse false o.grp ns off (gatherRow o ns off s)
    beginUpdate o.id s
  | _ => s

/-- R217: every data codeword of the row is dirty, so that nothing is left to wait for. -/
def State.rowFull (s : State) (o : RowOp) : Bool :=
  match o.purpose with
  | .host ns off _ => (List.range 8).all (fun c =>
      s.sump.lines.any (fun l => l.st == .dirty && l.ns == ns && l.line / 4 == off / 256 + c && s.mayDrain l.lsn)
        || s.sump.overflow.any (fun e => e.ns == ns && e.cw == off / 256 + c && s.mayDrain e.lsn))
  | _ => false

/-- The engine can start an operation that has no lock: its row is free, its reserve and its merge buffer have room (R211,
R230), and a scrub yields (R130). -/
def State.canLock (s : State) (o : RowOp) : Bool :=
  s.lockFree o && s.reserveRoom o.grp && (!o.purpose.isScrub || s.quietGroup o.grp)
    && (match o.purpose with | .host .. => s.mergeRoom o.grp | _ => true)

/-- What an operation does next; none while it waits. -/
def opTick (s : State) (o : RowOp) : Option State :=
  match o.phase with
  | .merge => if s.rowFull o then some (endMerge o s) else none
  | .record => none
  | .read =>
    if !o.needs.isEmpty then none
    else if !o.locked then
      if s.canLock o then some (takeLock o s) else none
    else lockedTick s o
  | .write =>
    if !o.await.isEmpty then none
    else if o.purpose.isMove then some (appendRecord o s)
    else some (settleOp o s)

/-- One thing that the engines can do now. -/
def engineTick (s : State) : Option State :=
  (s.misses.findSome? (missTick s)) <|> (s.ops.findSome? (opTick s))

/-- Run the engines until everything waits, at most `n` things. -/
def pumpEngines : Nat → State → State
  | 0, s => s
  | n + 1, s =>
    match engineTick s with
    | some t => pumpEngines n t
    | none => s

/-- Run the engines. -/
def runEngines (s : State) : State := pumpEngines (256 + 16 * (s.misses.length + s.ops.length)) s

/-! Module failure (R132, R177). -/

/-- R10, R114, R177: what a lost command leaves: a write completes as degraded, a read goes to the row's parity or
the chain. -/
def loseCommand (c : Nat) (m : MCmd) (s : State) : State :=
  let g := chGroup c
  let pos := chPos c
  match m.op with
  | .writeCw => modOp m.rowOp (fun o => { o with await := o.await.filter (fun p => p != pos) }) s
  | .readCw => modMiss g m.grow pos (fun x =>
      if x.phase = .reading then { x with phase := .rebuilding, started := false, absent := true } else x) s
  | _ => s

/-- R132, R160, R177: every outstanding and waiting command of a channel is lost. On a link that still carries the flit
stream each tag stays until its response, which returns its credit. -/
def loseCommands (c : Nat) (s : State) : State :=
  let k := s.chan c
  let up := k.link == .active || k.link == .retrain
  let cmds := (k.tags.filter (fun t => !t.lost)).map (·.cmd) ++ k.waiting
  let s := s.modChan c (fun k =>
    if up then { k with tags := k.tags.map (fun t => { t with lost := true }), waiting := [] }
    else { k with tags := [], waiting := [], txBuf := [], mgmtCredit := 4, dieCredit := [] })
  forEach cmds (fun m s => loseCommand c m s) s

/-- Positions of a group that lack a sound module. -/
def Group.lost (k : Group) : List Nat := k.failPos.toList ++ k.failPos2.toList ++ k.failMore

/-- One more such position. -/
def Group.lose (k : Group) (pos : Nat) : Group :=
  if k.lost.contains pos then k
  else if k.failPos.isNone then { k with failPos := some pos }
  else if k.failPos2.isNone then { k with failPos2 := some pos }
  else { k with failMore := k.failMore ++ [pos] }

/-- Group states under R132: a module at position `pos` fails. -/
def groupLoses (g pos : Nat) (target : Bool) (s : State) : State :=
  let k := s.grp g
  let refuse := fun s => finishUnit codeRebuild g stRefused (blkRefused 0x020B g) s
  match k.st with
  | .sound => s.modGrp g (fun k => { k.lose pos with st := .degraded })
  | .degraded =>
    if k.failPos = some pos then s
    else relinquishCause (s.modGrp g (fun k => { k.lose pos with st := .failed }))
  | .rebuilding =>
    if target then
      refuse (s.modGrp g (fun k => { k with
        st := if k.rebuildOfFailed then .failed else .degraded, rebuildPtr := 0, rebuildOfFailed := false, paused := false }))
    else
      refuse (relinquishCause (s.modGrp g (fun k => { k.lose pos with
        st := .failed, rebuildPtr := 0, rebuildOfFailed := false, paused := false })))
  | .failed => s.modGrp g (fun k => k.lose pos)
  | .unformatted => s

/-- R132: the module of a channel is declared failed. -/
def moduleFailed (c : Nat) (s : State) : State :=
  let k := s.chan c
  if k.health = .failed then loseCommands c s
  else
    let target := k.health == .rebuildTarget
    let was := k.health == .inService || target
    let s := s.modChan c (fun k => { k with health := .failed, ueRows := [] })
    let s := raiseWith (4 * c + 3) c 0 s
    let mine := fun (o : RowOp) => target && o.grp == chGroup c && o.purpose == .rebuild
    let s := { s with ops := (s.ops.filter (fun o => !(mine o && o.phase == .read))).map (fun o =>
      if mine o then { o with purpose := .replay, issued := 0 } else o) }
    let s := loseCommands c s
    if was then groupLoses (chGroup c) (chPos c) target s else s

/-- R132: uncorrectable sectors from more than 64 distinct rows within 1 s fail the module. -/
def checkUeRows (c : Nat) (s : State) : State :=
  if (s.chan c).ueRows.length > 64 then moduleFailed c s else s

end Sys2Proof.Machine
end

