-- ==== Sys2Proof/Machine/DrawerOps.lean ====
section
/-! DEFINITION. Drawers: hints, holds, wake and park steps, rails that fall, faults (R182 to R198, R205), the
horizon of schedules (R200), and revocation (R369). -/

namespace Sys2Proof.Machine

open Sys2Proof

/-- One millisecond in ns. -/
def ms : Nat := 1000000

/-- Command codes of the drawer and grant commands that end later. -/
def codePark : Nat := 0x0301
def codeWake : Nat := 0x0302
def codeRevoke : Nat := 0x0406

/-- TAG of the command that made a request, the first of its commands; 0 for another cause (R687). -/
def State.tagOf (s : State) (ids : List Nat) : BitVec 16 :=
  match s.ctl.running.find? (fun r => ids.head? == some r.id) with
  | some r => r.tag
  | none => 0

/-- Commands of a latched request. -/
def Latch.cmds : Latch → List Nat
  | .none => []
  | .park ps => ps
  | .wake ws => ws

/-- R185: a second opposite request replaces the latched one; the commands of both wait for its outcome (log entry 22,
DESIGN CHOICE). -/
def latchWake (cmd : Option Nat) (l : Latch) : Latch := .wake (cmd.getD 0 :: l.cmds)

/-! Schedules (R200). -/

/-- Bytes of the current extent read contiguously from its start: the reader's position (log entry 19, DEDUCED). -/
def Sched.head (k : Sched) : Nat :=
  match k.extents[k.cursor]? with
  | some e => Nat.min (headFrom k.readRanges e.1) e.2
  | none => 0

/-- R200: bytes read over the last 100 ms, 0 in the first 100 ms. -/
def Sched.read100 (k : Sched) (now : Nat) : Nat :=
  if now < k.startAt + 100 * ms then 0
  else (k.recent.filter (fun e => decide (now < e.1 + 100 * ms))).foldl (fun n e => n + e.2) 0

/-- R200: max(LOOKAHEAD, R × LEAD_MS) in bytes. -/
def Sched.horizon (k : Sched) (now : Nat) : Nat := Nat.max (k.lookahead * 1048576) (k.read100 now * k.leadMs / 100)

/-- Unconsumed extents that start within the horizon from the cursor. -/
def Sched.inHorizon (k : Sched) (now : Nat) : List (Nat × Nat) :=
  let h := k.horizon now
  let walk := (k.extents.drop k.cursor).foldl (fun (acc : Nat × List (Nat × Nat)) e =>
    (acc.1 + e.2, if acc.1 ≤ h + k.head then acc.2 ++ [e] else acc.2)) (0, [])
  walk.2

/-- R190: a started schedule with an unconsumed extent in the drawer inside its horizon. -/
def State.schedHolds (s : State) (d : Nat) : Bool :=
  s.ctl.scheds.any (fun e => e.2.started && !e.2.done
    && (e.2.inHorizon s.now).any (fun x => (s.rangeDrawers e.2.nsid x.1 x.2).contains d))

/-! Holds and hints. -/

/-- Pinned-awake grants that touch the drawer (R190). -/
def State.pins (s : State) (d : Nat) : Nat :=
  (s.xport.grants.filter (fun e => (e.2.st == .live || e.2.st == .revoking) && (match e.2.params with
    | some p => p.pinned == 1 && (s.rangeDrawers p.nsid p.off p.len).contains d
    | none => false))).length

/-- A group of the drawer is REBUILDING (R137). -/
def State.rebuilds (s : State) (d : Nat) : Bool :=
  (s.grp (2 * d)).st == .rebuilding || (s.grp (2 * d + 1)).st == .rebuilding

/-- R190, R207: the reason code of a park's refusal. -/
def State.parkRefusal (s : State) (d : Nat) : Option Nat :=
  let k := s.drw d
  if k.st = .dfault then some 0x0305
  else if !k.parkable then some 0x0301
  else if s.pins d ≠ 0 then some 0x0302
  else if s.rebuilds d || s.schedHolds d then some 0x0303
  else none

/-- Bound of a drawer step, in ns (wake and park steps, R505). -/
def State.stepBound (s : State) (d : Nat) : DrawerStep → Nat
  | .none => 0
  | .w1 | .w2 | .w3 | .w4 => 20 * ms
  | .w5 => 115 * ms
  | .w6 => 25 * ms
  | .w7 => 30 * ms
  | .p1 => 20 * ms
  | .p2 => 2000 * ms
  | .p3 => 20 * ms
  | .p4 => ms
  | .d4 => ((s.rail (drawerRail d 3)).tOff + (s.rail (drawerRail d 3)).tDis) * ms
  | .d3 => ((s.rail (drawerRail d 2)).tOff + (s.rail (drawerRail d 2)).tDis) * ms
  | .d2 => ((s.rail (drawerRail d 1)).tOff + (s.rail (drawerRail d 1)).tDis) * ms
  | .d1 => ((s.rail (drawerRail d 0)).tOff + (s.rail (drawerRail d 0)).tDis) * ms

/-- Park steps from one on. -/
def parkFrom : DrawerStep → List DrawerStep
  | .p1 => [.p1, .p2, .p3, .p4, .d4, .d3, .d2, .d1]
  | .p2 => [.p2, .p3, .p4, .d4, .d3, .d2, .d1]
  | .p3 => [.p3, .p4, .d4, .d3, .d2, .d1]
  | .p4 => [.p4, .d4, .d3, .d2, .d1]
  | .d4 => [.d4, .d3, .d2, .d1]
  | .d3 => [.d3, .d2, .d1]
  | .d2 => [.d2, .d1]
  | .d1 => [.d1]
  | _ => []

/-- Hint of a refusal for a drawer, in µs (hint table under R195). -/
def State.drawerHint (s : State) (d : Nat) : Nat :=
  let k := s.drw d
  match k.st with
  | .awake => 0
  | .parked => 80000
  | .waking =>
    let t := (s.now - k.wakeAt) / 1000
    if t ≥ 80000 then 10000 else Nat.max 1000 (80000 - t)
  | .parking =>
    let all := (parkFrom k.step).foldl (fun n x => n + s.stepBound d x) 0
    (all - Nat.min (s.now - k.stepAt) (s.stepBound d k.step)) / 1000 + 130000
  | .dfault => 250000

/-! Drawer CONTROL entries (R687). -/

/-- R687: log a WAKE or PARK entry, with the check that is due 250 ms later. -/
def logDrawer (code d : Nat) (tag : BitVec 16) (s : State) : State × Lsn :=
  let (s, lsn) := logControl code tag 0 (if code = codeWake then .drawerWake d else .drawerPark d) s
  (if s.logging then s.modTwin (fun t => { t with checks := t.checks ++ [(d, s.now + 250 * ms)] }) else s, lsn)

/-! Rails that fall. -/

/-- Step in which rail k of a drawer falls. -/
def fallStep : Nat → DrawerStep
  | 3 => .d4 | 2 => .d3 | 1 => .d2 | _ => .d1

/-- The drawer's rails are down. -/
def fallDone (d : Nat) (s : State) : State :=
  let k := s.drw d
  let stuck := (List.range 4).any (fun i => (s.rail (drawerRail d i)).st == .failed)
  let s := s.modDrw d (fun k => { k with step := .none, fellAt := s.now, draining := false })
  match k.fall with
  | .park =>
    let s := s.modDrw d (fun k => { k with st := .parked, cmds := [], scrubWake := false })
    let s := raiseWith (832 + 4 * d + 1) d 0 s
    let s := if stuck then raiseWith (832 + 4 * d + 2) d 0 s else s
    finishAll k.cmds stOk [] s
  | .fault => s
  | .power => s.modDrw d (fun k => { k with st := .parked, scrubWake := false })

/-- R182: remove the rails of a drawer from D4 to D1, from the highest one up. -/
def fallFrom (d : Nat) : Nat → State → State
  | 0, s => fallDone d s
  | k + 1, s =>
    if (s.rail (drawerRail d k)).en then
      disableRail (drawerRail d k) (s.modDrw d (fun x => { x with step := fallStep k, stepAt := s.now }))
    else fallFrom d k s

/-- Links of a drawer go DOWN with its rails. The table of R175 gives a park QUIESCED to DOWN alone: a link that is FAILED,
RETRAIN or in training becomes DOWN as well (log entry 119, DESIGN CHOICE). -/
def linksDown (d : Nat) (event : Bool) (s : State) : State :=
  forEach (List.range 18) (fun i s =>
    let c := 18 * d + i
    let was := (s.chan c).link
    let s := s.modChan c (fun k => { k.clearLink with link := .down, sbPres := false, tempValid := false })
    if event ∧ was ≠ .down then raiseWith (4 * c) c 0 s else s) s

/-- Start the removal of a drawer's rails. -/
def startFall (d : Nat) (f : Fall) (s : State) : State :=
  fallFrom d 4 (linksDown d false (s.modDrw d (fun k => { k with fall := f })))

/-! Park. -/

/-- Group of a line. -/
def State.lineGroup (s : State) (ns line : Nat) : Option Nat := (s.decodeOff ns (64 * line)).map (·.g)

/-- Dirty data or work of a group in the sump, the overflow or the engines (R190 P2). -/
def State.groupDirty (s : State) (g : Nat) : Bool :=
  s.sump.lines.any (fun l => (l.st == .dirty || l.st == .intent) && s.lineGroup l.ns l.line == some g)
    || s.sump.overflow.any (fun e => s.lineGroup e.ns (4 * e.cw) == some g)
    || s.ops.any (fun o => o.grp == g)

/-- A gap or spare move runs in a group (R190 P1). -/
def State.groupMoving (s : State) (g : Nat) : Bool :=
  s.easels.any (fun e => e.1 / 4096 == g && e.2.moving)

/-- Formatted groups of a drawer. -/
def State.drawerGroups (s : State) (d : Nat) : List Nat :=
  [2 * d, 2 * d + 1].filter (fun g => (s.grp g).st != .unformatted)

/-- P4: every ACTIVE link of the drawer is asked to quiesce; with none, its rails fall. -/
def startP4 (d : Nat) (s : State) : State :=
  let act := ((List.range 18).map (fun i => 18 * d + i)).filter (fun c => (s.chan c).link == .active)
  let s := s.modDrw d (fun k => { k with step := .p4, stepAt := s.now, recParked := true })
  if act.isEmpty then startFall d .park s
  else forEach act (fun c s => (sendLctl c none none false true s).send (.idleOs c)) s

/-- P4 ends when no link of the drawer is ACTIVE. -/
def checkP4 (d : Nat) (s : State) : State :=
  if (s.drw d).step = .p4 ∧ ((List.range 18).all (fun i => (s.chan (18 * d + i)).link != .active)) then startFall d .park s
  else s

/-- P3: clean-park markers and the park record; the commands are past their point of no return (R206). -/
def startP3 (d : Nat) (s : State) : State :=
  let s := forEach (s.drw d).cmds setPast s
  let gs := s.drawerGroups d
  let s := forEach gs (fun g s =>
    let head := (s.nv g).jseq - 1
    let s := journal g (.drainEnd true 0) s
    let fin := (s.nv g).jseq - 1
    headerRow g .header ((s.modNv g (fun n => { n with
      stop := some (.cleanPark, s.twin.epoch, s.prime.bootcnt.toNat, head, fin) })).modGrp g (fun k => { k with awakeRec := false }))) s
  let heads := gs.filterMap (fun g => (s.nv g).stop.map (fun x => (g, x.2.2.2.1)))
  let s := s.modDrw d (fun k => { k with
    step := .p3, stepAt := s.now, parkRec := some (s.twin.epoch, s.prime.bootcnt.toNat, heads) })
  flashQueue 0 { erase := false, sector := 128, left := 1, purpose := .park d } s

/-- R190, R191: P1 and P2 end when nothing of the drawer is left to wait for. -/
def parkAdvance (d : Nat) (s : State) : State :=
  let k := s.drw d
  let s :=
    if k.st = .parking ∧ k.step = .p1 ∧ k.refs = 0 ∧ !s.groupMoving (2 * d) ∧ !s.groupMoving (2 * d + 1) then
      forEach (s.drawerGroups d) (fun g s => journal g (.drainStart 0 2) s)
        (s.modDrw d (fun k => { k with step := .p2, stepAt := s.now }))
    else s
  let k := s.drw d
  if k.st = .parking ∧ k.step = .p2 ∧ !s.groupDirty (2 * d) ∧ !s.groupDirty (2 * d + 1) then startP3 d s else s

/-- The park of every drawer goes on as far as it can. -/
def parkAdvanceAll (s : State) : State := forEach (List.range 8) parkAdvance s

/-- R184: AWAKE to PARKING. -/
def beginPark (d : Nat) (cmds : List Nat) (s : State) : State :=
  let (s, _) := logDrawer codePark d (s.tagOf cmds) s
  parkAdvance d (s.modDrw d (fun k => { k with
    st := .parking, step := .p1, stepAt := s.now, draining := true, cmds, latch := .none, used := false, scrubLeft := [] }))

/-- R184: a park during a wake removes the rails from the highest step reached (log entry 15, DEDUCED). The manual names no
status for the WAKE_DRAWER that it overtakes: it ends REFUSED 0x0309 (log entry 121, DESIGN CHOICE). -/
def parkLite (d : Nat) (cmds : List Nat) (s : State) : State :=
  let (s, _) := logDrawer codePark d (s.tagOf cmds) s
  let s := finishAll (s.drw d).cmds stRefused (blkRefused 0x0309 d) s
  startFall d .park (s.modDrw d (fun k => { k with st := .parking, cmds, latch := .none, used := false, scrubLeft := [] }))

/-- R191: P1 or P2 passes its bound, or an abort takes it back: the drawer is AWAKE again. -/
def parkBack (d : Nat) (s : State) : State :=
  let l := (s.drw d).latch
  let s := s.modDrw d (fun k => { k with st := .awake, step := .none, draining := false, cmds := [], latch := .none })
  match l with
  | .wake ws => finishAll ws stOk [] s
  | _ => s

/-! Wake. -/

/-- R183, R184: WAKING begins: the WAKE entry is logged and rail D1 raised. -/
def beginWake (d : Nat) (cmds : List Nat) (s : State) : State :=
  let active := s.twin.role == .active
  let (s, lsn) := logDrawer codeWake d (s.tagOf cmds) s
  let s := s.modDrw d (fun k => { k with
    st := .waking, step := .w1, wakeAt := s.now, stepAt := s.now, wakeDone := false, loaded := false, latch := .none
    wakeLsn := if active then some lsn else none, cmds, wakes := sat16 k.wakes, recovering := [], markerFail := []
    scrubWake := !k.scrubLeft.isEmpty || (s.drawerGroups d).any (fun g => (s.grp g).scrubNow.isSome) })
  if s.power.wl = 12 ∨ s.power.wl = 13 then enableRail (drawerRail d 0) s else s

/-- R184, R185, R189: a wake request, of a WAKE_DRAWER command or of another cause. -/
def requestWake (d : Nat) (cmd : Option Nat) (s : State) : State :=
  let s := if cmd.isSome then s.modDrw d (fun k => { k with used := true }) else s
  let k := s.drw d
  match k.st with
  | .awake => finishAll cmd.toList stOk [] s
  | .waking =>
    match cmd, k.latch with
    | some id, .park ps =>
      finishAll ps stRefused (blkRefused 0x0309 d) (s.modDrw d (fun k => { k with latch := .none, cmds := k.cmds ++ [id] }))
    | some id, _ => s.modDrw d (fun k => { k with cmds := k.cmds ++ [id] })
    | none, _ => s
  | .parking => s.modDrw d (fun k => { k with latch := latchWake cmd k.latch })
  | .parked =>
    if k.step = .none ∧ (s.now ≥ k.fellAt + 50 * ms ∨ k.fellAt = 0) then beginWake d cmd.toList s
    else s.modDrw d (fun k => { k with latch := latchWake cmd k.latch })
  | .dfault =>
    match cmd with
    | none => s
    | some id =>
      if k.step = .none then beginWake d [id] s
      else s.modDrw d (fun k => { k with latch := latchWake (some id) k.latch })

/-- A refused access wakes each drawer of its span that is not AWAKE (R193). -/
def wakeSpan (ds : List Nat) (s : State) : State :=
  forEach (ds.filter (fun d => (s.drw d).st != .awake)) (fun d s =>
    requestWake d none (s.modDrw d (fun k => { k with used := true }))) s

/-- R184, R205: the drawer becomes AWAKE; a latched park is then acted on. -/
def becomeAwake (d : Nat) (s : State) : State :=
  let k := s.drw d
  let s := s.modDrw d (fun k => { k with
    st := .awake, step := .none, lastMs := Nat.min 65535 ((s.now - k.wakeAt) / ms), cmds := [], latch := .none
    lastUse := s.now, recParked := false, parkRec := none, wakeLsn := none, recovering := [], markerFail := [] })
  let s := forEach (s.drawerGroups d) (fun g s => s.modGrp g (fun k => { k with awakeRec := false })) s
  let s := if k.recParked then flashQueue 0 { erase := false, sector := 128, left := 1, purpose := .config 1 } s else s
  let s := finishAll k.cmds stOk [] (raiseWith (832 + 4 * d) d 0 s)
  match k.latch with
  | .park ps =>
    match s.parkRefusal d with
    | some r => finishAll ps stRefused (blkRefused r d) s
    | none => beginPark d ps s
  | _ => s

/-- R205: AWAKE once the drawer's own wake is complete and the peer has acknowledged the WAKE entry. -/
def wakeFinish (d : Nat) (s : State) : State :=
  let k := s.drw d
  let acked : Bool := match k.wakeLsn with | some l => s.twin.role != .active || s.ackedTo l | none => true
  if k.st = .waking ∧ k.wakeDone ∧ acked then becomeAwake d s else s

/-- R538: W7 is complete once the intents of its groups have been written again. -/
def wakeReplayed (d : Nat) (s : State) : State :=
  let k := s.drw d
  if k.st = .waking ∧ k.step = .w7 ∧ k.loaded
      ∧ !s.ops.any (fun o => o.purpose == .replay && grpDrawer o.grp == d) then
    wakeFinish d (s.modDrw d (fun k => { k with wakeDone := true, recovering := [] }))
  else s

/-- R183: a wake goes to its next step, whose rail is raised in windlass states 12 and 13 alone. -/
def wakeRail (d : Nat) (n : DrawerStep) (k : Nat) (s : State) : State :=
  let s := s.modDrw d (fun x => { x with step := n, stepAt := s.now })
  if s.power.wl = 12 ∨ s.power.wl = 13 then enableRail (drawerRail d k) s else s

/-- The step of a wake that follows (W1 to W7). -/
def wakeStep (d : Nat) (s : State) : State :=
  match (s.drw d).step with
  | .w1 => wakeRail d .w2 1 s
  | .w2 => wakeRail d .w3 2 s
  | .w3 => wakeRail d .w4 3 s
  | .w4 => s.modDrw d (fun x => { x with step := .w5, stepAt := s.now })
  | .w5 => s.modDrw d (fun x => { x with step := .w6, stepAt := s.now })
  | .w6 => s.modDrw d (fun x => { x with step := .w7, stepAt := s.now })
  | _ => s

/-- R184, R185: the present wake step is done: a latched park is acted on if R190 accepts it, else the next step
begins. -/
def wakeNext (d : Nat) (s : State) : State :=
  match (s.drw d).latch with
  | .park ps =>
    match s.parkRefusal d with
    | some r => wakeStep d (finishAll ps stRefused (blkRefused r d) (s.modDrw d (fun k => { k with latch := .none })))
    | none => parkLite d ps s
  | _ => wakeStep d s

/-! Faults. -/

/-- Commands outstanding on a drawer's channels wait for its next wake; descriptors are read afresh in it (log entry 68, DEDUCED). -/
def requeueCommands (d : Nat) (s : State) : State :=
  forEach (List.range 18) (fun i s => s.modChan (18 * d + i) (fun k => { k with
    tags := []
    waiting := (k.tags.map (·.cmd) ++ k.waiting).filter (fun m => m.op == .readCw || m.op == .writeCw) })) s

/-- R175, R184, R491: a drawer goes to DFAULT: its rails fall, its commands end. Its modules fail when a drawer rail fails; when
both groups fail their marker check they do not (R176, R184). -/
def drawerFault (d : Nat) (modules : Bool) (s : State) : State :=
  let k := s.drw d
  let s := s.modDrw d (fun x => { x with st := .dfault, cmds := [], latch := .none, draining := false, scrubWake := false })
  let s := if modules then
      forEach (List.range 18) (fun i s =>
        let c := 18 * d + i
        if (s.chan c).health = .inService ∨ (s.chan c).health = .rebuildTarget then moduleFailed c s
        else if (s.chan c).link = .down then s
        else raiseWith (4 * c + 3) c 0 s) s |> linksDown d true
    else requeueCommands d s
  let s := raiseWith (832 + 4 * d + 2) d 0 s
  let ends := fun (ids : List Nat) (s : State) => forEach ids (fun id s =>
    if s.ctl.running.any (fun r => r.id == id && r.code == codePark) then finish id stRefused (blkRefused 0x0305 d) s
    else finish id stOk (leBytes 1 DrawerState.dfault.code) s) s
  let s := ends k.cmds s
  let s := match k.latch with | .park ps => ends ps s | .wake ws => ends ws s | .none => s
  startFall d .fault s

/-- R187, R537: stop class of a group: true for a group recovered as after an unclean stop, and whether intents
are replayed. -/
def State.stopClass (s : State) (g : Nat) : Bool × Bool :=
  let n := s.nv g
  let intents := fun (head : Nat) => n.journal.any (fun e => decide (e.1 > head) && (match e.2 with | .intent .. => true | _ => false))
  match n.stop with
  | some (.awake, _) => (true, true)
  | some (_, _, _, head, fin) =>
    if n.journal.any (fun e => e.1 == fin && (match e.2 with | .drainEnd c _ => c | _ => false)) then (false, intents head)
    else (true, true)
  | none => (true, true)

/-- R187: a group's clean-park marker matches the drawer's park record. -/
def State.markerOk (s : State) (d g : Nat) : Bool :=
  match (s.nv g).stop, (s.drw d).parkRec with
  | some (.cleanPark, e, b, h, _), some (e', b', hs) => e == e' && b == b' && lookupNat g hs == some h
  | _, _ => false

/-- R187, R537: W6 checks the markers of the drawer's groups. -/
def markerCheck (d : Nat) (s : State) : State :=
  let k := s.drw d
  let gs := s.drawerGroups d
  let bad := if k.recParked then gs.filter (fun g => !s.markerOk d g) else []
  if gs.length = 2 ∧ bad.length = 2 then drawerFault d false s
  else
    let s := if bad.isEmpty then s else raiseWith (832 + 4 * d + 2) d 0 s
    let cls := fun g => if k.recParked then (bad.contains g, bad.contains g) else s.stopClass g
    let unclean := gs.filter (fun g => (cls g).1)
    let replay := gs.filter (fun g => !(cls g).1 && (cls g).2)
    let clr := maskOf 16 [2 * d, 2 * d + 1]
    let s := s.modPrime (fun p => { p with
      unclean := (p.unclean &&& ~~~clr) ||| maskOf 16 unclean
      replay := (p.replay &&& ~~~clr) ||| maskOf 16 replay })
    wakeNext d (s.modDrw d (fun x => { x with recovering := unclean ++ replay, markerFail := bad }))

/-- A channel's part of W5 is over. -/
def linkSettled (k : Chan) : Bool := k.link == .active || k.link == .failed || k.health == .failed

/-- A channel's part of W6 is over: no descriptor read is outstanding. -/
def descSettled (k : Chan) : Bool :=
  !(k.tags.any (fun t => t.cmd.op == .descriptor) || k.waiting.any (fun c => c.op == .descriptor))

/-- W5 and W6 end when every channel of the drawer is done with them. -/
def wakeCheck (d : Nat) (s : State) : State :=
  let all := fun (p : Chan → Bool) (s : State) => (List.range 18).all (fun i => p (s.chan (18 * d + i)))
  let s := if (s.drw d).st = .waking ∧ (s.drw d).step = .w5 ∧ all linkSettled s then wakeNext d s else s
  if (s.drw d).st = .waking ∧ (s.drw d).step = .w6 ∧ all descSettled s then markerCheck d s else s

/-! Revocation and pinned registrations (R198, R369). -/

/-- R369: a grant goes to REVOKING, or to DEAD without references. -/
def revoke (g : Nat) (s : State) : State :=
  if (s.grant g).st ≠ .live then s
  else
    let s := s.modGrant g (fun k => { k with st := .revoking, revokedAt := s.now })
    if (s.grant g).refs = 0 then grantDead g s else s

/-- AKEY of a grant slot (R360). -/
def State.akey (s : State) (g : Nat) : Nat := (s.grant g).gen * 131072 + g

/-- R198: a registration that waits for its drawers completes when they are AWAKE, and is revoked when one has
gone to DFAULT. -/
def pinCheck (g : Nat) (s : State) : State :=
  let k := s.grant g
  match k.params, k.pinWait with
  | some p, true =>
    let ds := s.rangeDrawers p.nsid p.off p.len
    if ds.any (fun d => (s.drw d).st == .dfault) then
      let (s, _) := logControl codeRevoke 0 0 (.revokeGrant g) s
      let s := s.modGrant g (fun k => { k with
        pinWait := false, pinCmd := none, waiters := k.waiters ++ k.pinCmd.toList.map (fun c => (c, true)) })
      revoke g s
    else if ds.all (fun d => (s.drw d).st == .awake) then
      let s := s.modGrant g (fun k => { k with pinWait := false, pinCmd := none })
      finishAll k.pinCmd.toList stOk (leBytes 4 (s.akey g)) s
    else s
  | _, _ => s

/-- Every registration that waits for its drawers. -/
def pinCheckAll (s : State) : State :=
  forEach ((s.xport.grants.filter (fun e => e.2.pinWait)).map (·.1)) pinCheck s

end Sys2Proof.Machine
end

