-- ==== Sys2Proof/Machine/SchedOps.lean ====
section
/-! DEFINITION. Prefetch schedules at work: admission of their readers, slips, consumption, wakes and staging
(R200 to R203, R365). -/

namespace Sys2Proof.Machine

open Sys2Proof

/-- Started schedules not yet complete of which a connection is the reader, in a namespace. -/
def State.schedsOf (s : State) (c ns : Nat) : List Nat :=
  (s.ctl.scheds.filter (fun e => e.2.started && !e.2.done && e.2.nsid == ns
    && (match e.2.conn with | none => true | some x => x == c))).map (·.1)

/-- R365 sched_read: every byte of the read lies within the extents of a started schedule of the reader. -/
def State.schedRead (s : State) (c ns off len : Nat) : Bool :=
  (s.schedsOf c ns).any (fun h => match s.sched h with
    | some k => covers (k.extents.foldl (fun l e => addRange l e.1 e.2) []) off len
    | none => false)

/-- A codeword is staged for a schedule (R201). -/
def State.staged (s : State) (h ns cw : Nat) : Bool :=
  s.sump.pages.any (fun p => p.client == 2 && p.sched == h && p.ns == ns && p.blk == cw / 16
    && p.cws.any (fun c => c.1 == cw))

/-- R202: the read reaches an extent line that is not staged: one slip for the read, at its first such line. -/
def schedSlip (h ns off len : Nat) (s : State) : State :=
  match s.sched h with
  | none => s
  | some k =>
    match (touched off len).find? (fun l => meets k.extents (64 * l) 64 && !s.staged h ns (l / 4)) with
    | none => s
    | some l =>
      let s := s.modSched h (fun k => { k with slips := sat16 k.slips })
      match (s.rangeDrawers ns (64 * l) 64).head? with
      | none => s
      | some d =>
        let s := s.modDrw d (fun x => { x with slips := sat32 x.slips })
        let quiet := match lookupNat d k.slipAt with | some t => decide (s.now < t + 100 * ms) | none => false
        if quiet then s
        else raiseWith (832 + 4 * d + 3) d h (s.modSched h (fun k => { k with slipAt := tabPut k.slipAt d s.now }))

/-- R200: what a read of `len` bytes at `off` does to the cursor. -/
def Sched.consume (k : Sched) (off len now : Nat) : Sched :=
  let hits := (List.range k.extents.length).filter (fun i => decide (i ≥ k.cursor) && meets ((k.extents[i]?).toList) off len)
  match hits.getLast? with
  | none => k
  | some j =>
    let e := k.extents.getD j (0, 0)
    let gone := ((k.extents.drop k.cursor).take (j - k.cursor)).foldl (fun n x => n + x.2) 0
    let lo := Nat.max off e.1
    let hi := Nat.min (off + len) (e.1 + e.2)
    let rs := addRange (if j = k.cursor then k.readRanges else []) lo (hi - lo)
    let k := { k with
      recent := k.recent.filter (fun r => decide (now < r.1 + 100 * ms)) ++ [(now, len)]
      cursor := j, readRanges := rs, stagedTo := k.stagedTo - gone }
    if covers rs e.1 e.2 then { k with cursor := j + 1, readRanges := [], stagedTo := k.stagedTo - e.2 } else k

/-- R201, R203: staged copies outside the unconsumed extents are released. -/
def schedRelease (h : Nat) (s : State) : State :=
  match s.sched h with
  | none => s
  | some k =>
    let left := k.extents.drop k.cursor
    s.modSump (fun u => { u with
      pages := (u.pages.map (fun p =>
        if p.client = 2 ∧ p.sched = h then { p with cws := p.cws.filter (fun c => meets left (256 * c.1) 256) } else p)).filter
          (fun p => !p.cws.isEmpty) })

/-- R189, R200: wake the drawer of every extent within the horizon. -/
def schedWake (h : Nat) (s : State) : State :=
  match s.sched h with
  | some k =>
    if k.started && !k.done then
      wakeSpan ((k.inHorizon s.now).foldl (fun l e => (s.rangeDrawers k.nsid e.1 e.2).foldl insNat l) []) s
    else s
  | none => s

/-- Namespace offset of the byte at a position along extents. -/
def extentOff : List (Nat × Nat) → Nat → Option Nat
  | [], _ => none
  | e :: t, p => if p < e.2 then some (e.1 + p) else extentOff t (p - e.2)

/-- Staging reads of a schedule outstanding. -/
def State.staging (s : State) (h : Nat) : Nat := (s.misses.filter (fun m => m.waiters.contains (.stage h))).length

/-- R201: stage the next codewords, from the layers above media where they hold every line, at most 64 reads outstanding (log entry 26, DESIGN CHOICE). -/
def schedStageAux : Nat → Nat → State → State
  | 0, _, s => s
  | n + 1, h, s =>
    match s.sched h with
    | none => s
    | some k =>
      let pos := Nat.max k.stagedTo (k.head / 256 * 256)
      if !k.started || k.done || decide (pos ≥ k.head + k.lookahead * 1048576) || decide (s.staging h ≥ 64) then s
      else match extentOff (k.extents.drop k.cursor) pos with
        | none => s
        | some off =>
          if (s.rangeDrawers k.nsid off 256).any (fun d => (s.drw d).st != .awake) then s
          else
            let cw := off / 256
            let s := s.modSched h (fun k => { k with stagedTo := pos + 256 })
            schedStageAux n h (
              if s.staged h k.nsid cw then s
              else if (s.mediaNeeds k.nsid (256 * cw) 256).isEmpty then
                let (d, m) := s.cwView none k.nsid cw
                cacheCw 2 h k.nsid cw d m s
              else readCodeword k.nsid cw (.stage h) false false s)

/-- R201. -/
def schedStage (h : Nat) (s : State) : State := schedStageAux 64 h s

/-- Every schedule stages what it can. -/
def schedStageAll (s : State) : State := forEach (s.ctl.scheds.map (·.1)) schedStage s

/-- R200 to R203: a reader has been served. -/
def schedServed (c ns off len : Nat) (s : State) : State :=
  forEach (s.schedsOf c ns) (fun h s =>
    schedStage h (schedWake h (schedRelease h (s.modSched h (fun k => k.consume off len s.now))))) s

end Sys2Proof.Machine
end

