-- ==== Sys2Proof/Machine/Steps.lean ====
section
/-! DEFINITION. Visibility steps and their anchors (R30 to R33, R46 to R49, R256, R257), reads and their gathers
(R38, R371 to R373), the varnish point and its answers (R40 to R43, R309, R322, R333, R377). -/

namespace Sys2Proof.Machine

open Sys2Proof

/-! Gathers (R371). -/

/-- Start, or start again, the gather of a read. -/
def gatherRun (g : Gather) (s : State) : State :=
  let needs := s.mediaNeeds g.ns g.off g.len
  let g := { g with got := [], needs, stale := false }
  let s := s.modXport (fun x => { x with gathers := x.gathers.filter (fun q => q.id != g.id) ++ [g] })
  forEach needs (fun cw s => readCodeword g.ns cw (.gather g.id) true false s)
    (forEach (touched g.off g.len) (fun l s => touchPage g.ns (l / 4) s) s)

/-- Gather again; the fourth and later gathers hold visibility steps back. -/
def regather (g : Gather) (s : State) : State :=
  gatherRun { g with runs := g.runs + 1, holding := decide (g.runs + 1 ≥ 4) } s

/-- Remove a gather. -/
def endGather (id : Nat) (s : State) : State :=
  s.modXport (fun x => { x with gathers := x.gathers.filter (fun q => q.id != id) })

/-- Value of a line as a gather that has its codewords reads it. -/
def State.gatherLine (s : State) (g : Gather) (line : Nat) : View :=
  s.viewOver (lookupNat (line / 4) g.got) g.ns line

/-- R37, R371: a codeword that the layers above media decided when the gather began, and no longer do: it is read now. -/
def State.gatherLate (s : State) (g : Gather) : Bool :=
  (s.mediaNeeds g.ns g.off g.len).any (fun cw => (lookupNat cw g.got).isNone)

/-- The bytes of a gather, and its lines that are poisoned. A poisoned line reads zero. -/
def State.gatherData (s : State) (g : Gather) : Bytes × List Nat :=
  let ls := touched g.off g.len
  let bytes := ls.flatMap (fun l =>
    let v := s.gatherLine g l
    if v.poison then List.replicate 64 0 else imgBytes v.img)
  (slice bytes (g.off % 64) g.len, ls.filter (fun l => (s.gatherLine g l).poison))

/-- R371: a gather in its fourth run or later holds back every step that would write a line of it. -/
def State.heldBack (s : State) (ns off len : Nat) : Bool :=
  s.xport.gathers.any (fun g => g.holding && g.ns == ns && decide (off / 64 * 64 < g.off + g.len)
    && decide (g.off / 64 * 64 < off + len))

/-! When a step can run. -/

/-- The namespace has VIS_AT_VARNISH (R46). -/
def State.visVarnish (s : State) (ns : Nat) : Bool := match s.ns ns with | some n => n.visVarnish | none => false

/-- The message writes memory at its step. -/
def isStep : NetOp → Bool
  | .write | .writeDurable | .cas | .fadd => true
  | _ => false

/-- The message is an atomic. -/
def isAtomic : NetOp → Bool
  | .cas | .fadd => true
  | _ => false

/-- Bytes that a message writes or reads. -/
def Msg.len (m : Msg) : Nat :=
  match m.op with
  | .cas | .fadd => 8
  | .readReq => m.rlen
  | _ => m.mlen.getD 0

/-- R47: the visible value of an atomic's line, where the layers above media or a read of it decide the line. -/
def State.atomicLine (s : State) (m : Msg) : Option (Bytes × Bool) :=
  let v := s.view m.ns (m.raddr / 64)
  if v.known then some (imgBytes v.img, v.poison)
  else match m.line with
    | some (d, p) => some (imgBytes (imgOver v.img (imgOf d)), p && !imgFull v.img)
    | none => none

/-- R46: the entries of a VIS_AT_VARNISH message are applied on the peer, or the controller runs SOLO. -/
def State.varnishOk (s : State) (m : Msg) : Bool := !s.visVarnish m.ns || m.lsns.all s.ackedTo

/-- R58, R62: whether the dirty total stays at or below D_max once the lines of a range are written. A line whose visible
version is dirty already takes the write in its place, so the total does not grow. -/
def State.budgetFor (s : State) (ns off len : Nat) : Bool :=
  let grown := (touched off len).filter (fun l => match s.sumpLine ns l with
    | some p => p.st != .dirty
    | none => true)
  decide (s.dirtyTotal + 64 * grown.length ≤ s.dura.dmax)

/-- R32, R46, R58, R371: the step of the message after the watermark can run, its line apart. -/
def State.due (s : State) (k : Conn) (m : Msg) : Bool :=
  m.st == .complete && isStep m.op && m.id == k.wmark + 1 && !s.heldBack m.ns m.raddr m.len && s.varnishOk m
    && !s.prime.noAdmit && (!isAtomic m.op || s.lineRoom false 1) && s.budgetFor m.ns m.raddr m.len

/-- R32: the message whose step can run now. -/
def State.nextStep (s : State) (c : Nat) : Option Msg :=
  let k := s.conn c
  match k.msg (k.wmark + 1) with
  | some m => if s.due k m && (!isAtomic m.op || (s.atomicLine m).isSome) then some m else none
  | none => none

/-- R256, R263: the step of a message may share the anchor of an earlier one, or its own placement's. -/
def State.sharesAnchor (s : State) (m : Msg) : Bool := !(s.logging && s.visVarnish m.ns)

/-! Steps. -/

/-- R30, R331: the watermark moves. -/
def Conn.setWmark (k : Conn) (id : MsgId) : Conn :=
  Conn.trimDropped { k with wmark := id, arrived := k.arrived.filter (fun e => later e.1 id) }

/-- R36: the watermark passes dropped messages. -/
def passDroppedAux : Nat → Conn → Conn
  | 0, k => k
  | n + 1, k => if k.dropped.contains (k.wmark + 1) then passDroppedAux n (k.setWmark (k.wmark + 1)) else k

/-- R36. -/
def Conn.passDropped (k : Conn) : Conn := passDroppedAux k.dropped.length k

/-- R266: the digest folds the lines of a step where entries are logged or applied. -/
def foldStep (l : List (Nat × Nat)) (s : State) : State :=
  if s.logging || s.twin.role == .standby then foldLines l s else s

/-- R31: a message has had its step, anchored at an entry. -/
def stepped (c : Nat) (m : Msg) (lsn : Lsn) (f : Msg → Msg) (s : State) : State :=
  let s := releaseRefs m s
  s.modConn c (fun k => (k.modMsg m.id (fun x => { f x with
    st := .visible, lsns := if x.lsns.contains lsn then x.lsns else x.lsns ++ [lsn], span := [], grant := none })).setWmark m.id)

/-- R374: the value that an atomic writes, and whether it writes one (R375). -/
def atomicResult (op : NetOp) (operand old : Bytes) : Bytes × Bool :=
  match op with
  | .cas => if slice operand 0 8 = old then (slice operand 8 8, true) else (old, false)
  | _ => (leBytes 8 (leVal old + leVal (slice operand 0 8)), true)

/-- Write the 8 bytes of an atomic to its line; answers the line written. -/
def atomicWrite (c : Nat) (m : Msg) (new : Bytes) (lsn : Lsn) (s : State) : State × List (Nat × Nat) :=
  let line := m.raddr / 64
  let s := nextStamp s
  ((showLine none m.ns line (lineImg m.raddr new line) false lsn [(c, m.id)] s).getD s, [(m.ns, line)])

/-- R331: keep an atomic's outcome among the 16 latest. -/
def Conn.keepAtomic (k : Conn) (o : AtomicOut) : Conn :=
  { k with atomics := (o :: k.atomics.filter (fun a => a.msg != o.msg)).take 16 }

/-- One step of a message (R31, R47, R374 to R376); answers the ATOMIC_RESULT entries that it brings about. -/
def runStep (c : Nat) (m : Msg) (lsn : Lsn) (s : State) : State × List LogEntry :=
  if isAtomic m.op then
    let (line, poison) := (s.atomicLine m).getD (List.replicate 64 0, true)
    let old := if poison then List.replicate 8 0 else slice line (m.raddr % 64) 8
    let (new, writes) := if poison then (old, false) else atomicResult m.op m.operand old
    let (s, ls) := if writes then atomicWrite c m new lsn s else (s, [])
    let s := stepped c m lsn (fun x => { x with old, poison, line := none }) (foldStep ls s)
    (s.modConn c (fun k => k.keepAtomic { msg := m.id, old, poison }),
      [{ anchor := false, durable := false, conn := c, msg := m.id, nsid := m.ns, body := .atomicResult m.raddr old new poison }])
  else
    let (s, ls) := showMessage (c, m.id) lsn s
    (stepped c m lsn id (foldStep ls s), [])

/-- R256: the steps of one anchor, in message order. `first` admits a message that needs an anchor of its own. -/
def chainAux : Nat → Nat → Bool → Lsn → State → State × List LogEntry
  | 0, _, _, _, s => (s, [])
  | n + 1, c, first, lsn, s =>
    let s := s.modConn c Conn.passDropped
    match s.nextStep c with
    | none => (s, [])
    | some m =>
      if first || s.sharesAnchor m then
        let (s, r) := runStep c m lsn s
        let (s, rs) := chainAux n c false lsn s
        (s, r ++ rs)
      else (s, [])

/-- R257: log the ATOMIC_RESULT entries of an anchor's steps; each then carries its message (R259). -/
def logResults (c : Nat) : List LogEntry → State → State
  | [], s => s
  | e :: t, s =>
    let (s, lsn) := logEntry e s
    logResults c t (s.modConn c (fun k => k.modMsg e.msg (fun m => { m with lsns := m.lsns ++ [lsn] })))

/-- R256, R257: run the steps anchored at an entry just logged. -/
def chain (c : Nat) (first : Bool) (lsn : Lsn) (s : State) : State :=
  let (s, rs) := chainAux ((s.conn c).msgs.length + 1) c first lsn s
  logResults c rs s

/-- R256: a step due with no new entry is anchored to a RELEASE entry logged now. -/
def releaseStep (c : Nat) (m : Msg) (s : State) : State :=
  let (s, lsn) := logEntry { anchor := true, durable := false, conn := c, msg := m.id, nsid := m.ns, body := .release } s
  chain c true lsn s

/-- R47: ask for the line of an atomic whose step is due but for it. -/
def askLine (c : Nat) (m : Msg) (s : State) : State :=
  if s.misses.any (fun x => x.waiters.contains (.atomic c m.id)) then s
  else readCodeword m.ns (m.raddr / 256) (.atomic c m.id) true false s

/-- R38, R371: a READ_REQ is released and starts its gather. -/
def releaseRead (c : Nat) (m : Msg) (s : State) : State :=
  let (id, s) := s.fresh
  let s := s.modConn c (fun k => (k.modMsg m.id (fun x => { x with st := .visible, released := true, gather := id })).setWmark m.id)
  let s := forEach (s.schedsOf c m.ns) (fun h s => schedSlip h m.ns m.raddr m.rlen s) s
  gatherRun { id, net := some (c, m.id), ns := m.ns, off := m.raddr, len := m.rlen } s

/-- What a connection's next message does; none while it waits. -/
def connTick (c : Nat) (s : State) : Option State :=
  let s := s.modConn c Conn.passDropped
  let k := s.conn c
  match k.msg (k.wmark + 1) with
  | none => none
  | some m =>
    if m.st ≠ .complete ∨ s.prime.noAdmit then none
    else match m.op with
      | .readReq => some (releaseRead c m s)
      | .flush => some (s.modConn c (fun k => (k.modMsg m.id (fun x => { x with st := .visible })).setWmark m.id))
      | .witness => none
      | _ => match s.nextStep c with
        | some m => some (releaseStep c m s)
        | none => none

/-- R256: steps, releases and passes that have become due on a connection. -/
def advanceAux : Nat → Nat → State → State
  | 0, _, s => s
  | n + 1, c, s =>
    match connTick c s with
    | some t => advanceAux n c t
    | none => s.modConn c Conn.passDropped

/-- Every step that has become due on a connection; an atomic that lacks its line asks for it. -/
def advanceConn (c : Nat) (s : State) : State :=
  if !s.serving then s
  else
    let s := advanceAux ((s.conn c).msgs.length + 1) c s
    let k := s.conn c
    match k.msg (k.wmark + 1) with
    | some m => if isAtomic m.op && s.due k m then askLine c m s else s
    | none => s

/-- Connections that hold messages. -/
def State.busyConns (s : State) : List Nat := (s.xport.conns.filter (fun e => !e.2.msgs.isEmpty)).map (·.1)

/-- Every connection goes on as far as it can. -/
def advanceAll (s : State) : State := forEach s.busyConns advanceConn s

/-- R36, R256: a drop of the message after the watermark releases what waited behind it. -/
def dropAndRelease (c : Nat) (drop : State → State × Lsn) (s : State) : State :=
  let (s, lsn) := drop s
  advanceConn c (chain c false lsn s)

/-! Varnish (R40 to R45, R309). -/

/-- R40, R259: the message has reached its varnish point. The RELEASE entry of a VIS_AT_VARNISH message is its anchor, so that
it must be acknowledged too, although the text after R46 and R67 says that the answer is not delayed (log entry 128, DEDUCED). -/
def State.varnished (s : State) (m : Msg) : Bool := m.st == .visible && isStep m.op && m.lsns.all s.ackedTo

/-- R59, R60, R281: no durable acknowledgement leaves now. -/
def State.durableHeld (s : State) : Bool := s.dura.clow || s.dura.overBud || s.twin.askSolo

/-- R333: which n of DROPS are set for a FLUSH. -/
def Conn.dropsOf (k : Conn) (id : MsgId) : List Nat := (List.range 1024).filter (fun n => k.dropped.contains (id - 1024 + BitVec.ofNat 32 n))

/-- R42, R333: FLUSH_RESP, or NAK_POISON SUB 1 naming a message (R377). -/
def sendFlushAnswer (c : Nat) (id : MsgId) (poison : Option MsgId) (s : State) : State :=
  match poison with
  | some p => sendNak c { msg := id, code := 3, sub := 1, detail := p, hint := 0, time := s.now } 0 s
  | none => sendCtl c id (.flushResp (s.conn c).dwmark ((s.conn c).dropsOf id)) s

/-- R42, R376: the answer of an atomic. -/
def sendAtomicAnswer (c : Nat) (o : AtomicOut) (s : State) : State :=
  if o.poison then sendNak c { msg := o.msg, code := 3, sub := 0, detail := 0, hint := 0, time := s.now } 0 s
  else sendCtl c o.msg (.atomicResp o.old) s

/-- Remove a message that is over. -/
def Conn.endMsg (k : Conn) (id : MsgId) : Conn := { k with msgs := k.msgs.filter (fun m => m.id != id) }

/-- R42, R322: a message past its varnish point is answered. -/
def varnishMsg (c : Nat) (m : Msg) (s : State) : State :=
  match m.op with
  | .writeDurable =>
    if s.durableHeld then s.modConn c (fun k => k.modMsg m.id (fun x => { x with varnished := true }))
    else sendAck c true m.id (s.modConn c (fun k => { (k.endMsg m.id) with durables := m.id :: k.durables.take 1023 }))
  | .cas | .fadd => sendAtomicAnswer c { msg := m.id, old := m.old, poison := m.poison } (s.modConn c (fun k => k.endMsg m.id))
  | _ => s.modConn c (fun k => k.endMsg m.id)

/-- R309: DWMARK advances; a FLUSH that it passes is answered (R42). -/
def dwmarkAux : Nat → Nat → State → State
  | 0, _, s => s
  | n + 1, c, s =>
    let k := s.conn c
    let id := k.dwmark + 1
    if !atOrBefore id k.wmark then s
    else match k.msg id with
      | none => dwmarkAux n c (s.modConn c (fun k => { k with dwmark := id }))
      | some m =>
        if m.op = .flush then
          let s := s.modConn c (fun k => { (k.endMsg id) with
            dwmark := id, flushed := (id, k.poisonMsg) :: k.flushed.take 1023, poisonMsg := none })
          dwmarkAux n c (sendFlushAnswer c id k.poisonMsg s)
        else if m.op = .readReq ∨ m.varnished then dwmarkAux n c (s.modConn c (fun k => { k with dwmark := id }))
        else s

/-- R40, R309: messages of a connection that have reached their varnish point. -/
def varnishConn (c : Nat) (s : State) : State :=
  if !s.serving then s
  else
    let s := forEach ((s.conn c).msgs.filter s.varnished) (fun m s => varnishMsg c m s) s
    dwmarkAux (dist (s.conn c).dwmark (s.conn c).wmark) c s

/-- Every connection. -/
def varnishAll (s : State) : State := forEach (s.xport.conns.map (·.1)) varnishConn s

/-! The answer of a read. -/

/-- R372: the READ_RESP packets of `n` bytes of a read, in ascending MSG_OFF; `whole` says that they end the read. -/
def readPackets (id : MsgId) (raddr : Nat) (data : Bytes) (n : Nat) (whole : Bool) : List TxPkt :=
  (List.range n).map (fun i =>
    { psn := 0, wit := false, msg := id, off := 4096 * i, first := i == 0, last := whole && i + 1 == n, raddr
      data := (data.drop (4096 * i)).take 4096, path := 0 })

/-- R371 to R373: the read point of a network read. -/
def answerRead (c : Nat) (m : Msg) (g : Gather) (s : State) : State :=
  let (data, bad) := s.gatherData g
  let s := releaseRefs m (endGather g.id s)
  let s := s.modConn c (fun k => k.endMsg m.id)
  let s := match bad.head? with
    | none => queueTx c (readPackets m.id m.raddr data (ceilDiv m.rlen 4096) true) s
    | some l =>
      let at_ := 64 * l - m.raddr
      let s := queueTx c (readPackets m.id m.raddr data (at_ / 4096) false) s
      let r : NakRec := { msg := m.id, code := 3, sub := 0, detail := BitVec.ofNat 32 at_, hint := 0, time := s.now }
      sendNak c r 0 (s.modConn c (fun k => k.keepNak r))
  schedServed c m.ns m.raddr m.rlen s

end Sys2Proof.Machine
end

