-- ==== Sys2Proof/Machine/DuraOps.lean ====
section
/-! DEFINITION. CXL.mem placement, the mirroring lag, FLUSH_MIRROR and GPF, and the dirty budget's hold (R50 to R62,
R371, R405, R408 to R410). -/

namespace Sys2Proof.Machine

open Sys2Proof

/-- R403: CXL.mem is enabled, and the role serves with its transmitters enabled. -/
def State.memNow (s : State) : Bool := s.host.memEn && s.serving && s.twin.hostTx

/-- R407: a request answered under the last column of R405's table is logged in the RAS capability and under AER. -/
def rasError (s : State) : State :=
  s.modHost (fun h => { h with rasUncor := true, aerInternal := true, events := h.events ++ [.raError] })

/-- R405: a read of the last column: data with poison. -/
def cxlReadRefused (tag : Nat) (s : State) : State :=
  let s := s.modHost (fun h => { h with refused := sat16 h.refused, poisonRd := sat16 h.poisonRd })
  (rasError s).send (.cxlData tag (List.replicate 64 0) true)

/-- R51: CXL.mem write data completed and not yet applied on the peer. -/
def State.lagBytes (s : State) : Nat := s.dura.lag.foldl (fun n r => n + r.bytes) 0

/-- 4 MiB, the byte limit of R51. -/
def lagMax : Nat := 4194304
/-- 64 µs, the age limit of R51. -/
def lagAge : Nat := 64000

/-- R51: some limit of the lag is reached. -/
def State.lagFull (s : State) : Bool :=
  decide (s.lagBytes ≥ lagMax) || s.dura.lag.any (fun r => decide (s.now ≥ r.time + lagAge))

/-- Bytes that a CXL.mem write adds to the lag (log entry 80). -/
def HeldWrite.bytes (w : HeldWrite) : Nat := if w.poison then 64 else (w.img.filter Option.isSome).length

/-- R51: the lag would pass a limit, or has reached one. -/
def State.lagStops (s : State) (w : HeldWrite) : Bool :=
  s.dura.lagHeld || s.lagFull || (s.twin.role == .active && decide (s.lagBytes + w.bytes > lagMax))

/-- R210: a CXL.mem write has a line: the one reserved behind its credit, or one that no reservation holds. -/
def State.memRoom (s : State) : Bool := s.lineRoom (decide (s.sump.rsvHost ≠ 0)) 1

/-- R210: the credit of a CXL.mem write is consumed. -/
def useMemCredit (s : State) : State := s.modSump (fun u => { u with rsvHost := u.rsvHost - 1 })

/-- R405: a write of the last column: its data is discarded. -/
def cxlWriteRefused (tag : Nat) (s : State) : State :=
  (rasError ((useMemCredit s).modHost (fun h => { h with refused := sat16 h.refused }))).send (.cxlCmp tag)

/-- R51, R62, R287: why a write's completion is withheld, apart from a gather. -/
def State.cxlWithheld (s : State) (w : HeldWrite) : Bool :=
  s.lagStops w || s.twin.swap != .none || s.prime.noAdmit || !s.budgetFor w.ns w.off 64 || !s.memRoom

/-- R50, R371: a write can be placed now. -/
def State.canPlace (s : State) (w : HeldWrite) : Bool := !s.cxlWithheld w && !s.heldBack w.ns w.off 64

/-- R50, R125, R126, R405: place a CXL.mem write, log its CXL_WRITE entry and send Cmp. A write with poisoned data
poisons the whole line; its entry masks no byte (log entry 27, DESIGN CHOICE). During a host-port drain no Cmp can be sent (R411 H2). -/
def placeCxl (w : HeldWrite) (s : State) : State :=
  let line := w.off / 64
  let s := nextStamp (useMemCredit s)
  let mask := if w.poison then 0 else maskOf 64 ((List.range 64).filter (fun k => (w.img.getD k none).isSome))
  let data := if w.poison then List.replicate 64 0 else imgBytes w.img
  let (s, lsn) := logEntry { anchor := true, durable := false, conn := 0, msg := 0, nsid := w.ns, body := .cxlWrite w.off mask data } s
  let img := if w.poison then imgOf (List.replicate 64 0) else w.img
  let s := (showLine none w.ns line img w.poison lsn [] s).getD s
  let s := if w.poison then s else foldStep [(w.ns, line)] s
  let s := if s.twin.role = .active then
      s.modDura (fun d => { d with lag := d.lag ++ [{ lsn, bytes := w.bytes, time := s.now }] })
    else s
  let s := if s.lagFull then s.modDura (fun d => { d with lagHeld := true }) else s
  if s.host.drain = .none then s.send (.cxlCmp w.tag) else s

/-- R408: the writes held are placed in arrival order as they can be. Once the role or the link no longer serves
CXL.mem they are answered as R405's last column (log entry 74, DEDUCED). -/
def releaseHeldAux : Nat → State → State
  | 0, s => s
  | n + 1, s =>
    match s.dura.held with
    | [] => s
    | w :: t =>
      if !s.memNow then releaseHeldAux n (cxlWriteRefused w.tag (s.modDura (fun d => { d with held := t })))
      else if s.canPlace w then releaseHeldAux n (placeCxl w (s.modDura (fun d => { d with held := t }))) else s

/-- R408. -/
def releaseHeld (s : State) : State := releaseHeldAux s.dura.held.length s

/-- R51, R408: a CXL.mem write arrives: placed now, or behind those held. -/
def cxlWrite (w : HeldWrite) (s : State) : State :=
  if s.dura.held.isEmpty && s.canPlace w then placeCxl w s
  else
    let s := if s.dura.held.isEmpty && s.cxlWithheld w then s.modHost (fun h => { h with holds := sat8 h.holds }) else s
    s.modDura (fun d => { d with held := d.held ++ [w] })

/-- R51: the lag after an acknowledgement. -/
def lagAcked (s : State) : State :=
  let s := s.modDura (fun d => { d with lag := d.lag.filter (fun r => !s.ackedTo r.lsn) })
  if s.lagFull then s else s.modDura (fun d => { d with lagHeld := false })

/-! FLUSH_MIRROR and GPF. -/

/-- R409, R410: answer the GPF requests waiting. -/
def gpfAnswer (fail loc : Bool) (s : State) : State :=
  if s.host.gpfWait.isEmpty then s
  else
    let n := s.host.gpfWait.length
    let s := s.modHost (fun h => { h with
      gpfWait := [], gpfFail := fail, gpfLocal := loc, events := if fail then h.events ++ [.gpfFail] else h.events })
    let s := if fail then record 0x0009 0 false (leBytes 8 s.lagBytes) s else s
    forEach (List.range n) (fun _ s => s.send .gpfDone) s

/-- R52: end the FLUSH_MIRROR in progress. -/
def flushEnd (fail : Bool) (s : State) : State :=
  let loc := !fail && s.twin.role == .solo
  gpfAnswer fail loc (s.modDura (fun d => { d with busy := false, done := true, fail := d.fail || fail, loc, cover := [] }))

/-- R52, R60: what the FLUSH_MIRROR in progress comes to. -/
def flushCheck (s : State) : State :=
  if !s.dura.busy then s
  else if s.dura.clow || s.twin.role == .fenced then flushEnd true s
  else
    let left := s.dura.cover.filter (fun l => !s.ackedTo l)
    let s := s.modDura (fun d => { d with cover := left })
    if left.isEmpty then flushEnd false s else s

/-- R52: start a FLUSH_MIRROR, or extend the one in progress to the writes completed up to now. -/
def flushStart (s : State) : State :=
  flushCheck (s.modDura (fun d => { d with busy := true, cover := d.lag.map (·.lsn) }))

/-! The dirty budget. -/

/-- R59: the hold ends once the dirty total is below D_max. -/
def budgetCheck (s : State) : State :=
  if s.dura.overBud && decide (s.dirtyTotal < s.dura.dmax) then s.modDura (fun d => { d with overBud := false }) else s

end Sys2Proof.Machine
end

