-- ==== Sys2Proof/Machine/PrimeOps.lean ====
section
/-! DEFINITION. What priming clears and keeps, and the start of a priming (R525 to R527, "What priming clears"). -/

namespace Sys2Proof.Machine

open Sys2Proof

/-- Map every entry of a table, keeping its canonical form. -/
def tabMap {α : Type} [DecidableEq α] (d : α) (f : Nat → α → α) (t : List (Nat × α)) : List (Nat × α) :=
  t.foldl (fun acc e => tabSet d acc e.1 (f e.1 e.2)) []

/-- A channel after priming: the parameters of its device configuration. -/
def Chan.cleared (k : Chan) : Chan := { ceThresh := k.ceThresh, retireSym := k.retireSym }

/-- A group after priming: what its header holds. -/
def Group.cleared (now : Nat) (k : Group) : Group :=
  { st := k.st, ng := k.ng, eg := k.eg, failPos := k.failPos, failPos2 := k.failPos2, failMore := k.failMore, rebuildOfFailed := k.rebuildOfFailed
    rebuildPtr := k.rebuildPtr, rebuildShare := k.rebuildShare, autoRebuild := k.autoRebuild, scrubPtr := k.scrubPtr
    passStart := now, badMeta := k.badMeta, spillPtr := k.spillPtr }

/-- A drawer after priming: its record in the device configuration. -/
def Drawer.cleared (k : Drawer) : Drawer :=
  { parkable := k.parkable, parkIdle := k.parkIdle, recParked := k.recParked, parkRec := k.parkRec, scrubLeft := k.scrubLeft
    fall := .power }

/-- Clear durability state; the parameters stay. -/
def Dura.cleared (k : Dura) : Dura := { pHold := k.pHold, kMargin := k.kMargin, tFixed := k.tFixed }

/-- Clear sump and pool; the parameters and the banks marked unusable stay. -/
def Sump.cleared (k : Sump) : Sump :=
  { badBanks := k.badBanks, nextId := k.nextId, intentRsv := k.intentRsv, spillHigh := k.spillHigh, spillLow := k.spillLow
    mergeWait := k.mergeWait, readFloor := k.readFloor, pfFloor := k.pfFloor }

/-- Clear the twin engine; its strap, parameters and flash records stay. -/
def Twin.cleared (k : Twin) : Twin :=
  { num := k.num, twinCredit := k.twinCredit, resyncShare := k.resyncShare, ueStorm := k.ueStorm, hsWait := k.hsWaitNext
    hsWaitNext := k.hsWaitNext, witness := k.witness, journalTiles := k.journalTiles, undrained := k.undrained }

/-- Clear a network port; its configuration stays. -/
def NetPort.cleared (k : NetPort) : NetPort :=
  { mode := k.mode, subs := k.subs.map (fun q => { vlan := q.vlan, pcp := q.pcp, mac := q.mac }) }

/-- Clear connections and grants; the transport parameters stay. -/
def Xport.cleared (k : Xport) : Xport :=
  { dscpData := k.dscpData, dscpCtrl := k.dscpCtrl, ecnMark := k.ecnMark, ecnReact := k.ecnReact, ackCount := k.ackCount
    ackDelay := k.ackDelay, reasm := k.reasm, creditIdle := k.creditIdle }

/-- Clear the host port; its parameters, the HDM mapping and the level of PERST# stay. -/
def HostPort.cleared (k : HostPort) : HostPort :=
  { perstSys := k.perstSys, maxRate := k.maxRateNext, maxRateNext := k.maxRateNext, ssvid := k.ssvid, ssid := k.ssid
    perst := k.perst, hdm := k.hdm.map (fun d => { d with committed := false, base := 0, size := 0 }) }

/-- Clear mailboxes, commands and schedules; namespaces and parameters stay. -/
def Ctl.cleared (k : Ctl) : Ctl := { lease := k.lease, smbAddr := k.smbAddr, nextCmd := k.nextCmd, nss := k.nss }

/-- Clear the DRAM controller; parameters, the repair list and channels to be left out stay. -/
def Dram.cleared (k : Dram) : Dram :=
  { actThresh := k.actThresh, rhRadius := k.rhRadius, rhEvent := k.rhEvent, repairs := k.repairs
    chans := tabMap {} (fun _ c => { srIdle := c.srIdle, ceThresh := c.ceThresh, badNext := c.badNext, ceDays := c.ceDays }) k.chans }

/-- Clear the update session; the flash itself stays. -/
def Flash.cleared (k : Flash) : Flash :=
  { banks := k.banks.map (fun b => { halfErased := b.halfErased, eraseLog := b.eraseLog, logCur := b.logCur, undef := b.undef
                                     marks := b.marks, spares := b.spares })
    slots := k.slots, boot := k.boot, prot1 := k.prot1, level2 := k.level2, secMin := k.secMin }

/-- Clear self-test and recorder ring; fuses, repairs, marks and recorder flash stay. -/
def Test.cleared (k : Test) : Test :=
  { lcFuses := k.lcFuses, lc := k.lc, ikey := k.ikey, secret := k.secret, kekGen := k.kekGen, railRec := k.railRec
    soft := k.soft, ttPass := k.ttPass, badCores := k.badCores, pendBanks := k.pendBanks, pendCores := k.pendCores
    pendPads := k.pendPads, pendKeys := k.pendKeys
    badPads := k.badPads, badNet := k.badNet, badTwin := k.badTwin, badHost := k.badHost, badChan := k.badChan
    railConvBad := k.railConvBad, spilled := k.spilled, critical := k.critical, critPtr := k.critPtr }

/-- Clear event state; routes of the device configuration (R649) and the clock islands stay. -/
def Events.cleared (k : Events) : Events := { routes := k.routes, islands := k.islands }

/-- Clear what priming clears and the registers that count since priming. -/
def clearVolatile (s : State) : State :=
  { s with
    dura := s.dura.cleared, sump := s.sump.cleared
    chans := tabMap {} (fun _ k => k.cleared) s.chans
    groups := tabMap {} (fun _ k => k.cleared s.now) s.groups
    easels := tabMap {} (fun _ k => { k with moving := false, wcount := 0 }) s.easels
    ops := [], misses := []
    drawers := tabMap {} (fun _ k => k.cleared) s.drawers
    twin := s.twin.cleared
    tports := []
    nports := tabMap {} (fun _ k => k.cleared) s.nports
    xport := s.xport.cleared, host := s.host.cleared, ctl := s.ctl.cleared
    cipher := { inputs := s.cipher.inputs }
    power := { s.power with firstDue := false, postponed := false, measAt := none, cisSt := 0, cisStep := .none, cisCmd := none,
                            emeas := 0, margins := []
                            rails := tabMap {} (fun _ r => { r with faults := 0, warns := 0 }) s.power.rails }
    prime := { s.prime with
      step := 0, loaded := [], entry := [], bootFail := false, waitPeer := false, witPath := false, decide := 0, full := false, unclean := 0, replay := 0
      wakes := [], heldReset := [], heldHost := false, drain := none, warmDue := false, lcReset := none, noAdmit := false
      primeAt := none, roleRead := none }
    dram := s.dram.cleared, flash := s.flash.cleared, test := s.test.cleared, ev := s.ev.cleared
    plat := { s.plat with hotAt := none, critAt := none } }

/-- Rails of a drawer lose their enables at once, and its links go down. -/
def dropDrawers (s : State) : State :=
  forEach (List.range 32) (fun i s => if (s.rail (16 + i)).en then disableRail (16 + i) s else s) s

/-- R525 to R527: priming begins at step 2, DEVTIME at 0. -/
def beginPriming (warm : Bool) (s : State) : State :=
  (clearVolatile (dropDrawers s)).modPrime (fun p => { p with step := 2, warm, primeAt := some s.now })

/-- Island 99 alone is left under power (state 0). -/
def powerOff (s : State) : State := clearVolatile s

end Sys2Proof.Machine
end

