-- ==== Sys2Proof/Machine/WindOps.lean ====
section
/-! DEFINITION. The windlass line and the sequences that it steps (R183, R492 to R506), and drains of the durable domain
(R41, R54, R63 to R65, R115, R237, R291, R482, R507 to R510, R526, R541, R628). -/

namespace Sys2Proof.Machine

open Sys2Proof

/-! The line. -/

/-- R493, R494: the controller pulls WINDLASS low for the step toward a state. -/
def pullLine (n : Nat) (up : Bool) (s : State) : State :=
  s.modPower (fun p => { p with hold := true, line := false, wlDir := up, stepTo := some (n, up), acting := false })

/-- R495: the controller releases the line. -/
def releaseLine (s : State) : State := s.modPower (fun p => { p with hold := false, stepTo := none, acting := false })

/-- Rails 0 to 15 of step n have settled in the up direction. -/
def State.upSettled (s : State) (n : Nat) : Bool := (s.stepRails n).all (fun i => (s.rail i).settledUp)

/-- Rails 0 to 15 of step n have settled in the down direction. -/
def State.downSettled (s : State) (n : Nat) : Bool := (s.stepRails n).all (fun i => (s.rail i).settledDown)

/-- Every drawer rail has settled in the down direction. -/
def State.drawersDown (s : State) : Bool :=
  (List.range 32).all (fun i => !(s.rail (16 + i)).en && (s.rail (16 + i)).settledDown)

/-- R494, R506: the rails of every drawer that is not PARKED fall; a drawer that is WAKING or PARKING first settles
its current step. -/
def fallAll (s : State) : State :=
  forEach (List.range 8) (fun d s =>
    if (List.range 4).any (fun k => (s.rail (drawerRail d k)).en) then startFall d .power s else s) s

/-- R511: CIS_CHG_EN. -/
def chargeCheck (s : State) : State :=
  let on := (s.power.wl == 12 || s.power.wl == 13) && !s.power.pwrFail && s.power.cisStep == .none
  let was := s.power.chgEn
  s.modPower (fun p => { p with
    chgEn := on, chgAt := if on && !was then some s.now else if on then p.chgAt else none
    cisSt := if on && !was && p.cisSt == 0 then 1 else p.cisSt })

/-- R494: the controller's part of the step begins. -/
def actStep (s : State) : State :=
  match s.power.stepTo with
  | none => s
  | some (n, up) =>
    let s := s.modPower (fun p => { p with acting := true })
    if up then
      if n ≤ 12 then forEach (s.stepRails n) enableRail s else s
    else if n = 12 then fallAll (s.modPower (fun p => { p with chgEn := false }))
    else
      let s := if n = 11 then fallAll s else s
      forEach (s.stepRails (n + 1)) disableRail s

/-- R495, R504: the part is over once every rail of the step has settled; a rail that timed out turns the sequence. -/
def windCheck (s : State) : State :=
  match s.power.stepTo with
  | none => s
  | some (n, up) =>
    if !s.power.hold || !s.power.acting then s
    else if up then
      if n ≤ 12 then
        if !s.upSettled n then s
        else if (s.stepRails n).any (fun i => (s.rail i).st == .failed) then
          releaseLine (powerLog 4 (s.modPower (fun p => { p with goingDown := true })))
        else releaseLine s
      else if n = 13 then releaseLine s
      else s
    else if n = 12 then (if s.drawersDown then releaseLine s else s)
    else if s.downSettled (n + 1) && (n != 11 || s.drawersDown) then releaseLine s
    else s

/-- R503: the sequence goes down from the highest state reached, once any step in progress has settled. -/
def goDown (s : State) : State :=
  let s := s.modPower (fun p => { p with goingDown := true, latch := if p.latch == .off then .none else p.latch })
  let s := s.modPrime (fun p => { p with step := 0 })
  if s.power.stepTo.isSome ∨ !s.power.line then s
  else if 1 ≤ s.power.wl ∧ s.power.wl ≤ 12 then pullLine (s.power.wl - 1) false s
  else s

/-! Abandonment (R497, R498, R501). -/

/-- R497: rails of one step are removed on the controller's own timing. -/
def soloDown (n : Nat) (s : State) : State :=
  let s := s.modPower (fun p => { p with soloStep := n })
  let s := if n = 12 then fallAll s else s
  forEach (s.stepRails n) disableRail s

/-- R497: go on with the next step down whose rails have not fallen. -/
def soloDownAll : Nat → State → State
  | 0, s => s.modPower (fun p => { p with soloStep := 0 })
  | n + 1, s => if s.downSettled (n + 1) && (n + 1 != 12 || s.drawersDown) then soloDownAll n s else soloDown (n + 1) s

/-- Abandonment: the roll call, ABANDON. -/
def abandon (s : State) : State :=
  (s.modPower (fun p => { p with
    wl := 15, hold := false, abandon := true, stepTo := none, acting := false, rollCall := true })).send (.seqCo true)

/-- R496, R497: state 15; every rail is removed in reverse step order. -/
def windFault (s : State) : State :=
  let s := (abandon s).modPrime (fun p => { p with step := 0 })
  soloDown 12 (s.modPower (fun p => { p with solo := true, soloUp := false, goingDown := true }))

/-- R498: power-up on the controller's own timing: the next step whose rails are not yet up; a rail that times out
turns it. -/
def soloUpAll : Nat → State → State
  | 0, s => s
  | k + 1, s =>
    let n := s.power.soloStep
    if !s.upSettled n then s
    else if (s.stepRails n).any (fun i => (s.rail i).st == .failed) then
      soloDown 12 (powerLog 4 (s.modPower (fun p => { p with soloUp := false, goingDown := true })))
    else if n ≥ 12 then
      if s.prime.step = 4 then s.modPrime (fun p => { p with step := 5 }) else s
    else
      let s := s.modPower (fun p => { p with soloStep := n + 1 })
      soloUpAll k (forEach (s.stepRails (n + 1)) enableRail s)

/-- What a change of rails brings about in the sequences. -/
def railsChanged (s : State) : State :=
  if s.power.wl = 15 then
    if s.power.soloUp then soloUpAll 13 s
    else if s.power.solo && s.power.soloStep != 0 then
      if s.downSettled s.power.soloStep && (s.power.soloStep != 12 || s.drawersDown) then
        soloDownAll (s.power.soloStep - 1) s
      else s
    else s
  else windCheck s

/-! The durable domain. -/

/-- Dirty bytes of a group: sump lines, intents and overflow. -/
def State.groupBytes (s : State) (g : Nat) : Nat :=
  64 * (s.sump.lines.filter (fun l => (l.st == .dirty || l.st == .intent) && s.lineGroup l.ns l.line == some g)).length
    + 256 * (s.sump.overflow.filter (fun e => s.lineGroup e.ns (4 * e.cw) == some g)).length

/-- The group and key of a codeword let it drain now. -/
def State.canDrain (s : State) (ns cw : Nat) : Bool :=
  !s.keyLost ns
    && (match s.decodeOff ns (256 * cw) with
      | some p => (s.drw (grpDrawer p.g)).st == .awake
          || ((s.drw (grpDrawer p.g)).st == .parking
            && ((s.drw (grpDrawer p.g)).step == .p1 || (s.drw (grpDrawer p.g)).step == .p2))
      | none => false)

/-- R64: nothing that can drain is left: every such line is on media or in an intent whose writes are out. -/
def State.drained (s : State) : Bool :=
  !s.sump.lines.any (fun l => l.st == .dirty && s.canDrain l.ns (l.line / 4))
    && !s.sump.overflow.any (fun e => s.canDrain e.ns e.cw)
    && !s.ops.any (fun o => (match o.purpose with | .host .. => true | _ => false) && o.phase != .write)

/-- Tiles of the dirty data that is left (R482). -/
def State.leftTiles (s : State) : List Nat :=
  ((s.sump.lines.filter (fun l => l.st == .dirty)).filterMap (fun l => s.tileIdx l.ns (64 * l.line))
    ++ s.sump.overflow.filterMap (fun e => s.tileIdx e.ns (256 * e.cw))).foldl insNat []

/-- R473: the KEK. An unfused secret reads 0 (log entry 73, DESIGN CHOICE). -/
def State.deriveKek (s : State) : Kek :=
  { bytes := kdf (leBytes 32 (s.test.secret.getD 0)) (asciiBytes "NOLDAN-KEK") (leBytes 16 Config.dieId ++ leBytes 1 s.test.kekGen) }

/-- R482: at the start of a drain the KEK is derived again when no alarm input is asserted. -/
def rekeyDrain (s : State) : State :=
  if s.cipher.erased ∧ s.cipher.inputs = 0 then
    raise 876 (s.modCipher (fun c => { c with erased := false, kek := some s.deriveKek }))
  else s

/-- Live groups (R686). -/
def State.liveGroups (s : State) : List Nat := (List.range 16).filter s.live

/-- CAUSE of a DRAIN_START record (R535). -/
def DrainKind.cause : DrainKind → Nat
  | .power => 0
  | .reset _ => 1
  | .orderly => 0

/-- R41, R63, R64, R93, R115: a drain begins: admission stops, pending lines are discarded, gap and spare moves abandoned,
the writes of every intent still held issued again, and journals opened. -/
def startDrain (kind : DrainKind) (cmd : Option Nat) (s : State) : State :=
  let s := rekeyDrain s
  let s := s.modPrime (fun p => { p with
    noAdmit := true, drain := some { kind, since := s.now, dirty := s.dirtyTotal, cmd } })
  let s := s.modSump (fun u => { u with lines := u.lines.filter (fun l => l.st != .pending) })
  let s := abandonMoves s
  let s := forEach (s.ops.filter (fun o => o.phase == .write)) (fun o s => issueWrites o.id o.writes s) s
  forEach s.liveGroups (fun g s => journal g (.drainStart (s.groupBytes g) kind.cause) s) s

/-- JSEQ of a group's latest DRAIN_START. -/
def GroupNv.lastStart (n : GroupNv) : Nat :=
  match n.journal.find? (fun e => match e.2 with | .drainStart .. => true | _ => false) with
  | some e => e.1
  | none => 0

/-- R115: record the intents of a group whose writes are not confirmed. -/
def journalIntents (g : Nat) (s : State) : State :=
  forEach (s.ops.filter (fun o => o.grp == g && o.phase == .write && !o.writes.isEmpty && !o.purpose.isMeta))
    (fun o s => journal g (.intent o.dst o.writes) s) s

/-- F5, R63: the clean-shutdown marker of a group. -/
def shutMarker (g : Nat) (s : State) : State :=
  let s := journalIntents g s
  let bytes := 64 * (s.sump.lines.filter (fun l => l.st == .dirty && s.lineGroup l.ns l.line == some g)).length
    + 256 * (s.sump.overflow.filter (fun e => s.lineGroup e.ns (4 * e.cw) == some g)).length
  let s := regionRecord g (s.nv g).regions (s.modNv g (fun n => { n with regionWait := [] }))
  let s := journal g (.drainEnd (decide (bytes = 0)) bytes) s
  headerRow g .header ((s.modNv g (fun n => { n with
    stop := some (.cleanShutdown, s.twin.epoch, s.prime.bootcnt.toNat, n.lastStart, n.jseq - 1) })).modGrp g (fun k => { k with
      awakeRec := false }))

/-- R291, R535: a group's part of the bitmap: a BITMAP record of the tiles of its easels. -/
def bitmapRecord (g : Nat) (s : State) : State :=
  let per := (s.grp g).eg * 32768
  let first := g * 3640 * 32768
  let mine := s.twin.bitmap.filter (fun i => decide (first ≤ i ∧ i < first + per))
  let bits := if s.twin.bitmapAll then ((List.range per).map (fun i => first + i)).filter (fun i => !mine.contains i) else mine
  journal g (.bitmap first per bits) s

/-- R291: in SOLO each group's part of the bitmap is written to its drain journal. -/
def saveBitmap (s : State) : State :=
  if s.twin.role = .solo then
    let s := forEach s.liveGroups bitmapRecord s
    s.modPrime (fun p => { p with savedMap := some s.twin.bitmap, savedAll := s.twin.bitmapAll })
  else s.modPrime (fun p => { p with savedMap := none, savedAll := false, split := 0 })

/-- Bytes that a drain leaves undrained. -/
def State.leftBytes (s : State) : Nat := 64 * s.linesIn .dirty + 256 * s.sump.overflow.length

/-- The common end of every drain: markers, tiles that stay (R482), undrained count (R237), bitmap (R291), role record
(R541), event 999. -/
def sealDrain (d : Drain) (s : State) : State :=
  let s := saveBitmap s
  let left := s.leftBytes
  let ts := s.leftTiles
  let s := if ts.isEmpty then s else
    forEach (s.liveGroups.take 1) (fun g s => journal g (.tiles ts) s)
      (s.modTwin (fun t => { t with journalTiles := ts.foldl insNat t.journalTiles }))
  let s := forEach s.liveGroups shutMarker s
  let s := match d.kind with
    | .reset _ => s.modTwin (fun t => { t with undrained := if s.twin.role = .fenced then left else t.undrained })
    | _ => s
  let s := writeRole s
  let s := s.modPower (fun p => { p with drainInfo := (d.dirty, s.now - d.since) })
  raiseWith 999 0 left s

/-! Resets that drain (R63, R525, R526). -/

/-- A host-port drain is under way (R415). -/
def State.hostDraining (s : State) : Bool := match s.host.drain with | .none => false | _ => true

/-- R63, R526, R533: a reset of R63. During a drain, or a host-port drain, it is held. -/
def startReset (cause : ResetCause) (s : State) : State :=
  if s.prime.drain.isSome || s.hostDraining then s.modPrime (fun p => { p with heldReset := p.heldReset ++ [cause] })
  else if s.power.wl = 13 then pullLine 14 true (startDrain (.reset cause) none s)
  else if s.prime.step = 0 ∧ s.prime.primeAt.isNone then s
  else if s.dirtyTotal = 0 ∧ s.ops.isEmpty then beginPriming true s
  else startDrain (.reset cause) none s

/-- R63: the resets held during a host-port drain run after it. -/
def heldResets (s : State) : State :=
  match s.prime.heldReset with
  | c :: _ => if s.prime.drain.isNone && !s.hostDraining then startReset c (s.modPrime (fun p => { p with heldReset := [] })) else s
  | [] => s

/-- R624, R628: the steps of LC_ADVANCE after its drain; a blown fuse stays blown. -/
def lcFuse (cmd : Nat) (target : LcState) (s : State) : State :=
  let n : Nat := match target with | .manufacture => 0 | .provision => 1 | .deployed => 2 | .ret => 3 | .endOfLife => 4
  let s := setPast cmd s
  let s := s.modTest (fun t => { t with
    lcFuses := Nat.max t.lcFuses n, advancing := none
    kekGen := if n = 3 ∨ (n = 4 ∧ t.kekGen = 0) then t.kekGen + 1 else t.kekGen })
  let s := raise 873 (eraseKeys s)
  let s := s.modPrime (fun p => { p with lcReset := some s.now, lcChanged := true })
  finish cmd stOk [] s

/-- A metadata row is not yet acknowledged. -/
def State.metaOpen (s : State) : Bool := s.ops.any (fun o => o.purpose.isMeta)

/-- R63, R64, R507 F6, R526, R628: a drain whose markers are on media has ended. A reset held meanwhile needs no drain of
its own. -/
def endDrain (d : Drain) (s : State) : State :=
  match d.kind with
  | .power =>
    let s := powerLogF 3 (if s.leftBytes = 0 then 1 else 2) s
    let s := s.modPrime (fun p => { p with drain := none })
    if s.power.stepTo = some (14, true) then releaseLine s
    else if s.power.wl = 15 then soloDown 12 (s.modPower (fun p => { p with soloUp := false, solo := true, goingDown := true }))
    else goDown s
  | .orderly => releaseLine (s.modPrime (fun p => { p with drain := none }))
  | .reset _ =>
    let s := s.modPrime (fun p => { p with drain := none, heldReset := [], heldHost := false })
    match d.cmd, s.test.advancing with
    | some c, some (_, target) => lcFuse c target s
    | _, _ =>
      if s.power.stepTo = some (14, true) then releaseLine (s.modPrime (fun p => { p with warmDue := true }))
      else beginPriming true s

/-- R507 F4, F5: nothing that can drain is left: markers and final records go to media, once. -/
def sealOnce (d : Drain) (s : State) : State :=
  if d.sealed || d.cmd.isSome then s
  else sealDrain d (s.modPrime (fun p => { p with drain := some { d with sealed := true } }))

/-- DRAIN_COMPLETE when nothing that can drain is left: the drain ends once its markers are on media. -/
def drainComplete (s : State) : State :=
  match s.prime.drain with
  | some d =>
    if s.drained then
      let s := sealOnce d s
      if s.metaOpen then s else endDrain d s
    else s
  | none => s

/-! Power failure and off requests (R502, R503, R507 to R510). -/

/-- R245, R507 F2. -/
def powerRole (s : State) : State :=
  match s.twin.role with
  | .active => if s.peerFit then enterFenced 1 (sendRelinquish 2 s) else s
  | .standby => enterFenced 1 (sendRelinquish 2 s)
  | _ => s

/-- R507, R509: a power failure is declared, with the first failure of its record. A drain in progress becomes its drain; the
fuses of an LC_ADVANCE that drains are then not blown (log entry 147, DESIGN CHOICE). -/
def powerFailure (rail cause : Nat) (s : State) : State :=
  if s.power.pwrFail then s
  else
    let tests := s.power.cisCmd.toList
    let s := raiseWith 998 0 cause (s.modPower (fun p => { p with pwrFail := true }))
    let s := firstFailure rail cause s
    let s := s.modPower (fun p => { p with
      chgEn := false, testEn := false, chgAt := none, cisStep := .none, cisCmd := none })
    let s := finishAll tests stRefused (blkRefused 0x0705 0xFFFF) s
    let s := powerRole (s.modPrime (fun p => { p with noAdmit := true }))
    match s.prime.drain with
    | some d =>
      let s := (s.modPrime (fun p => { p with drain := some { d with kind := .power, cmd := none } })).modTest
        (fun t => { t with advancing := none })
      if s.power.wl = 13 ∧ s.power.stepTo.isNone then pullLine 14 true s else s
    | none =>
      if s.power.wl = 13 then pullLine 14 true (startDrain .power none s)
      else if s.power.wl = 14 then s.modPower (fun p => { p with goingDown := true })
      else if s.power.wl = 0 then s.modPrime (fun p => { p with step := 0 })
      else if s.dirtyTotal = 0 ∧ s.ops.isEmpty then
        if s.power.wl = 15 then soloDown 12 (s.modPower (fun p => { p with soloUp := false, solo := true, goingDown := true }))
        else goDown s
      else startDrain .power none s

/-- R502, R503: an off request. -/
def offRequest (s : State) : State :=
  let s := s.modPower (fun p => { p with latch := if p.latch == .on then .none else p.latch })
  if s.power.wl = 13 ∧ s.power.stepTo.isNone ∧ s.prime.drain.isNone then
    pullLine 14 true (startDrain .orderly none (s.modPower (fun p => { p with goingDown := true })))
  else if s.power.goingDown then s
  else if s.power.wl = 0 ∧ s.power.stepTo.isNone then s.modPrime (fun p => { p with step := 0 })
  else if s.power.wl = 15 then
    soloDown 12 ((s.modPrime (fun p => { p with step := 0 })).modPower (fun p => { p with soloUp := false, solo := true, goingDown := true }))
  else if s.power.stepTo.isSome then s.modPower (fun p => { p with latch := .off })
  else if s.prime.drain.isSome then s.modPower (fun p => { p with goingDown := true })
  else goDown s

/-- Every rail 0 to 47 is off. -/
def State.allOff (s : State) : Bool := (List.range 48).all (fun i => (s.rail i).st == .off || (s.rail i).st == .unused)

/-- R525: a cold priming begins. -/
def coldStart (s : State) : State :=
  beginPriming false (s.modPower (fun p => { p with
    latch := .none, goingDown := false, offSettled := false, firstRail := 0xFF, firstCause := 0xFF, usedDis := false, pwrFail := false }))

/-- R502, R503: an on request. -/
def onRequest (s : State) : State :=
  let p := s.power
  if p.latch = .off then s.modPower (fun p => { p with latch := .none })
  else if p.wl = 0 ∧ p.stepTo.isNone ∧ s.prime.step = 0 ∧ s.prime.standby ∧ s.allOff ∧ (p.offSettled ∨ p.lastFall = 0) then coldStart s
  else if p.goingDown ∨ p.pwrFail ∨ (p.wl = 0 ∧ s.prime.step = 0) then s.modPower (fun p => { p with latch := .on })
  else s

end Sys2Proof.Machine
end

