-- ==== Sys2Proof/Machine/Settle.lean ====
section
/-! DEFINITION. What has become due after a command: reads of CXL.mem and mailboxes answered, steps, varnish, lag and
flush, commands whose CONTROL entry is acknowledged (R435), drawers, closed connections (R358), the host-port drain
(R411), the planned swap (R287) and the end of a resync (R295). -/

namespace Sys2Proof.Machine

open Sys2Proof

/-! Connections that close (R356, R358). -/

/-- R358: erase the keys of a generation from palette and keys client. -/
def erasePalette (p : KeyTag → Bool) (s : State) : State :=
  s.modCipher (fun c => { c with
    slots := c.slots.filter (fun k => !p k.tag), wrapped := c.wrapped.filter (fun t => !p t)
    unwrapping := c.unwrapping.filter (fun t => !p t) })

/-- The key belongs to a connection. -/
def connTag (c : Nat) : KeyTag → Bool
  | .conn x _ => x == c
  | .ns _ => false

/-- A message that still holds its references. -/
def Msg.held (m : Msg) : Bool := m.st == .incomplete || m.st == .complete

/-- R358: a connection becomes CLOSED. What its messages still hold is given up, as in ERROR (log entry 143, DESIGN CHOICE). -/
def connClosed (c : Nat) (s : State) : State :=
  let ws := (s.conn c).closers
  let s := forEach ((s.conn c).msgs.filter Msg.held) (fun m s => (dropMsg c m.id 3 s).1) s
  let s := erasePalette (connTag c) (setReserve c 0 s)
  let s := s.modXport (fun x => { x with
    grants := x.grants.map (fun e => (e.1, { e.2 with conns := e.2.conns.filter (fun i => i != c) }))
    gathers := x.gathers.filter (fun g => match g.net with | some (i, _) => i != c | none => true) })
  let mine := (s.ctl.scheds.filter (fun e => e.2.conn == some c)).map (·.1)
  let s := forEach mine (fun h s => schedRelease h (s.modSched h (fun k => { k with cursor := k.extents.length }))) s
  finishAll ws stOk [] (s.modConn c (fun _ => {}))

/-- R356: a CLOSING connection with no message left and every READ_RESP settled becomes CLOSED. -/
def closeCheck (c : Nat) (s : State) : State :=
  let k := s.conn c
  if k.st = .closing ∧ k.msgs.isEmpty ∧ k.txBuf.isEmpty ∧ k.txWait.isEmpty then connClosed c s else s

/-- Every CLOSING connection. -/
def closeAll (s : State) : State :=
  forEach ((s.xport.conns.filter (fun e => e.2.st == .closing)).map (·.1)) closeCheck s

/-! Reads of CXL.mem and of mailboxes. -/

/-- R124, R405: answer a CXL.mem read. Once the role has gone no data leaves (R2). -/
def answerCxl (g : Gather) (tag : Nat) (s : State) : State :=
  let (d, bad) := s.gatherData g
  let s := endGather g.id s
  if !s.memNow then cxlReadRefused tag s
  else
    let s := if bad.isEmpty then s else
      s.modHost (fun h => { h with poisonRd := sat16 h.poisonRd, events := h.events ++ [.poison g.ns g.off] })
    s.send (.cxlData tag d (!bad.isEmpty))

/-- R124, R444: answer a MEM_READ: the bytes, or MEDIA_ERROR with the offset of the first poisoned line. -/
def answerMem (g : Gather) (cmd : Nat) (s : State) : State :=
  let (d, bad) := s.gatherData g
  let s := endGather g.id s
  match bad.head? with
  | none => finish cmd stOk d s
  | some l => finish cmd stMediaError (blkMedia (64 * l - g.off)) s

/-- A gather that is not a network read or a piece of a resync goes on. -/
def localGather (g : Gather) (s : State) : State :=
  if !g.needs.isEmpty then s
  else if (g.stale && !(s.mediaNeeds g.ns g.off g.len).isEmpty) || s.gatherLate g then gatherRun g s
  else match g.cxl, g.cmd with
    | some t, _ => answerCxl g t s
    | none, some c => answerMem g c s
    | none, none => s

/-- Every such gather. -/
def localGathers (s : State) : State := forEach s.xport.gathers localGather s

/-! Commands that wait for the peer (R435). -/

/-- R435: commands whose CONTROL entry the peer has acknowledged are answered. -/
def ctlAcks (s : State) : State :=
  forEach (s.ctl.running.filter (fun r => match r.lsn, r.ready with
    | some l, some _ => s.twin.role != .active || s.ackedTo l
    | _, _ => false)) (fun r s => match r.ready with
      | some (st, b) => finishWith r st b s
      | none => s) s

/-! The host port's own reset (R411, R414). -/

/-- R411, R413, R426: mailboxes 0 to 3 are released and their FIFOs emptied; responses of commands taken are discarded. -/
def emptyHostMbx (s : State) : State := forEach [0, 1, 2, 3] mbxRelease s

/-- R411, R532: link training begins when PERST# is deasserted, from priming step 13 on. -/
def hostTrainNow (s : State) : State :=
  if s.host.perst ∨ s.test.badHost ∨ s.prime.primeAt.isNone ∨ (0 < s.prime.step ∧ s.prime.step < 13) then s else s.send .hostTrain

/-- R411 H4: host-port state reset; training may begin once PERST# is deasserted. -/
def hostPortReset (s : State) : State :=
  let us := (s.now - s.host.drainAt) / 1000
  let s := s.modHost (fun h => { h with
    rate := 0, width := 0, flit := false, cxl := false, memEn := false, memAct := false, drain := .none
    drainUs := Nat.min 255 us, d3 := false, l1 := false, rasUncor := false, aerPoisoned := false, aerInternal := false
    hdm := h.hdm.map (fun k => { k with committed := false, base := 0, size := 0 }), cdat := [] })
  let s := (s.modDura (fun d => { d with held := [] })).modSump (fun u => { u with rsvHost := 0 })
  let s := s.modXport (fun x => { x with gathers := x.gathers.filter (fun g => g.cxl.isNone) })
  let s := emptyHostMbx (s.modEv (fun e => { e with table := [], pba := 0, funMask := false }))
  hostTrainNow s

/-- R411 H3: the drain goes on to H4 once the lag is 0, in SOLO, or when the peer is silent or the role FENCED. -/
def hostDrainCheck (s : State) : State :=
  match s.host.drain with
  | .h3 _ =>
    if s.dura.held.isEmpty && (s.dura.lag.isEmpty || s.twin.role == .solo || s.twin.silent || s.twin.role == .fenced)
    then hostPortReset s else s
  | .none => s

/-! The planned swap and the end of a resync. -/

/-- R287 S1 to S2: every admitted message has varnished or been dropped, and the lag is 0. -/
def swapCheck (s : State) : State :=
  match s.twin.swap with
  | .s1 cmd _ =>
    if s.xport.conns.all (fun e => e.2.wit || e.2.msgs.isEmpty) && s.dura.lag.isEmpty then
      let s := setPast cmd (s.modTwin (fun t => { t with swap := .s2 cmd }))
      sendRelinquish 1 s
    else s
  | _ => s

/-- R295: the walk has ended and every entry is acknowledged: TAKEOVER assigning STANDBY, then ACTIVE. -/
def resyncCheck (s : State) : State :=
  if s.twin.role = .solo ∧ s.twin.resync ∧ s.twin.resyncLive ∧ s.twin.walk.isNone ∧ s.twin.unacked.isEmpty then
    let s := s.modTwin (fun t => { t with
      resync := false, resyncFull := false, resyncFrom := none, resyncLive := false, bitmap := [], bitmapAll := false
      tileLsn := [], walkTenths := 0, matchAt := none, matchLsn := t.sent, tilesSince := [], journalTiles := [] })
    let s := enterActive (s.twin.epoch + 1) s
    ctlAll (.takeover (s.twin.sent + 1) Role.standby.code) s
  else s

/-- Drawers whose wake may now be complete (R205, R538). -/
def wakeAcks (s : State) : State := forEach (List.range 8) (fun d s => wakeFinish d (wakeReplayed d s)) s

/-- R403: Memory_Active follows CXL.mem's enable and the role; it is 0 while the link is down. -/
def memActive (s : State) : State := s.modHost (fun h => { h with memAct := s.memNow && h.rate != 0 })

/-- R236, R239: every group that holds dirty data lies in a drawer in DFAULT. -/
def State.mediaStuck (s : State) : Bool :=
  let gs := (s.sump.lines.filter (fun l => l.st == .dirty || l.st == .intent)).map (fun l => s.lineGroup l.ns l.line)
    ++ s.sump.overflow.map (fun e => s.lineGroup e.ns (4 * e.cw))
  !gs.isEmpty && gs.all (fun g => match g with | some g => (s.drw (grpDrawer g)).st == .dfault | none => true)

/-- R223, R236, R239: HELD and NOWRITE are 1 while their conditions hold. -/
def stopCheck (s : State) : State := s.modSump (fun u => { u with creditHeld := s.creditBlocked, noWrite := s.mediaStuck })

/-- R210, R223, R338: connections whose credit had to wait for lines get it, and learn of it by an ACK. -/
def creditDue (s : State) : State :=
  if s.sump.creditHeld ∨ s.linesLeft < unitLines then s
  else forEach ((s.xport.conns.filter (fun e => e.2.short && e.2.st == .opened)).map (·.1)) (fun c s =>
    sendAck c false 0 (renewCredit c s)) s

/-- R210, R261: a standby that has no unit of credit open grants what its free lines allow. -/
def twinCreditDue (s : State) : State :=
  if s.twin.role = .standby ∧ s.twin.creditShort ∧ !s.sump.creditHeld ∧ s.linesLeft ≥ unitLines ∧ !s.prime.noAdmit then sendApplyAck s
  else s

/-- R210, R408: the host port grants CXL.mem write credit against free lines, unless completions are withheld. -/
def memCreditDue (s : State) : State :=
  let n := Nat.min (Config.memCredits - s.sump.rsvHost) s.linesLeft
  if !s.memNow ∨ s.sump.creditHeld ∨ s.dura.lagHeld ∨ !s.dura.held.isEmpty ∨ s.hostDraining ∨ n = 0 then s
  else (s.modSump (fun u => { u with rsvHost := u.rsvHost + n })).send (.memCredit n)

/-- R220, R239: the spillway works from SPILL_HIGH down to SPILL_LOW. -/
def spillCheck (s : State) : State :=
  let used := 100 * (s.linesIn .pending + s.linesIn .dirty + s.intentLines)
  let all := s.banks.length * bankLines
  if used > s.sump.spillHigh * all then s.modSump (fun u => { u with spillActive := true })
  else if used < s.sump.spillLow * all then s.modSump (fun u => { u with spillActive := false })
  else s

/-- CH_RETRAIN ends OK once the link is ACTIVE again, and TIMEOUT when its training fails (log entry 89, DESIGN CHOICE). -/
def chanCmds (s : State) : State :=
  forEach (s.ctl.running.filter (fun r => r.code == 0x0606)) (fun r s => match (s.chan r.unit).link with
    | .active => finish r.id stOk [] s
    | .down | .failed | .quiesced => finish r.id stTimeout [] s
    | _ => s) s

/-- R131, R204: a scrub wake returns the drawer to parked once both groups' passes are complete, unless a foreground
access, a schedule or another hold of R190 keeps it awake. -/
def scrubWakeEnd (d : Nat) (s : State) : State :=
  let k := s.drw d
  if k.scrubWake ∧ k.scrubLeft.isEmpty ∧ k.st = .awake ∧ (s.drawerGroups d).all (fun g => (s.grp g).scrubNow.isNone) then
    let s := s.modDrw d (fun x => { x with scrubWake := false })
    if k.refs = 0 ∧ !k.used ∧ (s.parkRefusal d).isNone then beginPark d [] s else s
  else s

/-- R127, R141: a patrol pass is complete when its last row is done; PASSES is held at 65,535 (log entry 111, DESIGN
CHOICE). R140: a SCRUB_NOW pass ends its command OK; it counts in no register of GRP_SCRUB (log entry 111). -/
def passEnd (g : Nat) (s : State) : State :=
  let k := s.grp g
  let idle := fun (now : Bool) => !s.ops.any (fun o => o.grp == g && o.inPass now)
  let s := if k.ng ≠ 0 ∧ k.scrubPtr ≥ k.ng ∧ idle false then
      let s := s.modGrp g (fun k => { k with
        scrubPtr := 0, passes := sat16 k.passes, incons := 0, passStart := s.now, behind := false })
      let d := grpDrawer g
      scrubWakeEnd d (s.modDrw d (fun x => { x with scrubLeft := x.scrubLeft.filter (fun y => y != g) }))
    else s
  match k.scrubNow with
  | some p =>
    if p ≥ k.ng ∧ idle true then
      scrubWakeEnd (grpDrawer g) (finishUnit codeScrubNow g stOk [] (s.modGrp g (fun k => { k with scrubNow := none })))
    else s
  | none => s

/-- Every pass that is complete. -/
def passEnds (s : State) : State :=
  forEach ((s.groups.filter (fun e => decide (e.2.ng ≠ 0 ∧ e.2.scrubPtr ≥ e.2.ng) || e.2.scrubNow.isSome)).map (·.1)) passEnd s

/-- R507 F5, R535: a drain whose markers are on media ends. -/
def sealedDrain (s : State) : State :=
  match s.prime.drain with
  | some d => if d.sealed && !s.metaOpen then endDrain d s else s
  | none => s

/-- R318, R336, R337, R347: packets that wait for credit, window, a path or host transmitters go when they may. -/
def sendWaiting (s : State) : State :=
  forEach ((s.xport.conns.filter (fun e => !e.2.txWait.isEmpty)).map (·.1)) pumpTx s

/-- One pass over all that may have become due. -/
def settlePass (s : State) : State :=
  let s := localGathers (runEngines s)
  let s := varnishAll (advanceAll s)
  let s := flushCheck (releaseHeld (lagAcked s))
  let s := ctlAcks (budgetCheck s)
  let s := pinCheckAll (parkAdvanceAll (wakeAcks s))
  let s := chanCmds (spillCheck (schedStageAll (closeAll s)))
  let s := sealedDrain (passEnds s)
  let s := memCreditDue (twinCreditDue (creditDue (stopCheck s)))
  sendWaiting (memActive (resyncCheck (swapCheck (heldResets (hostDrainCheck s)))))

/-- R230: work of each level: media commands, sump lines for media, overflow entries, entries to apply, messages and
CXL.mem writes, packets to send (log entry 87, DEDUCED). -/
def State.orderWork (s : State) : List Nat :=
  [s.chans.foldl (fun n c => n + c.2.tags.length + c.2.waiting.length) 0, s.linesIn .dirty, s.sump.overflow.length,
    s.twin.rx.length, s.xport.conns.foldl (fun n c => n + c.2.msgs.length) s.dura.held.length,
    s.xport.conns.foldl (fun n c => n + c.2.txBuf.length + c.2.txWait.length) 0]

/-- R239: levels with work that have made no progress for 1 ms. -/
def State.stallLevels (s : State) : List Nat :=
  (List.range 6).filter (fun n => decide (s.orderWork.getD n 0 > 0) && s.orderWork.getD n 0 == s.sump.work.getD n 0
    && decide (s.now ≥ s.sump.progress.getD n 0 + 1000000))

/-- R239: ORDER_STAT after a command: a level whose work changed has made progress. -/
def orderCheck (s : State) : State :=
  let w := s.orderWork
  let stalled := s.stallLevels
  let newly := stalled.filter (fun n => !s.sump.stalled.contains n)
  s.modSump (fun u => { u with
    progress := (List.range 6).map (fun n => if w.getD n 0 = u.work.getD n 0 then u.progress.getD n 0 else s.now)
    work := w, stalled, stalls := Nat.min 65535 (u.stalls + newly.length) })

/-- All that has become due after a command. -/
def settle (s : State) : State := orderCheck (settlePass (settlePass s))

end Sys2Proof.Machine
end

