-- ==== Sys2Proof/Machine/CipherRows.lean ====
section
/-! DEFINITION. The cipher commands: known-answer tests (R459), alarms (R479 to R482) and palette unwraps (R470). -/

namespace Sys2Proof.Machine

open Sys2Proof

/-- CIPHER_KAT_TIMER (R459, R485): a pipeline that fails leaves service and is counted; an engine left without a class or
without its key store goes out of service. CE_LOAD takes the loads of the last ms. -/
def execCipherKatTimer (e : Fin 8) (failed : BitVec 8) (keyStore : Bool) (s : State) : Res :=
  let k := s.engine e
  let gone := k.pipes &&& failed
  let n := (setBits 8 gone).length
  let load := fun c => Config.engineLoad e.val c s.now % 101
  let s := s.modEngine e (fun k => { k with
    inlineLoad := load 0, mediaLoad := load 1
    pipes := if k.inServ then k.pipes &&& ~~~failed else k.pipes
    katFail := if k.inServ then Nat.min 255 (k.katFail + n) else k.katFail })
  .next (if k.inServ && (keyStore || !pipesOk (k.pipes &&& ~~~failed)) then engineOut e s else s)

/-- CIPHER_ALARM (R479, R480, R485): inputs newly asserted latch and count; the palette and the KEK go, events 872 and 873;
the alarm is a cause to relinquish. -/
def execCipherAlarm (inputs : BitVec 4) (s : State) : Res :=
  let fresh := inputs &&& ~~~s.cipher.inputs
  let s := s.modCipher (fun c => { c with inputs := c.inputs ||| inputs, alarms := c.alarms ||| inputs })
  if fresh = 0 then .next s
  else
    let s := (eraseKeys s).modCipher (fun c => { c with
      erased := true, count := Nat.min 255 (c.count + (setBits 4 fresh).length) })
    .next (settle (relinquishCause (raise 873 (raiseWith 872 0 fresh.toNat s))))

/-- CIPHER_ALARM_DEASSERT (R485): LIVE follows the inputs; the latched bits stay. -/
def execCipherAlarmDeassert (inputs : BitVec 4) (s : State) : Res :=
  .next (s.modCipher (fun c => { c with inputs := c.inputs &&& ~~~inputs }))

/-- PALETTE_UNWRAP_DONE (R470, R472): the key takes its slot, and the jobs that wait for it run; one that fails to unwrap raises
event 874. -/
def execPaletteUnwrapDone (tag : KeyTag) (ok : Bool) (s : State) : Res :=
  if !s.cipher.unwrapping.contains tag then .next s
  else if ok && s.cipher.kek.isSome then .next (keyLoad tag s)
  else .next (raise 874 (dropJobs tag (s.modCipher (fun c => { c with unwrapping := c.unwrapping.filter (fun t => t != tag) }))))

end Sys2Proof.Machine
end

