-- ==== Sys2Proof/Machine/NetRx.lean ====
section
/-! DEFINITION. Vorwiri packets that arrive: the receive checks (R316), messages and reassembly (R324 to R334),
admission (R365, R366), and the answers to duplicates (R320, R330, R331). -/

namespace Sys2Proof.Machine

open Sys2Proof

/-! Checks 2 and 3. -/

/-- Addresses that a sub-port answers to: its service addresses while it serves (R2), and its per-twin address (R273,
R301, R316). -/
def State.subAddrs (s : State) (port sub : Nat) : List (Bool × Nat) :=
  let q := s.subPort port sub
  (if s.serving then [(false, q.ip4), (true, q.ip6)].filter (fun a => a.2 != 0) else []) ++ [Config.twinAddr s.twin.num port sub]

/-- Check 2 of R316. -/
def State.frameOk (s : State) (p : Pkt) : Bool :=
  let f := p.frame
  decide (f.vlanTags ≤ 1) && !f.fragment && !f.ipOptions && !f.ipV6Ext && !f.udpSumBad && f.udpPort == 46018
    && (s.subAddrs p.port p.sub).contains (f.v6, f.dstAddr)

/-- Check 3 of R316, as far as every opcode shares it (R304 to R306). `n` is the payload the command carries. -/
def headerOk (p : Pkt) (ctl : Bool) (n : Nat) : Bool :=
  p.ver == 1 && p.flagRsv == 0 && p.rsv == 0 && p.frame.udpLen == p.plen.toNat + 64 && decide (p.plen.toNat ≤ 4096)
    && p.plen.toNat == n && (ctl || (p.climit == 0 && !p.durable))

/-- A single packet with FIRST and LAST at MSG_OFF 0 (R307, R324). -/
def singleOk (p : Pkt) : Bool := p.first && p.last && p.msgOff == 0

/-- AKEY and RADDR are unused (R305). -/
def noTarget (p : Pkt) : Bool := p.akey == 0 && p.raddr == 0

/-- Fields that a control packet of a host leaves zero (R305, R307). -/
def controlOk (p : Pkt) : Bool := noTarget p && !p.first && !p.last && p.msgOff == 0 && p.msgId == 0 && !p.durable

/-! Check 6 and what an authenticated packet tells. -/

/-- R312: the sender's epoch, and how it compares with the receiver's: −1 older, 0 equal, 1 newer. -/
def rxEpoch (own : Epoch) (epl : BitVec 5) : Epoch × Int :=
  let d := (epl.toNat + 32 - own.toNat % 32) % 32
  if d = 0 then (own, 0) else if d < 16 then (own + BitVec.ofNat 32 d, 1) else (own - BitVec.ofNat 32 (32 - d), -1)

/-- Installed generation that KG names (check 5). -/
def Conn.kgGen (k : Conn) (kg : BitVec 4) : Option (Nat × ConnKey) :=
  (k.keys.find? (fun e => e.1 % 16 == kg.toNat)).map (fun e => (e.1, e.2.1))

/-- R335, R345: the path of an authenticated packet, and its CE mark. -/
def notePath (p : Pkt) (s : State) : State :=
  let c := p.conn.toNat
  let q := p.path.val
  let s := s.modConn c (fun k =>
    let was := (k.paths.find? (fun x => x.q == q)).getD
      { q, port := 0, sub := 0, v6 := false, hostAddr := 0, hostUdp := 0, svcAddr := 0, last := 0 }
    let now : Path := { was with
      port := p.port, sub := p.sub, v6 := p.frame.v6, hostAddr := p.frame.hostAddr, hostUdp := p.frame.hostUdp
      svcAddr := p.frame.dstAddr, last := s.now, live := true }
    { k with
      paths := k.paths.filter (fun x => x.q != q) ++ [now]
      latest := some now
      cecnt := if p.frame.ce then k.cecnt + 1 else k.cecnt })
  if p.frame.ce then
    s.modNport p.port (fun n => { n with ceTimes := s.now :: n.ceTimes.filter (fun t => s.now < t + 1000000) })
  else s

/-- R314, R315: a packet accepted under generation g + 1 makes the controller send under it. -/
def switchKey (c gen : Nat) (s : State) : State :=
  let k := s.conn c
  if gen = k.gen + 1 then
    logXport c (s.modConn c (fun k => { k with
      gen, oldGen := some k.gen, genStart := (k.txPsn, k.txCsn, k.keyEpoch), genStartRx := (k.rxCsn.getD 0, k.cumPsn) }))
  else s

/-- R316: drop a packet at check 2 or 3. -/
def dropFrame (p : Pkt) (s : State) : State := s.modNport p.port (fun n => { n with dropFrame := sat16 n.dropFrame })

/-- R316: a packet fails check 5 or 6. -/
def dropAuth (p : Pkt) (sub : Nat) (s : State) : State :=
  let s := s.modNport p.port (fun n => { n with dropAuth := sat16 n.dropAuth })
  let s := if sub = 0 then raiseWith (576 + 8 * p.port.val + 5) p.port p.conn.toNat s else s
  sendNak p.conn.toNat { msg := p.msgId, code := 6, sub, detail := 0, hint := 0, time := s.now } p.psn s

/-- A NAK that names no kept message. -/
def plainNak (p : Pkt) (code sub : Nat) (detail : BitVec 32) (s : State) : State :=
  sendNak p.conn.toNat { msg := p.msgId, code, sub, detail, hint := 0, time := s.now } p.psn s

/-- Check 6 of R316: the tag of a packet, by its opcode and payload, verifies under the generation that KG names and the
nonce of R311 and R312. -/
def State.authentic (s : State) (p : Pkt) (ctl : Bool) (opcode : Nat) (payload : Bytes) : Bool :=
  let k := s.conn p.conn.toNat
  match k.kgGen p.kg with
  | none => false
  | some (_, key) => p.tag == sealTag p opcode key (rxNonce k.salt ctl (rxEpoch s.twin.epoch p.epl).1 p.psn) payload

/-- Checks 1 to 8 of R316, and the connection's role (R273, R307): `auth` says that the tag verifies, `wit` that only the
witness sends this opcode, `both` that a host and the witness do. -/
def rxChecks (p : Pkt) (ctl hdr auth wit both : Bool) (s : State) : State × Bool :=
  let c := p.conn.toNat
  let k := s.conn c
  if !(s.serving || k.wit) then (s, false)
  else if !s.frameOk p || !hdr then (dropFrame p s, false)
  else if k.st = .closed then (s, false)
  else if !both && k.wit != wit then (dropFrame p s, false)
  else match (if s.cipher.erased then none else k.kgGen p.kg) with
    | none => (dropAuth p 1 s, false)
    | some (gen, _) =>
      let (e, cmp) := rxEpoch s.twin.epoch p.epl
      let s := gcmJob true p.port c gen (rxNonce k.salt ctl e p.psn) p.plen.toNat s
      if !auth then (dropAuth p 0 s, false)
      else
        let s := notePath p s
        if cmp = -1 then (plainNak p 8 0 s.twin.epoch s, false)
        else if cmp = 1 then (s, false)
        else
          let s := s.modConn c (fun k => { k with noticeOn := false, notices := 0 })
          if k.st = .error then (plainNak p 5 6 0 s, false) else (switchKey c gen s, true)

/-! Answers to duplicates. -/

/-- R320: an answer of a message may be sent again now, at most once every 5 µs. -/
def mayResend (c : Nat) (id : MsgId) (s : State) : Bool × State :=
  let r := (s.conn c).resent.filter (fun e => decide (s.now < e.2 + 5000))
  if r.any (fun e => e.1 == id) then (false, s.modConn c (fun k => { k with resent := r }))
  else (true, s.modConn c (fun k => { k with resent := (id, s.now) :: r }))

/-- NAK of a dropped or refused message: the one kept, or SUB 5 where none is (R330, R348). -/
def Conn.nakOf (k : Conn) (id : MsgId) (now : Nat) : Option NakRec :=
  match k.naks.find? (fun n => n.msg == id) with
  | some n => some n
  | none => if k.dropped.contains id then some { msg := id, code := 5, sub := 5, detail := 0, hint := 0, time := now } else none

/-- R320, R331: send again the answer of a message that has been answered or refused. An atomic or FLUSH whose outcome is
no longer kept draws NAK_SEQUENCE, SUB 4. No durable acknowledgement leaves while R59, R60 or R281 withhold them. -/
def resendAnswer (p : Pkt) (op : Option NetOp) (s : State) : State :=
  let c := p.conn.toNat
  let id := p.msgId
  let k := s.conn c
  let stale := plainNak p 5 4 0
  match k.nakOf id s.now with
  | some n => sendNak c n p.psn s
  | none =>
    if (k.msg id).isSome then s
    else match op with
      | some .cas | some .fadd =>
        match k.atomics.find? (fun a => a.msg == id) with
        | some a => sendAtomicAnswer c a s
        | none => stale s
      | some .flush =>
        match k.flushed.find? (fun f => f.1 == id) with
        | some f => if dist id k.wmark < 1024 then sendFlushAnswer c id f.2 s else stale s
        | none => stale s
      | some .writeDurable => if k.durables.contains id && !s.durableHeld then sendAck c true id s else s
      | _ => s

/-- R320: a packet whose PSN is settled is answered with an ACK, and with the message's answer. -/
def answerSettled (p : Pkt) (op : Option NetOp) (s : State) : State :=
  let c := p.conn.toNat
  let s := sendAck c false 0 s
  let (ok, s) := mayResend c p.msgId s
  if ok then resendAnswer p op s else s

/-! Checks 9 and 10. -/

/-- The PSN is settled. -/
def Conn.settledPsn (k : Conn) (psn : Psn) : Bool := atOrBefore psn k.cumPsn || k.settled.contains psn

/-- Checks 9 and 10 of a sequenced packet (R316, R317, R337). -/
def seqChecks (p : Pkt) (op : Option NetOp) (s : State) : State × Bool :=
  let c := p.conn.toNat
  let k := s.conn c
  if k.settledPsn p.psn then (answerSettled p op s, false)
  else if !(later p.psn k.cumPsn) || decide (dist k.cumPsn p.psn > 256) then (s, false)
  else if !(atOrBefore (k.unit p.psn) k.limitMax) then (s, false)
  else (s, true)

/-- Check 9 of a control packet (R321): the CSN is new; it is then processed. -/
def ctlCheck (p : Pkt) (s : State) : State × Bool :=
  let c := p.conn.toNat
  let k := s.conn c
  let ok := match k.rxCsn with
    | none => true
    | some h => later p.psn h || (earlier p.psn h && decide (dist p.psn h < 256) && !k.rxCsns.contains p.psn)
  if !ok then (s, false)
  else
    let top := match k.rxCsn with | none => p.psn | some h => serialMax h p.psn
    (s.modConn c (fun k => { k with
      rxCsn := some top, rxCsns := (p.psn :: k.rxCsns).filter (fun x => decide (dist x top < 256)) }), true)

/-! Settling (R319, R320). -/

/-- CUMPSN moves over settled packets. -/
def cumAux : Nat → Conn → Conn
  | 0, k => k
  | n + 1, k =>
    if k.settled.contains (k.cumPsn + 1) then
      cumAux n { k with cumPsn := k.cumPsn + 1, settled := k.settled.filter (fun x => x != k.cumPsn + 1) }
    else k

/-- R319, R337: settle one sequenced packet; its unit is consumed. -/
def settlePkt (p : Pkt) (s : State) : State :=
  let c := p.conn.toNat
  let s := s.modConn c (fun k =>
    let k := { k with settled := k.settled ++ [p.psn], ackOwed := k.ackOwed + 1 }
    cumAux k.settled.length k)
  consumeUnit c p.psn s

/-- R320: an ACK at once after ACK_COUNT settled packets, or for a packet out of PSN order. -/
def ackDue (c : Nat) (outOfOrder : Bool) (s : State) : State :=
  let k := s.conn c
  if k.ackOwed ≠ 0 ∧ (outOfOrder ∨ k.ackOwed ≥ s.xport.ackCount) then sendAck c false 0 s else s

/-- R255: an XPORT entry at a change of credit. -/
def xportChanged (c : Nat) (s : State) : State :=
  let k := s.conn c
  if k.st = .closed ∨ !s.logging then s
  else match k.logged with
    | some (_, _, l, g) => if l = k.limit ∧ g = k.gen then s else logXport c s
    | none => logXport c s

/-! Messages (R324 to R331). -/

/-- Code, SUB, DETAIL and HINT of a refusal. -/
abbrev Refuse := Nat × Nat × BitVec 32 × Nat

/-- Bytes that a packet places. -/
def isWrite : NetOp → Bool
  | .write | .writeDurable => true
  | _ => false

/-- R327: a packet that reaches past 1 MiB, or a READ_REQ of a length out of range. -/
def tooBig (op : NetOp) (off n rlen : Nat) : Bool :=
  match op with
  | .write | .writeDurable => decide (off + n > 1048576)
  | .readReq => decide (rlen = 0) || decide (rlen > 1048576)
  | _ => false

/-- R326: a packet conflicts with its message, already begun. -/
def conflicts (m : Msg) (p : Pkt) (op : NetOp) (n : Nat) : Bool :=
  let off := p.msgOff.toNat
  m.op != op || m.akey != p.akey || m.raddr != p.raddr.toNat || (p.last && m.mlen.isSome)
    || (match m.mlen with | some l => decide (off + n > l) | none => false)
    || (p.last && m.ranges.any (fun r => decide (r.1 + r.2 > off + n)))
    || (p.first && off != 0) || meets m.ranges off n

/-- Extent of a packet in its message (R365). -/
def extent (op : NetOp) (off n rlen : Nat) : Nat :=
  match op with
  | .readReq => rlen
  | .cas | .fadd => 8
  | _ => off + n

/-- RIGHTS bit of an operation (R359). -/
def rightBit (op : NetOp) : Nat :=
  match op with | .readReq => 0 | .cas | .fadd => 2 | _ => 1

/-- The connection is in the grant's set (R359). -/
def member (c : Nat) (k : Conn) (g : Grant) (p : GrantParams) : Bool :=
  match p.setKind with | 0 => true | 1 => p.cls == k.cls | _ => g.conns.contains c

/-- R365: what admission decides: a refusal, with the drawers that it wakes, or the grant and the span taken. -/
inductive Admit where
  | refuse (r : Refuse) (wake : List Nat)
  | free
  | grant (g : Nat) (p : GrantParams) (span : List Nat)

/-- R365. -/
def State.admission (s : State) (c : Nat) (op : NetOp) (akey : BitVec 32) (raddr ext rlen : Nat) : Admit :=
  let k := s.conn c
  let swapS1 := match s.twin.swap with | .s1 .. => true | _ => false
  let writes := op != .readReq
  let access := fun (sub : Nat) => Admit.refuse (1, sub, akey, 0) []
  if k.st = .closing then access 6
  else if op = .flush then
    if s.dura.clow then .refuse (4, 1, 0, 10000) []
    else if swapS1 then .refuse (4, 3, 0, 5000) []
    else .free
  else
    let idx := akey.toNat % 131072
    let gen := akey.toNat / 131072
    let g := s.grant idx
    if gen = 0 then access 1
    else if g.gen ≠ gen then .refuse (2, 0, 0, 0) []
    else match g.st, g.params with
      | .free, _ | .live, none => access 1
      | .revoking, _ | .dead, _ => .refuse (2, 0, 0, 0) []
      | .live, some q =>
        if !member c k g q then access 2
        else if !q.rights.getLsbD (rightBit op) then access 3
        else if raddr < q.off ∨ raddr + ext > q.off + q.len then access 4
        else if isAtomic op ∧ raddr % 8 ≠ 0 then access 5
        else
          let hi := if op = .readReq ∨ isAtomic op then raddr + ext else Nat.min (raddr + 1048576) (q.off + q.len)
          let span := s.rangeDrawers q.nsid raddr (hi - raddr)
          let asleep := span.filter (fun d => (s.drw d).st != .awake)
          if !asleep.isEmpty && !(op == .readReq && s.schedRead c q.nsid raddr rlen) then
            .refuse (4, 0, 0, listMax 0 (asleep.map s.drawerHint)) asleep
          else if writes && s.dura.clow then .refuse (4, 1, 0, 10000) []
          else if writes && s.dura.overBud then .refuse (4, 2, 0, Nat.max 100 (Config.budgetHint s.draws)) []
          else if swapS1 then .refuse (4, 3, 0, 5000) []
          else .grant idx q span

/-- R365, R194: take the references of an admitted message. -/
def takeRefs (g : Nat) (span : List Nat) (s : State) : State :=
  let s := s.modGrant g (fun k => { k with refs := k.refs + 1 })
  forEach span (fun d s => s.modDrw d (fun k => { k with refs := k.refs + 1, lastUse := s.now })) s

/-- Refuse a message whose packet is settled: NAK, DROP entry with reason 2, DROPCNT; what waited behind it goes on. -/
def refuseMsg (p : Pkt) (r : Refuse) (s : State) : State :=
  settlePkt p (dropAndRelease p.conn.toNat (nakDrop p.conn.toNat p.msgId r.1 r.2.1 r.2.2.1 r.2.2.2 2 p.psn) s)

/-- R255: NET_WRITE entry of a packet. -/
def netEntry (p : Pkt) (m : Msg) (admission anchor : Bool) (data : Bytes) : LogEntry :=
  { anchor, durable := m.op == .writeDurable, conn := p.conn.toNat, msg := m.id, nsid := m.ns
    body := .netWrite p.msgOff.toNat (m.raddr + p.msgOff.toNat) (if p.last then m.mlen else none)
      (if admission then some m.akey else none) p.psn m.op data }

/-- R210: a packet of a connection has lines: those reserved behind its credit, or lines that no reservation holds. -/
def State.pktRoom (s : State) (c off len : Nat) : Bool :=
  s.lineRoom (decide ((s.conn c).rsvUnits ≠ 0)) (touched off len).length

/-- R27, R255, R256, R325: place a packet of a message, log its entry, and run the steps that it anchors. Nothing
happens when its lines cannot be placed. -/
def placePacket (p : Pkt) (admission : Bool) (data : Bytes) (s : State) : State :=
  let c := p.conn.toNat
  match (s.conn c).msg p.msgId with
  | none => s
  | some m =>
    let off := p.msgOff.toNat
    let placed := if !isWrite m.op then some s
      else if s.pktRoom c (m.raddr + off) data.length then placePending m.ns (m.raddr + off) data (c, m.id) (s.twin.sent + 1) s
      else none
    match placed with
    | none => s
    | some s =>
      let mlen := if p.last then some (off + data.length) else m.mlen
      let ranges := if isWrite m.op then addRange m.ranges off data.length else [(0, data.length)]
      let whole := !isWrite m.op || mlen == some (rangeBytes ranges)
      let s := s.modConn c (fun k => k.modMsg m.id (fun x => { x with
        mlen, ranges, psn := serialMax x.psn p.psn, st := if whole then .complete else .incomplete
        operand := if isWrite m.op then [] else data }))
      let m := ((s.conn c).msg m.id).getD m
      let due := match s.nextStep c with | some x => x.id == m.id && s.sharesAnchor x | none => false
      let (s, lsn) := logEntry (netEntry p m admission due data) s
      let s := s.modConn c (fun k => k.modMsg m.id (fun x => { x with lsns := x.lsns ++ [lsn] }))
      let s := if due then chain c false lsn s else s
      settlePkt p (advanceConn c s)

/-- R366, R326, R327: a later packet of a message in reassembly. -/
def laterPacket (p : Pkt) (op : NetOp) (m : Msg) (data : Bytes) (s : State) : State :=
  let off := p.msgOff.toNat
  if tooBig op off data.length 0 then refuseMsg p (7, 0, 0, 0) s
  else if conflicts m p op data.length then refuseMsg p (5, 2, 0, 0) s
  else match m.grant with
    | some (_, lo, len) =>
      if m.raddr + off < lo ∨ m.raddr + off + data.length > lo + len then refuseMsg p (1, 4, p.akey, 0) s
      else placePacket p false data s
    | none => placePacket p false data s

/-- Messages in reassembly (R334). -/
def State.inReassembly (s : State) : Nat :=
  s.xport.conns.foldl (fun n e => n + (e.2.msgs.filter (fun m => m.st == .incomplete)).length) 0

/-- R324 to R328, R365: the first packet to arrive of a message. A packet whose lines do not fit, or that finds every
reassembly entry taken, is discarded without being settled. -/
def firstPacket (p : Pkt) (op : NetOp) (data : Bytes) (rlen : Nat) (s : State) : State :=
  let c := p.conn.toNat
  let off := p.msgOff.toNat
  let n := data.length
  if tooBig op off n rlen then refuseMsg p (7, 0, 0, 0) s
  else if p.first ∧ off ≠ 0 then refuseMsg p (5, 2, 0, 0) s
  else if s.inReassembly ≥ 262144 ∨ s.prime.noAdmit then s
  else if isWrite op ∧ !s.pktRoom c (p.raddr.toNat + off) n then s
  else
    let m : Msg := { id := p.msgId, op, akey := p.akey, raddr := p.raddr.toNat, port := p.port, firstAt := s.now, rlen, psn := p.psn }
    match s.admission c op p.akey m.raddr (extent op off n rlen) rlen with
    | .refuse r wake => refuseMsg p r (wakeSpan wake s)
    | .free =>
      settlePkt p (advanceConn c (s.modConn c (fun k => { k with msgs := insMsg { m with st := .complete } k.msgs })))
    | .grant g q span =>
      let s := takeRefs g span s
      let m := { m with ns := q.nsid, grant := some (g, q.off, q.len), span }
      if op = .readReq then
        settlePkt p (advanceConn c (s.modConn c (fun k => { k with msgs := insMsg { m with st := .complete } k.msgs })))
      else placePacket p true data (s.modConn c (fun k => { k with msgs := insMsg m k.msgs }))

/-- R330, R331: a packet of a message at or below the watermark, or of one that has been dropped or refused. -/
def stalePacket (p : Pkt) (op : NetOp) (s : State) : State :=
  match op with
  | .writeDurable =>
    let k := s.conn p.conn.toNat
    let s := settlePkt p s
    match k.nakOf p.msgId s.now with
    | some n => sendNak p.conn.toNat n p.psn s
    | none => s
  | _ => resendAnswer p (some op) (settlePkt p s)

/-- Check 11 and 12: one sequenced packet of a host's message. -/
def hostPacket (p : Pkt) (op : NetOp) (data : Bytes) (rlen : Nat) (s : State) : State :=
  let c := p.conn.toNat
  let k := s.conn c
  if k.dropped.contains p.msgId ∨ !later p.msgId k.wmark then stalePacket p op s
  else if dist k.wmark p.msgId > 1024 then refuseMsg p (5, 3, 0, 0) s
  else match k.msg p.msgId with
    | some m => if m.st = .incomplete then laterPacket p op m data s else settlePkt p s
    | none => firstPacket p op data rlen s

/-- R35: keep the time at which the first packet of a message above the watermark arrived. -/
def noteArrival (p : Pkt) (s : State) : State :=
  s.modConn p.conn.toNat (fun k =>
    if k.settledPsn p.psn && later p.msgId k.wmark && !k.arrived.any (fun e => e.1 == p.msgId)
    then { k with arrived := (p.msgId, s.now) :: k.arrived } else k)

/-- A sequenced packet of a host, through every check, with what it brings about. `body` says that the reserved bytes of its
payload are zero, which shows after decryption only (log entry 142, DEDUCED). -/
def rxHost (p : Pkt) (op : NetOp) (hdr auth body : Bool) (data : Bytes) (rlen : Nat) (s : State) : State :=
  let (s, ok) := rxChecks p false hdr auth false false s
  if !ok then s
  else if !body then dropFrame p s
  else
    let (s, ok) := seqChecks p (some op) s
    if !ok then s
    else
      let c := p.conn.toNat
      let outOfOrder := p.psn != (s.conn c).cumPsn + 1
      settle (xportChanged c (ackDue c outOfOrder (noteArrival p (hostPacket p op data rlen s))))

/-! The commands. -/

/-- WRITE (R325, R27, R31). -/
def execWrite (p : Pkt) (data : Bytes) (s : State) : Res :=
  .next (rxHost p .write (headerOk p false data.length && decide (1 ≤ data.length)) (s.authentic p false 0x01 data) true data 0 s)

/-- WRITE_DURABLE (R322): placed as a write; answered at its varnish point. -/
def execWriteDurable (p : Pkt) (data : Bytes) (s : State) : Res :=
  .next (rxHost p .writeDurable (headerOk p false data.length && decide (1 ≤ data.length)) (s.authentic p false 0x02 data) true data 0 s)

/-- READ_REQ (R38, R371). -/
def execReadReq (p : Pkt) (rlen rsv : BitVec 32) (s : State) : Res :=
  .next (rxHost p .readReq (headerOk p false 8 && singleOk p) (s.authentic p false 0x03 (beBytes 4 rlen.toNat ++ beBytes 4 rsv.toNat))
    (rsv == 0) [] rlen.toNat s)

/-- FLUSH (R42, R333). -/
def execFlush (p : Pkt) (s : State) : Res :=
  .next (rxHost p .flush (headerOk p false 0 && singleOk p && noTarget p) (s.authentic p false 0x05 []) true [] 0 s)

/-- ATOMIC_CAS (R47, R374, R375). -/
def execAtomicCas (p : Pkt) (compare swap : Octet) (s : State) : Res :=
  let data := compare.toList ++ swap.toList
  .next (rxHost p .cas (headerOk p false 16 && singleOk p) (s.authentic p false 0x07 data) true data 0 s)

/-- ATOMIC_FADD (R47, R374). -/
def execAtomicFadd (p : Pkt) (addend rsv : Octet) (s : State) : Res :=
  let data := addend.toList ++ rsv.toList
  .next (rxHost p .fadd (headerOk p false 16 && singleOk p) (s.authentic p false 0x08 data) (rsv.toList == List.replicate 8 0) data 0 s)

end Sys2Proof.Machine
end

