-- ==== Sys2Proof/Machine/NetCtl.lean ====
section
/-! DEFINITION. Control packets of hosts, reads that complete, the transport's timers, and the Ethernet side of network
ports (R301, R314, R318 to R349, R352, R362, R370, R371). -/

namespace Sys2Proof.Machine

open Sys2Proof

/-! ACK and PROBE. -/

/-- SACK bit n (ACK body table). -/
def sackBit (b : AckBody) (n : Nat) : Bool := b.sack.getLsbD (255 - n)

/-- R318, R323: packets that an ACK settles. -/
def ackSettles (b : AckBody) (psn : Psn) : Bool :=
  atOrBefore psn b.cumpsn
    || (later psn b.cumpsn && decide (dist b.cumpsn psn ≤ 256) && sackBit b (dist b.cumpsn psn - 1))

/-- R347: halve the rate of a path, to no less than 1 Gb/s, at most once in 20 µs. -/
def halveRate (full now : Nat) (p : Path) : Path :=
  if p.halvedAt.any (fun t => decide (now < t + 20000)) then p
  else { p with rate := some (Nat.max 1000 (p.rate.getD full / 2)), halvedAt := some now }

/-- R339: release reservations once the host has seen the lowered CLIMIT. CSEEN is the low 32 bits of a CSN (log entry 140,
DEDUCED). -/
def creditSeen (c : Nat) (b : AckBody) (s : State) : State :=
  let k := s.conn c
  match k.lowerCsn with
  | some l =>
    if atOrBefore (l.truncate 32) b.cseen then
      let top := serialMax k.limit b.cused
      let drop := dist top k.limitMax
      if later k.limitMax top then
        setReserve c (k.rsvUnits - drop) (s.modConn c (fun k => { k with limitMax := top, lowerCsn := none }))
      else s.modConn c (fun k => { k with lowerCsn := none })
    else s
  | none => s

/-- R318, R321, R337, R339, R347: a host's ACK. -/
def ackBody (p : Pkt) (b : AckBody) (s : State) : State :=
  let c := p.conn.toNat
  let k := s.conn c
  let newest := k.rxCsn == some p.psn
  let s := s.modConn c (fun k => { k with txBuf := k.txBuf.filter (fun t => !ackSettles b t.psn) })
  let s := if newest then s.modConn c (fun k => { k with peerCum := b.cumpsn, hostLimit := p.climit, cused := b.cused }) else s
  let s := creditSeen c b s
  let rose := newest && later b.cecnt k.hostCe
  let s := if newest then s.modConn c (fun k => { k with hostCe := b.cecnt }) else s
  let s := if rose && s.xport.ecnReact == 1 then
      s.modConn c (fun k => { k with paths := k.paths.map (fun x =>
        if x.q = p.path.val then halveRate (modeRate (s.nport x.port).mode) s.now x else x) })
    else s
  pumpTx c s

/-- A control packet through its checks; `body` as in `rxHost`. -/
def rxControl (p : Pkt) (n : Nat) (auth body : Bool) (act : State → State) (s : State) : State :=
  let (s, ok) := rxChecks p true (headerOk p true n && controlOk p) auth false true s
  if !ok then s
  else if !body then dropFrame p s
  else
    let (s, ok) := ctlCheck p s
    if ok then settle (xportChanged p.conn.toNat (act s)) else s

/-- ACK (R318, R321, R339). -/
def execAck (p : Pkt) (b : AckBody) (s : State) : Res := .next (rxControl p 56 (s.authentic p true 0x0A (ackPayload b)) (b.rsv == 0) (ackBody p b) s)

/-- PROBE (R338, R340): credit is renewed and an ACK sent at once. -/
def execProbe (p : Pkt) (req : BitVec 32) (s : State) : Res :=
  let c := p.conn.toNat
  .next (rxControl p 4 (s.authentic p true 0x0C (beBytes 4 req.toNat)) true (fun s =>
    pumpTx c (sendAck c false 0 (renewCredit c (s.modConn c (fun k => { k with usedAt := s.now, hostLimit := if k.rxCsn = some p.psn then p.climit else k.hostLimit }))))) s)

/-! Reads. -/

/-- READ_GATHER_COMPLETE (R371 to R373): gather again, or fix the read point and answer. -/
def execReadGatherComplete (id : Nat) (s : State) : Res :=
  .next (match s.xport.gathers.find? (fun g => g.id == id) with
    | none => s
    | some g =>
      match g.net with
      | none => settle s
      | some (c, m) =>
        if !g.needs.isEmpty then s
        else if g.stale then settle (regather g s)
        else if s.gatherLate g then settle (gatherRun g s)
        else match (s.conn c).msg m with
          | some x => settle (answerRead c x g s)
          | none => settle (endGather id s))

/-! Timers of messages. -/

/-- R334: event 576 + 8p + 4, at most once per millisecond on a port. -/
def dropEvent (p : Nat) (s : State) : State := portEvent p 4 1000000 s

/-- REASSEMBLY_TIMEOUT (R34): an incomplete message is dropped, NAK_SEQUENCE SUB 0. -/
def execReassemblyTimeout (conn : Nat) (msg : MsgId) (s : State) : Res :=
  .next (match (s.conn conn).msg msg with
    | some m =>
      if m.st = .incomplete ∧ s.serving ∧ !s.prime.noAdmit then
        settle (dropEvent m.port (dropAndRelease conn (nakDrop conn msg 5 0 0 0 0 m.psn) s))
      else s
    | none => s)

/-- R35: the message after the watermark has had no packet, and a packet of a later one is a reassembly timeout old. -/
def State.missing (s : State) (c : Nat) : Bool :=
  let k := s.conn c
  let id := k.wmark + 1
  let old := fun (t : Nat) => decide (t + s.xport.reasm ≤ s.now)
  s.serving && !s.prime.noAdmit && (k.msg id).isNone && !k.dropped.contains id
    && !k.arrived.any (fun e => e.1 == id) && k.arrived.any (fun e => later e.1 id && old e.2)

/-- MISSING_MESSAGE_TIMEOUT (R35): NAK_SEQUENCE SUB 1. -/
def execMissingMessageTimeout (conn : Nat) (s : State) : Res :=
  .next (if s.missing conn then
      let id := (s.conn conn).wmark + 1
      settle (dropEvent (s.conn conn).port (dropAndRelease conn (nakDrop conn id 5 1 0 0 1 0) s))
    else s)

/-- ACK_DELAY_TIMER (R320). -/
def execAckDelayTimer (conn : Nat) (s : State) : Res :=
  .next (if (s.conn conn).ackOwed ≠ 0 then sendAck conn false 0 s else s)

/-! Timers of what the controller sends. -/

/-- R313, R336, R342: send a packet again, byte for byte but for RETX and PATH, on the next live path after the one that the
original took. It is no new job of the cipher (log entry 141, DEDUCED). -/
def retransmit (c : Nat) (t : TxPkt) (s : State) : State :=
  let k := s.conn c
  let path := (nextPath k s.now t.path false).getD (k.ctlPath c)
  let t := { t with retries := t.retries + 1, timer := Nat.min 10000000 (2 * t.timer), time := s.now }
  let s := s.modConn c (fun k => chargePath path.q (t.data.length + 102) s.now
    { k with txBuf := k.txBuf.map (fun x => if x.psn = t.psn then t else x) })
  let s := s.modNport path.port (fun n => { n with retx := sat16 n.retx })
  match t.sent with
  | none => s
  | some (h, payload) =>
    let h := { h with retx := true, path := path.q }
    sendNet k path false h t.body (h.bytes ++ payload.drop 40) s

/-- RETRANSMIT_TIMER (R342, R344, R356). -/
def execRetransmitTimer (conn : Nat) (psn : Psn) (s : State) : Res :=
  let k := s.conn conn
  .next (match k.txBuf.find? (fun t => t.psn == psn) with
    | none => s
    | some t =>
      if !s.maySend k then s
      else if t.retries ≥ k.retryMax then
        if k.st = .closing then settle (connClosed conn s) else settle (connError conn s)
      else retransmit conn t s)

/-- CREDIT_IDLE_TIMER (R338). -/
def execCreditIdleTimer (conn : Nat) (s : State) : Res :=
  let k := s.conn conn
  .next (if k.st ≠ .closed ∧ later k.limit k.received then xportChanged conn (lowerCredit conn s) else s)

/-- HOST_CREDIT_WAIT_TIMER (R341): event 576 + 8p + 3 for the port of the latest packet. -/
def execHostCreditWaitTimer (conn : Nat) (s : State) : Res :=
  .next (if (s.conn conn).creditWait.isSome then portEvent (s.conn conn).port 3 1000000 s else s)

/-- PROBE_RESEND_TIMER (R340): PROBE again, its interval doubling to at most 1 ms. -/
def execProbeResendTimer (conn : Nat) (s : State) : Res :=
  let k := s.conn conn
  .next (if k.creditWait.isSome ∧ !k.txWait.isEmpty then
      sendCtl conn 0 (.probe k.txWait.length)
        (s.modConn conn (fun k => { k with probeIval := Nat.min 1000000 (2 * k.probeIval) }))
    else s)

/-- PATH_LIVENESS_TIMER (R335). -/
def execPathLivenessTimer (conn q : Nat) (s : State) : Res :=
  .next (s.modConn conn (fun k => { k with paths := k.paths.map (fun p => if p.q = q then { p with live := false } else p) }))

/-- R347: 5 % of the sub-port's rate more, up to the sub-port's rate. -/
def raiseRate (full : Nat) (p : Path) : Path :=
  match p.rate with
  | some r => { p with rate := if r + full / 20 ≥ full then none else some (r + full / 20) }
  | none => p

/-- ECN_RATE_TIMER (R347). -/
def execEcnRateTimer (conn q : Nat) (s : State) : Res :=
  .next (if s.xport.ecnReact = 1 then
      pumpTx conn (s.modConn conn (fun k => { k with paths := k.paths.map (fun p =>
        if p.q = q then raiseRate (modeRate (s.nport p.port).mode) p else p) }))
    else s)

/-- KEY_GENERATION_DISCARD (R314). -/
def execKeyGenerationDiscard (conn : Nat) (s : State) : Res :=
  .next (match (s.conn conn).oldGen with
    | some g =>
      erasePalette (fun t => t == .conn conn g)
        (s.modConn conn (fun k => { k with keys := k.keys.filter (fun e => e.1 != g), oldGen := none }))
    | none => s)

/-- R285, R349: the TAKEOVER notice of a connection. -/
def sendNotice (c : Nat) (s : State) : State :=
  let k := s.conn c
  sendCtl c 0 (.takeover s.twin.epoch k.wmark k.cumPsn k.txPsn k.dropcnt) s

/-- TAKEOVER_NOTICE_REPEAT (R349): at most 50 times, until a packet under the new epoch is accepted. -/
def execTakeoverNoticeRepeat (conn : Nat) (s : State) : Res :=
  let k := s.conn conn
  .next (if k.noticeOn ∧ k.notices ≠ 0 then
      sendNotice conn (s.modConn conn (fun k => { k with notices := k.notices - 1 }))
    else s)

/-- XPORT_ENTRY_TIMER (R255): read-side state of a connection. -/
def execXportEntryTimer (conn : Nat) (s : State) : Res :=
  .next (if (s.conn conn).st ≠ .closed ∧ s.logging then logXport conn s else s)

/-! Grants. -/

/-- R361, R362: a slot returns to FREE, its generation advanced. -/
def freeGrant (g : Nat) (s : State) : State :=
  s.modGrant g (fun k => { gen := if k.gen ≥ 32767 then 1 else k.gen + 1 })

/-- GRANT_DEAD_TIMER (R362). -/
def execGrantDeadTimer (slot : Nat) (s : State) : Res :=
  .next (if (s.grant slot).st = .dead then freeGrant slot s else s)

/-- R370: drop the messages that hold a reference on a grant and have neither been shown nor begun gathering. -/
def revocationDrop (g : Nat) (s : State) : State :=
  forEach (s.xport.conns.map (·.1)) (fun c s =>
    forEach ((s.conn c).msgs.filter (fun m => (m.st == .incomplete || m.st == .complete)
        && (match m.grant with | some (x, _, _) => x == g | none => false)))
      (fun m s => dropAndRelease c (nakDrop c m.id 2 0 0 0 2 m.psn) s) s) s

/-- REVOCATION_DROP_TIMER (R370). -/
def execRevocationDropTimer (slot : Nat) (s : State) : Res :=
  .next (if (s.grant slot).st = .revoking ∧ s.serving then settle (revocationDrop slot s) else s)

/-! Ethernet (R299 to R301, R352). -/

/-- Sub-ports that a mode provides (R299). -/
def modeSubs (mode : Nat) : Nat := if mode = 0 then 1 else if mode = 1 then 2 else 4

/-- R301: a sub-port announces its own service addresses. -/
def announceSub (p q : Nat) (s : State) : State :=
  let x := s.subPort p q
  if !x.up then s
  else
    let s := if x.ip4 ≠ 0 then s.send (.arp p q true) else s
    if x.ip6 ≠ 0 then s.send (.neighbour p q true) else s

/-- R301: every sub-port with link announces. -/
def announceAll (s : State) : State :=
  forEach (List.range 8) (fun p s => forEach (List.range 4) (fun q s => announceSub p q s) s) s

/-- R2, R286: the controller may send from a service address on this sub-port. -/
def State.mayAnswer (s : State) (p q : Nat) : Bool := s.serving && s.twin.hostTx && (s.subPort p q).up

/-- ARP_REQUEST (R301). -/
def execArpRequest (port : Fin 8) (sub : Fin 4) (ip4 : Nat) (s : State) : Res :=
  .next (if s.mayAnswer port sub ∧ ip4 ≠ 0 ∧ (s.subPort port sub).ip4 = ip4 then s.send (.arp port sub false) else s)

/-- NEIGHBOUR_SOLICITATION (R301). -/
def execNeighbourSolicitation (port : Fin 8) (sub : Fin 4) (ip6 : Nat) (s : State) : Res :=
  .next (if s.mayAnswer port sub ∧ ip6 ≠ 0 ∧ (s.subPort port sub).ip6 = ip6 then s.send (.neighbour port sub false) else s)

/-- ECHO_REQUEST (R301): at most 1,000 answers per second on a sub-port. -/
def execEchoRequest (port : Fin 8) (sub : Fin 4) (v6 : Bool) (dst : Nat) (s : State) : Res :=
  let x := s.subPort port sub
  let recent := x.echoes.filter (fun t => decide (s.now < t + 1000000000))
  .next (if s.mayAnswer port sub ∧ dst ≠ 0 ∧ (if v6 then x.ip6 else x.ip4) = dst ∧ recent.length < 1000 then
      (s.modSub port sub (fun x => { x with echoes := s.now :: recent })).send (.echo port sub v6)
    else s)

/-- NON_VORWIRI_FRAME (R300, R301): discarded. -/
def execNonVorwiriFrame (_port : Fin 8) (_sub : Fin 4) (s : State) : Res := .next s

/-- R235: the ACKs that a port's map holds, each built from its connection's present state. -/
def pendingCtl (port : Nat) (s : State) : State :=
  forEach (s.nport port).ctlPend (fun c s => sendAck c false 0 s) (s.modNport port (fun n => { n with ctlPend := [] }))

/-- SUBPORT_LINK_CHANGE (R301, R352): UP, FLAPS and event 576 + 8p + 0; a sub-port that gains link announces. -/
def execSubportLinkChange (port : Fin 8) (sub : Fin 4) (up : Bool) (s : State) : Res :=
  .next (if sub.val ≥ modeSubs (s.nport port).mode ∨ (s.subPort port sub).up = up
      ∨ (up ∧ s.test.badNet.contains port.val) then s
    else
      let s := s.modNport port (fun n => { n with
        subs := modAt n.subs sub (fun x => { x with up }), flaps := sat8 n.flaps })
      let s := raiseWith (576 + 8 * port.val) port sub.val s
      let s := if up ∧ s.serving ∧ s.twin.hostTx then announceSub port sub s else s
      if up then pendingCtl port s else s)

/-- NETWORK_FEC_WINDOW (R352): FECDEG, and event 576 + 8p + 1 when it goes to 1. -/
def execNetworkFecWindow (port : Fin 8) (sub : Fin 4) (corrected : Nat) (uncor : Bool) (s : State) : Res :=
  let deg := decide (corrected > 1000000) || uncor
  .next (if sub.val ≥ modeSubs (s.nport port).mode then s
    else
      let was := (s.subPort port sub).fecDeg
      let s := s.modSub port sub (fun x => { x with fecDeg := deg })
      if deg ∧ !was then raiseWith (576 + 8 * port.val + 1) port sub.val s else s)

end Sys2Proof.Machine
end

