-- ==== Sys2Proof/Machine/CfgOps.lean ====
section
/-! DEFINITION. The configuration commit (R433, R434): what each committed record requires, and what it changes. The
same `applyCfg` serves a mailbox command's commit and a CONTROL entry of the log. -/

namespace Sys2Proof.Machine

open Sys2Proof

/-! Key blobs (R264, R462, R472). -/

/-- R472: the material of a blob, when it unwraps under this twin's KEK. -/
def State.unwrap (s : State) (b : Blob) : Option Bytes :=
  s.cipher.kek.bind (fun k => unwrapKey k.bytes b)

/-- R264: this twin's blob of a pair, and the peer's. -/
def State.ownBlob (s : State) (b0 b1 : Blob) : Blob := if s.twin.num = 0 then b0 else b1
def State.peerBlob (s : State) (b0 b1 : Blob) : Blob := if s.twin.num = 0 then b1 else b0

/-- R460: the connection key of a generation: 32-byte material, or 16-byte material that the KDF of R461 expands. -/
def connKey (conn gen : Nat) (m : Bytes) : Option ConnKey :=
  if m.length = 32 then some { bytes := m }
  else if m.length = 16 then some { bytes := kdf m (asciiBytes "VORWIRI-AES256") (beBytes 2 conn ++ leBytes 1 gen) }
  else none

/-- The key of a connection blob, where it unwraps to material of a length that fits. -/
def State.connBlob (s : State) (conn gen : Nat) (b0 b1 : Blob) : Option ConnKey :=
  (s.unwrap (s.ownBlob b0 b1)).bind (connKey conn gen)

/-- R462, R472: the reason to refuse a namespace blob. -/
def State.nsBlobBad (s : State) (b : Option Blob) : Option Nat :=
  match b.bind s.unwrap with
  | none => some 0x0901
  | some m => if m.length ≠ 64 then some 0x0901 else if m.take 32 = m.drop 32 then some 0x0902 else none

/-! Allocation (R80, R81). -/

/-- R80, R197, R686: the group may take a unit of a namespace. -/
def State.allocOk (s : State) (parkable : Bool) (g : Nat) : Bool :=
  let d := s.drw (grpDrawer g)
  s.live g && d.st == .awake && d.parkable == parkable && decide (s.freeEasels g > 0)

/-- R80: the easel of the next unit. -/
def State.allocPick (s : State) (parkable : Bool) : Option (Nat × Nat) :=
  let g := ((List.range 16).filter (s.allocOk parkable)).foldl (fun (acc : Option Nat) g => match acc with
    | none => some g
    | some a => if s.freeEasels g > s.freeEasels a then some g else some a) none
  match g with
  | none => none
  | some g => (s.lowestFree g).map (fun e => (g, e))

/-- R81: an easel is allocated: fresh keys, start, gap and count; its spare remap table is kept; its zero writes
begin. -/
def takeEasel (ek nsid unit psi : Nat) (s : State) : State :=
  let (v, s) := s.draw
  startFill ek (s.modEasel ek (fun x => { x with
    nsid, unit, key := roundKeys v, start := 0, gap := 1048576, psi, wcount := 0 }))

/-- R80: allocate `n` units of a namespace from unit `u` on; none when the eligible groups lack easels. -/
def allocUnits : Nat → Nat → Nat → Nat → Bool → State → Option (List (Nat × Nat) × State)
  | 0, _, _, _, _, s => some ([], s)
  | n + 1, nsid, u, psi, parkable, s =>
    match s.allocPick parkable with
    | none => none
    | some (g, e) =>
      match allocUnits n nsid (u + 1) psi parkable (takeEasel (easelKey g e) nsid u psi s) with
      | some (l, s) => some ((g, e) :: l, s)
      | none => none

/-- Free easels that R80 offers a namespace. -/
def State.freeFor (s : State) (parkable : Bool) : Nat :=
  ((List.range 16).filter (s.allocOk parkable)).foldl (fun n g => n + s.freeEasels g) 0

/-- R443: an easel is freed. -/
def freeEasel (ek : Nat) (s : State) : State :=
  let s := s.modEasel ek (fun x => { x with nsid := 0, unit := 0, filling := false })
  { s with ops := s.ops.filter (fun o => match o.purpose with | .fill k _ => k != ek | _ => true) }

/-- Data of a namespace from an offset on leaves the sump, the overflow and the pool. -/
def dropData (nsid off : Nat) (s : State) : State :=
  s.modSump (fun u => { u with
    lines := u.lines.filter (fun l => !(l.ns == nsid && decide (64 * l.line ≥ off) && l.st != .intent))
    overflow := u.overflow.filter (fun e => !(e.ns == nsid && decide (256 * e.cw ≥ off)))
    pages := (u.pages.map (fun p => if p.ns = nsid then { p with cws := p.cws.filter (fun c => decide (256 * c.1 < off)) } else p)).filter
      (fun p => !p.cws.isEmpty) })

/-- Lowest free number from `lo` on below `hi`. -/
def lowestFrom (lo hi : Nat) (used : Nat → Bool) : Option Nat := ((List.range (hi - lo)).map (· + lo)).find? (fun i => !used i)

/-- Namespace ID that CREATE_NS takes (R442). -/
def State.pickNs (s : State) (nsid : Nat) : Option Nat :=
  if nsid = 0 then lowestFrom 1 1024 (fun i => (s.ns i).isSome)
  else if nsid > 1023 ∨ (s.ns nsid).isSome then none else some nsid

/-- Change a namespace. -/
def State.modNs (s : State) (id : Nat) (f : Ns → Ns) : State :=
  s.modCtl (fun c => { c with nss := c.nss.map (fun e => if e.1 = id then (e.1, f e.2) else e) })

/-! Named objects. -/

/-- R432: an object that the record names does not exist. -/
def State.cfgMissing (s : State) : Cfg → Bool
  | .integrity scope unit _ _ => (scope == 1 && decide (unit ≥ 144)) || (scope == 2 && decide (unit ≥ 16)) || (scope == 4 && decide (unit ≥ 32))
  | .port p => decide (p.port ≥ 8)
  | .deleteNs n | .resizeNs n _ | .nsAttr n _ _ | .sanitize n => (s.ns n).isNone
  | .setDrawer d _ _ => decide (d ≥ 8)
  | .schedCreate p => (s.ns p.nsid).isNone
  | .schedAppend h _ | .schedStart h | .schedDelete h => (s.sched h).isNone
  | _ => false

/-! Ranges (the owning chapters' codes). -/

/-- Value absent or within a range. -/
def inRange (v : Option Nat) (lo hi : Nat) : Bool :=
  match v with
  | none => true
  | some x => decide (lo ≤ x) && decide (x ≤ hi)

/-- Reason and unit of a refusal unless a condition holds. -/
def need (ok : Bool) (reason unit : Nat) : Option (Nat × Nat) := if ok then none else some (reason, unit)

/-- First refusal of several. -/
def firstOf : List (Option (Nat × Nat)) → Option (Nat × Nat)
  | [] => none
  | some r :: _ => some r
  | none :: t => firstOf t

/-- Device level (R430's result block). -/
def devUnit : Nat := 0xFFFF

/-- Parameters of SET_INTEGRITY by number: CE_THRESH, RETIRE_SYM, ROW_LEASE, SCRUB_DAYS, SCRUB_SHARE, PARK_SCRUB_DAYS,
PARK_SCRUB_RATE, REBUILD_SHARE, AUTO_REBUILD (R139); SR_IDLE, ACT_THRESH, RH_RADIUS, RH_EVENT, DR_CE_THRESH (R575);
TT_PASS (R618), each in the order of its table. Scope 1 is a media channel, 2 a group, 3 the device, 4 the DRAM, with the
channel as unit where the parameter has one (log entry 46, DESIGN CHOICE). Scope, least and greatest. -/
def integrityParam : Nat → Option (Nat × Nat × Nat)
  | 0 => some (1, 1, 65535) | 1 => some (1, 1, 8) | 2 => some (3, 5, 200) | 3 => some (3, 1, 60) | 4 => some (3, 1, 20)
  | 5 => some (3, 7, 365) | 6 => some (3, 1, 16) | 7 => some (2, 5, 100) | 8 => some (2, 0, 1)
  | 9 => some (4, 0, 1000) | 10 => some (4, 256, 8192) | 11 => some (4, 1, 2) | 12 => some (4, 1, 65535) | 13 => some (4, 1, 65535)
  | 14 => some (3, 1, 1440)
  | _ => none

/-- Reason code of a parameter outside its range (R139, R575, R641). -/
def integrityReason (param : Nat) : Nat := if param = 14 then 0x0065 else if 9 ≤ param ∧ param ≤ 13 then 0x0601 else 0x0209

/-- SET_POOL's values in the candidate configuration (R681). -/
def Sump.candidate (u : Sump) (p : PoolParams) : Sump :=
  { u with
    intentRsv := p.intentRsv.getD u.intentRsv, spillHigh := p.spillHigh.getD u.spillHigh
    spillLow := p.spillLow.getD u.spillLow, mergeWait := p.mergeWait.getD u.mergeWait
    readFloor := p.readFloor.getD u.readFloor, pfFloor := p.pfFloor.getD u.pfFloor }

/-- R472: a blob check failed, so event 874 is raised. -/
def blobReason (r : Nat) : Bool := r == 0x0419 || r == 0x0901

/-- R359: the rules of RIGHTS, SETKIND, CLASS and COUNT. -/
def rulesOk (p : GrantParams) : Bool :=
  p.rights.toNat / 8 == 0 && p.rights != 0 && decide (p.setKind ≤ 2) && decide (p.pinned ≤ 1)
    && (if p.setKind = 1 then decide (1 ≤ p.cls) && decide (p.cls ≤ 65535) else p.cls == 0)
    && (if p.setKind = 2 then decide (1 ≤ p.count) && decide (p.count ≤ 8) && p.conns.length == p.count else p.count == 0)

/-- R359: OFFSET and LENGTH. -/
def spanOk (p : GrantParams) (size : Nat) : Bool :=
  p.off % 64 == 0 && p.len % 64 == 0 && decide (p.len ≥ 64) && decide (p.off + p.len ≤ size)

/-- R199: one extent of a schedule. -/
def extentOk (size : Nat) (e : Nat × Nat) : Bool :=
  e.1 % 256 == 0 && e.2 % 256 == 0 && decide (256 ≤ e.2) && decide (e.2 ≤ 1073741824) && decide (e.1 + e.2 ≤ size)

/-- Size of a namespace in bytes, 0 where it does not exist. -/
def State.nsSize (s : State) (id : Nat) : Nat := match s.ns id with | some n => n.size | none => 0

/-- Lowest FREE grant slot (R360). -/
def State.freeSlot (s : State) : Option Nat :=
  let k := s.xport.grants.foldl (fun k e => if e.1 = k ∧ e.2.st ≠ .free then k + 1 else k) 0
  if k < 131072 then some k else none

/-- A decoder of the HDM table. -/
def State.hdm (s : State) (k : Nat) : Hdm := s.host.hdm.getD k {}

/-- R301, R351: another sub-port than this one holds a service address of the record. -/
def State.addrTaken (s : State) (p : PortParams) : Bool :=
  (List.range 8).any (fun i => (List.range 4).any (fun j =>
    let x := s.subPort i j
    (i != p.port || j != p.sub) && ((p.mac != 0 && x.mac == p.mac) || (p.ip4 != 0 && x.ip4 == p.ip4) || (p.ip6 != 0 && x.ip6 == p.ip6))))

/-- R432: every parameter within its range: reason and unit of the first fault. -/
def State.cfgRange (s : State) : Cfg → Option (Nat × Nat)
  | .durability p k t => need (inRange p 100 10000 && inRange k 10 50 && (k.getD 10) % 5 == 0 && inRange t 20 200) 0x0020 devUnit
  | .integrity scope unit param value =>
    match integrityParam param with
    | some (sc, lo, hi) => firstOf [need (sc == scope && decide (lo ≤ value) && decide (value ≤ hi)) (integrityReason param) (if scope = 3 then devUnit else unit),
        need (!((param == 9 || param == 13) && (s.drch unit).st == 3)) 0x0602 unit]
    | none => some (0x0209, if scope = 3 then devUnit else unit)
  | .pool p => firstOf [
      need (inRange p.intentRsv 8192 32768 && inRange p.spillHigh 50 90 && inRange p.spillLow 30 85
        && inRange p.mergeWait 0 200000 && inRange p.readFloor 4096 65536 && inRange p.pfFloor 1024 32768) 0x0801 devUnit,
      need (p.intentRsv.isNone || s.prime.drain.isNone) 0x0804 devUnit]
  | .port p => firstOf [
      need (decide (p.mode ≤ 2) && decide (p.sub < 4) && decide (p.vlan ≤ 4094) && decide (p.pcp ≤ 7)) 0x0401 p.port,
      need (p.mode == (s.nport p.port).mode || !s.xport.conns.any (fun e => e.2.paths.any (fun x => x.live && x.port == p.port)))
        0x0402 p.port]
  | .xport p =>
    need (inRange p.dscpData 0 63 && inRange p.dscpCtrl 0 63 && inRange p.ecnMark 0 1 && inRange p.ecnReact 0 1
      && inRange p.ackCount 1 32 && inRange p.ackDelay 500 10000 && (p.ackDelay.getD 500) % 500 == 0
      && inRange p.reasm 1000000 100000000 && inRange p.creditIdle 100000 100000000) 0x0401 devUnit
  | .hostport r q v w => need (inRange r 1 6 && inRange q 0 1 && inRange v 0 65535 && inRange w 0 65535) 0x0041 devUnit
  | .setHdm k _ | .clearHdm k => firstOf [need (decide (k ≤ 3)) 0x0041 devUnit, need (!(s.hdm k).committed) 0x0044 devUnit]
  | .eventRoute ev vec cores _ =>
    need (!eventReserved ev && decide (vec ≤ 2047) && decide (1 ≤ cores) && decide (cores ≤ 15)) 0x0B01 ev
  | .compat m => need (decide (m ≤ 1)) 0x0021 devUnit
  | .mbx l a => need (inRange l 1 600 && inRange a 0x10 0x6F) 0x0022 devUnit
  | .createNs p => firstOf [
      need (s.pickNs p.nsid).isSome 0x0010 devUnit, need (decide (1 ≤ p.units) && decide (p.units ≤ 58240)) 0x0011 devUnit,
      need (decide (32 ≤ p.psi) && decide (p.psi ≤ 1024)) 0x0203 devUnit, need (!(p.encrypted && s.cipher.erased)) 0x0904 devUnit,
      if p.encrypted then (s.nsBlobBad (if s.twin.num = 0 then p.blob0 else p.blob1)).map (fun r => (r, devUnit)) else none]
  | .resizeNs _ units => need (decide (1 ≤ units) && decide (units ≤ 58240)) 0x0011 devUnit
  | .setDrawer d _ idle => firstOf [need ((s.drw d).st != .dfault) 0x0305 d, need (decide (idle ≤ 86400)) 0x0306 d]
  | .openConn p => firstOf [
      need (decide (p.conn ≤ 65535) && decide (1 ≤ p.cls) && decide (p.cls ≤ 65535) && decide (1 ≤ p.retryMax)
        && decide (p.retryMax ≤ 15) && decide (4 ≤ p.creditWin) && decide (p.creditWin ≤ 1024)) 0x0411 devUnit,
      need ((s.conn p.conn).st == .closed) 0x0410 devUnit, need (!s.cipher.erased) 0x0904 devUnit,
      need (s.connBlob p.conn 0 p.blob0 p.blob1).isSome 0x0419 devUnit]
  | .closeConn c => need ((s.conn c).st != .closed) 0x0411 devUnit
  | .rekey c g b0 b1 => firstOf [
      need ((s.conn c).st == .opened || (s.conn c).st == .closing) 0x0411 devUnit,
      need ((s.conn c).keys.length ≤ 1 && g == (listMax 0 ((s.conn c).keys.map (·.1))) + 1) 0x0404 devUnit,
      need (!s.cipher.erased) 0x0904 devUnit, need (s.connBlob c g b0 b1).isSome 0x0419 devUnit]
  | .regGrant p => firstOf [
      need (s.ns p.nsid).isSome 0x0413 devUnit, need (spanOk p (s.nsSize p.nsid)) 0x0414 devUnit, need (rulesOk p) 0x0415 devUnit,
      need s.freeSlot.isSome 0x0412 devUnit]
  | .revokeGrant g => need ((s.grant g).st == .live) 0x0416 devUnit
  | .witness p => firstOf [
      need (decide (p.witPort ≤ 7)) 0x0504 devUnit, need (s.twin.witReqs.all (fun r => r.wtype != 2 && r.wtype != 3)) 0x0505 devUnit,
      need (!s.cipher.erased) 0x0904 devUnit, need (s.connBlob Config.witConn.1 0 p.blob0 p.blob1).isSome 0x0419 devUnit]
  | .twin p =>
    need (inRange p.twinCredit 1024 16384 && inRange p.resyncShare 5 100 && inRange p.ueStorm 64 65535 && inRange p.hsWait 5 600)
      0x0504 devUnit
  | .sanitize n => need (!((match s.ns n with | some x => x.encrypted | none => false) && s.cipher.erased)) 0x0904 devUnit
  | .schedCreate p => need (decide (p.leadMs ≤ 10000) && decide (16 ≤ p.lookahead) && decide (p.lookahead ≤ 4096)
      && (match p.conn with | some c => decide (c ≤ 65535) | none => true)) 0x0306 devUnit
  | .schedAppend h l => need (decide (1 ≤ l.length) && decide (l.length ≤ 3)
      && (match s.sched h with | some k => l.all (extentOk (s.nsSize k.nsid)) | none => true)) 0x0306 devUnit
  | .schedStart h => need (match s.sched h with | some k => !k.extents.isEmpty | none => true) 0x0306 devUnit
  | _ => none

/-! The consistency check (R434). -/

/-- R363: end of the highest LIVE or REVOKING grant on a namespace; none when no such grant exists. -/
def State.grantEnd (s : State) (n : Nat) : Option Nat :=
  (s.xport.grants.filterMap (fun e => match e.2.params with
    | some p => if (e.2.st = .live ∨ e.2.st = .revoking) ∧ p.nsid = n then some (p.off + p.len) else none
    | none => none)).foldl (fun acc x => some (Nat.max x (acc.getD 0))) none

/-- R399: a decoder maps the namespace. -/
def State.mapped (s : State) (n : Nat) : Bool := n != 0 && s.host.hdm.any (fun h => h.nsid == n)

/-- R199: a schedule has an extent in the namespace that ends above `size`. -/
def State.schedBeyond (s : State) (n size : Nat) : Bool :=
  s.ctl.scheds.any (fun e => e.2.nsid == n && e.2.extents.any (fun x => decide (x.1 + x.2 > size)))

/-- R197: first drawer of a namespace whose marking differs from `parkable`. -/
def State.misplaced (s : State) (n : Nat) (parkable : Bool) : Option Nat :=
  (s.nsDrawers n).find? (fun d => (s.drw d).parkable != parkable)

/-- R197: a namespace on the drawer differs in PARKABLE from `parkable`. -/
def State.drawerHolds (s : State) (d : Nat) (parkable : Bool) : Bool :=
  s.ctl.nss.any (fun e => e.2.parkable != parkable && e.2.units.any (fun u => grpDrawer u.1 == d))

/-- Decoders mapped (R396: the lowest ones). -/
def State.mappedCount (s : State) : Nat := (s.host.hdm.filter (fun h => h.nsid != 0)).length

/-- MiB of the usable pool: 3,584 for each usable channel (R553). -/
def State.poolMiB (s : State) : Nat := 3584 * s.dram.usable.length

/-- R434: the first rule on the configuration as a whole that the candidate breaks: reason and unit. -/
def State.cfgConsistent (s : State) : Cfg → Option (Nat × Nat)
  | .pool p =>
    let c := s.sump.candidate p
    firstOf [need (decide (30 ≤ c.spillLow) && decide (c.spillLow + 5 ≤ c.spillHigh)) 0x0801 devUnit,
      need ((p.readFloor.isNone && p.pfFloor.isNone)
        || decide (20360 + c.readFloor + c.pfFloor + 256 + 64 + 2048 + 256 ≤ s.poolMiB)) 0x0802 devUnit]
  | .port p =>
    need (!s.addrTaken p) 0x0403 p.port
  | .setHdm k n => firstOf [
      need (s.ns n).isSome 0x0043 devUnit,
      need (match s.ns n with | some x => !x.parkable | none => true) 0x0308 devUnit,
      need (match s.ns n with | some x => !x.visVarnish | none => true) 0x0042 devUnit,
      need (!(List.range 4).any (fun j => j != k && (s.hdm j).nsid == n && n != 0)) 0x0043 devUnit,
      need (decide (k ≤ s.mappedCount)) 0x0045 devUnit]
  | .clearHdm k => need (k + 1 == s.mappedCount) 0x0045 devUnit
  | .createNs p => need (decide (p.units ≤ s.freeFor p.parkable)) 0x0202 devUnit
  | .deleteNs n => firstOf [
      need (s.grantEnd n).isNone 0x0417 devUnit, need (!s.mapped n) 0x0046 devUnit, need (!s.schedBeyond n 0) 0x0306 devUnit]
  | .resizeNs n units => match s.ns n with
    | none => none
    | some x => firstOf [
        need (!s.mapped n || units == x.units.length) 0x0046 devUnit,
        need (match s.grantEnd n with | some e => decide (e ≤ units * 2147483648) | none => true) 0x0417 devUnit,
        need (!s.schedBeyond n (units * 2147483648)) 0x0306 devUnit,
        need (decide (units - x.units.length ≤ s.freeFor x.parkable)) 0x0202 devUnit]
  | .nsAttr n parkable _ => match s.ns n with
    | none => none
    | some x =>
      if x.parkable = parkable then none
      else firstOf [
        need (!(parkable && (s.grantEnd n).isSome)) 0x0417 devUnit, need (!(parkable && s.mapped n)) 0x0046 devUnit,
        (s.misplaced n parkable).map (fun d => (0x0304, d))]
  | .setDrawer d parkable _ => need ((s.drw d).parkable == parkable || !s.drawerHolds d parkable) 0x0304 d
  | .regGrant p =>
    need (!(p.pinned == 1 && (s.rangeDrawers p.nsid p.off p.len).any (fun d => (s.drw d).st == .dfault))) 0x0418 devUnit
  | .sanitize n => need ((s.grantEnd n).isNone && !s.mapped n) 0x0903 devUnit
  | .schedCreate _ => need (decide (s.ctl.scheds.length < 64)) 0x0306 devUnit
  | .schedAppend h l => need (match s.sched h with | some k => decide (k.extents.length + l.length ≤ 4096) | none => true) 0x0306 devUnit
  | _ => none

/-- R354, R432: a resource that the record needs is not free now: the hint of the BUSY answer, in µs. -/
def State.cfgBusy (s : State) : Cfg → Option Nat
  | .openConn p => if s.linesLeft < unitLines * p.creditWin then some (Config.busyHint 0x0401) else none
  | _ => none

/-! What each record changes. -/

/-- R354: the record of a connection as it opens. -/
def openedConn (p : OpenParams) (key : Option (ConnKey × Blob × Blob)) (epoch : Epoch) : Conn :=
  { st := .opened, cls := p.cls, salt := p.salt, hpsn0 := p.hpsn0, cpsn0 := p.cpsn0, retryMax := p.retryMax
    creditWin := p.creditWin, keys := key.toList.map (fun k => (0, k)), keyEpoch := epoch
    genStart := (p.cpsn0, 0, epoch), genStartRx := (0, p.hpsn0 - 1)
    wmark := p.msgId0 - 1, dwmark := p.msgId0 - 1, cumPsn := p.hpsn0 - 1, txPsn := p.cpsn0, peerCum := p.cpsn0 - 1
    unit0 := p.hpsn0, hostLimit := BitVec.ofNat 32 p.creditWin, limit := BitVec.ofNat 32 p.creditWin
    limitMax := BitVec.ofNat 32 p.creditWin }

/-- R354: a connection opens. -/
def applyOpen (p : OpenParams) (s : State) : State × Nat :=
  let key := (s.connBlob p.conn 0 p.blob0 p.blob1).map (fun k => (k, s.ownBlob p.blob0 p.blob1, s.peerBlob p.blob0 p.blob1))
  let s := setReserve p.conn p.creditWin (s.modConn p.conn (fun _ => openedConn p key s.twin.epoch))
  if key.isSome then (keyKeep (.conn p.conn 0) s, 0) else (s, 0x0419)

/-- R356: CLOSE_CONNECTION commits. -/
def applyClose (c : Nat) (s : State) : State :=
  match (s.conn c).st with
  | .opened => s.modConn c (fun k => { k with st := .closing })
  | .error => connClosed c s
  | .closing | .closed => s

/-- R314, R356: REKEY commits. -/
def applyRekey (c g : Nat) (b0 b1 : Blob) (s : State) : State × Nat :=
  match s.connBlob c g b0 b1 with
  | some k => (keyKeep (.conn c g) (s.modConn c (fun x => { x with
      keys := x.keys ++ [(g, k, s.ownBlob b0 b1, s.peerBlob b0 b1)], keyEpoch := s.twin.epoch })), 0)
  | none => (s, 0x0419)

/-- R360, R198: a grant goes LIVE in the lowest FREE slot; a serving twin wakes the drawers of a pinned one. -/
def applyGrant (p : GrantParams) (s : State) : State × Nat :=
  match s.freeSlot with
  | none => (s, 0x0412)
  | some g =>
    let wait := p.pinned == 1 && s.serving
    let s := s.modGrant g (fun k => { k with st := .live, params := some p, conns := p.conns, pinWait := wait })
    (if wait then wakeSpan (s.rangeDrawers p.nsid p.off p.len) s else s, 0)

/-- R442: a namespace is created. -/
def applyCreate (p : CreateNsParams) (s : State) : State × Nat :=
  match s.pickNs p.nsid with
  | none => (s, 0x0010)
  | some id =>
    match allocUnits p.units id 0 p.psi p.parkable s with
    | none => (s, 0x0202)
    | some (l, s) =>
      let own := if s.twin.num = 0 then p.blob0 else p.blob1
      let peer := if s.twin.num = 0 then p.blob1 else p.blob0
      let n : Ns := { units := l, psi := p.psi, parkable := p.parkable, visVarnish := p.visVarnish, cacheFill := p.cacheFill
                      encrypted := p.encrypted, blob := own, peerBlob := peer }
      (s.modCtl (fun c => { c with nss := tabPut c.nss id n }), 0)

/-- R443, R471: a namespace is deleted. -/
def applyDelete (id : Nat) (s : State) : State :=
  match s.ns id with
  | none => s
  | some n =>
    let s := forEach n.units (fun u s => freeEasel (easelKey u.1 u.2) s) (dropData id 0 s)
    erasePalette (fun t => t == .ns id) (s.modCtl (fun c => { c with nss := tabDel c.nss id }))

/-- R443: a namespace grows or shrinks. -/
def applyResize (id units : Nat) (s : State) : State × Nat :=
  match s.ns id with
  | none => (s, 0)
  | some n =>
    let have_ := n.units.length
    if units ≤ have_ then
      let s := forEach (n.units.drop units) (fun u s => freeEasel (easelKey u.1 u.2) s) (dropData id (units * 2147483648) s)
      (s.modNs id (fun n => { n with units := n.units.take units }), 0)
    else match allocUnits (units - have_) id have_ n.psi n.parkable s with
      | some (l, s) => (s.modNs id (fun n => { n with units := n.units ++ l }), 0)
      | none => (s, 0x0202)

/-- R483: a namespace is sanitized: its key destroyed and drawn afresh, its units rewritten with zero data. -/
def applySanitize (id : Nat) (s : State) : State :=
  match s.ns id with
  | none => s
  | some n =>
    let s := dropData id 0 s
    let s :=
      if n.encrypted then
        let (v, s) := s.draw
        let s := raise 877 (erasePalette (fun t => t == .ns id) s)
        let key := leBytes 64 v.toNat
        s.modNs id (fun n => { n with
          blob := s.cipher.kek.map (fun k => wrapKey k.bytes key) })
      else s
    forEach n.units (fun u s => startFill (easelKey u.1 u.2) s) s

/-- R273: the witness connection opens under its two blobs; its path is WIT_PORT. -/
def applyWitness (p : WitnessParams) (s : State) : State × Nat :=
  let w := Config.witConn
  let o := Config.witOpen
  let (s, r) := applyOpen { conn := w.1, cls := 0, salt := o.1, hpsn0 := o.2.1, cpsn0 := o.2.2.1, msgId0 := o.2.2.2
                            retryMax := w.2.1, creditWin := w.2.2, blob0 := p.blob0, blob1 := p.blob1 } s
  let own := Config.twinAddr s.twin.num p.witPort 0
  let path : Path := { q := 0, port := p.witPort, sub := 0, v6 := p.v6, hostAddr := p.addr, hostUdp := 46018, svcAddr := own.2, last := s.now }
  let s := s.modConn w.1 (fun k => { k with wit := true, paths := [path], latest := some path })
  (s.modTwin (fun t => { t with witness := some p, pair := p.pair, witReqs := [], leaseEnd := none, firstRenew := none, witRetry := none }), r)

/-- SET_PORT: a change of MODE takes the links of the port down. -/
def applyPort (p : PortParams) (s : State) : State :=
  let s := if p.mode = (s.nport p.port).mode then s
    else s.modNport p.port (fun n => { n with mode := p.mode, subs := n.subs.map (fun x => { x with up := false, fecDeg := false }) })
  s.modSub p.port p.sub (fun x => { x with vlan := p.vlan, pcp := p.pcp, mac := p.mac, ip4 := p.ip4, ip6 := p.ip6 })

/-- SET_INTEGRITY. -/
def applyIntegrity (unit param v : Nat) (s : State) : State :=
  match param with
  | 0 => s.modChan unit (fun k => { k with ceThresh := v })
  | 1 => s.modChan unit (fun k => { k with retireSym := v })
  | 2 => { s with plat := { s.plat with rowLease := v } }
  | 3 => { s with plat := { s.plat with scrubDays := v } }
  | 4 => { s with plat := { s.plat with scrubShare := v } }
  | 5 => { s with plat := { s.plat with parkScrubDays := v } }
  | 6 => { s with plat := { s.plat with parkScrubRate := v } }
  | 7 => s.modGrp unit (fun k => { k with rebuildShare := v })
  | 8 => s.modGrp unit (fun k => { k with autoRebuild := v == 1 })
  | 9 => s.modDrch unit (fun k => { k with srIdle := v })
  | 10 => s.modDram (fun k => { k with actThresh := v })
  | 11 => s.modDram (fun k => { k with rhRadius := v })
  | 12 => s.modDram (fun k => { k with rhEvent := v })
  | 13 => s.modDrch unit (fun k => { k with ceThresh := v })
  | 14 => s.modTest (fun k => { k with ttPass := v })
  | _ => s

/-- SET_XPORT. -/
def applyXport (p : XportParams) (s : State) : State :=
  s.modXport (fun x => { x with
    dscpData := p.dscpData.getD x.dscpData, dscpCtrl := p.dscpCtrl.getD x.dscpCtrl, ecnMark := p.ecnMark.getD x.ecnMark
    ecnReact := p.ecnReact.getD x.ecnReact, ackCount := p.ackCount.getD x.ackCount, ackDelay := p.ackDelay.getD x.ackDelay
    reasm := p.reasm.getD x.reasm, creditIdle := p.creditIdle.getD x.creditIdle })

/-- A grant record of a resync (R364). -/
def applyGrantRecord (r : GrantRec) (s : State) : State :=
  s.modGrant r.slot (fun _ => { gen := r.gen, st := r.state, params := some r.params, conns := r.params.conns, refs := r.refs })

/-- A connection record of a resync (R364). -/
def applyConnRecord (r : ConnRec) (s : State) : State :=
  let keys := r.keys.filterMap (fun e => ((s.unwrap e.2).bind (connKey r.conn e.1)).map (fun k => (e.1, k, e.2, e.2)))
  let k : Conn := {
    st := r.state, cls := r.cls, salt := r.salt, hpsn0 := r.hpsn0, cpsn0 := r.cpsn0, retryMax := r.retryMax
    creditWin := r.creditWin, keys, gen := listMin (listMax 0 (keys.map (·.1))) (keys.map (·.1)), keyEpoch := s.twin.epoch
    genStart := (r.cpsn0, 0, s.twin.epoch), genStartRx := (0, r.hpsn0 - 1)
    wmark := r.wmark, dwmark := r.dwmark, dropcnt := r.dropcnt, dropped := r.dropped, atomics := r.atomics
    cumPsn := r.hpsn0 - 1, txPsn := r.cpsn0, peerCum := r.cpsn0 - 1, unit0 := r.hpsn0
    hostLimit := BitVec.ofNat 32 r.creditWin, limit := BitVec.ofNat 32 r.creditWin, limitMax := BitVec.ofNat 32 r.creditWin }
  setReserve r.conn r.creditWin (s.modConn r.conn (fun _ => k))

/-- R545: the returner adopts the namespace table; each twin lays its units out itself (log entry 47, DEDUCED). A namespace kept
from its own table keeps its units. -/
def applyNsTable (l : List (Nat × CreateNsParams)) (s : State) : State :=
  let gone := (s.ctl.nss.map (·.1)).filter (fun id => !l.any (fun e => e.1 == id))
  let s := forEach gone applyDelete s
  forEach l (fun e s =>
    match s.ns e.1 with
    | some _ =>
      let s := (applyResize e.1 e.2.units s).1
      let own := if s.twin.num = 0 then e.2.blob0 else e.2.blob1
      s.modNs e.1 (fun n => { n with
        psi := e.2.psi, parkable := e.2.parkable, visVarnish := e.2.visVarnish, cacheFill := e.2.cacheFill
        encrypted := e.2.encrypted, blob := own <|> n.blob })
    | none => (applyCreate { e.2 with nsid := e.1 } s).1) s

/-- R205, R258: a WAKE or PARK entry at the standby. -/
def applyDrawer (wake : Bool) (d : Nat) (s : State) : State :=
  let k := s.drw d
  if wake then
    if k.st = .dfault then
      (if k.step = .none then beginWake d [] s else s.modDrw d (fun k => { k with latch := latchWake none k.latch }))
    else requestWake d none s
  else match k.st with
    | .awake => beginPark d [] s
    | .waking => s.modDrw d (fun k => { k with latch := .park [] })
    | .parking => s.modDrw d (fun k => { k with latch := .none })
    | .parked | .dfault => s

/-- R647: the pending bit of a vector clears once no event routed to it with MSIX set is pending. -/
def pbaCheck (v : Nat) (s : State) : State :=
  if s.ev.routes.any (fun e => e.2.vec == v && e.2.msix && s.ev.status.getLsbD e.1) then s
  else s.modEv (fun e => { e with pba := e.pba &&& ~~~(1#2048 <<< v) })

/-- R648: a route is committed; a pending event that moves to a vector, or whose MSIX bit is set, sends its message once. -/
def applyRoute (x : Nat) (r : Route) (s : State) : State :=
  let was := s.ev.route x
  let s := s.modEv (fun e => { e with routes := tabSet {} e.routes x r })
  let s := if was.msix ∧ (!r.msix ∨ was.vec ≠ r.vec) then pbaCheck was.vec s else s
  if r.msix ∧ (!was.msix ∨ was.vec ≠ r.vec) ∧ s.ev.status.getLsbD x ∧ s.ev.evMsix then sendVector r.vec s else s

/-- R77: a change of the namespace table goes to its copies, one that this twin could not apply apart. -/
def tableChange (x : State × Nat) : State × Nat := (if x.2 = 0 then tableCopies x.1 else x.1, x.2)

/-- Apply a committed record; answers its RESULT, 0 or the reason that this twin could not apply it. -/
def applyCfg (c : Cfg) (s : State) : State × Nat :=
  match c with
  | .durability p k t => (s.modDura (fun d => { d with
      pHold := p <|> d.pHold, kMargin := k.getD d.kMargin, tFixed := t.getD d.tFixed }), 0)
  | .integrity _ unit param v => (applyIntegrity unit param v s, 0)
  | .pool p => (s.modSump (fun u => u.candidate p), 0)
  | .port p => (applyPort p s, 0)
  | .xport p => (applyXport p s, 0)
  | .hostport r q v w => (s.modHost (fun h => { h with
      maxRateNext := r.getD h.maxRateNext, perstSys := (q.map (· == 1)).getD h.perstSys, ssvid := v.getD h.ssvid, ssid := w.getD h.ssid }), 0)
  | .setHdm k n => (s.modHost (fun h => { h with hdm := modAt h.hdm k (fun x => { x with nsid := n }) }), 0)
  | .clearHdm k => (s.modHost (fun h => { h with hdm := modAt h.hdm k (fun x => { x with nsid := 0 }) }), 0)
  | .eventRoute ev vec cores m =>
    (applyRoute ev { vec, msix := m, cores := BitVec.ofNat 4 cores } s, 0)
  | .compat m => (s.modCipher (fun x => { x with blockSusp := m % 2 == 1 }), 0)
  | .mbx l a => (s.modCtl (fun x => { x with lease := l.getD x.lease, smbAddr := a.getD x.smbAddr }), 0)
  | .createNs p => tableChange (applyCreate p s)
  | .deleteNs n => tableChange (applyDelete n s, 0)
  | .resizeNs n u => tableChange (applyResize n u s)
  | .nsAttr n p f => tableChange (s.modNs n (fun x => { x with parkable := p, cacheFill := f }), 0)
  | .drawerWake d => (applyDrawer true d s, 0)
  | .drawerPark d => (applyDrawer false d s, 0)
  | .drawerCheck d _ => (s, (s.drw d).st.code)
  | .setDrawer d p i => (s.modDrw d (fun k => { k with parkable := p, parkIdle := i }), 0)
  | .openConn p => applyOpen p s
  | .closeConn x => (applyClose x s, 0)
  | .rekey x g b0 b1 => applyRekey x g b0 b1 s
  | .regGrant p => applyGrant p s
  | .revokeGrant g => (revoke g s, 0)
  | .witness p => applyWitness p s
  | .twin p => (s.modTwin (fun t => { t with
      twinCredit := p.twinCredit.getD t.twinCredit, resyncShare := p.resyncShare.getD t.resyncShare
      ueStorm := p.ueStorm.getD t.ueStorm, hsWaitNext := p.hsWait.getD t.hsWaitNext }), 0)
  | .sanitize n => (applySanitize n s, 0)
  | .schedCreate p =>
    match lowestFrom 0 64 (fun h => (s.sched h).isSome) with
    | some h =>
      let k : Sched := { nsid := p.nsid, conn := p.conn, leadMs := p.leadMs, lookahead := p.lookahead }
      (s.modCtl (fun x => { x with scheds := tabPut x.scheds h k }), 0)
    | none => (s, 0x0306)
  | .schedAppend h l => (s.modSched h (fun k => { k with extents := k.extents ++ l }), 0)
  | .schedStart h =>
    let s := s.modSched h (fun k => if k.started then k else
      { k with started := true, startAt := s.now })
    (if s.serving then schedStage h (schedWake h s) else s, 0)
  | .schedDelete h =>
    let s := schedRelease h (s.modSched h (fun k => { k with cursor := k.extents.length }))
    (s.modCtl (fun x => { x with scheds := tabDel x.scheds h }), 0)
  | .connRecord r => (applyConnRecord r s, 0)
  | .grantRecord r => (applyGrantRecord r s, 0)
  | .nsTable l => tableChange (applyNsTable l s, 0)
  | .drawerTable l => (forEach l (fun e s => s.modDrw e.1 (fun k => { k with parkable := e.2.1, parkIdle := e.2.2 })) s, 0)
  | .hdmTable l => (s.modHost (fun h => { h with hdm := (List.range 4).map (fun k =>
      { (h.hdm.getD k {}) with nsid := (lookupNat k l).getD 0 }) }), 0)

end Sys2Proof.Machine
end

