-- ==== Sys2Proof/Machine/MbxRows.lean ====
section
/-! DEFINITION. Commands of the mailbox window, the unit-select window and the BMC's MCTP endpoint (R419 to R428, R449 to
R454). -/

namespace Sys2Proof.Machine

open Sys2Proof

/-- The mailbox that a window access names: an alias window, else that of MBX_SEL. -/
def State.winMbx (s : State) (a : Option (Fin 4)) : Nat :=
  match a with
  | some m => m
  | none => s.ctl.sel

/-- MBX_SEL_WRITE (R423). Mailboxes 6 and 7 need a life-cycle state that opens them. -/
def execMbxSelWrite (v : BitVec 32) (s : State) : Res :=
  let m := v.toNat % 8
  let open67 := s.test.lc == .manufacture || s.test.lc == .provision || s.test.lc == .ret
  .next (if m ≤ 3 ∨ (m ≥ 6 ∧ open67) then s.modCtl (fun c => { c with sel := m })
    else s.modCtl (fun c => { c with selErr := true }))

/-- R425: the owner renews its lease. -/
def renewLease (m : Nat) (s : State) : State :=
  s.modMbx m (fun b => { b with leaseEnd := s.now + s.ctl.lease * 1000000000 })

/-- R427: a push or pop on a mailbox without an owner. -/
def noOwner (m : Nat) (s : State) : State := s.modMbx m (fun b => { b with noOwn := true })

/-- MBX_CMD_PUSH (R419, R424, R425, R427). -/
def execMbxCmdPush (alias_ : Option (Fin 4)) (v : BitVec 32) (s : State) : Res :=
  let m := s.winMbx alias_
  .next (if !v.getLsbD 0 then s
    else if (s.mbx m).token = 0 then noOwner m s
    else
      let (s, ok) := mbxPush m (s.mbx m).stage (renewLease m s)
      if ok then s.modMbx m (fun b => { b with stage := List.replicate 64 0 }) else s)

/-- MBX_RSP_POP (R419, R425, R427): room for answers may let the framing check go on (R422, R430). -/
def execMbxRspPop (alias_ : Option (Fin 4)) (v : BitVec 32) (s : State) : Res :=
  let m := s.winMbx alias_
  .next (if !v.getLsbD 0 then s
    else if (s.mbx m).token = 0 then noOwner m s
    else framing m ((ptrCheck m (renewLease m s)).modMbx m (fun b => { b with rsps := b.rsps.drop 1 })))

/-- MBX_OWNER_CLAIM (R425). -/
def execMbxOwnerClaim (alias_ : Option (Fin 4)) (token : BitVec 16) (s : State) : Res :=
  let m := s.winMbx alias_
  let own := (s.mbx m).token
  .next (if token ≠ 0 ∧ (own = 0 ∨ own = token) then renewLease m (s.modMbx m (fun b => { b with token })) else s)

/-- MBX_OWNER_RELEASE (R426). -/
def execMbxOwnerRelease (alias_ : Option (Fin 4)) (token : BitVec 16) (s : State) : Res :=
  let m := s.winMbx alias_
  .next (if token ≠ 0 ∧ (s.mbx m).token = token then mbxRelease m s else s)

/-- MBX_LEASE_EXPIRY (R425, R426). -/
def execMbxLeaseExpiry (m : Fin 8) (s : State) : Res := .next (if (s.mbx m).token = 0 then s else mbxRelease m s)

/-- Units of a type (R454). -/
def unitCount : Nat → Nat
  | 1 => 144 | 2 => 16 | 3 => 8 | 4 => 8 | 5 => 4 | 6 => 32 | 7 => 48 | 8 => 8 | 9 => 8 | 10 => 100 | 11 => 1024 | _ => 0

/-- UNIT_SEL_WRITE (R454). -/
def execUnitSelWrite (v : BitVec 32) (s : State) : Res :=
  let i := v.toNat % 65536
  let ty := v.toNat / 16777216
  .next (s.modCtl (fun c => if i < unitCount ty then { c with unitType := ty, unitIdx := i } else { c with selErr := true }))

/-! The MCTP endpoint. -/

/-- R452: mailbox 4 answers from step 5 of priming on. -/
def State.bmcUp (s : State) : Bool := s.prime.primeAt.isSome && (s.prime.step == 0 || decide (s.prime.step ≥ 5))

/-- Answer an MCTP control message (R450). Completion code and fields are those of DSP0236 (log entry 83, PRESUMED). -/
def mctpControl (f : State → State × Bytes) (s : State) : Res :=
  .next (if s.bmcUp then let (s, b) := f s; s.send (.mctp 0x00 b) else s)

/-- SET_ENDPOINT_ID: the null and broadcast IDs are refused as invalid data. -/
def execSetEndpointId (eid : Nat) (s : State) : Res :=
  mctpControl (fun s => if eid = 0 ∨ eid ≥ 255 then (s, [2])
    else (s.modCtl (fun c => { c with eid }), [0, 0, BitVec.ofNat 8 eid, 0])) s

/-- GET_ENDPOINT_ID. -/
def execGetEndpointId (s : State) : Res := mctpControl (fun s => (s, [0, BitVec.ofNat 8 s.ctl.eid, 0, 0])) s

/-- GET_MCTP_VERSION_SUPPORT: DSP0236 1.3. -/
def execGetMctpVersionSupport (s : State) : Res := mctpControl (fun s => (s, [0, 1, 0xF1, 0xF3, 0xFF, 0])) s

/-- GET_MESSAGE_TYPE_SUPPORT: 0x7E, vendor-defined, PCI. -/
def execGetMessageTypeSupport (s : State) : Res := mctpControl (fun s => (s, [0, 1, 0x7E])) s

/-- GET_VENDOR_DEFINED_MESSAGE_SUPPORT: Laneracor's PCI vendor identifier. -/
def execGetVendorDefinedMessageSupport (s : State) : Res :=
  mctpControl (fun s => (s, [0, 0xFF, 0] ++ beBytes 2 Config.vendorId.toNat ++ [0, 0])) s

/-- MCTP_MAILBOX_MESSAGE (R428, R449, R451, R452): a packet whose PEC fails is discarded. -/
def execMctpMailboxMessage (eid : Nat) (pecOk : Bool) (entries : List MbxEntry) (s : State) : Res :=
  .next (if !pecOk ∨ !s.bmcUp then s
    else
      let s := ptrCheck 4 s
      if (s.mbx 4).cmds.length + entries.length > fifoSize then setOverrun 4 s
      else framing 4 (s.modMbx 4 (fun b => { b with eid, cmds := b.cmds ++ entries.map (·.toList) })))

end Sys2Proof.Machine
end

