-- ==== Sys2Proof/Machine/CmdOps.lean ====
section
/-! DEFINITION. How a mailbox command is processed (R422, R431 to R437, R452): the checks in their order, the commit, and
the response. -/

namespace Sys2Proof.Machine

open Sys2Proof

/-- A failing outcome: STATUS and result block. -/
abbrev Verdict := Option (Nat × Bytes)

/-- REFUSED with a reason and unit unless a condition holds. -/
def refuse (r : Option (Nat × Nat)) : Verdict := r.map (fun e => (stRefused, blkRefused e.1 e.2))

/-- NOT_FOUND unless a condition holds. -/
def exists_ (ok : Bool) : Verdict := if ok then none else some (stNotFound, [])

/-- R22: INVALID for a reserved encoding in a field. -/
def encoded (ok : Bool) : Verdict := if ok then none else some (stInvalid, [])

/-- The first failing outcome. -/
def firstFail : List Verdict → Verdict
  | [] => none
  | some r :: _ => some r
  | none :: t => firstFail t

/-- Response entries of a command's largest response (R422). Result blocks are those of log entry 85, DESIGN CHOICE. -/
def rspMax (code : Nat) : Nat :=
  match code with
  | 0x0001 => 2
  | 0x0608 => 5
  | 0x0207 => 6
  | 0x0208 => 10
  | 0x0803 => 16
  | _ => 1

/-- Commands that log a CONTROL entry, and MEM_READ and MEM_WRITE (R436). -/
def needsServing (code : Nat) : Bool :=
  (decide (0x0101 ≤ code) && decide (code ≤ 0x010B)) || (decide (0x0202 ≤ code) && decide (code ≤ 0x0205))
    || [0x0208, 0x0209, 0x0301, 0x0302, 0x0303, 0x0401, 0x0402, 0x0403, 0x0405, 0x0406, 0x0503, 0x0504, 0x0603].contains code
    || (decide (0x0701 ≤ code) && decide (code ≤ 0x0704))

/-- R436: the role bars a command. -/
def State.roleBars (s : State) (code : Nat) : Bool :=
  (needsServing code && (s.twin.role == .standby || s.twin.role == .fenced)) || (code == 0x0502 && s.twin.role == .fenced)

/-- RUN is reached (R527 step 14). -/
def State.atRun (s : State) : Bool := s.prime.primeAt.isSome && s.prime.step == 0

/-- Commands are taken from a mailbox now: mailbox 4 from priming step 5 (R452), the others from step 13, when the host
port comes up (log entry 86, DEDUCED). -/
def State.mbxServed (s : State) (m : Nat) : Bool :=
  if m = 4 then s.bmcUp else s.prime.primeAt.isSome && (s.prime.step == 0 || decide (s.prime.step ≥ 13))

/-- R431, R437: a command is taken: its number, its record among the 64 latest, and its response entries. -/
def openCmd (m code : Nat) (tag : BitVec 16) (kind : CmdKind) (unit : Nat) (s : State) : Nat × State :=
  let id := s.ctl.nextCmd
  let s := s.modCtl (fun c => { c with
    nextCmd := id + 1
    running := c.running ++ [{ id, mbx := m, code, tag, kind, unit, rsv := rspMax code }]
    status := if kind == .immediate then c.status else ({ mbx := m, code, tag } :: c.status).take 64 })
  (id, s.modMbx m (fun b => { b with reserved := b.reserved + rspMax code }))

/-- Waiting and long-running commands of a mailbox. -/
def State.longOn (s : State) (m : Nat) : Nat := (s.ctl.running.filter (fun r => r.mbx == m && r.kind != .immediate)).length

/-- R472: a refusal whose reason names a blob raises event 874. -/
def blobEvent (v : Nat × Bytes) (s : State) : State :=
  if v.1 = stRefused ∧ blobReason (leVal (v.2.take 2)) then raise 874 s else s

/-- R432 from the tag on. `check` answers the first failing outcome of objects and parameters, `run` carries the command
out under its number. -/
def runCommand (m code : Nat) (tag : BitVec 16) (kind : CmdKind) (unit : Nat) (check : State → Verdict)
    (run : Nat → State → State) (s : State) : State :=
  let full := kind != .immediate && decide (s.longOn m ≥ 8)
  let (id, s) := openCmd m code tag kind unit s
  if m = 4 ∧ !s.atRun ∧ !([0x00, 0x08, 0x09].contains (code / 256)) then finish id stBusy (blkBusy 100000) s
  else if s.roleBars code then finish id stRole s.blkRole s
  else match check s with
    | some v => finish id v.1 v.2 (blobEvent v s)
    | none => if full then finish id stBusy (blkBusy 1000) s else run id s

/-- R422, R431, R432: take a command from its mailbox. One for whose response there is no room, or behind an immediate
command not yet answered, stays where it is. -/
def takeCommand (h : CmdHdr) (code : Nat) (kind : CmdKind) (unit : Nat) (check : State → Verdict) (run : Nat → State → State)
    (s : State) : Res :=
  let m := h.mbx.val
  .next (if !s.mbxServed m ∨ rspRoom (s.mbx m) < rspMax code ∨ s.ctl.running.any (fun r => r.mbx == m && r.kind == .immediate) then s
    else
      let s := mbxTake m code h.tag.toNat h.nent s
      let early := fun (st : Nat) (b : Bytes) =>
        respond m { code, tag := h.tag, status := st, rflags := 2 * bit (kind == .long), block := b } s
      if !groupLc code s.test.lc then early stLifecycle []
      else if !groupMbx code m then early stRefused (blkRefused 0x0002 devUnit)
      else if s.ctl.running.any (fun r => r.mbx == m && r.tag == h.tag) then early stRefused (blkRefused 0x0001 devUnit)
      else settle (runCommand m code h.tag kind unit check run s))

/-- R435: the response of a committed command, written once its CONTROL entry needs no further acknowledgement. -/
def answerLogged (id : Nat) (lsn : Lsn) (status : Nat) (block : Bytes) (s : State) : State :=
  s.modCtl (fun c => { c with running := c.running.map (fun r => if r.id = id then { r with lsn := some lsn, ready := some (status, block) } else r) })

/-- Body of a record of type 0x0004 (R636): CODE, TAG, REASON, LSN (log entry 12, DESIGN CHOICE). -/
def commitBody (code : Nat) (tag : BitVec 16) (reason : Nat) (lsn : Lsn) : Bytes :=
  leBytes 2 code ++ leBytes 2 tag.toNat ++ leBytes 2 reason ++ leBytes 2 0 ++ leBytes 8 lsn.toNat

/-- R432 to R435: the commit point. The result block is that of the state before the commit. `after` goes on with a
command that commit starts; none answers at commit. -/
def commit (code : Nat) (tag : BitVec 16) (c : Cfg) (block : State → Bytes) (after : Option (State → State)) (id : Nat) (s : State) : State :=
  match s.cfgBusy c, s.cfgConsistent c with
  | some hint, _ => finish id stBusy (blkBusy hint) s
  | none, some (r, u) => finish id stRefused (blkRefused r u) (record 0x0004 1001 false (commitBody code tag r 0) (raise 1001 s))
  | none, none =>
    let b := block s
    let (s, lsn) := logControl code tag 0 c s
    let s := record 0x0004 0xFFFF false (commitBody code tag 0 lsn) s
    let (s, r) := applyCfg c s
    if r ≠ 0 then finish id stRefused (blkRefused r devUnit) s
    else match after with
      | some f => f s
      | none => answerLogged id lsn stOk b s

/-- Objects and ranges of a configuration record (R432). -/
def State.cfgCheck (s : State) (c : Cfg) : Verdict := firstFail [exists_ (!s.cfgMissing c), refuse (s.cfgRange c)]

/-- An immediate configuration command with a result block. -/
def cfgCommand (h : CmdHdr) (code : Nat) (unit : Nat) (c : Cfg) (block : State → Bytes) (s : State) : Res :=
  takeCommand h code .immediate unit (fun s => s.cfgCheck c) (commit code h.tag c block none) s

/-- An immediate command that only reads. -/
def readCommand (h : CmdHdr) (code : Nat) (unit : Nat) (check : State → Verdict) (block : State → Bytes) (s : State) : Res :=
  takeCommand h code .immediate unit check (fun id s => finish id stOk (block s) s) s

end Sys2Proof.Machine
end

