-- ==== Sys2Proof/Machine/Sign.lean ====
section
/-! DEFINITION. SHA-384 and the verification of ECDSA P-384 signatures, which R529, R599, R626 and R632 name. Their constants
are those of FIPS 180-4 and FIPS 186-4 (log entry 8, PRESUMED). -/

namespace Sys2Proof.Machine

open Sys2Proof

/-! SHA-384. -/

/-- Round constants. -/
def shaConst : List (BitVec 64) :=
  [ 0x428A2F98D728AE22, 0x7137449123EF65CD, 0xB5C0FBCFEC4D3B2F, 0xE9B5DBA58189DBBC,
    0x3956C25BF348B538, 0x59F111F1B605D019, 0x923F82A4AF194F9B, 0xAB1C5ED5DA6D8118,
    0xD807AA98A3030242, 0x12835B0145706FBE, 0x243185BE4EE4B28C, 0x550C7DC3D5FFB4E2,
    0x72BE5D74F27B896F, 0x80DEB1FE3B1696B1, 0x9BDC06A725C71235, 0xC19BF174CF692694] ++
  [ 0xE49B69C19EF14AD2, 0xEFBE4786384F25E3, 0x0FC19DC68B8CD5B5, 0x240CA1CC77AC9C65,
    0x2DE92C6F592B0275, 0x4A7484AA6EA6E483, 0x5CB0A9DCBD41FBD4, 0x76F988DA831153B5,
    0x983E5152EE66DFAB, 0xA831C66D2DB43210, 0xB00327C898FB213F, 0xBF597FC7BEEF0EE4,
    0xC6E00BF33DA88FC2, 0xD5A79147930AA725, 0x06CA6351E003826F, 0x142929670A0E6E70] ++
  [ 0x27B70A8546D22FFC, 0x2E1B21385C26C926, 0x4D2C6DFC5AC42AED, 0x53380D139D95B3DF,
    0x650A73548BAF63DE, 0x766A0ABB3C77B2A8, 0x81C2C92E47EDAEE6, 0x92722C851482353B,
    0xA2BFE8A14CF10364, 0xA81A664BBC423001, 0xC24B8B70D0F89791, 0xC76C51A30654BE30,
    0xD192E819D6EF5218, 0xD69906245565A910, 0xF40E35855771202A, 0x106AA07032BBD1B8] ++
  [ 0x19A4C116B8D2D0C8, 0x1E376C085141AB53, 0x2748774CDF8EEB99, 0x34B0BCB5E19B48A8,
    0x391C0CB3C5C95A63, 0x4ED8AA4AE3418ACB, 0x5B9CCA4F7763E373, 0x682E6FF3D6B2B8A3,
    0x748F82EE5DEFB2FC, 0x78A5636F43172F60, 0x84C87814A1F0AB72, 0x8CC702081A6439EC,
    0x90BEFFFA23631E28, 0xA4506CEBDE82BDE9, 0xBEF9A3F7B2C67915, 0xC67178F2E372532B] ++
  [ 0xCA273ECEEA26619C, 0xD186B8C721C0C207, 0xEADA7DD6CDE0EB1E, 0xF57D4F7FEE6ED178,
    0x06F067AA72176FBA, 0x0A637DC5A2C898A6, 0x113F9804BEF90DAE, 0x1B710B35131C471B,
    0x28DB77F523047D84, 0x32CAAB7B40C72493, 0x3C9EBE0A15C9BEBC, 0x431D67C49C100D4C,
    0x4CC5D4BECB3E42B6, 0x597F299CFC657E2A, 0x5FCB6FAB3AD6FAEC, 0x6C44198C4A475817]

/-- Chaining value before the first block. -/
def shaStart : List (BitVec 64) :=
  [ 0xCBBB9D5DC1059ED8, 0x629A292A367CD507, 0x9159015A3070DD17, 0x152FECD8F70E5939,
    0x67332667FFC00B31, 0x8EB44A8768581511, 0xDB0C2E0D64F98FA7, 0x47B5481DBEFA4FA4]

/-- The functions of the message schedule and of the rounds: two rotations and a shift, and three rotations. -/
def shaSigma (a b c : Nat) (x : BitVec 64) : BitVec 64 := x.rotateRight a ^^^ x.rotateRight b ^^^ x >>> c
def shaSum (a b c : Nat) (x : BitVec 64) : BitVec 64 := x.rotateRight a ^^^ x.rotateRight b ^^^ x.rotateRight c

/-- The message schedule, its newest word first: `n` more words. -/
def shaSchedule : Nat → List (BitVec 64) → List (BitVec 64)
  | 0, w => w
  | n + 1, w => shaSchedule n ((shaSigma 19 61 6 (w.getD 1 0) + w.getD 6 0 + shaSigma 1 8 7 (w.getD 14 0) + w.getD 15 0) :: w)

/-- One round, over a schedule word with its constant added. -/
def shaRound (v : List (BitVec 64)) (kw : BitVec 64) : List (BitVec 64) :=
  match v with
  | [a, b, c, d, e, f, g, h] =>
    let t := h + shaSum 14 18 41 e + ((e &&& f) ^^^ (~~~e &&& g)) + kw
    [t + (shaSum 28 34 39 a + ((a &&& b) ^^^ (a &&& c) ^^^ (b &&& c))), a, b, c, d + t, e, f, g]
  | _ => v

/-- The chaining value after a block of 128 bytes. -/
def shaBlock (h : List (BitVec 64)) (m : Bytes) : List (BitVec 64) :=
  let w := (List.range 16).map (fun i => BitVec.ofNat 64 (beVal (slice m (8 * i) 8)))
  List.zipWith (· + ·) h ((List.zipWith (· + ·) shaConst (shaSchedule 64 w.reverse).reverse).foldl shaRound h)

/-- A message with its padding. -/
def shaPadded (m : Bytes) : Bytes :=
  m ++ [0x80] ++ List.replicate ((128 - (m.length + 17) % 128) % 128) 0 ++ beBytes 16 (8 * m.length)

/-- SHA-384 of a message: 48 bytes. -/
@[irreducible] def sha384 (m : Bytes) : Bytes :=
  let p := shaPadded m
  (((List.range (p.length / 128)).foldl (fun h i => shaBlock h (slice p (128 * i) 128)) shaStart).take 6).flatMap
    (fun w => beBytes 8 w.toNat)

/-! P-384. -/

/-- The field, the order of the base point, the coefficient b and the base point. -/
def curveP : Nat := 2 ^ 384 - 2 ^ 128 - 2 ^ 96 + 2 ^ 32 - 1
def curveN : Nat := 0xFFFFFFFFFFFFFFFFFFFFFFFFFFFFFFFFFFFFFFFFFFFFFFFFC7634D81F4372DDF581A0DB248B0A77AECEC196ACCC52973
def curveB : Nat := 0xB3312FA7E23EE7E4988E056BE3F82D19181D9C6EFE8141120314088F5013875AC656398D8A2ED19D2A85C8EDD3EC2AEF
def curveG : Nat × Nat :=
  (0xAA87CA22BE8B05378EB1C71EF320AD746E1D3B628BA79B9859F741E082542A385502F25DBF55296C3A545E3872760AB7,
   0x3617DE4A96262C6F5D9E98BF9292DC29F8F41DBD289A147CE9DA3113B5F0B8C00A60B1CE1D7E819D7A431D7C90EA0E5F)

/-- Product, difference and power in a residue ring. -/
def mulMod (m a b : Nat) : Nat := a * b % m
def subMod (m a b : Nat) : Nat := (a + (m - b % m)) % m
def powMod (m : Nat) : Nat → Nat → Nat → Nat
  | 0, _, _ => 1
  | k + 1, a, e => let h := powMod m k (a * a % m) (e / 2); if e % 2 = 1 then a * h % m else h

/-- A point in Jacobian coordinates (x / z², y / z³); z is 0 at the point at infinity. -/
structure CurvePoint where
  x : Nat
  y : Nat
  z : Nat
  deriving DecidableEq, Repr

/-- The double of a point. -/
def CurvePoint.double (a : CurvePoint) : CurvePoint :=
  let mul := mulMod curveP
  let sub := subMod curveP
  let d := mul a.z a.z
  let g := mul a.y a.y
  let b := mul a.x g
  let k := mul 3 (mul (sub a.x d) (a.x + d))
  let x := sub (mul k k) (8 * b)
  { x, y := sub (mul k (sub (4 * b) x)) (8 * mul g g), z := mul 2 (mul a.y a.z) }

/-- The sum of two points. -/
def CurvePoint.add (a b : CurvePoint) : CurvePoint :=
  if a.z = 0 then b
  else if b.z = 0 then a
  else
    let mul := mulMod curveP
    let sub := subMod curveP
    let u := mul a.x (mul b.z b.z)
    let v := mul a.y (mul b.z (mul b.z b.z))
    let h := sub (mul b.x (mul a.z a.z)) u
    let r := sub (mul b.y (mul a.z (mul a.z a.z))) v
    if h = 0 then (if r = 0 then a.double else { x := 1, y := 1, z := 0 })
    else
      let hh := mul h h
      let c := mul h hh
      let w := mul u hh
      let x := sub (sub (mul r r) c) (2 * w)
      { x, y := sub (mul r (sub w x)) (mul v c), z := mul h (mul a.z b.z) }

/-- u·G + v·Q by the bits of u and v from number `n` − 1 down. -/
def curveSum (u v : Nat) (q : CurvePoint) : Nat → CurvePoint → CurvePoint
  | 0, a => a
  | n + 1, a =>
    let a := a.double
    let a := if u.testBit n then a.add { x := curveG.1, y := curveG.2, z := 1 } else a
    curveSum u v q n (if v.testBit n then a.add q else a)

/-- ECDSA P-384: the signature r ‖ s over a digest verifies under the public key 0x04 ‖ X ‖ Y. -/
@[irreducible] def ecdsaVerify (key digest sig : Bytes) : Bool :=
  let x := beVal (slice key 1 48)
  let y := beVal (slice key 49 48)
  let r := beVal (slice sig 0 48)
  let s := beVal (slice sig 48 48)
  let point := key.length == 97 && sig.length == 96 && key.head? == some 0x04 && decide (x < curveP) && decide (y < curveP)
    && y * y % curveP == (x * x * x + (curveP - 3) * x + curveB) % curveP
  let w := powMod curveN 384 s (curveN - 2)
  let a := curveSum (beVal digest * w % curveN) (r * w % curveN) { x, y, z := 1 } 384 { x := 1, y := 1, z := 0 }
  let zz := a.z * a.z % curveP
  point && decide (0 < r) && decide (r < curveN) && decide (0 < s) && decide (s < curveN) && a.z != 0
    && (r * zz % curveP == a.x % curveP || (decide (r + curveN < curveP) && (r + curveN) * zz % curveP == a.x % curveP))

end Sys2Proof.Machine
end

