-- ==== Sys2Proof/Machine/FlashOps.lean ====
section
/-! DEFINITION. The rail fuse record (R522), firmware images, the boot record and what the boot ROM does to the array (R578 to
R602). -/

namespace Sys2Proof.Machine

open Sys2Proof

/-- R522: value of a field of the rail fuse record, with its default. -/
def Test.fused (t : Test) (field rail dflt : Nat) : Nat :=
  match t.railRec.find? (fun e => e.1 == field && e.2.1 == rail) with
  | some e => e.2.2
  | none => dflt

/-- Words of an image slot (R579). -/
def slotWords : Nat := 1048576

/-- Word `w` of a slot; an unprogrammed word is all ones. -/
def Flash.word (f : Flash) (img w : Nat) : BitVec 64 := tabGet (BitVec.allOnes 64) f.slots (img * slotWords + w)

/-- `n` bytes of a slot from a multiple of 8 on. -/
def Flash.slotBytes (f : Flash) (img off n : Nat) : Bytes :=
  ((List.range (ceilDiv n 8)).flatMap (fun i => leBytes 8 (f.word img (off / 8 + i)).toNat)).take n

/-- SECVER of an image header (R599). -/
def Flash.secver (f : Flash) (img : Nat) : Nat := leVal (f.slotBytes img 8 8 |>.drop 4)

/-- VERSION of an image header (R599). -/
def Flash.version (f : Flash) (img : Nat) : Bytes := f.slotBytes img 16 16

/-- `n` bytes of a slot from any offset on. -/
def Flash.slotAt (f : Flash) (img off n : Nat) : Bytes := (f.slotBytes img (off / 8 * 8) (off % 8 + n)).drop (off % 8)

/-- R599: a header has the values that the table fixes, and the lengths it allows (log entry 145, DEDUCED). -/
def imageHeaderOk (h : Bytes) : Bool :=
  let body := leVal (slice h 0x008 4)
  leVal (slice h 0x000 4) == 0x4C4D594D && leVal (slice h 0x004 2) == 1 && leVal (slice h 0x006 2) == 512
    && decide (512 + body ≤ 8388608) && body % 8 == 0 && decide (leVal (slice h 0x00C 4) ≤ 63)
    && leVal (slice h 0x020 2) == 0x2144 && decide (1 ≤ leVal (slice h 0x022 2)) && decide (leVal (slice h 0x022 2) ≤ 12)

/-- R529, R599: the header is one, the digest of its public key is the fused root-key digest, and its signature verifies over
the header's first 0x1A0 bytes and the body. -/
def Flash.imageOk (f : Flash) (img : Nat) : Bool :=
  let h := f.slotBytes img 0 512
  let key := slice h 0x100 97
  imageHeaderOk h && leVal (sha384 key) == Config.rootKey
    && ecdsaVerify key (sha384 (slice h 0 0x1A0 ++ f.slotBytes img 512 (leVal (slice h 0x008 4)))) (slice h 0x1A0 96)

/-- R599: the segments that the boot ROM copies, those with a target 0 to 8: target, offset in it, bytes. -/
def Flash.segments (f : Flash) (img : Nat) : List (Nat × Nat × Bytes) :=
  let h := f.slotBytes img 0 512
  (List.range (leVal (slice h 0x022 2))).filterMap (fun i =>
    let dest := leVal (slice h (0x034 + 12 * i) 4)
    let len := leVal (slice h (0x038 + 12 * i) 4)
    let off := leVal (slice h (0x03C + 12 * i) 4)
    if dest / 2 ^ 28 ≤ 8 then some (dest / 2 ^ 28, dest % 2 ^ 28, f.slotAt img (512 + off) len) else none)

/-- R599: ENTRY of cores 0 to 3. -/
def Flash.entries (f : Flash) (img : Nat) : List Nat := (List.range 4).map (fun n => leVal (f.slotAt img (0x024 + 4 * n) 4))

/-- R582, R589: a sector of the slot is left in an undefined state. -/
def Flash.slotUndef (f : Flash) (img : Nat) : Bool :=
  (f.banks.getD img {}).undef.any (fun x => decide (x / 512 = img) && decide (x % 512 < 128))

/-- R601: the image is valid: a 0xC1 word after its latest 0xB1 word. The record lists its newest word first. -/
def Flash.valid (f : Flash) (img : Nat) : Bool :=
  match f.boot.find? (fun e => e.2.1 == img && (e.1 == 0xB1 || e.1 == 0xC1)) with
  | some e => e.1 == 0xC1
  | none => false

/-- R601: the image named for boot: that of the newest 0xA1 word, A without one. -/
def Flash.named (f : Flash) : Nat :=
  match f.boot.find? (fun e => e.1 == 0xA1) with
  | some e => e.2.1
  | none => 0

/-- BSEQ of the next word of the boot record: words that wait for their program count (R600). -/
def State.nextBseq (s : State) : Nat :=
  let waits := s.flash.banks.flatMap (fun k => (k.op.toList ++ k.queue).map (fun o => match o.purpose with | .bootRec _ _ q _ => q | _ => 0))
  1 + listMax 0 (s.flash.boot.map (fun e => e.2.2) ++ waits)

/-- R600: a word of the boot record, as it stands in the triad of a bank. -/
def bootMark (b kind img q cmd : Nat) (s : State) : State :=
  flashQueue b { erase := false, sector := 512 * b + 230, left := 0, purpose := .bootRec kind img q cmd
                 words := [(markPlace 230 (q - 1), BitVec.ofNat 64 (kind * 2 ^ 56 + img * 2 ^ 48 + q % 2 ^ 48))] } s

/-- R600: append a word to the boot record, in both banks, bank 0 first (the copy of bank 1 follows that of bank 0). A 0xC1
word counts once it is programmed (R604), the others at once. -/
def bootWord (kind img cmd : Nat) (s : State) : State :=
  let q := s.nextBseq
  bootMark 0 kind img q cmd (if kind = 0xC1 then s else s.modFlash (fun f => { f with boot := (kind, img, q) :: f.boot }))

/-- R583: the words of a range that wait for a program, counted as the operation counts them: the largest number of words
left, at most `left`, whose first word does not hold its value yet. -/
def Flash.imageLeft (f : Flash) (img off : Nat) (d : Bytes) (left : Nat) : Option Nat :=
  let n := d.length / 8
  (List.range (left + 1)).reverse.find? (fun l =>
    f.word img (off / 8 + (n - 1 - l)) != BitVec.ofNat 64 (leVal (slice d (8 * (n - 1 - l)) 8)))

/-- Global sector of word number `n − 1 − left` of a range of a slot. -/
def imageSector (img off : Nat) (d : Bytes) (left : Nat) : Nat := 512 * img + (off + 8 * (d.length / 8 - 1 - left)) / 65536

/-- R603: every byte of an FW_DATA is programmed. -/
def imageDone (off : Nat) (d : Bytes) (cmd : Nat) (s : State) : State :=
  finish cmd stOk [] (s.modFlash (fun f => { f with written := addRange f.written off d.length }))

/-- R594: the read-out protection level. -/
def Flash.level (f : Flash) : Nat := if f.level2 then 2 else if f.prot1 then 1 else 0

/-- R602: on reaching RUN the fused security minimum rises to the lower SECVER of two valid images. -/
def raiseSecMin (s : State) : State :=
  if s.flash.valid 0 && s.flash.valid 1 then
    s.modFlash (fun f => { f with secMin := Nat.max f.secMin (Nat.min 63 (Nat.min (f.secver 0) (f.secver 1))) })
  else s

/-- R592: sectors whose latest erase-log entry is not done. -/
def FBank.begun (b : FBank) : List Nat :=
  let log := if b.logCur = 0 then b.eraseLog.2 ++ b.eraseLog.1 else b.eraseLog.1 ++ b.eraseLog.2
  let last := log.foldl (fun (acc : List (Nat × Bool)) e => tabPut acc e.1 e.2) []
  (last.filter (fun e => !e.2)).map (·.1)

/-- R592: priming step 2 marks half-erased sectors from the erase logs. -/
def markHalfErased (s : State) : State :=
  s.modFlash (fun f => { f with banks := f.banks.map (fun b => { b with halfErased := b.begun }) })

/-- R593: the boot ROM re-erases every half-erased sector, with event 977 for each. -/
def reEraseAll (s : State) : State :=
  forEach [0, 1] (fun b s =>
    let l := (s.fbank b).halfErased
    let s := s.modFbank b (fun k => forEach l (fun x k => (k.logBegin x).logDone x)
      { k with halfErased := [], undef := k.undef.filter (fun u => !l.contains u) })
    forEach l (fun x s => raiseWith 977 x 0 s) s) s

end Sys2Proof.Machine
end

