-- ==== Sys2Proof/Machine/LinkRows.lean ====
section
/-! DEFINITION. Commands of the media link: flits, retry, training, sideband and temperature (R142 to R156, R170 to
R178). -/

namespace Sys2Proof.Machine

open Sys2Proof

/-- The drawer is in a park or a wake, so that a link that goes down or comes up raises no channel event (R176). -/
def State.drawerQuiet (s : State) (c : Nat) : Bool :=
  (s.drw (chDrawer c)).st == .waking || (s.drw (chDrawer c)).st == .parking

/-- The four rails of a drawer are good. -/
def State.drawerPowered (s : State) (d : Nat) : Bool :=
  (List.range 4).all (fun k => (s.rail (drawerRail d k)).st == .good)

/-- R132, R175, R177: the link of a channel is lost for its module: the module fails with event 4c + 3, and commands are
lost. -/
def linkLost (c : Nat) (s : State) : State :=
  let h := (s.chan c).health
  if h = .absent ∨ h = .failed then loseCommands c (raiseWith (4 * c + 3) c 0 s) else moduleFailed c s

/-- After a change of a channel's link or descriptor: waiting commands, the engines and the drawer's wake. -/
def afterLink (c : Nat) (s : State) : State := settle (wakeCheck (chDrawer c) (runEngines (pumpChan c s)))

/-! Flits. -/

/-- R145: a flit of the confirm millisecond. -/
def confirmFlit (c : Nat) (f : Bytes) (s : State) : State :=
  if leBytes 2 (crc16 (f.take 62)).toNat ≠ (f.drop 62).take 2 then
    s.modChan c (fun k => { k with confirmErr := true })
  else s

/-- R144: a flit is descrambled: part of the stream on an ACTIVE link, part of the confirmation in training. -/
def anyFlit (c : Nat) (b : Bytes) (s : State) : State :=
  let (f, r) := scramble (s.chan c).rxScr b
  let t := s.modChan c (fun k => { k with rxScr := r })
  match (s.chan c).link with
  | .active => flitRx c f t
  | .confirm | .retrain => confirmFlit c f t
  | _ => s

/-- FLIT_RECEIVE (R149 to R153, R156). -/
def execFlitReceive (ch : Fin 144) (flit : Line) (s : State) : Res :=
  .next (afterLink ch (anyFlit ch flit.toList s))

/-- LCTL (R149, R154, R155): a flit whose type is LCTL; any other is received as what it is. -/
def execLctl (ch : Fin 144) (flit : Line) (s : State) : Res :=
  .next (afterLink ch (anyFlit ch flit.toList s))

/-- LINK_ACK_TIMER (R153). -/
def execLinkAckTimer (ch : Fin 144) (s : State) : Res :=
  let k := s.chan ch
  .next (if k.link = .active ∧ k.rxUnacked ≠ 0 then
      (sendLctl ch (some k.lastRx) none false false s).modChan ch (fun k => { k with rxUnacked := 0 })
    else s)

/-- LINK_REPLAY_TIMER (R155): replay from the oldest buffered flit. -/
def execLinkReplayTimer (ch : Fin 144) (s : State) : Res :=
  let k := s.chan ch
  .next (if k.link = .active ∧ !k.txBuf.isEmpty then replayFrom ch (k.txNext - BitVec.ofNat 12 k.txBuf.length) s else s)

/-- BLOCK_ALIGNMENT_LOSS (R147); in the confirm millisecond it is a block-header error (R145). -/
def execBlockAlignmentLoss (ch : Fin 144) (s : State) : Res :=
  .next (match (s.chan ch).link with
    | .active => startRetrain ch s
    | .confirm | .retrain => s.modChan ch (fun k => { k with confirmErr := true })
    | _ => s)

/-! Training. -/

/-- R144, R145: equalisation is over on both sides: sixteen TRN2, then the confirm millisecond of scrambled IDLE flits. -/
def startConfirm (c : Nat) (s : State) : State :=
  let s := s.modChan c (fun k => { k with
    link := if k.link = .retrain then .retrain else .confirm, eqTry := none, eqDone := true, trn2Seen := 0, confirmErr := false
    txScr := BitVec.allOnes 31 })
  sendIdle c (forEach (List.range 16) (fun _ s => s.send (.trn2 c)) s)

/-- R145: EQUALISE begins: the controller asks for the module's first preset. -/
def equalise (c : Nat) (s : State) : State :=
  (s.modChan c (fun k => { k with eqTry := some (0, 0) })).send (.trn1 c (s.chan c).cPreset 0 true false)

/-- R145: one block of the module in EQUALISE. Each of the eleven presets is tried for 64 blocks; the one that the
controller settles on is left open (log entry 62, DESIGN CHOICE). -/
def eqBlock (c : Nat) (s : State) : State :=
  match (s.chan c).eqTry with
  | none => s
  | some (p, n) =>
    if n + 1 < 64 then s.modChan c (fun k => { k with eqTry := some (p, n + 1) })
    else if p < 10 then
      (s.modChan c (fun k => { k with eqTry := some (p + 1, 0) })).send (.trn1 c (s.chan c).cPreset (p + 1) true false)
    else
      let (v, s) := s.freeVal
      let s := s.modChan c (fun k => { k with eqTry := none, eqDone := true })
      s.send (.trn1 c (s.chan c).cPreset (v.toNat % 11) true true)

/-- The channel is past the trigger of EQUALISE. -/
def Chan.equalising (k : Chan) : Bool := k.eqTry.isSome || k.eqDone

/-- R145, R146: one TRN1 of the module. -/
def trn1Rx (c preset req : Nat) (lock eqDone : Bool) (s : State) : State :=
  let k := s.chan c
  let live := k.link == .detect || k.link == .equalise || k.link == .retrain
  if !live then s
  else
    let n := if lock then k.trn1Lock + 1 else 0
    let s := s.modChan c (fun k => { k with
      trn1Lock := n, mPreset := if preset ≤ 10 then preset else k.mPreset
      cPreset := if req ≤ 10 ∧ !k.shortTrain ∧ k.equalising then req else k.cPreset })
    if k.shortTrain then (if n = 8 then startConfirm c s else s)
    else if !k.equalising then
      if n ≥ 8 then equalise c (s.modChan c (fun k => { k with link := if k.link = .detect then .equalise else k.link })) else s
    else if eqDone && k.eqDone then startConfirm c s
    else eqBlock c s

/-- TRN1 (R145): the byte-1 sender field of a module's set is 1. -/
def execTrn1 (ch : Fin 144) (sender preset req : Nat) (lock eqDone : Bool) (s : State) : Res :=
  .next (if sender = 1 then trn1Rx ch preset req lock eqDone s else s)

/-- TRN2 (R144, R145): the first data block after the last one is scrambled from the seed. -/
def execTrn2 (ch : Fin 144) (sender : Nat) (s : State) : Res :=
  let k := s.chan ch
  .next (if sender = 1 ∧ (k.link = .confirm ∨ (k.link = .retrain ∧ (k.eqDone ∨ k.shortTrain))) then
      s.modChan ch (fun k => { k with trn2Seen := k.trn2Seen + 1, rxScr := BitVec.allOnes 31 })
    else s)

/-- TRAINING_STEP_TIMEOUT (R145, R146, R175): a step of a training, a short retraining, or the full training after it. -/
def execTrainingStepTimeout (ch : Fin 144) (s : State) : Res :=
  let k := s.chan ch
  .next (match k.link with
    | .detect | .equalise | .confirm =>
      afterLink ch (raiseWith (4 * ch) ch 0 (s.modChan ch (fun k => { k with link := .failed })))
    | .retrain =>
      if !k.secondTry then
        (s.modChan ch (fun k => { k with
          secondTry := true, shortTrain := false, trn1Lock := 0, eqTry := none, eqDone := false, trn2Seen := 0, confirmErr := false
          cPreset := 5 })).send (.trn1 ch 5 15 false false)
      else
        let s := raiseWith (4 * ch) ch 0 (s.modChan ch (fun k => { k with link := .failed }))
        afterLink ch (linkLost ch s)
    | _ => s)

/-- R145, R146, R175: the confirm millisecond has passed without error: the link is ACTIVE, the stream starts or
resumes, and the descriptor is read. -/
def linkUp (c : Nat) (s : State) : State :=
  let was := (s.chan c).link
  let s := s.modChan c (fun k => { k with link := .active, shortTrain := false, secondTry := false, crcTimes := [] })
  let s := if was = .retrain then resumeStream c s
    else if s.drawerQuiet c then s else raiseWith (4 * c) c 0 s
  readDescriptor c s

/-- CONFIRM_PERIOD_EXPIRY (R145). -/
def execConfirmPeriodExpiry (ch : Fin 144) (s : State) : Res :=
  let k := s.chan ch
  .next (if (k.link = .confirm ∨ (k.link = .retrain ∧ k.eqDone)) ∧ !k.confirmErr ∧ k.trn2Seen ≥ 16 then
      afterLink ch (linkUp ch s)
    else s)

/-- IDLE_OS (R175): the module enters electrical idle after QUIESCE; park step P4 ends with the drawer's last link. -/
def execIdleOs (ch : Fin 144) (s : State) : Res :=
  .next (if (s.chan ch).link = .active ∧ (s.drw (chDrawer ch)).step = .p4 then
      settle (checkP4 (chDrawer ch) (s.modChan ch (fun k => { k with link := .quiesced })))
    else s)

/-! Sideband and temperature. -/

/-- R174: a position is without its module: no descriptor and no reading of it are held. -/
def Chan.noModule (k : Chan) : Chan := { k with sbPres := false, tempValid := false, dstat := 0, reject := 0 }

/-- R174, R175: one position answers or does not. -/
def sidebandOne (c : Nat) (answer : Option (BitVec 8)) (s : State) : State :=
  let k := s.chan c
  match answer with
  | some r =>
    let s := s.modChan c (fun k => { k with sbPres := true })
    let s := if r.getLsbD 0 then finishUnit 0x0607 c stOk [] s else s
    match k.link with
    | .down => if r.getLsbD 0 ∧ !s.test.badChan.contains c then startTraining c (s.modChan c Chan.clearLink) else s
    | .failed => (s.modChan c (fun k => { k.clearLink with link := .down })).send (.sbReset c)
    | _ => s
  | none =>
    let s := finishUnit 0x0607 c stTimeout [] (s.modChan c (fun k => { k with sbPres := false, tempValid := false }))
    match k.link with
    | .active | .retrain =>
      let s := raiseWith (4 * c) c 0 (s.modChan c (fun k => { k with link := .down }))
      (linkLost c s).modChan c (fun k => k.clearLink.noModule)
    | .quiesced => s
    | _ =>
      let s := if k.health = .inService ∨ k.health = .rebuildTarget then moduleFailed c s else s
      s.modChan c Chan.noModule

/-- SIDEBAND_POLL_TIMER (R174): the answers of the 18 positions of a drawer whose rails are on. -/
def execSidebandPollTimer (d : Fin 8) (answers : Vector (Option (BitVec 8)) 18) (s : State) : Res :=
  .next (if s.drawerPowered d then
      let s := forEach (List.range 18) (fun i s =>
        sidebandOne (18 * d + i) (answers.toList.getD i none) (s.send (.sbPoll (18 * d + i)))) s
      settle (wakeCheck d (runEngines s))
    else s)

/-- TEMP_POLL_TIMER (R170). -/
def execTempPollTimer (ch : Fin 144) (s : State) : Res :=
  let k := s.chan ch
  .next (match k.desc with
    | some d => if d.tsense ∧ k.link = .active then submit ch { op := .temp, fg := false } s else s
    | none => s)

/-- CE_WINDOW_TIMER (R110). -/
def execCeWindowTimer (ch : Fin 144) (s : State) : Res :=
  .next (s.modChan ch (fun k => { k with ceWindow := 0, ceRaised := false }))

end Sys2Proof.Machine
end

