-- ==== Sys2Proof/Machine/MediaRows.lean ====
section
/-! DEFINITION. Responses of modules and the row work of the stripe engines (R87 to R99, R105 to R140, R157 to R170,
R216, R217). -/

namespace Sys2Proof.Machine

open Sys2Proof

/-- After media work: the engines, the commands that wait on the channel, and what has become due. -/
def afterMedia (c : Nat) (s : State) : State := settle (runEngines (pumpChan c s))

/-! Responses in general (R157, R165, R166). -/

/-- The descriptor of the module covers what a command addresses (R72, R166): the die, and for a sector command a
sector below S_m. -/
def covered (k : Chan) (m : MCmd) : Bool :=
  match k.desc with
  | some d => decide (m.die < d.dieCount) && (!m.op.dieQueue || decide (m.daddr * d.dieCount + m.die < Descriptor.sectors d))
  | none => false

/-- R165, R166: a status other than OK and WRITE_FAIL. A command answered DIE_ABORTED is reissued; DIE_FAILED, and
RANGE for an address that the descriptor covers, fail the module; any other answer leaves the command without its
result (log entry 63, DESIGN CHOICE). -/
def badStatus (c : Nat) (m : MCmd) (status : Nat) (s : State) : State :=
  if status = 4 then s.modChan c (fun k => { k with waiting := k.waiting ++ [{ m with reissued := true }] })
  else
    let s := loseCommand c m s
    if status = 3 ∨ (status = 2 ∧ covered (s.chan c) m) then moduleFailed c s else s

/-- Take a response and act on it; that of a command lost with its module does nothing more (R132). -/
def onResponse (c tag : Nat) (op : MOp) (f : MCmd → State → State) (s : State) : State :=
  match takeTag c tag op s with
  | some (t, s) => afterMedia c (if t.lost then s else f t.cmd s)
  | none => s

/-! Decoding (R105, R108 to R110). -/

/-- R110: one corrected sector. -/
def countCorrected (c : Nat) (s : State) : State :=
  let s := s.modChan c (fun k => { k with ceWindow := sat16 k.ceWindow, ceTotal := k.ceTotal + 1 })
  let k := s.chan c
  if k.ceWindow ≥ k.ceThresh ∧ !k.ceRaised then
    raiseWith (4 * c + 2) c k.ceWindow (s.modChan c (fun k => { k with ceRaised := true, winOver := sat16 k.winOver }))
  else s

/-- R108: a media write of the sector is already queued. -/
def State.writeQueued (s : State) (c g grow pos : Nat) : Bool :=
  let k := s.chan c
  let hit := fun (m : MCmd) => m.op == .writeCw && m.grow == grow
  k.tags.any (fun t => hit t.cmd) || k.waiting.any hit
    || s.ops.any (fun o => o.locked && o.grp == g && o.dst == grow && (match o.phase, o.purpose with
      | .write, _ => o.await.contains pos
      | _, .host _ _ cws => pos == parityPos grow || cws.any (fun x => dataPos grow x == pos)
      | _, .chain p => pos == p || pos == parityPos grow
      | _, .correct p => pos == p
      | _, .rebuild => s.posHas g grow pos == false
      | _, .scrubFix .. => pos == parityPos grow
      | _, .fill .. | _, .replay | _, .metaRow _ => true
      | _, _ => false))

/-- R108, R109: a sector that decoded. The single re-read after a write-back makes no write-back of its own. -/
def sectorDecoded (c : Nat) (m : Miss) (d : Decoded) (s : State) : State :=
  let s := modMiss m.grp m.grow m.pos (fun x => { x with phase := .settled, sec := d.sec, wb := false }) s
  if d.fixes = 0 then s
  else
    let s := countCorrected c s
    if m.reread then (if d.fixes ≥ (s.chan c).retireSym then failForGood c m.grow s else s)
    else if s.writeQueued c m.grp m.grow m.pos then s
    else openOp { id := 0, grp := m.grp, grow := m.grow, dst := m.grow, purpose := .correct m.pos, phase := .read,
                  got := [(m.pos, d.sec)] } s

/-- READ_CW answered OK: the sector is decoded (R105). -/
def readDone (c : Nat) (cmd : MCmd) (data : Bytes) (s : State) : State :=
  match s.miss (chGroup c) cmd.grow (chPos c) with
  | none => s
  | some m =>
    if m.phase ≠ .reading then s
    else match decodeSector data with
      | some d => sectorDecoded c m d s
      | none =>
        let s := sectorUncor c m s
        let s := if m.reread then failForGood c m.grow s else s
        checkUeRows c s

/-- READ_CW_RESPONSE (R105). -/
def execReadCwResponse (ch : Fin 144) (tag : Fin 1024) (status : BitVec 16) (data : Sector) (s : State) : Res :=
  .next (onResponse ch tag .readCw (fun m s =>
    if status = 0 then readDone ch m data.toList s else badStatus ch m status.toNat s) s)

/-- WRITE_CW_RESPONSE (R112, R164). -/
def execWriteCwResponse (ch : Fin 144) (tag : Fin 1024) (status : BitVec 16) (s : State) : Res :=
  .next (onResponse ch tag .writeCw (fun m s =>
    if status.toNat ≤ 1 then
      let s := modOp m.rowOp (fun o => { o with await := o.await.filter (fun p => p != chPos ch) }) s
      if status = 1 then failForGood ch m.grow s else s
    else badStatus ch m status.toNat s) s)

/-- DIE_STATUS_RESPONSE (R157): frees its tag and credit; READY, THROTTLED and the queue depth change nothing. The manual
names no occasion on which the controller sends DIE_STATUS, and the model sends none (log entry 120, DESIGN CHOICE). -/
def execDieStatusResponse (ch : Fin 144) (tag : Fin 1024) (status _info : BitVec 16) (s : State) : Res :=
  .next (onResponse ch tag .dieStatus (fun m s => if status = 0 then s else badStatus ch m status.toNat s) s)

/-- DIE_RESET_RESPONSE (R165): commands of the die that were answered DIE_ABORTED are reissued. -/
def execDieResetResponse (ch : Fin 144) (tag : Fin 1024) (status : BitVec 16) (s : State) : Res :=
  .next (onResponse ch tag .dieReset (fun m s => if status = 0 then s else badStatus ch m status.toNat s) s)

/-- TEMP_RESPONSE (R170). -/
def execTempResponse (ch : Fin 144) (tag : Fin 1024) (status info : BitVec 16) (s : State) : Res :=
  .next (onResponse ch tag .temp (fun m s =>
    if status = 0 then
      let s := s.modChan ch (fun k => { k with temp := info, tempValid := true })
      match (s.chan ch).desc with
      | some d => if info.toInt > d.tWarn then raiseWith 992 ch info.toNat s else s
      | none => s
    else badStatus ch m status.toNat s) s)

/-! Timeouts (R165, R166). -/

/-- DIE_COMMAND_TIMEOUT (R165): DIE_RESET, or the module's failure when the command was reissued before. -/
def execDieCommandTimeout (ch : Fin 144) (tag : Fin 1024) (s : State) : Res :=
  .next (match (s.chan ch).tags.find? (fun t => t.tag == tag.val) with
    | some t =>
      if !t.cmd.op.dieQueue || t.lost then s
      else if t.cmd.reissued then afterMedia ch (moduleFailed ch s)
      else if t.resetSent then s
      else
        let busy := (s.chan ch).tags.any (fun r => r.cmd.op == .dieReset && r.cmd.die == t.cmd.die)
        let s := s.modChan ch (fun k => { k with
          tags := k.tags.map (fun r => if r.tag = tag.val then { r with resetSent := true } else r)
          timeouts := if busy then k.timeouts else sat16 k.timeouts })
        if busy then s else submit ch { op := .dieReset, die := t.cmd.die, fg := false } s
    | none => s)

/-- DIE_RESET_TIMEOUT (R166). -/
def execDieResetTimeout (ch : Fin 144) (tag : Fin 1024) (s : State) : Res :=
  .next (match (s.chan ch).tags.find? (fun t => t.tag == tag.val) with
    | some t => if !t.lost ∧ (t.cmd.op = .dieReset ∨ t.cmd.reissued) then afterMedia ch (moduleFailed ch s) else s
    | none => s)

/-! Descriptors (R98, R167 to R169, R178). -/

/-- R167: the fields of a 512-byte descriptor. -/
def parseDescriptor (b : Bytes) : Descriptor :=
  let n := fun (off len : Nat) => leVal (slice b off len)
  let t := fun (off : Nat) => (BitVec.ofNat 16 (n off 2)).toInt
  { descVer := n 0x004 2, descLen := n 0x006 2, vendor := n 0x008 2, model := n 0x00C 32, serial := n 0x02C 32
    modFw := n 0x04C 16, dieCount := n 0x05C 1, qdepth := n 0x05D 1, endurance := n 0x05F 1, dieCap := n 0x060 8
    tReadTyp := n 0x068 4, tReadMax := n 0x06C 4, tWriteTyp := n 0x070 4, tWriteMax := n 0x074 4, tResetMax := n 0x078 4
    powerMax := n 0x07C 2, powerIdle := n 0x07E 2, tsense := n 0x080 1 == 1, tWarn := t 0x082, tCrit := t 0x084
    linkCaps := BitVec.ofNat 16 (n 0x086 2) }

/-- R168: the reject code of a descriptor, 0 when it is accepted. -/
def descReject (b : Bytes) : Nat :=
  let d := parseDescriptor b
  if slice b 0 4 ≠ [0x4E, 0x4D, 0x4C, 0x44] ∨ d.descVer ≠ 1 ∨ d.descLen ≠ 512 then 1
  else if leVal (slice b 0x1FC 4) ≠ (crc32 (slice b 0 0x1FC)).toNat then 2
  else if d.dieCount ≠ 8 ∧ d.dieCount ≠ 16 then 3
  else if d.qdepth < 1 ∨ d.qdepth > 64 ∨ d.dieCap % 2 ^ 30 ≠ 0 ∨ d.dieCap < 2 ^ 35 then 4
  else if d.endurance ≠ 0 ∨ !d.linkCaps.getLsbD 0 then 5
  else 0

/-- R169: the fields whose change is a descriptor change. -/
def sameModule (a b : Descriptor) : Bool :=
  a.model == b.model && a.serial == b.serial && a.dieCount == b.dieCount && a.dieCap == b.dieCap

/-- A group position that lacks a sound module. -/
def Group.failedPos (k : Group) (p : Nat) : Bool := k.lost.contains p

/-- Group state table: an admitted module starts the rebuild of a DEGRADED group when AUTO_REBUILD is set. -/
def autoRebuild (g : Nat) (s : State) : State :=
  s.modGrp g (fun k => if k.st = .degraded ∧ k.autoRebuild then
    { k with st := .rebuilding, rebuildPtr := 0, rebuildOfFailed := false, paused := false } else k)

/-- R98, R178: an accepted module that is new to its position. -/
def arrive (c : Nat) (d : Descriptor) (s : State) : State :=
  let g := chGroup c
  let k := s.grp g
  let set := fun (h : Health) (s : State) => s.modChan c (fun k => { k with health := h, badRows := [], retiring := false })
  if k.st = .unformatted ∨ k.formatting then set .inService s
  else if Descriptor.sectors d < k.ng then raiseWith (4 * c + 3) c 0 (set .tooSmall s)
  else if k.failedPos (chPos c) then autoRebuild g (set .rebuildTarget s)
  else set .inService s

/-- R160, R168, R169, R176, R178: a descriptor has been read. Event 4c + 3 reports the first acceptance or rejection, and
a descriptor change, but not a wake of the same module. -/
def descRead (c : Nat) (b : Bytes) (s : State) : State :=
  let d := parseDescriptor b
  let k := s.chan c
  let used := k.health == .inService || k.health == .rebuildTarget
  let r := descReject b
  let changed := match k.desc with | some o => r ≠ 0 || !sameModule o d | none => false
  let s := if !changed then s
    else
      let s := s.modChan c (fun k => { k with tempValid := false })
      if used then moduleFailed c s else raiseWith (4 * c + 3) c r s
  if r ≠ 0 then
    let s := s.modChan c (fun k => { k with dstat := 2, reject := r, desc := none, health := .absent, dieCredit := [] })
    if k.dstat = 2 ∨ changed then s else raiseWith (4 * c + 3) c r s
  else
    let s := s.modChan c (fun k => { k with
      dstat := 1, reject := 0, desc := some d
      dieCredit := if k.dieCredit.isEmpty then List.replicate d.dieCount d.qdepth else k.dieCredit })
    let keep := used && !changed
    let s := if keep then s else arrive c d s
    if k.dstat = 1 ∨ changed ∨ (keep && s.drawerQuiet c) then s else raiseWith (4 * c + 3) c 0 s

/-- R157: the descriptor from its two halves. -/
def Chan.descBytes (k : Chan) : Option Bytes :=
  match lookupNat 0 k.descPages, lookupNat 1 k.descPages with
  | some a, some b => some (a ++ b)
  | _, _ => none

/-- DESCRIPTOR_RESPONSE (R157, R168): one half of the descriptor; it is acted on once both halves are there (log entry 64,
DEDUCED). -/
def execDescriptorResponse (ch : Fin 144) (tag : Fin 1024) (status : BitVec 16) (data : Sector) (s : State) : Res :=
  .next (match takeTag ch tag .descriptor s with
    | some (t, s) =>
      let s :=
        if t.lost then s
        else if status ≠ 0 then
          badStatus ch t.cmd status.toNat (s.modChan ch (fun k => { k with descPages := tabDel k.descPages t.cmd.arg }))
        else
          let s := s.modChan ch (fun k => { k with descPages := tabPut k.descPages t.cmd.arg (slice data.toList 0 256) })
          if !descSettled (s.chan ch) then s
          else match (s.chan ch).descBytes with
            | some b => descRead ch b s
            | none => s
      settle (wakeCheck (chDrawer ch) (runEngines (pumpChan ch s)))
    | none => s)

/-! Row updates (R111, R114, R216, R217, R262, R481). -/

/-- The row of a dirty codeword can be updated now: its group, key and lock allow. -/
def State.rowReady (s : State) (g ns cw : Nat) : Bool :=
  !s.keyLost ns && (match s.decodeOff ns (256 * cw) with
    | some p => p.g == g && !s.filling p.g p.grow && !s.rowFetching p.g p.grow
        && !s.ops.any (fun o => o.locked && o.grp == g && (o.grow == p.grow || o.dst == p.grow)) && !s.chainDue g p.grow
    | none => false)

/-- Dirty codewords of a group that a row update could take: stamp, namespace, codeword. -/
def State.dirtyCws (s : State) (g : Nat) (ov : Bool) : List (Nat × Nat × Nat) :=
  if ov then (s.sump.overflow.filter (fun e => s.mayDrain e.lsn && s.rowReady g e.ns e.cw)).map (fun e => (e.stamp, e.ns, e.cw))
  else (s.sump.lines.filter (fun l => l.st == .dirty && s.mayDrain l.lsn && s.rowReady g l.ns (l.line / 4))).map
    (fun l => (l.stamp, l.ns, l.line / 4))

/-- The candidate of the oldest visibility step. -/
def oldestCw : List (Nat × Nat × Nat) → Option (Nat × Nat × Nat)
  | [] => none
  | x :: t => match oldestCw t with
    | some y => if y.1 < x.1 then some y else some x
    | none => some x

/-- R216: the codeword that the stripe engine chooses. -/
def State.chooseCw (s : State) (g : Nat) : Option (Nat × Nat × Nat) :=
  let ov := s.dirtyCws g true
  if s.dura.overBud && !ov.isEmpty then oldestCw ov else oldestCw (ov ++ s.dirtyCws g false)

/-- ROW_UPDATE_START (R211, R216, R217): the oldest dirty codeword's row is locked and MERGE_WAIT begins. -/
def execRowUpdateStart (g : Fin 16) (s : State) : Res :=
  .next (if !s.grpWorks g || !s.reserveRoom g then s
    else match s.chooseCw g with
      | none => s
      | some (_, ns, cw) =>
        match s.decodeOff ns (256 * cw) with
        | none => s
        | some p =>
          openOp { id := 0, grp := g, grow := p.grow, dst := p.grow, purpose := .host ns (cw / 8 * 2048) [],
                   phase := .merge, locked := true } s)

/-- MERGE_WAIT_EXPIRY (R217). -/
def execMergeWaitExpiry (op : Nat) (s : State) : Res :=
  .next (match s.op op with
    | some o => if o.phase = .merge then settle (endMerge o s) else s
    | none => s)

/-- ROW_LEASE_EXPIRY (R114): the module that has not acknowledged fails, and the lock is released. -/
def execRowLeaseExpiry (op : Nat) (ch : Fin 144) (s : State) : Res :=
  .next (match s.op op with
    | some o =>
      if o.phase = .write ∧ o.grp = chGroup ch ∧ o.await.contains (chPos ch) then
        settle (modOp op (fun x => { x with locked := false }) (moduleFailed ch s))
      else s
    | none => s)

/-! Gap moves (R88 to R91). -/

/-- R88: a move of the easel is due and its group can take it. -/
def State.moveDue (s : State) (g e : Nat) : Bool :=
  let x := s.easel (easelKey g e)
  decide (e < (s.grp g).eg) && x.nsid != 0 && decide (x.wcount ≥ x.psi) && !x.moving && !x.filling && s.takesMoves g

/-- R88 to R90: start a gap move. A changed ψ of the namespace takes effect at the easel here (log entry 114, DEDUCED). -/
def startMove (g e : Nat) (s : State) : State :=
  let k := easelKey g e
  let x := s.easel k
  let (src, dst) := if x.gap = 0 then (1048576, 0) else (x.gap - 1, x.gap)
  let psi := match s.ns x.nsid with | some n => n.psi | none => x.psi
  let s := s.modEasel k (fun x => { x with wcount := x.wcount - x.psi, psi, moving := true })
  settle (openOp { id := 0, grp := g, grow := slotRow x e src, dst := slotRow x e dst, purpose := .gap k src dst, phase := .read } s)

/-- GAP_MOVE_START (R88): the move starts unless a channel of its group has 8 foreground commands outstanding. -/
def execGapMoveStart (g : Fin 16) (e : Nat) (s : State) : Res :=
  .next (if s.moveDue g e && s.quietGroup g then startMove g e s else s)

/-- GAP_MOVE_YIELD_TIMEOUT (R88): a due move that has waited 1 ms proceeds. -/
def execGapMoveYieldTimeout (g : Fin 16) (e : Nat) (s : State) : Res :=
  .next (if s.moveDue g e then startMove g e s else s)

/-! Scrub (R127 to R131, R140, R204). -/

/-- One day in ns. -/
def dayNs : Nat := 86400000000000

/-- R130: the pass lies more than one day behind its schedule. -/
def State.passBehind (s : State) (g : Nat) : Bool :=
  let k := s.grp g
  decide (k.scrubPtr * s.plat.scrubDays * dayNs + dayNs * k.ng < (s.now - k.passStart) * k.ng)

/-- A row of a scrub pass that another operation's lock does not hold up. A row that a lock holds up is skipped and
taken once the lock is released (the table of R90's section). -/
def State.scrubBusy (s : State) (g : Nat) (now : Bool) : Bool :=
  s.ops.any (fun o => o.grp == g && o.inPass now && (o.locked || s.lockFree o || !o.needs.isEmpty))

/-- R127: the patrol pass reads the next row. -/
def patrolNext (g : Nat) (s : State) : State :=
  let k := s.grp g
  if s.scrubBusy g false ∨ k.scrubPtr ≥ k.ng then s
  else openOp { id := 0, grp := g, grow := k.scrubPtr, dst := k.scrubPtr, purpose := .scrub false, phase := .read }
    (s.modGrp g (fun k => { k with scrubPtr := k.scrubPtr + 1, behind := s.passBehind g }))

/-- R140: the SCRUB_NOW pass reads the next row, or is aborted. -/
def scrubNowNext (g : Nat) (s : State) : State :=
  let k := s.grp g
  match k.scrubNow with
  | none => s
  | some p =>
    if s.unitAborted codeScrubNow g then
      scrubWakeEnd (grpDrawer g) (finishUnit codeScrubNow g stAborted [] (s.modGrp g (fun k => { k with scrubNow := none })))
    else if s.scrubBusy g true ∨ p ≥ k.ng then s
    else
      openOp { id := 0, grp := g, grow := p, dst := p, purpose := .scrub true, phase := .read }
        (s.modGrp g (fun k => { k with scrubNow := some (p + 1) }))

/-- SCRUB_READ (R127, R130, R140): a park request stops the scrub at its pointer (R204). A SCRUB_NOW of a FAILED group,
which is not live, reads nothing and waits (log entry 122, DESIGN CHOICE). -/
def execScrubRead (g : Fin 16) (s : State) : Res :=
  .next (if s.live g && (s.drw (grpDrawer g)).st == .awake && s.quietGroup g && decide ((s.grp g).ng ≠ 0) then
      settle (scrubNowNext g (patrolNext g s))
    else s)

/-- PARK_SCRUB_DUE (R131, R189): a parked drawer with formatted groups is woken for scrub, and a PARKING one latches it. -/
def execParkScrubDue (d : Fin 8) (s : State) : Res :=
  .next (if ((s.drw d).st = .parked ∨ (s.drw d).st = .parking) ∧ !(s.drawerGroups d).isEmpty then
      settle (requestWake d none (s.modDrw d (fun x => { x with scrubLeft := s.drawerGroups d })))
    else s)

/-! Rebuild (R134 to R136). -/

/-- R136: the rebuild is paused. -/
def State.rebuildHeld (s : State) : Bool := s.dura.clow || s.prime.drain.isSome

/-- REBUILD_ROW (R134). -/
def execRebuildRow (g : Fin 16) (s : State) : Res :=
  .next (if (s.grp g).st ≠ .rebuilding ∨ !s.grpWorks g then s
    else
      let s := s.modGrp g (fun k => { k with paused := s.rebuildHeld })
      let k := s.grp g
      if s.unitAborted codeRebuild g then
        finishUnit codeRebuild g stAborted [] (s.modGrp g (fun k => { k with
          st := if k.rebuildOfFailed then .failed else .degraded, rebuildPtr := 0, rebuildOfFailed := false, paused := false }))
      else if k.paused ∨ s.ops.any (fun o => o.grp == g.val && o.purpose == .rebuild) then s
      else settle (openOp { id := 0, grp := g, grow := k.rebuildPtr, dst := k.rebuildPtr, purpose := .rebuild, phase := .read } s))

end Sys2Proof.Machine
end

