-- ==== Sys2Proof/Machine/TwinApply.lean ====
section
/-! DEFINITION. The standby: entries applied in LSN order (R48, R256 to R260), acknowledgements and twin credit (R260,
R261), peer fetches answered (R121), the comparison of digests (R267), and the takeover (R283 to R285). -/

namespace Sys2Proof.Machine

open Sys2Proof

/-! Acknowledgement and credit. -/

/-- Counts of twin credit start afresh on both sides (log entry 51, DEDUCED). -/
def freshCredit (s : State) : State :=
  (s.modTwin (fun t => { t with creditIn := 0, creditUsed := 0, creditOut := 0, creditRcv := 0, creditShort := false })).modSump (fun u =>
    { u with rsvTwin := 0 })

/-! Steps of an anchor at the standby. -/

/-- An ATOMIC_RESULT that directly follows: message, OLD, NEW, poison. -/
abbrev AtomRes := MsgId × Bytes × Bytes × Bool

/-- The run of ATOMIC_RESULT entries of a connection that directly follow an LSN, and whether the LSN after them is
held. -/
def resultsAfter (c : Nat) (lsn : Lsn) : List Logged → List AtomRes × Bool
  | [] => ([], false)
  | e :: t =>
    if e.lsn = lsn + 1 then
      match e.entry.body with
      | .atomicResult _ old new poison =>
        if e.entry.conn = c then
          let (l, more) := resultsAfter c (lsn + 1) t
          ((e.entry.msg, old, new, poison) :: l, more)
        else ([], true)
      | _ => ([], true)
    else ([], false)

/-- R258: a message is over at the standby once its step has run. -/
def standbyEnd (c : Nat) (m : Msg) (lsn : Lsn) (s : State) : State :=
  (stepped c m lsn id s).modConn c (fun k => k.endMsg m.id)

/-- R258, R256: run the steps of an anchor; none when an atomic's ATOMIC_RESULT may still come. `final` says that
nothing further comes. -/
def standbyChain : Nat → Nat → Bool → Bool → Lsn → List AtomRes → Bool → State → Option State
  | 0, _, _, _, _, _, _, s => some s
  | n + 1, c, first, final, lsn, res, more, s =>
    let s := s.modConn c Conn.passDropped
    let k := s.conn c
    match k.msg (k.wmark + 1) with
    | none => some s
    | some m =>
      if m.st ≠ .complete ∨ !isStep m.op ∨ (!first && s.visVarnish m.ns) then some s
      else if isAtomic m.op then
        match res with
        | (id, old, new, poison) :: t =>
          if id = m.id then
            let writes := !poison && (m.op != .cas || slice m.operand 0 8 == old)
            let (s, ls) := if writes then atomicWrite c m new lsn s else (s, [])
            let s := standbyEnd c m lsn (foldStep ls s)
            standbyChain n c false final lsn t more (s.modConn c (fun k => k.keepAtomic { msg := m.id, old, poison }))
          else some s
        | [] => if more || final then some s else none
      else
        let (s, ls) := showMessage (c, m.id) lsn s
        standbyChain n c false final lsn res more (standbyEnd c m lsn (foldStep ls s))

/-- An anchor of a message: the watermark reaches the message before it (R371's note on reads), then the steps run. -/
def runAnchor (c : Nat) (id : MsgId) (final : Bool) (lsn : Lsn) (rest : List Logged) (s : State) : Option State :=
  let s := s.modConn c (fun k => if later (id - 1) k.wmark then k.setWmark (id - 1) else k)
  let (res, more) := resultsAfter c lsn rest
  standbyChain ((s.conn c).msgs.length + 1) c true final lsn res more s

/-! One entry. -/

/-- R258: a message that a NET_WRITE entry begins, with the references that ADMIT takes. -/
def beginMsg (e : LogEntry) (moff nsoff : Nat) (akey : Option (BitVec 32)) (psn : Psn) (op : NetOp) (s : State) : State :=
  match (s.conn e.conn).msg e.msg with
  | some _ => s
  | none =>
    let raddr := nsoff - moff
    let m : Msg := { id := e.msg, op, akey := akey.getD 0, raddr, ns := e.nsid, firstAt := s.now, psn }
    match akey with
    | none => s.modConn e.conn (fun k => { k with msgs := insMsg m k.msgs })
    | some a =>
      let g := a.toNat % 131072
      let (lo, len) := match (s.grant g).params with | some p => (p.off, p.len) | none => (raddr, 1048576)
      let hi := if isAtomic op then raddr + 8 else Nat.min (raddr + 1048576) (lo + len)
      let span := s.rangeDrawers e.nsid raddr (hi - raddr)
      (takeRefs g span s).modConn e.conn (fun k => { k with msgs := insMsg { m with grant := some (g, lo, len), span } k.msgs })

/-- R258: place the bytes that a NET_WRITE entry carries. -/
def placeEntry (lsn : Lsn) (e : LogEntry) (moff nsoff : Nat) (mlen : Option Nat) (psn : Psn) (op : NetOp) (data : Bytes) (s : State) : State :=
  let c := e.conn
  let s := if isWrite op then (placePending e.nsid nsoff data (c, e.msg) lsn s).getD s else s
  s.modConn c (fun k =>
    let k := k.modMsg e.msg (fun m =>
      let ranges := if isWrite op then addRange m.ranges moff data.length else [(0, data.length)]
      let total := mlen <|> m.mlen
      { m with
        mlen := total, ranges, psn := serialMax m.psn psn, lsns := m.lsns ++ [lsn], operand := if isWrite op then [] else data
        st := if !isWrite op || total == some (rangeBytes ranges) then .complete else .incomplete })
    let was := ((k.psnOf.find? (fun p => p.1 == e.msg)).map (·.2)).getD psn
    { k with psnOf := (k.psnOf.filter (fun p => p.1 != e.msg)) ++ [(e.msg, serialMax was psn)] })

/-- The lines of a RESYNC entry become the standby's value (R293, R126). -/
def placeResync (lsn : Lsn) (ns off : Nat) (poison : BitVec 64) (data : Bytes) (s : State) : State :=
  let s := nextStamp s
  let s := forEach (List.range 64) (fun i s =>
    let bad := poison.getLsbD i
    let img := imgOf (if bad then List.replicate 64 0 else slice data (64 * i) 64)
    (showLine none ns (off / 64 + i) img bad lsn [] s).getD s) s
  foldStep ((List.range 64).map (fun i => (ns, off / 64 + i))) s

/-- R545, R546: the configuration that the survivor sends at the start of a resync differs from this twin's own. -/
def State.cfgDiffers (s : State) : Cfg → Bool
  | .nsTable l => !(s.ctl.nss.length == l.length && l.all (fun e => match s.ns e.1 with
      | some n => n.units.length == e.2.units && n.parkable == e.2.parkable && n.visVarnish == e.2.visVarnish
          && n.cacheFill == e.2.cacheFill && n.encrypted == e.2.encrypted
      | none => false))
  | .drawerTable l => l.any (fun e => (s.drw e.1).parkable != e.2.1 || (s.drw e.1).parkIdle != e.2.2)
  | .hdmTable l => (List.range 4).any (fun k => (s.host.hdm.getD k {}).nsid != (lookupNat k l).getD 0)
  | _ => false
/-- R546: a returner whose configuration differs asks for FULL (log entry 58, DEDUCED). -/
def askFull (differs : Bool) (s : State) : State :=
  if differs && s.twin.resync && !s.twin.resyncFull then
    sendData (.resyncReq true []) (s.modTwin (fun t => { t with resyncFull := true }))
  else s

/-- R258: what an entry does at the standby; none while an anchor waits for an ATOMIC_RESULT. -/
def applyBody (final : Bool) (l : Logged) (rest : List Logged) (s : State) : Option State :=
  let e := l.entry
  match e.body with
  | .netWrite moff nsoff mlen akey psn op data =>
    let s := placeEntry l.lsn e moff nsoff mlen psn op data (beginMsg e moff nsoff akey psn op s)
    if e.anchor then runAnchor e.conn e.msg final l.lsn rest s else some s
  | .release => if e.anchor then runAnchor e.conn e.msg final l.lsn rest s else some s
  | .atomicResult .. => some s
  | .drop _ =>
    let s := match (s.conn e.conn).msg e.msg with
      | some m => releaseRefs m (freePending (e.conn, e.msg) s)
      | none => s
    let s := s.modConn e.conn (fun k => k.dropId e.msg)
    if e.anchor then
      runAnchor e.conn e.msg final l.lsn rest s
    else some s
  | .cxlWrite off mask data =>
    if mask = 0 then some s
    else
      let s := nextStamp s
      let s := (showLine none e.nsid (off / 64) (maskImg mask data) false l.lsn [] s).getD s
      some (foldStep [(e.nsid, off / 64)] s)
  | .control _ _ _ cfg =>
    let s := askFull (s.cfgDiffers cfg) s
    let (s, r) := applyCfg cfg s
    some (foldDigest (beBytes 2 r) s)
  | .xport rpsn tpsn _ keygen =>
    some (s.modConn e.conn (fun k =>
      if k.st = .closed then k
      else { k with
        xport := some (rpsn, tpsn), gen := if k.keys.any (fun x => x.1 == keygen) then keygen else k.gen
        keys := if keygen = k.gen + 1 then k.keys.filter (fun x => x.1 ≥ keygen) else k.keys }))
  | .resync off poison data => some (placeResync l.lsn e.nsid off poison data s)

/-- R267: keep the digest of an LSN for comparison. -/
def keepDigest (s : State) : State :=
  s.modTwin (fun t => { t with digests := (t.applied, t.digest) :: t.digests.take 1023 })

/-- Apply one entry: LSN and KIND fold first (R266); none while it waits. -/
def applyEntry (final : Bool) (l : Logged) (rest : List Logged) (s : State) : Option State :=
  let s := s.modTwin (fun t => { t with applied := l.lsn, ackCount := t.ackCount + 1, rx := rest })
  let s := noteTiles l.lsn l.entry (foldEntry l.lsn (entryKind l.entry.body) s)
  (applyBody final l rest s).map (fun s => keepDigest s)

/-! Digest comparison (R267). -/

/-- R267: the two digests match at an LSN. -/
def digestMatch (lsn : Lsn) (s : State) : State :=
  s.modTwin (fun t => { t with
    matchAt := some s.now, matchLsn := lsn, digestMiss := 0, digestAt := none, tilesSince := t.tilesSince.filter (fun e => later e.1 lsn) })

/-- R245, R267: a digest mismatch: the active goes on in SOLO, the standby leaves. -/
def digestMismatch (port : Nat) (s : State) : State :=
  let s := raiseWith (640 + 8 * port + 2) port 0 (s.modTwin (fun t => { t with mismatches := sat16 t.mismatches, digestMiss := 0 }))
  match s.twin.role with
  | .active => enterSolo (s.twin.epoch + 1) s
  | .standby => enterFenced 6 (sendRelinquish 3 s)
  | _ => s

/-- The standby answers a DIGEST for an LSN that it has applied, and compares. -/
def digestAnswer (port : Nat) (lsn : Lsn) (v : BitVec 64) (s : State) : State :=
  match s.twin.digests.find? (fun e => e.1 == lsn) with
  | none => s
  | some (_, own) =>
    let s := ctlOne (.digest lsn own) s
    if own = v then digestMatch lsn s else digestMismatch port s

/-- A DIGEST that waited for its LSN. -/
def digestDue (s : State) : State :=
  match s.twin.digestAsk with
  | some (lsn, v) =>
    if atOrBefore lsn s.twin.applied then digestAnswer (s.twinUp.getD 0) lsn v (s.modTwin (fun t => { t with digestAsk := none })) else s
  | none => s

/-! Peer fetches (R121). -/

/-- R121, R122: start, or answer, a held peer fetch whose LSN has been applied. What the group's media cannot give goes
through the uncorrectable chain, which writes the marker; a group that is not awake holds the read. -/
def startFetch (h : HeldFetch) (s : State) : State :=
  if h.reading || !(s.serving || atOrBefore h.lsn s.twin.applied) then s
  else if (s.mediaNeeds h.ns h.off 256).isEmpty then answerFetch h none s
  else
    let s := s.modTwin (fun t => { t with heldFetches := t.heldFetches.map (fun x => if x.id = h.id then { x with reading := true } else x) })
    match s.decodeOff h.ns h.off with
    | none => answerFetch h (some (List.replicate 256 0, 0xF)) s
    | some _ => readCodeword h.ns (h.off / 256) (.peer h.id) true true s

/-- Every held peer fetch. -/
def pumpFetches (s : State) : State := forEach s.twin.heldFetches startFetch s

/-! The log at the standby. -/

/-- R258, R260: apply what is held in LSN order, up to an LSN where one is given, acknowledging after each 16. -/
def applyLoop : Nat → Bool → Option Lsn → State → State
  | 0, _, _, s => s
  | n + 1, final, upTo, s =>
    match s.twin.rx with
    | [] => s
    | e :: t =>
      if e.lsn ≠ s.twin.applied + 1 ∨ (match upTo with | some l => later e.lsn l | none => false) = true then s
      else match applyEntry final e t s with
        | none => s
        | some s =>
          let s := digestDue (if s.twin.ackCount ≥ 16 then sendApplyAck s else s)
          if s.twin.role = .standby then applyLoop n final upTo s else s

/-- Apply every entry that can be applied; none once a drain has stopped admission, as its markers would not cover it
(R63, R66). -/
def applyAll (final : Bool) (upTo : Option Lsn) (s : State) : State :=
  if s.prime.noAdmit then s else applyLoop s.twin.rx.length final upTo s

/-- Insert an entry in LSN order. -/
def insLogged (e : Logged) : List Logged → List Logged
  | [] => [e]
  | a :: t => if earlier e.lsn a.lsn then e :: a :: t else a :: insLogged e t

/-- Highest LSN received in order from a base (R298). -/
def inOrder (base : Lsn) : List Logged → Lsn
  | [] => base
  | e :: t => if e.lsn = base + 1 then inOrder e.lsn t else base

/-! Takeover (R283 to R285). -/

/-- LSN of a message's latest data entry, as an order from the applied LSN. -/
def State.msgLsn (s : State) (m : Msg) : Nat := m.lsns.foldl (fun n l => Nat.max n (2 ^ 47 - dist l s.twin.applied)) 0

/-- R284: the complete VIS_AT_VARNISH message after a connection's watermark, an atomic excepted. -/
def State.varnishNext (s : State) (c : Nat) : Option Msg :=
  let k := s.conn c
  match k.msg (k.wmark + 1) with
  | some m => if m.st == .complete && isStep m.op && !isAtomic m.op && s.visVarnish m.ns then some m else none
  | none => none

/-- R284: run those steps in ascending LSN order. -/
def varnishSteps : Nat → State → State
  | 0, s => s
  | n + 1, s =>
    let cands := s.busyConns.filterMap (fun c => (s.varnishNext c).map (fun m => (c, m)))
    let best := cands.foldl (fun (acc : Option (Nat × Msg)) e => match acc with
      | none => some e
      | some a => if s.msgLsn e.2 < s.msgLsn a.2 then some e else some a) none
    match best with
    | none => s
    | some (c, m) =>
      let (s, _) := showMessage (c, m.id) s.twin.applied s
      varnishSteps n ((standbyEnd c m s.twin.applied s).modConn c Conn.passDropped)

/-- R285: VPSN of a connection. -/
def Conn.vpsn (k : Conn) : Psn :=
  match (k.psnOf.filter (fun e => atOrBefore e.1 k.wmark)).map (·.2) with
  | p :: t => t.foldl serialMax p
  | [] => match k.xport with | some (r, _) => r | none => k.hpsn0 - 1

/-- R284, R285: what remains of a connection at K2: its unseen messages are discarded, watermark and VPSN fixed. -/
def resolveConn (c : Nat) (s : State) : State :=
  let s := s.modConn c Conn.passDropped
  let s := forEach (s.conn c).msgs (fun m s => releaseRefs m (freePending (c, m.id) s)) s
  s.modConn c (fun k =>
    let v := k.vpsn
    let t := match k.xport with | some (_, t) => t | none => k.txPsn
    { k with
      msgs := [], dwmark := k.wmark, cumPsn := v, settled := [], ackOwed := 0, txPsn := t, peerCum := t - 1
      txBuf := [], txWait := [], arrived := [], genStart := (t, 0, k.keyEpoch), genStartRx := (0, v), psnOf := [] })

/-- R284: every connection is resolved. -/
def resolveAll (s : State) : State :=
  let cs := (s.xport.conns.filter (fun e => !e.2.wit)).map (·.1)
  let n := s.xport.conns.foldl (fun n e => n + e.2.msgs.length) 0
  forEach cs resolveConn (varnishSteps n (forEach cs (fun c s => s.modConn c Conn.passDropped) s))

/-- R349: a TAKEOVER notice on every open connection. -/
def notices (s : State) : State :=
  forEach ((s.xport.conns.filter (fun e => e.2.st != .closed && !e.2.wit)).map (·.1)) (fun c s =>
    sendNotice c (s.modConn c (fun k => { k with noticeOn := true, notices := 50 }))) s

/-- K3 and K4 (R283): transmitters are enabled, addresses announced, notices sent; FORCE_TAKEOVER ends. -/
def takeoverAnnounce (s : State) : State :=
  let cmds := s.twin.takeCmd.toList
  let s := memActive (s.modTwin (fun t => { t with hostTx := true, take := .none, takeCmd := none }))
  finishAll cmds stOk [] (notices (announceAll s))

/-- R370: a REVOKING grant starts its REASM_TIMEOUT again. -/
def restartRevokes (s : State) : State :=
  s.modXport (fun x => { x with grants := x.grants.map (fun e =>
    (e.1, if e.2.st = .revoking then { e.2 with revokedAt := s.now } else e.2)) })

/-- K2 (R283, R254): entries not applied are discarded, connections resolved, and the new serving twin logs from its last
applied LSN on. -/
def takeoverResolve (s : State) : State :=
  let s := s.modTwin (fun t => { t with rx := [], sent := t.applied, relinquished := none, hostTx := false, silent := false })
  restartRevokes (freshCredit (resolveAll s))

/-- K2 and what follows it: SOLO at the new epoch, TAKEOVER assigning FENCED; on the witness path K3 waits. -/
def takeoverSolo (e : Epoch) (witness : Bool) (s : State) : State :=
  let s := enterSolo e (takeoverResolve s)
  let s := ctlAll (.takeover (s.twin.sent + 1) Role.fenced.code) s
  if witness then s.modTwin (fun t => { t with take := .wait true }) else takeoverAnnounce s

/-- S3 and S4 of the planned swap (R287): ACTIVE at the new epoch, TAKEOVER assigning STANDBY. -/
def takeoverSwap (s : State) : State :=
  let s := enterActive (s.twin.epoch + 1) (takeoverResolve s)
  takeoverAnnounce (ctlAll (.takeover (s.twin.sent + 1) Role.standby.code) s)

/-- K1 has ended. -/
def takeoverGo (swap : Bool) (s : State) : State := if swap then takeoverSwap s else takeoverSolo (s.twin.epoch + 1) false s

/-- R245: the takeover goes on unless a digest mismatch has fenced the twin while it applied entries. -/
def takeoverOn (f : State → State) (s : State) : State := if s.twin.role = .standby then f s else s

/-- K1 (R283): entries up to LAST are applied; K2 follows once LAST is reached. -/
def takeoverK1 (s : State) : State :=
  match s.twin.take with
  | .k1 last swap =>
    let s := applyAll false (some last) s
    if atOrBefore last s.twin.applied then takeoverOn (takeoverGo swap) s else s
  | _ => s

/-- K1 without a bound: what is held in order is applied, the rest discarded (witness path, FORCE_TAKEOVER, gap bound). -/
def takeoverHeld (upTo : Option Lsn) (s : State) : State := applyAll true upTo s

end Sys2Proof.Machine
end

