-- ==== Sys2Proof/Machine/HsOps.lean ====
section
/-! DEFINITION. Witness requests (R273, R274, R278), the decision of the twin handshake (R543), and the roles that
priming step 12 ends in (R292, R541 to R550). -/

namespace Sys2Proof.Machine

open Sys2Proof

/-! Witness requests. -/

/-- R274: the 24 bytes of a request. -/
def State.witBytes (s : State) (r : WitReq) : Bytes :=
  beBytes 1 r.wtype ++ beBytes 1 s.twin.num ++ beBytes 1 s.twin.role.code ++ [0] ++ beBytes 4 r.epoch.toNat
    ++ beBytes 8 s.twin.pair.toNat ++ beBytes 4 r.wseq.toNat ++ [0, 0, 0, 0]

/-- R273, R278: send a request, or send it again, in a packet of its own. The message ID is its WSEQ (log entry 44, DESIGN CHOICE). -/
def transmitWit (r : WitReq) (s : State) : State :=
  queueTx Config.witConn.1
    [{ psn := 0, wit := true, msg := r.wseq, off := 0, first := true, last := true, raddr := 0, data := s.witBytes r, path := 0 }] s

/-- Requests that stay outstanding beside a new one of a type: RENEWs whose grant could still extend the lease, and
requests of other types (log entry 57, DEDUCED). -/
def keepReq (now w : Nat) (r : WitReq) : Bool :=
  if r.wtype = 1 then decide (now < r.sentAt + 100000000) else r.wtype != w

/-- R278: a new witness request. -/
def askWit (w : Nat) (s : State) : State :=
  if s.twin.witness.isNone then s
  else
    let r : WitReq := { wtype := w, wseq := s.twin.wseq, epoch := s.twin.epoch, sentAt := s.now }
    transmitWit r (s.modTwin (fun t => { t with
      wseq := t.wseq + 1, witReqs := t.witReqs.filter (keepReq s.now w) ++ [r]
      firstRenew := if w = 1 then t.firstRenew <|> some s.now else t.firstRenew }))

/-- R273: the witness connection is opened again from the configuration. -/
def openWitness (s : State) : State :=
  match s.twin.witness with
  | some p => (applyWitness p s).1
  | none => s

/-! The decision (R543). -/

/-- rank of R543. -/
def hsRank (lrole : Nat) : Nat := if lrole = 3 then 3 else if lrole = 1 then 2 else if lrole = 2 then 1 else 0

/-- in_step of R543. -/
def inStep (x y : HsBody) : Bool :=
  x.pepoch == y.pepoch && ((x.lrole == 1 && y.lrole == 2) || (x.lrole == 2 && y.lrole == 1))
    && decide (x.stop ≤ 1) && decide (y.stop ≤ 1) && x.lsn == y.lsn && x.cfg == y.cfg
    && x.jtiles == 0 && y.jtiles == 0 && !x.resync && !y.resync

/-- The key of `x` is the larger (better of R543); `y` is the one received, whose epoch half the space away is never the
newer (R682). -/
def betterKey (x y : HsBody) : Bool :=
  let a := decide (x.stop ≤ 1)
  let b := decide (y.stop ≤ 1)
  if a != b then a
  else if x.pepoch ≠ y.pepoch then !later y.pepoch x.pepoch
  else if hsRank x.lrole ≠ hsRank y.lrole then decide (hsRank x.lrole > hsRank y.lrole)
  else !x.twin

/-- What R543 decides for one twin: its role, the peer's, the epoch, FULL, and PRIME_STAT.DECIDE. -/
structure HsDecision where
  /-- Role of this twin. -/
  role : Role
  /-- Role of the peer. -/
  peer : Role
  /-- Epoch. -/
  epoch : Epoch
  /-- FULL. -/
  full : Bool
  /-- 1 in step, 2 serving with resync, 3 returner. -/
  code : Nat
  deriving DecidableEq, Repr

/-- decide of R543, for the twin whose HELLO body is `x`. -/
def hsDecide (x y : HsBody) : HsDecision :=
  let e := serialMax x.pepoch y.pepoch + 1
  if inStep x y then
    if x.lrole = 1 then { role := .active, peer := .standby, epoch := e, full := false, code := 1 }
    else { role := .standby, peer := .active, epoch := e, full := false, code := 1 }
  else
    let mine := betterKey x y
    let (v, r) := if mine then (x, y) else (y, x)
    let ok := if v.bitmap then atOrBefore (v.split - 1) r.pepoch else r.pepoch == v.pepoch && !r.resync
    let full := decide (r.stop ≥ 2) || r.cfg != v.cfg || !ok
    if mine then { role := .solo, peer := .standby, epoch := e, full, code := 2 }
    else { role := .standby, peer := .solo, epoch := e, full, code := 3 }

/-! Frames. -/

/-- R542: the HANDSHAKE body of this moment: DECIDE once a decision is held, HELLO before. -/
def State.hsBody (s : State) : HsBody :=
  match s.twin.hs.mine, s.twin.hs.peer with
  | some (r, e), some y => { s.hsNow with decide := true, newEpoch := e, srole := r.code, full := (hsDecide s.hsNow y).full }
  | _, _ => s.hsNow

/-- R542: send it on every port in service. -/
def sendHandshake (s : State) : State := ctlAll (.handshake s.hsBody) s

/-! Roles that step 12 ends in. -/

/-- R633: the priming that follows a life-cycle change raises event 995 and writes a critical life-cycle record. -/
def lcReached (s : State) : State :=
  if s.prime.lcChanged then
    record 6 0xFFFF true (leBytes 8 s.test.lcFuses) (raiseWith 995 0 s.test.lcFuses (s.modPrime (fun p => { p with lcChanged := false })))
  else s

/-- Step 12 ends once the role is decided: step 13 begins (R527, R532). -/
def roleDecided (s : State) : State :=
  if s.prime.step = 12 then
    let s := s.modTwin (fun t => { t with hs := {} })
    let s := s.modPrime (fun p => { p with step := 13, waitPeer := false })
    let s := lcReached s
    if s.host.perst || s.test.badHost then s else s.send .hostTrain
  else s

/-- R544: the bitmap of a controller that enters SOLO at priming: the one persisted, and the tiles of its journals. -/
def primeBitmap (s : State) : State :=
  s.modTwin (fun t =>
    let t := { t with
      bitmap := s.prime.savedMap.getD [], bitmapAll := s.prime.savedAll && s.prime.savedMap.isSome, tileLsn := [], walk := none }
    t.journalTiles.foldl Twin.setBit t)

/-- SOLO at priming (R543, R544, R548). The bitmap persisted keeps the epoch at which it began. -/
def primeSolo (e : Epoch) (s : State) : State :=
  let kept := s.prime.savedMap.isSome
  let split := s.prime.split
  let s := primeBitmap (enterSolo e s)
  roleDecided (if kept then s.modPrime (fun p => { p with split }) else s)

/-- Digests, credit and applied LSN of a pair that begins in step at an LSN (R266, R543). -/
def pairStart (lsn : Lsn) (s : State) : State :=
  keepDigest (freshCredit (s.modTwin (fun t => { t with
    sent := lsn, applied := lsn, digest := BitVec.allOnes 64, digests := [], digestAsk := none, matchAt := none
    matchLsn := lsn, tilesSince := [], unacked := [], waiting := [], rx := [], silent := false })))

/-- ACTIVE at priming, in step. -/
def primeActive (e : Epoch) (s : State) : State := roleDecided (enterActive e (pairStart s.twin.applied s))

/-- STANDBY at priming, in step, or with no peer and no witness (R549). -/
def primeStandby (e : Epoch) (s : State) : State := roleDecided (sendApplyAck (enterStandby e (pairStart s.twin.applied s)))

/-- R292: RESYNC_REQ with the tiles of the drain journals, at most 512 in a frame. -/
def resyncReqs : Nat → Bool → List Nat → State → State
  | 0, _, _, s => s
  | n + 1, full, l, s =>
    let s := sendData (.resyncReq full (l.take 512)) s
    if l.length ≤ 512 then s else resyncReqs n full (l.drop 512) s

/-- R292, R545, R546: STANDBY with RESYNC at the survivor's epoch. -/
def becomeReturner (e : Epoch) (full : Bool) (s : State) : State :=
  let s := enterStandby e (pairStart s.twin.applied s)
  let s := s.modTwin (fun t => { t with resync := true, resyncFull := full, resyncFrom := none })
  let s := s.modPrime (fun p => { p with decide := 3, full })
  let l := s.twin.journalTiles
  roleDecided (resyncReqs (l.length / 512 + 1) full l s)

/-- R546: the returner asks for FULL. -/
def State.returnFull (s : State) (e : Epoch) : Bool := decide (s.stopCode ≥ 2) || earlier s.twin.epoch (e - 1)

/-- Take the role decided (R543). -/
def takeDecision (d : HsDecision) (s : State) : State :=
  let s := s.modPrime (fun p => { p with decide := d.code, full := d.full })
  match d.role with
  | .active => primeActive d.epoch s
  | .solo => primeSolo d.epoch s
  | .standby => if d.code = 1 then primeStandby d.epoch s else becomeReturner d.epoch d.full s
  | _ => s

/-- R543: the peer's DECIDE meets the decision held: agreement takes the role; disagreement waits 10 ms for HELLO. -/
def meetDecide (s : State) : State :=
  match s.twin.hs.decide, s.twin.hs.peer with
  | some b, some y =>
    let d := hsDecide s.hsNow y
    if b.newEpoch = d.epoch ∧ b.full = d.full ∧ b.srole = d.peer.code then takeDecision d s
    else s.modTwin (fun t => { t with hs := { t.hs with peer := none, decide := none, mine := none, hold := true } })
  | _, _ => s

/-- R543: a HELLO or DECIDE in step 12. -/
def hsFrame (b : HsBody) (s : State) : State :=
  if b.decide then meetDecide (s.modTwin (fun t => { t with hs := { t.hs with decide := some b } }))
  else
    let d := hsDecide s.hsNow b
    let s := s.modTwin (fun t => { t with hs := { t.hs with peer := some b, mine := some (d.role, d.epoch), hold := false } })
    meetDecide (sendHandshake s)

end Sys2Proof.Machine
end

