-- ==== Sys2Proof/Machine/TwinRx.lean ====
section
/-! DEFINITION. Twin frames that arrive (R243, R244, R249 to R296, R541 to R547). -/

namespace Sys2Proof.Machine

open Sys2Proof

/-! What every frame passes. -/

/-- R243: a frame of an older epoch is counted; event 640 + 8t + 4 at most once per millisecond. -/
def staleFrame (t : Nat) (s : State) : State :=
  let was := (s.tport t).staleAt
  let s := s.modTport t (fun p => { p with stale := sat16 p.stale })
  if (match was with | some x => decide (s.now < x + 1000000) | none => false) = true then s
  else raiseWith (640 + 8 * t + 4) t 0 (s.modTport t (fun p => { p with staleAt := some s.now }))

/-- R265, R280, R281: the peer is heard; a controller that asked the witness stops asking. -/
def heard (s : State) : State :=
  s.modTwin (fun t => { t with
    heardAt := some s.now, silent := false, askSolo := false, witRetry := none
    witReqs := t.witReqs.filter (fun r => r.wtype != 2 && r.wtype != 3) })

/-- R287: A has sent RELINQUISH with cause 1 and takes STANDBY at the epoch of B's TAKEOVER; SWAP_ROLES ends. -/
def swapOver (cmd : Nat) (e : Epoch) (fromLsn : Lsn) (s : State) : State :=
  let s := enterStandby e s
  let s := freshCredit (s.modTwin (fun t => { t with applied := fromLsn - 1, sent := fromLsn - 1 }))
  finish cmd stOk [] (sendApplyAck (keepDigest s))

/-- R244: the end of a resync at the returner, or a standby that its peer assigns STANDBY at a newer epoch. -/
def standbyEpoch (e : Epoch) (s : State) : State :=
  changeRole .standby e (s.modTwin (fun t => { t with
    resync := false, resyncFull := false, resyncFrom := none, journalTiles := if t.resync then [] else t.journalTiles
    undrained := if t.resync then 0 else t.undrained }))

/-- R244: a frame of a newer epoch; `assigned` is a TAKEOVER frame's PEER and FROM. -/
def newerFrame (e : Epoch) (assigned : Option (Nat × Lsn)) (s : State) : State :=
  let toStandby := match assigned with | some (2, f) => some f | _ => none
  match s.twin.role, toStandby with
  | .active, some f =>
    match s.twin.swap with
    | .s2 cmd => swapOver cmd e f (heard s)
    | _ => enterFenced 3 s
  | .active, none | .solo, _ => enterFenced 3 s
  | .standby, some _ => standbyEpoch e (heard s)
  | .standby, none => enterFenced 3 (sendRelinquish 3 s)
  | .fenced, _ | .priming, _ => s

/-- R243, R244: the epoch of a frame against the controller's own; true when the frame is of the present epoch. -/
def epochGate (h : TwinHdr) (assigned : Option (Nat × Lsn)) (s : State) : State × Bool :=
  if s.twin.role = .priming then (s, false)
  else if h.epoch = s.twin.epoch then (heard s, true)
  else if later h.epoch s.twin.epoch then (newerFrame h.epoch assigned s, false)
  else (staleFrame h.port s, false)

/-- The lane of a frame that arrives: a MAILBOX command is sequenced. -/
def TwinBody.isData : TwinBody → Bool
  | .data _ => true
  | _ => false

/-- R250, R251: a frame with a good FCS on a port in service: its link acknowledgements, then its own sequence. -/
def linkGate (h : TwinHdr) (b : TwinBody) (s : State) : State × Bool :=
  if h.fcs != frameFcs (headOf h b.isData) b || (s.tport h.port).st != 2 then (s, false)
  else
    let s := twinAcks h s
    if b.isData then twinAccept h s else (s, true)

/-- A frame through its gates; what it does at the present epoch, and what then falls due. -/
def twinFrame (h : TwinHdr) (b : TwinBody) (assigned : Option (Nat × Lsn)) (act : State → State) (s : State) : State :=
  let (s, ok) := linkGate h b s
  if !ok then s
  else
    let (s, ok) := epochGate h assigned s
    settle (if ok then act s else s)

/-! The log. -/

/-- R253, R258, R261: hold an entry for application, once. -/
def logFrame (lsn : Lsn) (e : LogEntry) (s : State) : State :=
  let t := s.twin
  if t.role ≠ .standby ∨ (t.resync ∧ t.resyncFrom.isNone) ∨ !later lsn t.applied ∨ t.rx.any (fun x => x.lsn == lsn) then s
  else
    let u := entryUnits e
    let s := s.modTwin (fun t =>
      let rx := insLogged { lsn, entry := e } t.rx
      { t with rx, sent := inOrder t.applied rx, creditRcv := t.creditRcv + BitVec.ofNat 32 u })
    let s := s.modSump (fun x => { x with rsvTwin := x.rsvTwin - unitLines * u })
    let s := match s.twin.take with
      | .k1 .. => takeoverK1 s
      | _ => applyAll false none s
    pumpFetches s

/-- LOG (R258). -/
def execLog (h : TwinHdr) (e : LogEntry) (s : State) : Res :=
  .next (twinFrame h (.data (.log { lsn := h.lsn, entry := e })) none (logFrame h.lsn e) s)

/-- R294: bits of tiles whose last RESYNC entry the returner has applied are cleared. -/
def clearTiles (a : Lsn) (s : State) : State :=
  let gone := s.twin.tileLsn.filter (fun e => atOrBefore e.2 a)
  s.modTwin (fun t => gone.foldl (fun t e => t.clearBit e.1)
    { t with tileLsn := t.tileLsn.filter (fun e => !atOrBefore e.2 a) })

/-- R40, R259, R261: what an APPLY_ACK reports. -/
def applyAckFrame (a : Lsn) (credit : BitVec 32) (s : State) : State :=
  if !s.logging ∨ !atOrBefore a s.twin.sent then s
  else
    let s := s.modTwin (fun t => { t with
      applied := serialMax t.applied a, unacked := t.unacked.filter (fun e => later e.lsn a)
      creditIn := serialMax t.creditIn credit
      resyncLive := t.resyncLive || (match t.resyncFrom with | some f => atOrBefore f a | none => false) })
    pumpFetches (pumpLog (clearTiles a s))

/-- APPLY_ACK (R40). -/
def execApplyAck (h : TwinHdr) (applied : Lsn) (credit : BitVec 32) (s : State) : Res :=
  .next (twinFrame h (.applyAck applied credit) none (applyAckFrame applied credit) s)

/-! Heartbeats. -/

/-- R243, R546, R547: a HEARTBEAT in priming step 12. The epoch of a serving peer is adopted unless it is stale; a peer that
does not serve is waited for whatever its epoch (log entry 123, DEDUCED). -/
def primeBeat (port : Nat) (e : Epoch) (role : Nat) (s : State) : State :=
  if !s.twin.hs.running then s
  else if role = 1 ∨ role = 3 then
    if e = s.twin.epoch ∨ later e s.twin.epoch then becomeReturner e (s.returnFull e) (heard s) else staleFrame port s
  else s.modPrime (fun p => { p with waitPeer := true })

/-- HEARTBEAT (R265, R268, R546, R547). -/
def execHeartbeat (h : TwinHdr) (role health wit : BitVec 8) (applied : Lsn) (devtime : BitVec 64) (s : State) : Res :=
  let body : TwinBody := .heartbeat role.toNat health.toNat wit.toNat applied devtime
  .next (if s.twin.role = .priming then
      let (s, ok) := linkGate h body s
      if ok then settle (primeBeat h.port h.epoch role.toNat s) else s
    else twinFrame h body none (fun s => s.modTwin (fun t => { t with
      beat := some { role := role.toNat, health := health.toNat, wit := wit.toNat, applied, epoch := h.epoch, time := s.now } })) s)

/-! Digests. -/

/-- R267: a DIGEST at the standby is answered once its LSN is applied; at the active it is compared. An LSN half the space
away lies outside every window (R682). -/
def digestFrame (port : Nat) (lsn : Lsn) (v : BitVec 64) (s : State) : State :=
  if s.twin.resync then s
  else match s.twin.role with
    | .standby =>
      if atOrBefore lsn s.twin.applied then digestAnswer port lsn v s
      else if !later lsn s.twin.applied then s
      else s.modTwin (fun t => { t with digestAsk := some (lsn, v) })
    | .active =>
      match s.twin.digests.find? (fun e => e.1 == lsn) with
      | some (_, own) => if own = v then digestMatch lsn s else digestMismatch port s
      | none => s
    | _ => s

/-- DIGEST (R267). -/
def execDigest (h : TwinHdr) (lsn : Lsn) (value : BitVec 64) (s : State) : Res :=
  .next (twinFrame h (.digest lsn value) none (digestFrame h.port lsn value) s)

/-! RELINQUISH and TAKEOVER. -/

/-- R296: the survivor's resync stops; its bitmap stays as R294 left it. -/
def stopResync (s : State) : State :=
  s.modTwin (fun t => { t with
    resync := false, resyncFull := false, walk := none, resyncFrom := none, resyncLive := false, unacked := [], waiting := []
    walkTenths := 0 })

/-- R270: event 640 + 8t + 3 once in each epoch. -/
def relinquishEvent (port : Nat) (s : State) : State :=
  if s.twin.relEvent = some s.twin.epoch then s
  else raiseWith (640 + 8 * port + 3) port 0 (s.modTwin (fun t => { t with relEvent := some t.epoch }))

/-- R245, R283, R287, R296: what a RELINQUISH brings about. -/
def relinquishFrame (port : Nat) (last : Lsn) (cause : Nat) (s : State) : State :=
  let s := relinquishEvent port s
  match s.twin.role with
  | .standby =>
    if s.twin.resync then enterFenced 7 s
    else if s.twin.take ≠ .none ∨ cause ≥ 3 then s
    else takeoverK1 (s.modTwin (fun t => { t with
      take := .k1 last (cause == 1), witReqs := t.witReqs.filter (fun r => r.wtype == 1) }))
  | .active => if cause = 2 ∨ cause = 3 then enterSolo (s.twin.epoch + 1) s else s
  | .solo => if s.twin.resync then stopResync s else s
  | _ => s

/-- RELINQUISH (R283). -/
def execRelinquish (h : TwinHdr) (last : Lsn) (cause : BitVec 8) (s : State) : Res :=
  .next (twinFrame h (.relinquish last cause.toNat) none (relinquishFrame h.port last cause.toNat) s)

/-- TAKEOVER_GAP_FILL_TIMEOUT (R283): entries beyond the first gap are discarded. -/
def execTakeoverGapFillTimeout (s : State) : Res :=
  .next (match s.twin.take with
    | .k1 last swap => settle (takeoverOn (takeoverGo swap) (takeoverHeld (some last) s))
    | _ => s)

/-- TAKEOVER_ANNOUNCE_DELAY (R283): K3 and K4 on the witness path. -/
def execTakeoverAnnounceDelay (s : State) : Res :=
  .next (match s.twin.take with
    | .wait _ => settle (takeoverAnnounce s)
    | _ => s)

/-- R293: a TAKEOVER of the present epoch tells a returner where the survivor's log begins. -/
def takeoverFrame (f : Lsn) (peer : Nat) (s : State) : State :=
  if s.twin.role = .standby ∧ s.twin.resync ∧ peer = 2 ∧ s.twin.resyncFrom.isNone then
    let s := freshCredit (s.modTwin (fun t => { t with
      resyncFrom := some f, applied := f - 1, sent := f - 1, rx := [], digest := BitVec.allOnes 64, digests := [] }))
    sendApplyAck s
  else s

/-- TAKEOVER (R244, R287, R293). -/
def execTakeover (h : TwinHdr) (fromLsn : Lsn) (peer : BitVec 8) (s : State) : Res :=
  .next (twinFrame h (.takeover fromLsn peer.toNat) (some (peer.toNat, fromLsn)) (takeoverFrame fromLsn peer.toNat) s)

/-! Peer fetches. -/

/-- FETCH_REQ (R121). -/
def execFetchReq (h : TwinHdr) (nsid : BitVec 16) (off : BitVec 64) (lsn : Lsn) (ftag : BitVec 16) (s : State) : Res :=
  .next (twinFrame h (.data (.fetchReq nsid.toNat off.toNat lsn ftag.toNat)) none (fun s =>
    let (id, s) := s.fresh
    pumpFetches (s.modTwin (fun t => { t with heldFetches := t.heldFetches ++
      [{ id, ftag := ftag.toNat, port := h.port, ns := nsid.toNat, off := off.toNat, lsn }] }))) s)

/-- R129: a data sector of an inconsistent row as the peer holds it; a line that the peer lacks stays as it is here. -/
def fixSector (f : SentFetch) (data : Bytes) (mask : BitVec 4) (s : State) : State :=
  modOp f.rowOp (fun o =>
    let own := (lookupNat f.pos o.got).map (s.clearOf f.ns f.off)
    let line := fun (l : Nat) => if mask.getLsbD l then (match own with | some (d, _) => slice d (64 * l) 64 | none => List.replicate 64 0)
      else slice data (64 * l) 64
    let bad := maskOf 4 ((List.range 4).filter (fun l => mask.getLsbD l && (match own with | some (_, m) => m.getLsbD l | none => true)))
    { o with
      fetched := o.fetched ++ [(f.pos, s.storeCw f.ns f.off ((List.range 4).flatMap line) bad)]
      needs := o.needs.filter (fun p => p != f.pos) }) s

/-- R572: a line of a dirty overflow entry, all four for l ≥ 4, takes the peer's value, or is poisoned where the peer has
none; its pool words are written (R556). -/
def repairOv (ns off l : Nat) (data : Bytes) (mask : BitVec 4) (s : State) : State :=
  match s.overflowOf ns (off / 256) with
  | none => s
  | some e =>
    let hit := fun i => decide (l = i ∨ l ≥ 4)
    let line := fun i => imgOf (if mask.getLsbD i then List.replicate 64 0 else slice data (64 * i) 64)
    let x := { e with
      img := (List.range 4).flatMap (fun i => if hit i then line i else imgSlice e.img (64 * i) 64)
      poison := maskOf 4 ((List.range 4).filter (fun i => if hit i then mask.getLsbD i else e.poison.getLsbD i)) }
    let s := s.modSump (fun u => { u with overflow := u.overflow.map (fun y => if y = e then x else y) })
    (poolWrite 0 ns e.cw e.img ((List.range 4).flatMap (fun i => if hit i then line i else imgEmpty 64)) s).send
      (.poolHeader ns e.cw (x.img.map Option.isSome) x.poison x.stamp)

/-- R610: a sump line takes the peer's value, or is poisoned; an intent reissues its writes. -/
def repairSump (id : Nat) (data : Bytes) (mask : BitVec 4) (s : State) : State :=
  let fix := fun (x : SumpLine) =>
    let i := x.line % 4
    { x with img := imgOf (if mask.getLsbD i then List.replicate 64 0 else slice data (64 * i) 64), poison := mask.getLsbD i }
  let s := s.modSump (fun u => { u with lines := u.lines.map (fun x => if x.id = id then fix x else x) })
  match s.ops.find? (fun o => o.phase == .write && o.lines.contains id) with
  | some o => issueWrites o.id o.writes s
  | none => s

/-- R118, R121, R123: the answer of a peer fetch, or its want of one. -/
def fetchDone (f : SentFetch) (data : Bytes) (mask : BitVec 4) (s : State) : State :=
  let s := s.modTwin (fun t => { t with sentFetches := t.sentFetches.filter (fun x => x.ftag != f.ftag) })
  if let some (ov, k) := f.repair then (if ov then repairOv f.ns f.off k data mask s else repairSump k data mask s)
  else if f.rowOp ≠ 0 then fixSector f data mask s
  else match s.miss f.grp f.grow f.pos with
    | some m => if m.phase = .fetching then decideOutcome m (s.storeCw f.ns f.off data mask) mask true s else s
    | none => s

/-- FETCH_RESP (R121). -/
def execFetchResp (h : TwinHdr) (ftag : BitVec 16) (mask : BitVec 4) (data : Vector Byte 256) (s : State) : Res :=
  .next (twinFrame h (.data (.fetchResp ftag.toNat mask data.toList)) none (fun s =>
    match s.twin.sentFetches.find? (fun f => f.ftag == ftag.toNat) with
    | some f => fetchDone f data.toList mask s
    | none => s) s)

/-- PEER_FETCH_TIMEOUT (R123): no answer within 5 ms counts as UNAVAILABLE for every line. -/
def execPeerFetchTimeout (ftag : Nat) (s : State) : Res :=
  .next (match s.twin.sentFetches.find? (fun f => f.ftag == ftag) with
    | some f => settle (fetchDone f (List.replicate 256 0) 0xF s)
    | none => s)

/-! Mailbox 5 and links. -/

/-- MAILBOX (R453): one entry of mailbox 5. -/
def execMailbox (h : TwinHdr) (entry : MbxEntry) (s : State) : Res :=
  .next (twinFrame h (.data (.mailbox entry.toList)) none (fun s => (mbxPush 5 entry.toList s).1) s)

/-- LINK (R251): link acknowledgements alone. -/
def execLink (h : TwinHdr) (s : State) : Res := .next (twinFrame h .link none id s)

/-! The survivor of a resync (R292 to R295, R364, R545). -/

/-- Parameters under which the peer creates a namespace. -/
def nsParams (s : State) (id : Nat) (n : Ns) : CreateNsParams :=
  let b := if s.twin.num = 0 then (n.blob, n.peerBlob) else (n.peerBlob, n.blob)
  { nsid := id, units := n.units.length, psi := n.psi, parkable := n.parkable, visVarnish := n.visVarnish
    cacheFill := n.cacheFill, encrypted := n.encrypted, blob0 := b.1, blob1 := b.2 }

/-- A record of the survivor's state, logged as a CONTROL entry. -/
def logRecord (c : Cfg) (s : State) : State := (logControl 0 0 0 c s).1

/-- R364: a connection's record. -/
def connRec (id : Nat) (k : Conn) : ConnRec :=
  { conn := id, state := k.st, cls := k.cls, salt := k.salt, retryMax := k.retryMax, creditWin := k.creditWin
    keys := k.keys.map (fun e => (e.1, e.2.2.2)), wmark := k.wmark, dwmark := k.dwmark, dropcnt := k.dropcnt
    dropped := k.dropped, atomics := k.atomics, hpsn0 := k.hpsn0, cpsn0 := k.cpsn0 }

/-- R364, R545: the configuration, then every connection with its XPORT entry, then every grant. -/
def resyncRecords (s : State) : State :=
  let s := logRecord (.nsTable (s.ctl.nss.map (fun e => (e.1, nsParams s e.1 e.2)))) s
  let s := logRecord (.drawerTable ((List.range 8).map (fun d => (d, (s.drw d).parkable, (s.drw d).parkIdle)))) s
  let s := logRecord (.hdmTable ((List.range 4).map (fun k => (k, (s.hdm k).nsid)))) s
  let s := forEach (s.xport.conns.filter (fun e => e.2.st != .closed && !e.2.wit)) (fun e s =>
    logXport e.1 (logRecord (.connRecord (connRec e.1 e.2)) s)) s
  forEach (s.xport.grants.filter (fun e => e.2.st != .free)) (fun e s =>
    match e.2.params with
    | some p => logRecord (.grantRecord { slot := e.1, gen := e.2.gen, state := e.2.st, params := { p with conns := e.2.conns }, refs := e.2.refs }) s
    | none => s) s

/-- R293: the TAKEOVER frame that carries FROM. -/
def resyncTakeover (s : State) : State :=
  match s.twin.resyncFrom with
  | some f => ctlAll (.takeover f Role.standby.code) s
  | none => s

/-- R293: a resync starts. -/
def startResync (s : State) : State :=
  let f := s.twin.sent + 1
  let s := freshCredit (s.modTwin (fun t => { t with
    resync := true, resyncFrom := some f, resyncLive := false, walk := some (0, 0), walkTenths := 0, unacked := [], waiting := []
    applied := f - 1, digest := BitVec.allOnes 64, digests := [], tileLsn := [] }))
  resyncRecords (resyncTakeover s)

/-- R292: the tiles of a RESYNC_REQ enter the bitmap; FULL sets every bit. -/
def resyncReqFrame (full : Bool) (tiles : List Nat) (s : State) : State :=
  if s.twin.role ≠ .solo then s
  else
    let s := s.modTwin (fun t =>
      if full then { t with bitmap := [], bitmapAll := true, tileLsn := [], resyncFull := true, walk := if t.resync then some (0, 0) else t.walk }
      else tiles.foldl (fun t i => if i < tileCount then { t.setBit i with tileLsn := t.tileLsn.filter (fun e => e.1 != i) } else t) t)
    if s.twin.resync then s else startResync s

/-- RESYNC_REQ (R292, R293, R364). -/
def execResyncReq (h : TwinHdr) (full : Bool) (tiles : List Nat) (s : State) : Res :=
  .next (twinFrame h (.data (.resyncReq full tiles)) none (resyncReqFrame full tiles) s)

/-- First tile at or after an index that lies in an allocated easel. -/
def State.nextAlloc (s : State) (i : Nat) : Option Nat :=
  (s.easels.filterMap (fun e =>
    if e.2.nsid = 0 then none
    else
      let b := (e.1 / 4096 * 3640 + e.1 % 4096) * 32768
      if i ≤ b then some b else if i < b + 32768 then some i else none)).foldl (fun acc x => match acc with
    | none => some x
    | some a => some (Nat.min a x)) none

/-- R293: next tile of the walk at or after an index: its bit is set and a namespace holds it. -/
def nextTileAux : Nat → Nat → State → Option Nat
  | 0, _, _ => none
  | n + 1, i, s =>
    match s.nextAlloc i with
    | none => none
    | some a => if s.twin.tileBit a then some a else nextTileAux n (a + 1) s

/-- R293. -/
def State.nextTile (s : State) (i : Nat) : Option Nat :=
  if s.twin.bitmapAll then nextTileAux (s.twin.bitmap.length + 1) i s
  else s.twin.bitmap.find? (fun b => decide (i ≤ b) && (s.tileOff b).isSome)

/-- R293 to R295: event 640 + 8t + 5 at each tenth of the walk, by index (log entry 54, DESIGN CHOICE). -/
def walkEvent (idx : Nat) (s : State) : State :=
  let tenth := 10 * idx / tileCount
  if tenth > s.twin.walkTenths then
    let t := (s.twinUp).getD 0
    raiseWith (640 + 8 * t + 5) t tenth (s.modTwin (fun w => { w with walkTenths := tenth }))
  else s

/-- R126, R293: log the RESYNC entry of a piece that its gather has read, and go on. -/
def sendPiece (idx k : Nat) (g : Gather) (s : State) : State :=
  let (d, bad) := s.gatherData g
  let poison := maskOf 64 (bad.map (fun l => l - g.off / 64))
  let s := endGather g.id s
  let (s, lsn) := logEntry (plainEntry g.ns (.resync g.off poison d)) s
  let s := if k = 15 then s.modTwin (fun t => { t with tileLsn := t.tileLsn.filter (fun e => e.1 != idx) ++ [(idx, lsn)] }) else s
  walkEvent idx (s.modTwin (fun t => { t with walk := some (if k = 15 then (idx + 1, 0) else (idx, k + 1)) }))

/-- R293: the walk goes on by one piece, or waits for its media reads. -/
def walkStep (s : State) : State :=
  match s.twin.walk with
  | none => s
  | some (i, k) =>
    match s.xport.gathers.find? (fun g => g.resync) with
    | some g =>
      if !g.needs.isEmpty then s
      else if (g.stale && !(s.mediaNeeds g.ns g.off g.len).isEmpty) || s.gatherLate g then gatherRun g s
      else sendPiece i k g s
    | none =>
      match (if k = 0 then s.nextTile i else some i) with
      | none => s.modTwin (fun t => { t with walk := none })
      | some idx =>
        match s.tileOff idx with
        | none => s.modTwin (fun t => { t with walk := some (idx + 1, 0) })
        | some (ns, off) =>
          let (id, s) := s.fresh
          let s := s.modTwin (fun t => { t with walk := some (idx, k) })
          let s := gatherRun { id, resync := true, ns, off := off + 4096 * k, len := 4096 } s
          match s.xport.gathers.find? (fun g => g.resync) with
          | some g => if g.needs.isEmpty then sendPiece idx k g s else s
          | none => s

/-- RESYNC_ENTRY_SEND (R293): the walk yields to entries that wait for credit or a port. -/
def execResyncEntrySend (s : State) : Res :=
  .next (if s.twin.role = .solo ∧ s.twin.resync ∧ s.twin.waiting.isEmpty then settle (walkStep s) else s)

/-- RESYNC_TAKEOVER_REPEAT (R293). -/
def execResyncTakeoverRepeat (s : State) : Res :=
  .next (if s.twin.role = .solo ∧ s.twin.resync ∧ !s.twin.resyncLive then resyncTakeover s else s)

/-! The handshake. -/

/-- HANDSHAKE (R542, R543): in step 12 of any epoch; afterwards its epoch is checked as any frame's. -/
def execHandshake (h : TwinHdr) (b : HsBody) (s : State) : Res :=
  .next (if s.twin.role = .priming then
      let (s, ok) := linkGate h (.handshake b) s
      if ok ∧ s.twin.hs.running then settle (hsFrame b s) else s
    else twinFrame h (.handshake b) none id s)

end Sys2Proof.Machine
end

