-- ==== Sys2Proof/Machine/TwinTimers.lean ====
section
/-! DEFINITION. Twin ports that train, stall or fail, the twin engine's timers, the witness's answers, and the bounds
of the planned swap (R247 to R252, R260 to R267, R273 to R281, R287, R288, R548). -/

namespace Sys2Proof.Machine

open Sys2Proof

/-! Twin ports. -/

/-- TWIN_PORT_TRAINED (R235, R247): an APPLY_ACK that waited for the port leaves first; wrong port number, lane order or pair identifier keeps the port out of service. -/
def execTwinPortTrained (port : Fin 4) (portNum : Nat) (lanesOk : Bool) (pair : BitVec 64) (s : State) : Res :=
  .next (if s.test.badTwin.contains port then s
    else if portNum = port.val ∧ lanesOk ∧ pair = s.twin.pair then
      let due := (s.tport port).ackDue && s.twin.role == .standby
      let s := s.modTport port (fun p => { p with
        st := 2, lane := [], pieces := 0, txSeq := 0, txBuf := [], rxExp := 0, rxNak := false, rxUnacked := 0, ackAt := s.now
        ackDue := false })
      settle (pumpLog (if due then ctlOn port (.applyAck s.twin.applied s.twin.creditOut) s else s))
    else raiseWith (640 + 8 * port.val) port portNum (s.modTport port (fun p => { p with st := 3 })))

/-- TWIN_PORT_LINK_LOSS (R252, R298): the port goes down; its unacknowledged frames go to the other ports. -/
def execTwinPortLinkLoss (port : Fin 4) (s : State) : Res :=
  .next (if (s.tport port).st = 0 then s
    else if (s.tport port).st = 2 then settle ((twinPortOut port s).modTport port (fun p => { p with st := 0 }))
    else raiseWith (640 + 8 * port.val) port 0 (s.modTport port (fun p => { p with st := 0 })))

/-- TWIN_LINK_ACK_TIMER (R251). -/
def execTwinLinkAckTimer (port : Fin 4) (s : State) : Res :=
  .next (if (s.tport port).st = 2 ∧ (s.tport port).rxUnacked ≠ 0 then
      sendLink port false (s.modTport port (fun p => { p with rxUnacked := 0 }))
    else s)

/-- TWIN_REPLAY_TIMER (R251, R271): not after RELINQUISH. -/
def execTwinReplayTimer (port : Fin 4) (s : State) : Res :=
  let p := s.tport port
  .next (if p.st = 2 ∧ !p.txBuf.isEmpty ∧ s.twin.relinquished.isNone then
      twinReplay port (p.txSeq - BitVec.ofNat 16 p.txBuf.length) s
    else s)

/-- TWIN_PORT_STALL_TIMER (R252). -/
def execTwinPortStallTimer (port : Fin 4) (s : State) : Res :=
  .next (if (s.tport port).st = 2 ∧ !(s.tport port).txBuf.isEmpty then settle (twinPortOut port s) else s)

/-- TWIN_FEC_WINDOW (R248). -/
def execTwinFecWindow (port : Fin 4) (corrected : Nat) (uncor : Bool) (s : State) : Res :=
  let s := s.modTport port (fun p => { p with fecCor := Nat.min 65535 (corrected / 1000) })
  .next (if decide (corrected > 1000000) || uncor then raiseWith (640 + 8 * port.val + 1) port corrected s else s)

/-! Acknowledgement, credit, heartbeat, digest. -/

/-- APPLY_ACK_TIMER (R260). -/
def execApplyAckTimer (s : State) : Res :=
  .next (if s.twin.role = .standby ∧ s.twin.ackCount ≠ 0 ∧ !s.prime.noAdmit then sendApplyAck s else s)

/-- TWIN_CREDIT_WAIT_TIMER (R261): event 640 + 8t + 6 on the lowest port in service. -/
def execTwinCreditWaitTimer (s : State) : Res :=
  .next (match s.twin.waiting, s.twinUp with
    | e :: _, some t =>
      if dist s.twin.creditUsed s.twin.creditIn < entryUnits e.entry then
        raiseWith (640 + 8 * t + 6) t 0 (s.modTport t (fun p => { p with cstall := sat16 p.cstall }))
      else s
    | _, _ => s)

/-- R278: the lease is held. -/
def State.leaseHeld (s : State) : Bool := match s.twin.leaseEnd with | some e => decide (s.now < e) | none => false

/-- HEARTBEAT_TIMER (R265, R270): a HEARTBEAT, or RELINQUISH in its place. -/
def execHeartbeatTimer (s : State) : Res :=
  let t := s.twin
  .next (if t.role = .priming then s
    else match t.relinquished with
      | some c => ctlAll (.relinquish t.relLast c) s
      | none => ctlAll (.heartbeat t.role.code t.health (bit s.leaseHeld) t.applied (BitVec.ofNat 64 s.devtime)) s)

/-- DIGEST_TIMER (R267): the third interval without a matching answer is a mismatch. -/
def execDigestTimer (s : State) : Res :=
  .next (if s.twin.role ≠ .active then s
    else
      let miss := if s.twin.digestAt.isSome then s.twin.digestMiss + 1 else 0
      if miss ≥ 3 ∧ !s.twin.silent then settle (digestMismatch (s.twinUp.getD 0) s)
      else ctlOne (.digest s.twin.sent s.twin.digest) (s.modTwin (fun t => { t with
        digestMiss := miss, digestAt := some t.sent, digests := (t.sent, t.digest) :: t.digests.take 1023 })))

/-! Silence and the lease. -/

/-- An active enters SOLO and goes on serving (R44, R245); transmitters that were off are enabled again. -/
def soloOn (e : Epoch) (s : State) : State :=
  let was := s.twin.hostTx
  let s := memActive ((enterSolo e s).modTwin (fun t => { t with hostTx := true }))
  if was then s else announceAll s

/-- R279: the lease has lapsed. -/
def State.leaseLapsed (s : State) : Bool :=
  match s.twin.leaseEnd, s.twin.firstRenew with
  | some e, _ => decide (e ≤ s.now)
  | none, some r => decide (r + 100000000 ≤ s.now)
  | none, none => false

/-- R279: a serving twin whose lease has lapsed enters FENCED unless it has just heard its standby. -/
def leaseCheck (s : State) : State :=
  if s.serving && s.twin.witness.isSome && s.leaseLapsed && !s.standbyHeard then enterFenced 2 s else s

/-- LEASE_LAPSE_TIMER (R279). -/
def execLeaseLapseTimer (s : State) : Res :=
  .next (if s.twin.leaseEnd.isSome ∨ s.twin.firstRenew.isSome then
      settle (leaseCheck (s.modTwin (fun t => { t with leaseEnd := some (Nat.min s.now (t.leaseEnd.getD s.now)) })))
    else s)

/-- R265, R279 to R282, R296: the peer has been silent for 5 ms. -/
def peerSilent (s : State) : State :=
  let s := s.modTwin (fun t => { t with silent := true })
  match s.twin.role with
  | .active =>
    if s.twin.witness.isSome then
      leaseCheck (askWit 3 (s.modTwin (fun t => { t with askSolo := true })))
    else soloOn (s.twin.epoch + 1) s
  | .standby =>
    if s.twin.resync then enterFenced 7 s
    else if s.twin.take ≠ .none then s
    else askWit 2 s
  | .solo => leaseCheck (if s.twin.resync then stopResync s else s)
  | _ => s

/-- PEER_SILENT_TIMER (R265, R280 to R282). -/
def execPeerSilentTimer (s : State) : Res := .next (if s.twin.silent then s else settle (peerSilent s))

/-! The witness. -/

/-- RENEW_TIMER (R278): every 25 ms, in every role once it is decided. -/
def execRenewTimer (s : State) : Res :=
  .next (if s.twin.witness.isNone ∨ s.twin.role = .priming then s
    else
      let late := s.twin.witReqs.any (fun r => r.wtype == 1)
      askWit 1 (if late then s.modTwin (fun t => { t with witFails := sat8 t.witFails }) else s))

/-- WITNESS_RESEND_TIMER (R278, R280): unanswered requests go out again; a TAKE refused with result 2 is repeated. -/
def execWitnessResendTimer (s : State) : Res :=
  let reqs := s.twin.witReqs
  let s := match s.twin.witRetry with
    | some (w, 2) => askWit w (s.modTwin (fun t => { t with witRetry := none }))
    | _ => s
  .next (forEach reqs transmitWit s)

/-- WITNESS_RETRY_TIMER (R280, R281): after result 4, every 1 s. -/
def execWitnessRetryTimer (s : State) : Res :=
  .next (match s.twin.witRetry with
    | some (w, 4) => askWit w (s.modTwin (fun t => { t with witRetry := none }))
    | _ => s)

/-- R280, R281: event 576 + 8p + 6 for WIT_PORT, at most once per second. -/
def unknownPair (s : State) : State :=
  match s.twin.witness with
  | some w => portEvent w.witPort 6 1000000000 s
  | none => s

/-- A grant of RENEW (R278, R280, R281, R548). -/
def renewGranted (r : WitReq) (server : Nat) (s : State) : State :=
  let s := s.modTwin (fun t => { t with
    leaseEnd := some (Nat.max (t.leaseEnd.getD 0) (r.sentAt + 100000000)), witFails := 0
    witReqs := t.witReqs.filter (fun q => q.wtype != 1) })
  if s.twin.role = .priming then
    if s.twin.hs.running ∧ !s.prime.waitPeer ∧ s.stopCode ≤ 1 then askWit (if server = s.twin.num then 3 else 2) s else s
  else match s.twin.witRetry with
    | some (w, 3) => askWit w (s.modTwin (fun t => { t with witRetry := none }))
    | _ => s

/-- A grant of TAKE (R280, R283, R548). -/
def takeGranted (e : Epoch) (s : State) : State :=
  match s.twin.role with
  | .priming => primeSolo e (s.modPrime (fun p => { p with witPath := true }))
  | .standby => if s.twin.silent ∧ s.twin.take = .none then takeoverOn (takeoverSolo e true) (takeoverHeld none s) else s
  | _ => s

/-- A grant of SOLO (R281, R548). -/
def soloGranted (e : Epoch) (s : State) : State :=
  match s.twin.role with
  | .priming => primeSolo e (s.modPrime (fun p => { p with witPath := true }))
  | .active => if s.twin.askSolo then soloOn e s else s
  | _ => s

/-- A refusal for a stale epoch (R245, R280, R281, R550). -/
def staleRefusal (s : State) : State :=
  match s.twin.role with
  | .priming => s.modPrime (fun p => { p with waitPeer := true })
  | .active | .solo => enterFenced 4 s
  | .standby => enterFenced 4 (sendRelinquish 3 s)
  | .fenced => s

/-- R276, R280, R281: a reply to a request. A newer epoch fences a serving twin (R244), but where the reply itself moves it
(R281). -/
def witReply (r : WitReq) (b : WitBody) (s : State) : State :=
  let s := s.modTwin (fun t => { t with witReqs := t.witReqs.filter (fun q => q.wseq != r.wseq) })
  let later' := fun (w n : Nat) (s : State) => s.modTwin (fun t => { t with witRetry := some (w, n) })
  let s := if r.wtype = 1 ∧ b.result.toNat ≠ 0 then s.modTwin (fun t => { t with witFails := sat8 t.witFails }) else s
  let own := decide (b.result.toNat = 1) || (r.wtype == 3 && decide (b.result.toNat = 0 ∨ b.result.toNat = 2))
  if s.serving && later b.epoch s.twin.epoch && !own then enterFenced 3 s
  else match b.result.toNat, r.wtype with
  | 0, 1 => renewGranted r b.server.toNat s
  | 0, 2 => takeGranted b.epoch s
  | 0, 3 => soloGranted b.epoch s
  | 1, _ => staleRefusal s
  | 2, 2 => later' 2 2 s
  | 2, 3 => if s.twin.role = .priming then later' 3 2 s else enterFenced 4 s
  | 3, 1 => s
  | 3, w => later' w 3 (askWit 1 s)
  | 4, 1 => if s.twin.role = .priming then later' 1 4 s else s
  | 4, w => later' w 4 (unknownPair s)
  | _, _ => s

/-- R243, R274: a reply that names its reader, at an epoch that is not stale. -/
def State.replyOk (s : State) (b : WitBody) : Bool :=
  b.wtype == 0x81 && b.twin.toNat == s.twin.num && b.pair == s.twin.pair
    && (b.epoch == s.twin.epoch || later b.epoch s.twin.epoch)

/-- R244: a reply that answers no request outstanding, and whose epoch is newer, fences a serving twin. -/
def newerReply (b : WitBody) (s : State) : State :=
  if s.serving && later b.epoch s.twin.epoch then enterFenced 3 s else s

/-- WITNESS (R244, R273 to R281, R316): a reply through the receive checks. -/
def execWitness (p : Pkt) (b : WitBody) (s : State) : Res :=
  .next (
    let (s, ok) := rxChecks p false (headerOk p false 24 && singleOk p && noTarget p) (s.authentic p false 0x0D (witPayload b)) true false s
    if !ok then s
    else
      let (s, ok) := seqChecks p none s
      if !ok then s
      else
        let c := p.conn.toNat
        let outOfOrder := p.psn != (s.conn c).cumPsn + 1
        let s := ackDue c outOfOrder (settlePkt p s)
        if s.replyOk b then
          match s.twin.witReqs.find? (fun r => r.wseq == b.wseq) with
          | some r => settle (witReply r b s)
          | none => settle (newerReply b s)
        else s)

/-! The planned swap. -/

/-- SWAP_S1_TIMEOUT (R287): the bound passes; admission goes on (log entry 56, DEDUCED). -/
def execSwapS1Timeout (s : State) : Res :=
  .next (match s.twin.swap with
    | .s1 cmd _ => settle (finish cmd stTimeout [] (s.modTwin (fun t => { t with swap := .none })))
    | _ => s)

/-- SWAP_TAKEOVER_TIMEOUT (R288): A resumes serving while its peer still reports STANDBY at the old epoch; otherwise
the peer counts as silent. -/
def execSwapTakeoverTimeout (s : State) : Res :=
  .next (match s.twin.swap with
    | .s2 cmd =>
      let still := match s.twin.beat with
        | some b => b.role == 2 && b.epoch == s.twin.epoch && !s.twin.silent
        | none => false
      let s := finish cmd stTimeout [] (s.modTwin (fun t => { t with swap := .none, relinquished := none }))
      if still then settle (announceAll (memActive (s.modTwin (fun t => { t with hostTx := true }))))
      else settle (peerSilent s)
    | _ => s)

end Sys2Proof.Machine
end

