-- ==== Sys2Proof/Machine/DrawerRows.lean ====
section
/-! DEFINITION. Commands of drawers and schedules (R182 to R205, R538, R687), and of single rails (R486 to R491, R504,
R505). -/

namespace Sys2Proof.Machine

open Sys2Proof

/-! Rails that change. -/

/-- Wake step in which rail k of a drawer rises. -/
def riseStep : Nat → DrawerStep
  | 0 => .w1 | 1 => .w2 | 2 => .w3 | _ => .w4

/-- R517: a margin whose rail is good at its new target is complete. -/
def marginDone (i : Nat) (s : State) : State :=
  match s.power.margins.find? (fun m => m.rail == i && m.phase == 3) with
  | some m =>
    if (s.rail i).st = .good ∧ (s.rail i).isGood s.test.railConvBad then
      finishAll m.cmd.toList stOk [] (s.modPower (fun p => { p with margins := p.margins.filter (fun x => x.rail != i) }))
    else s
  | none => s

/-- R488: a rail has become good. -/
def railNowGood (i : Nat) (s : State) : State :=
  let s := marginDone i (s.modRail i (fun r => { r with st := .good, outAt := none }))
  match railDrawer i with
  | some (d, k) => if (s.drw d).st = .waking ∧ (s.drw d).step = riseStep k then wakeNext d s else s
  | none => railsChanged s

/-- R490: a rail has fallen below its off threshold. -/
def railNowOff (i : Nat) (s : State) : State :=
  let s := (s.modRail i (fun r => { r with st := .off, dis := false })).modPower (fun p => { p with lastFall := s.now })
  match railDrawer i with
  | some (d, k) => railsChanged (if (s.drw d).step = fallStep k then fallFrom d k s else s)
  | none => railsChanged s

/-- R491, R505: an enabled rail that was good is good no more. -/
def railLost (i : Nat) (s : State) : State :=
  match railDrawer i with
  | some (d, _) =>
    let s := railFault i (s.modRail i (fun r => { r with st := .failed }))
    let s := if s.power.wl = 13 then powerLog 6 s else s
    if (s.drw d).st = .dfault ∨ (s.drw d).st = .parked then s else drawerFault d true s
  | none =>
    if s.power.wl = 13 ∧ !s.power.goingDown then
      let s := firstFailure i 2 (railFault i (s.modRail i (fun r => { r with st := .failed })))
      powerFailure i 2 (powerLog 6 s)
    else if s.power.goingDown then
      noteFailure i 4 (s.modRail i (fun r => { r with st := .ramping, early := true }))
    else s.modRail i (fun r => { r with st := .ramping })

/-- What the present readings of a rail say (R488 to R490). -/
def judgeRail (i : Nat) (s : State) : State :=
  let r := s.rail i
  let good := r.isGood s.test.railConvBad
  if r.st = .ramping ∧ good then railNowGood i s
  else if r.st = .good ∧ !good then railLost i s
  else if r.isOff ∧ (r.st = .falling ∨ r.st = .discharging ∨ r.st = .failed) then railNowOff i s
  else if r.st = .good then
    s.modRail i (fun r => { r with
      outAt := if r.within 5 then none else some (r.outAt.getD s.now), warn := r.warn && !r.within 5 })
  else s

/-- RAIL_SENSE_SAMPLE (R486, R488). -/
def execRailSenseSample (mv : Vector Nat 48) (vinMv : Nat) (s : State) : Res :=
  let s := s.modPower (fun p => { p with vinMv })
  .next (settle (forEach (List.range 48) (fun i s =>
    judgeRail i (s.modRail i (fun r => { r with mv := mv.toList.getD i 0 }))) s))

/-- RAIL_PG_CHANGE (R488). -/
def execRailPgChange (i : Fin 48) (pg : Bool) (s : State) : Res :=
  .next (settle (judgeRail i (s.modRail i (fun r => { r with pg }))))

/-- RAIL_WARN_TIMER (R489). -/
def execRailWarnTimer (i : Fin 48) (s : State) : Res :=
  let r := s.rail i
  .next (if r.st = .good ∧ !r.within 5 then railWarn i (s.modRail i (fun r => { r with warn := true })) else s)

/-- RAIL_T_ON_EXPIRY (R504): the rail has timed out in the up direction, cause 1. -/
def execRailTOnExpiry (i : Fin 48) (s : State) : Res :=
  .next (if (s.rail i).st = .ramping then
      let s := s.modRail i (fun r => { r with st := .failed, noGood := true })
      match railDrawer i with
      | some (d, _) => settle (drawerFault d true (railFault i s))
      | none => settle (railsChanged (railFault i (firstFailure i 1 s)))
    else s)

/-- RAIL_T_OFF_EXPIRY (R505): RAIL_DIS is asserted. -/
def execRailTOffExpiry (i : Fin 48) (s : State) : Res :=
  .next (if (s.rail i).st = .falling then
      (s.modRail i (fun r => { r with dis := true, st := .discharging })).modPower (fun p => { p with usedDis := true })
    else s)

/-- RAIL_T_DIS_EXPIRY (R505): the rail is logged with cause 3 and settles. -/
def execRailTDisExpiry (i : Fin 48) (s : State) : Res :=
  .next (if (s.rail i).st = .discharging then
      let s := railFault i (noteFailure i 3 (s.modRail i (fun r => { r with st := .failed, noFall := true })))
      match railDrawer i with
      | some (d, k) => settle (railsChanged (if (s.drw d).step = fallStep k then fallFrom d k s else s))
      | none => settle (railsChanged s)
    else s)

/-! Drawers. -/

/-- DRAWER_RAIL_GOOD (R182, R183). -/
def execDrawerRailGood (d : Fin 8) (k : Fin 4) (s : State) : Res :=
  .next (if (s.rail (drawerRail d k)).st = .ramping then settle (railNowGood (drawerRail d k) s) else s)

/-- DRAWER_RAIL_OFF (R182). -/
def execDrawerRailOff (d : Fin 8) (k : Fin 4) (s : State) : Res :=
  let r := s.rail (drawerRail d k)
  .next (if !r.en ∧ (r.st = .falling ∨ r.st = .discharging ∨ r.st = .failed) then settle (railNowOff (drawerRail d k) s) else s)

/-- R132: the position's module has missed its bound. A module that a formatted group needs fails. -/
def missedBound (c : Nat) (s : State) : State :=
  let g := chGroup c
  let k := s.chan c
  if k.health = .inService ∨ k.health = .rebuildTarget then moduleFailed c s
  else if k.health = .absent ∧ (s.grp g).st ≠ .unformatted ∧ !(s.grp g).failedPos (chPos c) then
    moduleFailed c (s.modChan c (fun k => { k with health := .inService }))
  else s

/-- DRAWER_WAKE_STEP_TIMEOUT (R184, R505): W1 to W4 end in DFAULT; W5 and W6 fail the modules that are late. The
manual gives W7 no outcome of its own (log entry 68, DEDUCED). -/
def execDrawerWakeStepTimeout (d : Fin 8) (s : State) : Res :=
  let chans := (List.range 18).map (fun i => 18 * d.val + i)
  .next (if (s.drw d).st ≠ .waking then s
    else match (s.drw d).step with
      | .w1 | .w2 | .w3 | .w4 => settle (drawerFault d true s)
      | .w5 =>
        let s := forEach (chans.filter (fun c => !linkSettled (s.chan c))) missedBound s
        let s := if (s.drw d).st = .waking ∧ (s.drw d).step = .w5 then wakeNext d s else s
        settle (wakeCheck d s)
      | .w6 =>
        let s := forEach (chans.filter (fun c => !descSettled (s.chan c))) missedBound s
        settle (if (s.drw d).st = .waking ∧ (s.drw d).step = .w6 then markerCheck d s else s)
      | _ => s)

/-- Intents of a group's journal past its JHEAD, oldest first (R538). -/
def GroupNv.intents (n : GroupNv) : List (Nat × List (Nat × Bytes)) :=
  let head := match n.stop with | some (_, _, _, h, _) => h | none => 0
  n.journal.reverse.filterMap (fun e => match e.2 with
    | .intent r ws => if e.1 > head then some (r, ws) else none
    | _ => none)

/-- R538: a group recovers: its intents are reissued and its suspect rows marked. -/
def recoverGroup (unclean : Bool) (g : Nat) (s : State) : State :=
  let n := s.nv g
  let is := n.intents
  let rows := if unclean then n.regions.flatMap (fun r =>
      ((List.range 65536).map (fun i => 65536 * r + i)).filter (fun x => decide (x < (s.grp g).ng))) else []
  let s := s.modNv g (fun n => { n with suspects := rows ++ (is.map (·.1)).filter (fun r => !rows.contains r) })
  forEach is (fun i s => openOp { id := 0, grp := g, grow := i.1, dst := i.1, purpose := .replay, phase := .read, got := i.2 } s) s

/-- EASEL_STATE_LOADED (R538): W7 has loaded the easel state; intents are reissued, and unfinished fills go on (R81). -/
def execEaselStateLoaded (d : Fin 8) (s : State) : Res :=
  let k := s.drw d
  .next (if k.st = .waking ∧ k.step = .w7 ∧ !k.loaded then
      let s := forEach k.recovering (fun g s => recoverGroup (s.prime.unclean.getLsbD g) g s) s
      let fills := (s.easels.filter (fun e => e.2.filling && (e.1 / 4096) / 2 == d.val)).map (·.1)
      let s := forEach fills startFill (s.modDrw d (fun x => { x with loaded := true }))
      settle s
    else s)

/-- WAKE_PEER_TIMEOUT (R205): 250 ms after the wake began the acknowledgement is waited for no more. -/
def execWakePeerTimeout (d : Fin 8) (s : State) : Res :=
  .next (if (s.drw d).st = .waking then settle (wakeFinish d (s.modDrw d (fun x => { x with wakeLsn := none }))) else s)

/-- PARK_STEP_TIMEOUT (R191): P1 or P2 exceeds its bound. -/
def execParkStepTimeout (d : Fin 8) (s : State) : Res :=
  let k := s.drw d
  .next (if k.st = .parking ∧ (k.step = .p1 ∨ k.step = .p2) then
      settle (parkBack d (finishAll k.cmds stRefused (blkRefused 0x0307 d) s))
    else s)

/-- DRAWER_SETTLE_TIMER (R186): 50 ms after the last rail fell, with every rail below its off threshold, a latched wake is
acted on. -/
def execDrawerSettleTimer (d : Fin 8) (s : State) : Res :=
  let k := s.drw d
  .next (match k.latch with
    | .wake ws =>
      if (k.st = .parked ∨ k.st = .dfault) ∧ k.step = .none ∧ (List.range 4).all (fun i => (s.rail (drawerRail d i)).down) then
        settle (beginWake d ws (s.modDrw d (fun x => { x with latch := .none })))
      else s
    | _ => s)

/-- PARK_IDLE_TIMER (R190). -/
def execParkIdleTimer (d : Fin 8) (s : State) : Res :=
  let k := s.drw d
  .next (if s.serving ∧ k.st = .awake ∧ k.parkIdle ≠ 0 ∧ k.refs = 0 ∧ (s.parkRefusal d).isNone then
      settle (beginPark d [] s)
    else s)

/-- DRAWER_CHECK_TIMER (R687): the active logs its state of the drawer. -/
def execDrawerCheckTimer (d : Fin 8) (s : State) : Res :=
  .next (match s.twin.checks.find? (fun c => c.1 == d.val) with
    | some c =>
      let s := s.modTwin (fun t => { t with checks := t.checks.erase c })
      if s.logging then (logControl 0x0304 0 (s.drw d).st.code (.drawerCheck d (s.drw d).st.code) s).1 else s
    | none => s)

/-- PRIMING_DRAWER_WAKE_STAGGER (R527 step 11). -/
def execPrimingDrawerWakeStagger (d : Fin 8) (s : State) : Res :=
  .next (if s.prime.step = 11 ∧ s.prime.wakes.contains d.val then
      settle (requestWake d none (s.modPrime (fun p => { p with wakes := p.wakes.filter (fun x => x != d.val) })))
    else s)

/-- SCHED_RATE_TICK (R200). -/
def execSchedRateTick (h : Fin 64) (s : State) : Res :=
  .next (if s.serving then settle (schedWake h s) else s)

end Sys2Proof.Machine
end

