-- ==== Sys2Proof/Machine/SumpRows.lean ====
section
/-! DEFINITION. Commands of the dirty budget, the spillway, MIRROR_CTL, drains and resets (R51 to R66, R219 to R223, R236,
R268, R514, R653, R655). -/

namespace Sys2Proof.Machine

open Sys2Proof

/-! The dirty budget (R55 to R61, R514). -/

/-- R514: E_meas as a fraction of a joule: numerator and denominator. -/
def State.energy (s : State) : Nat × Nat :=
  let p := s.power
  let vm := p.vMin * p.vMin
  let ph := s.dura.pHold.getD 0
  if p.measAt.isNone ∨ p.cisSt = 4 ∨ p.cisMv ≤ p.vMin ∨ vm ≤ ph * p.esr then (0, 1)
  else (p.cap * (p.cisMv * p.cisMv - vm) * (vm - ph * p.esr), 2000000000 * vm)

/-- R56: B_cal in bytes per second. -/
def State.bCal (s : State) : Nat :=
  s.liveGroups.foldl (fun n g => n + (match (s.grp g).st with
    | .sound => 10000000000
    | .degraded | .rebuilding => 5000000000
    | _ => 0)) 0

/-- R55, R57: D_max for an energy given as a fraction. -/
def State.dMax (s : State) (e : Nat × Nat) : Nat :=
  match s.dura.pHold with
  | none => 0
  | some 0 => 0
  | some p =>
    let have_ := e.1 * s.dura.kMargin * 10
    let need := p * s.dura.tFixed * e.2
    Nat.min 17179869184 ((have_ - need) * Nat.min 150000000000 s.bCal / (e.2 * 1000 * p))

/-- R60, R61: cistern low is entered below S and left at 1.5 × S. -/
def lowCheck (s : State) : State :=
  let size := s.sumpSize
  if s.dura.dmax < size ∧ !s.dura.clow then raise 997 (s.modDura (fun d => { d with clow := true }))
  else if 2 * s.dura.dmax ≥ 3 * size ∧ size ≠ 0 ∧ s.dura.clow then raise 997 (s.modDura (fun d => { d with clow := false }))
  else s

/-- DIRTY_BUDGET_EVAL (R55, R59 to R61): a hold begins above D_max, and one that runs lasts until the total is below it. -/
def execDirtyBudgetEval (s : State) : Res :=
  let e := s.energy
  let s := s.modPower (fun p => { p with emeas := e.1 / e.2 })
  let s := s.modDura (fun d => { d with dmax := s.dMax e })
  let s := lowCheck s
  .next (settle (s.modDura (fun d => { d with
    overBud := decide (s.dirtyTotal > d.dmax) || (d.overBud && decide (s.dirtyTotal = d.dmax)) })))

/-! The spillway (R219 to R222). -/

/-- Codewords that the spillway may move, with the stamp of their oldest visible-dirty line. -/
def State.spillable (s : State) : List (Nat × Nat × Nat) :=
  (s.sump.lines.filter (fun l => l.st == .dirty && !s.ovFetching l.ns (l.line / 4)
    && !s.ops.any (fun o => match o.purpose with
      | .host ns off _ => ns == l.ns && off / 2048 == l.line / 32
      | _ => false))).map (fun l => (l.stamp, l.ns, l.line / 4))

/-- R222: the pool has room for one more overflow entry of 320 B: in the pages held, or in a page that the need gets. -/
def entryRoom (s : State) : Option State :=
  let n := s.sump.overflow.length
  if ceilDiv ((n + 1) * 320) 4096 > ceilDiv (n * 320) 4096 then (poolNeed 0 s).map (·.2) else some s

/-- R222: move one codeword into its dirty overflow entry. None at the ceiling of R221 or without a pool page. -/
def spillOne (s : State) : Option State :=
  if s.atCeiling then none
  else match oldestCw s.spillable with
  | none => none
  | some (stamp, ns, cw) =>
    let mine := fun (l : SumpLine) => l.st == .dirty && l.ns == ns && l.line / 4 == cw
    let ls := s.sump.lines.filter mine
    let room := if (s.ovEntry ns cw).isNone then entryRoom s else some s
    match room with
    | none => none
    | some s =>
      let img := (List.range 4).flatMap (fun k => match ls.find? (fun l => l.line % 4 == k) with
        | some l => l.img
        | none => imgEmpty 64)
      let poison := maskOf 4 ((ls.filter (fun l => l.poison)).map (fun l => l.line % 4))
      let lsn := ls.foldl (fun x l => serialMax x l.lsn) 0
      let conns := ls.foldl (fun acc l => l.conns.foldl earliestOf acc) []
      let s := s.modSump (fun u => { u with lines := u.lines.filter (fun l => !mine l) })
      some (ovMerge { ns, cw, img, poison, stamp, lsn, conns } s)

/-- R220: the next codeword moves while the spillway is active. -/
def spillMove (s : State) : Option State :=
  let s := spillCheck s
  if s.sump.spillActive then spillOne s else none

/-- R220: codewords move, oldest first, until the lines fall below SPILL_LOW. -/
def spillAll (s : State) : State := spillCheck (untilNone spillMove s.sump.lines.length s)

/-- SPILLWAY_MOVE (R220, R221). -/
def execSpillwayMove (s : State) : Res := .next (settle (spillAll s))

/-! MIRROR_CTL and the lag (R51, R52). -/

/-- MIRROR_LAG_AGE_LIMIT (R51): the oldest write not yet mirrored is 64 µs old by the block's time. -/
def execMirrorLagAgeLimit (s : State) : Res :=
  .next (if s.lagFull then s.modDura (fun d => { d with lagHeld := true }) else s)

/-- MIRROR_CTL_FLUSH (R52). -/
def execMirrorCtlFlush (s : State) : Res := .next (settle (flushStart s))

/-! Drains and resets (R63, R653). -/

/-- DRAIN_COMPLETE (R63, R64): nothing that can drain is left. -/
def execDrainComplete (s : State) : Res := .next (settle (drainComplete s))

/-- GCTL_RSTKEY (R653). -/
def execGctlRstkey (key : BitVec 8) (s : State) : Res :=
  .next (if key ≠ 0xA5 then s
    else if s.serving ∧ s.test.lc = .deployed then s.modEv (fun e => { e with rstRef := true })
    else startReset (if s.twin.role = .fenced then .fenced else .system) s)

/-- CORE_WATCHDOG_TIMEOUT (R268): event 1000, a relinquish cause, and the watchdog reset (R63). -/
def execCoreWatchdogTimeout (s : State) : Res :=
  .next (settle (startReset .watchdog (relinquishCause (raise 1000 s))))

/-- R236: media cannot progress. -/
def mediaStalled (s : State) : State :=
  match s.twin.role with
  | .active => enterFenced 5 (sendRelinquish 0 s)
  | .standby => enterFenced 5 (sendRelinquish 3 s)
  | .solo => enterFenced 5 s
  | _ => s

/-- MEDIA_STALL_TIMER (R236). -/
def execMediaStallTimer (s : State) : Res := .next (if s.mediaStuck then settle (mediaStalled s) else s)

/-! Clock islands (R13, R655). -/

/-- R655: the cause that a window shows, 0 for a good one. -/
def windowCause (nom khz : Nat) (edge : Bool) : Nat :=
  if !edge then 1 else if 100 * khz < 95 * nom then 2 else if 100 * khz > 105 * nom then 3 else 0

/-- CLOCK_MONITOR_WINDOW (R655); entry into fault is a relinquish cause (R268). -/
def execClockMonitorWindow (island : Fin 100) (khz : Nat) (edge : Bool) (s : State) : Res :=
  let c := windowCause (nominalKhz island) khz edge
  let was := (s.island island).fault
  let s := s.modIsland island (fun i => { i with khz, running := edge })
  .next (if c ≠ 0 then
      let s := s.modIsland island (fun i => { i with fault := true, cause := c, good := 0, faults := if was then i.faults else sat16 i.faults })
      if was then s else settle (relinquishCause (raiseWith 994 island c s))
    else if was then
      s.modIsland island (fun i => if i.good ≥ 2 then { i with fault := false, good := 0 } else { i with good := i.good + 1 })
    else s)

end Sys2Proof.Machine
end

