-- ==== Sys2Proof/Machine/PowerRows.lean ====
section
/-! DEFINITION. Commands of the windlass line, power requests, power failure, the cistern and margins (R492 to R518,
R663). -/

namespace Sys2Proof.Machine

open Sys2Proof

/-! The line. -/

/-- R492: the state after a rising edge. -/
def nextWl (w : Nat) (up : Bool) : Nat :=
  if up then (if w ≤ 12 then w + 1 else if w = 13 then 14 else 15)
  else if w = 14 then 12
  else if 1 ≤ w ∧ w ≤ 12 then w - 1
  else 15

/-- R527 step 14, R301, R520, R602: RUN is reached: the power-log record, the security minimum, and in ACTIVE or SOLO the
host transmitters with their announcements. -/
def runReached (s : State) : State :=
  if s.prime.step = 14 then
    let s := powerLog 1 (raiseSecMin (s.modPrime (fun p => { p with step := 0, runMs := (s.now - p.primeAt.getD s.now) / 1000000 })))
    if s.serving then announceAll (memActive (s.modTwin (fun t => { t with hostTx := true }))) else s
  else s

/-- What the controller does in the state that an edge leads to (R493, R494, R503, R510, R520, R526). -/
def atState (n : Nat) (up : Bool) (s : State) : State :=
  let turn := s.power.goingDown || s.power.latch == .off
  if n = 0 then
    let again := s.power.pwrFail && s.power.pwrEn
    powerOff (s.modPower (fun p => { p with abandon := false, latch := if again then .on else p.latch }))
  else if n = 13 then
    let s := runReached (chargeCheck s)
    if turn then offRequest (s.modPower (fun p => { p with goingDown := false, latch := .none })) else s
  else if n = 12 ∧ up then
    let s := chargeCheck s
    if turn then goDown s
    else if s.prime.step = 4 then s.modPrime (fun p => { p with step := 5 })
    else s
  else if n = 14 then
    let s := if s.power.goingDown ∧ !s.power.pwrFail ∧ !s.prime.warmDue then powerLog 2 s else s
    pullLine 12 false s
  else if n = 12 then
    if s.prime.warmDue ∧ !turn then chargeCheck (beginPriming true s) else pullLine 11 false s
  else if up then
    if turn then pullLine (n - 1) false (s.modPower (fun p => { p with goingDown := true, latch := if p.latch == .off then .none else p.latch }))
    else pullLine (n + 1) true s
  else pullLine (n - 1) false s

/-- WINDLASS_RISING_EDGE (R492, R493). -/
def execWindlassRisingEdge (s : State) : Res :=
  let p := s.power
  .next (if p.hold ∨ p.line then s
    else
      let s := s.modPower (fun p => { p with line := true })
      if p.wl = 15 then s
      else
        let n := nextWl p.wl p.wlDir
        if n = 15 then windFault s
        else settle (atState n p.wlDir (s.modPower (fun p => { p with wl := n }))))

/-- WINDLASS_FALLING_EDGE (R494): in state 13 a participant asks for shut-down; elsewhere the line's level is noted. -/
def execWindlassFallingEdge (s : State) : Res :=
  let s := s.modPower (fun p => { p with line := false })
  .next (if s.power.wl = 13 ∧ !s.power.hold then settle (offRequest s) else s)

/-- CASCADE_WAIT_EXPIRY (R493 to R495). -/
def execCascadeWaitExpiry (s : State) : Res :=
  .next (if s.power.hold ∧ s.power.stepTo.isSome ∧ !s.power.acting then settle (windCheck (actStep s)) else s)

/-- WINDLASS_STEP_TIMEOUT (R496). -/
def execWindlassStepTimeout (s : State) : Res :=
  .next (if s.power.line ∨ s.power.wl = 15 ∨ (s.power.stepTo.isNone ∧ s.power.wl = 0) then s
    else settle (railsChanged (windFault (s.modPrime (fun p => { p with drain := none })))))

/-- WINDLASS_FAULT_EXIT (R498). -/
def execWindlassFaultExit (s : State) : Res :=
  .next (if s.power.wl = 15 ∧ s.allOff then
      let again := s.power.pwrFail && s.power.pwrEn
      powerOff (s.modPower (fun p => { p with
        wl := 0, line := true, solo := false, soloUp := false, soloStep := 0, latch := if again then .on else p.latch }))
    else s)

/-- R498: the first step of a power-up without the line. -/
def soloStart (s : State) : State :=
  let s := (abandon s).modPower (fun p => { p with solo := true, soloUp := true, soloStep := 1 })
  railsChanged (forEach (s.stepRails 1) enableRail s)

/-- STUCK_LINE_TIMEOUT (R498). -/
def execStuckLineTimeout (s : State) : Res :=
  .next (if s.power.wl = 0 ∧ s.prime.step = 4 ∧ !s.power.line ∧ s.power.stepTo.isNone then settle (soloStart s) else s)

/-! The cascade ring (R500, R501). -/

/-- R527: step 4 begins: the line is pulled low for windlass step 1, when it is high. -/
def startStep4 (s : State) : State :=
  let s := s.modPrime (fun p => { p with step := 4 })
  if s.power.line ∧ s.power.wl = 0 then pullLine 1 true s else s

/-- R500: the count of sequencers is known. -/
def cascadeEnd (parts : Nat) (s : State) : State :=
  let s := s.modPower (fun p => { p with parts, cascading := false })
  if s.prime.step = 3 then startStep4 s else s

/-- CASCADE_TRAIN_END (R500). -/
def execCascadeTrainEnd (pulses : Nat) (s : State) : Res :=
  .next (if s.power.cascading then cascadeEnd (if pulses = 0 ∨ pulses > 17 then 31 else pulses - 1) s else s)

/-- CASCADE_TIMEOUT (R500). -/
def execCascadeTimeout (s : State) : Res := .next (if s.power.cascading then cascadeEnd 31 s else s)

/-- R501: the roll call has ended; the power log takes its record of kind 5. -/
def rollCallEnd (stuck : Nat) (s : State) : State := powerLog 5 (s.modPower (fun p => { p with stuck, rollCall := false }))

/-- ROLL_CALL_TRAIN_END (R501): the lowest position found holding the line. -/
def execRollCallTrainEnd (holding : List Bool) (s : State) : Res :=
  .next (if s.power.rollCall then
      rollCallEnd (match (List.range holding.length).find? (fun i => holding.getD i false) with
        | some i => i + 1
        | none => 0x1F) s
    else s)

/-- ROLL_CALL_TIMEOUT (R501). -/
def execRollCallTimeout (s : State) : Res := .next (if s.power.rollCall then rollCallEnd 0x1F s else s)

/-! Requests (R502, R503). -/

/-- PWR_EN_RISE (R502). -/
def execPwrEnRise (s : State) : Res := .next (settle (onRequest (s.modPower (fun p => { p with pwrEn := true }))))

/-- PWR_EN_FALL (R502). -/
def execPwrEnFall (s : State) : Res := .next (settle (offRequest (s.modPower (fun p => { p with pwrEn := false }))))

/-- PWR_CTL_OFFREQ (R502). -/
def execPwrCtlOffreq (s : State) : Res := .next (settle (offRequest s))

/-- PWRFAIL_N_LOW (R507). -/
def execPwrfailNLow (s : State) : Res := .next (settle (powerFailure 0xFF 5 s))

/-- VIN_FAIL (R507). -/
def execVinFail (s : State) : Res := .next (settle (powerFailure 0xFF 6 s))

/-- OFF_SETTLE_TIMER (R503, R510): OFF-settled; a latched on request is acted on. -/
def execOffSettleTimer (s : State) : Res :=
  .next (if s.power.wl = 0 ∧ s.power.stepTo.isNone ∧ s.allOff ∧ s.prime.step = 0 then
      let s := s.modPower (fun p => { p with offSettled := true, goingDown := false })
      if s.power.latch = .on ∧ s.prime.standby then coldStart s else s
    else s)

/-- AON_PIN_INIT (R663): island 99 comes up: enables, discharge and cistern outputs low, WINDLASS released. -/
def execAonPinInit (s : State) : Res :=
  let s := forEach (List.range 48) (fun i s => s.modRail i (fun r =>
    { r with en := false, dis := false, st := if r.st = .unused then .unused else .off })) s
  let s := s.modPower (fun p => { p with
    wl := 0, wlDir := false, line := true, hold := false, stepTo := none, acting := false, goingDown := false, solo := false
    soloUp := false, soloStep := 0, latch := .none, offSettled := false, lastFall := 0, chgEn := false, testEn := false
    chgAt := none, cascading := false, rollCall := false, pwrFail := false, abandon := false })
  .next (powerOff (s.modPrime (fun p => { p with standby := false, bootAon := 0 })))

/-! The cistern (R511 to R516). -/

/-- R515: the conditions under which a measurement starts. -/
def State.measureOk (s : State) : Bool :=
  let p := s.power
  let e := s.energy
  let scale := p.rTest * 1000
  let less := (e.1 * scale - p.cisMv * p.cisMv * p.tTest * e.2, e.2 * scale)
  !p.pwrFail && p.cisStep == .none && (s.dura.clow || decide (2 * s.dMax less ≥ 3 * s.sumpSize))

/-- R512 M1, M2: a measurement starts, or is postponed by 60 s. -/
def tryMeasure (s : State) : State :=
  if s.measureOk then
    chargeCheck (s.modPower (fun p => { p with cisStep := .m2, postponed := false, firstDue := true }))
  else if s.power.cisStep = .none then s.modPower (fun p => { p with postponed := true })
  else s

/-- CISTERN_SAMPLE (R486, R513): the mean of the latest 1,000 samples. -/
def execCisternSample (meanMv : Nat) (s : State) : Res :=
  .next (s.modPower (fun p => { p with
    cisMv := meanMv, chgAt := if 100 * meanMv ≥ 98 * p.vChg then none else p.chgAt }))

/-- CISTERN_MEASURE_DUE (R515). -/
def execCisternMeasureDue (s : State) : Res := .next (tryMeasure s)

/-- CISTERN_POSTPONE_TIMER (R515). -/
def execCisternPostponeTimer (s : State) : Res := .next (if s.power.postponed then tryMeasure s else s)

/-- CISTERN_SETTLE_TIMER (R512 M2, M3): V0 is taken and the load connected; the point of no return of R516. -/
def execCisternSettleTimer (v0 : Nat) (s : State) : Res :=
  .next (match s.power.cisStep with
    | .m2 => forEach s.power.cisCmd.toList setPast (s.modPower (fun p => { p with cisStep := .m3 v0, testEn := true }))
    | _ => s)

/-- CISTERN_V1_WINDOW_END (R512 M3). -/
def execCisternV1WindowEnd (v1 : Nat) (s : State) : Res :=
  .next (match s.power.cisStep with
    | .m3 v0 => s.modPower (fun p => { p with cisStep := .m4 v0 v1 })
    | _ => s)

/-- ESR in µΩ and C in mF of a measurement (R512), rounded down. -/
def measured (p : Power) (v0 v1 v2 : Nat) : Nat × Nat :=
  let esr := (v0 - v1) * p.rTest / v1
  let c := 1000 * (v1 + v2) * (1000 * p.tTest - 120) * v1 / (2 * p.rTest * (v1 - v2) * v0)
  (esr, c)

/-- R513, R516: the measurement is judged. -/
def judgeCistern (v0 v1 v2 : Nat) (s : State) : State :=
  let p := s.power
  let (esr, c) := measured p v0 v1 v2
  let ok := decide (v2 < v1) && decide (v1 ≤ v0) && decide (10 * c ≥ 6 * p.cNom) && decide (10 * c ≤ 15 * p.cNom)
    && decide (esr ≤ p.esrMax)
  let cmds := p.cisCmd.toList
  let s := s.modPower (fun p => { p with cisStep := .none, testEn := false, cisCmd := none })
  let s := if ok then s.modPower (fun p => { p with cap := c, esr, measAt := some s.now, cisSt := 2 })
    else powerLog 7 (s.modPower (fun p => { p with cisSt := 4 }))
  finishAll cmds stOk (leBytes 1 (bit ok) ++ leBytes 3 0 ++ leBytes 4 (Nat.min c 4294967295)
    ++ leBytes 4 (Nat.min esr 4294967295)) (chargeCheck s)

/-- CISTERN_TEST_LOAD_END (R512 M4, M5). -/
def execCisternTestLoadEnd (v2 : Nat) (s : State) : Res :=
  .next (match s.power.cisStep with
    | .m4 v0 v1 => judgeCistern v0 v1 v2 s
    | _ => s)

/-- CISTERN_CHARGE_TIMEOUT (R513). -/
def execCisternChargeTimeout (s : State) : Res :=
  .next (if s.power.chgEn ∧ s.power.chgAt.isSome then
      powerLog 7 (s.modPower (fun p => { p with cisSt := 4, chgAt := none }))
    else s)

/-! Margins (R517). -/

/-- Mantissa of VOUT_COMMAND for a voltage in mV, in the linear format of an exponent of 5 bits, two's complement. -/
def linearMantissa (mv : Nat) (mode : BitVec 8) : Nat :=
  let e := (mode.toNat % 32)
  if e < 16 then mv / (1000 * 2 ^ e) else mv * 2 ^ (32 - e) / 1000

/-- The margin in progress on a PMBus port. -/
def State.marginOn (s : State) (port : Nat) : Option Margin :=
  s.power.margins.find? (fun m => m.phase == 1 && (s.rail m.rail).pmbPort == port + 1)

/-- R517, R523: the margin ends refused. -/
def marginRefused (m : Margin) (s : State) : State :=
  finishAll m.cmd.toList stRefused (blkRefused 0x0703 m.rail)
    (s.modPower (fun p => { p with margins := p.margins.filter (fun x => x.rail != m.rail) }))

/-- PMBUS_RESPONSE (R489, R517): VOUT_MODE is answered; VOUT_COMMAND is written in its linear format. -/
def execPmbusResponse (port : Fin 2) (voutMode : BitVec 8) (s : State) : Res :=
  .next (match s.marginOn port with
    | none => s
    | some m =>
      if voutMode.toNat / 32 ≠ 0 then marginRefused m s
      else
        let s := s.modRail m.rail (fun r => { r with margin := m.step })
        let s := s.modPower (fun p => { p with margins := p.margins.map (fun x => if x.rail = m.rail then { x with phase := 3 } else x) })
        let r := s.rail m.rail
        let s := s.send (.pmbus port r.pmbAddr r.pmbPage 0x21 (linearMantissa r.target voutMode))
        settle (marginDone m.rail (if r.st = .good then railWarn m.rail s else s)))

/-- PMBUS_TIMEOUT (R517). -/
def execPmbusTimeout (port : Fin 2) (s : State) : Res :=
  .next (match s.marginOn port with
    | some m => marginRefused m s
    | none => s)

end Sys2Proof.Machine
end

