-- ==== Sys2Proof/Machine/CmdCfg.lean ====
section
/-! DEFINITION. Mailbox commands of the groups 0x00 to 0x04 and 0x07: identity, configuration, namespaces, drawers,
connections, grants and schedules (R441 to R445). Result blocks are those of log entry 85, DESIGN CHOICE. -/

namespace Sys2Proof.Machine

open Sys2Proof

/-! Group 0x00. -/

/-- Encodings of LCS.STATE (R652). -/
def LcState.code : LcState → Nat
  | .manufacture => 0 | .provision => 1 | .deployed => 2 | .ret => 3 | .endOfLife => 4

def State.regDevId (_s : State) : Nat := 0x2144 + 65536 * Config.vendorId.toNat
def State.regDevRev (_s : State) : Nat := 0x10
def State.regLcs (s : State) : Nat :=
  s.test.lc.code + 8 * bit s.test.jtag + 16 * bit s.test.ikey.isSome + 32 * bit s.test.secret.isSome

/-- IDENTIFY. -/
def execIdentify (h : CmdHdr) (s : State) : Res :=
  readCommand h 0x0001 devUnit (fun _ => none) (fun s =>
    leBytes 4 s.regDevId ++ leBytes 4 s.regDevRev ++ leBytes 4 s.regLcs ++ leBytes 1 s.twin.num ++ leBytes 1 s.twin.role.code
      ++ leBytes 2 0 ++ leBytes 4 s.twin.epoch.toNat ++ s.flash.version 0 ++ s.flash.version 1 ++ leBytes 16 Config.dieId) s

/-- The kept entry of a command (R437). -/
def State.statusOf (s : State) (m : Nat) (tag : BitVec 16) : Option StatusRec :=
  s.ctl.status.find? (fun e => e.mbx == m && e.tag == tag)

/-- GET_STATUS (R437): mailbox, CODE, TAG, STATUS, RFLAGS, REASON; STATUS 0xFF while the command is outstanding. -/
def execGetStatus (h : CmdHdr) (mbx : Nat) (tag : BitVec 16) (s : State) : Res :=
  readCommand h 0x0002 devUnit (fun s => exists_ (s.statusOf mbx tag).isSome) (fun s =>
    match s.statusOf mbx tag with
    | some e => leBytes 1 e.mbx ++ leBytes 1 0 ++ leBytes 2 e.code ++ leBytes 2 e.tag.toNat
        ++ leBytes 1 (e.status.getD 0xFF) ++ leBytes 1 e.rflags ++ leBytes 2 e.reason
    | none => []) s

/-- The command that an ABORT of a mailbox names; never the ABORT itself. -/
def State.abortTarget (s : State) (m : Nat) (tag : BitVec 16) : Option Running :=
  s.ctl.running.find? (fun r => r.mbx == m && r.tag == tag && r.code != 0x0003)

/-- R206: an abort of PARK_DRAWER. One that is latched is taken back; in P1 and P2 the drawer is AWAKE again once no other
command asks for the park. -/
def abortPark (id d : Nat) (s : State) : State :=
  let k := s.drw d
  match k.st, k.latch with
  | .waking, .park ps =>
    let ps := ps.filter (fun p => p != id)
    finish id stAborted [] (s.modDrw d (fun k => { k with latch := if ps.isEmpty then .none else .park ps }))
  | .parking, _ =>
    if k.step = .p1 ∨ k.step = .p2 then
      let rest := k.cmds.filter (fun c => c != id)
      finish id stAborted [] (if rest.isEmpty then parkBack d s else s.modDrw d (fun k => { k with cmds := rest }))
    else setPast id s
  | _, _ => s

/-- R604: an abort of FW_COMMIT before its 0xC1 word is being programmed. -/
def abortCommit (id : Nat) (s : State) : State :=
  let mine := fun (o : FOp) => match o.purpose with | .bootRec 0xC1 _ _ c => c == id | _ => false
  if (s.fbank 0).op.any mine ∨ !((s.fbank 0).queue.any mine) then setPast id s
  else
    let s := s.modFlash (fun f => { f with
      committing := none, banks := f.banks.map (fun b => { b with queue := b.queue.filter (fun o => !mine o) }) })
    finish id stAborted [] s

/-- R439, R440: what the completion writer does with a command just marked, by its point of no return. -/
def abortNow (r : Running) (s : State) : State :=
  if r.past then s
  else match r.code with
    | 0x0301 => abortPark r.id r.unit s
    | 0x0501 => match s.twin.swap with
      | .s1 _ _ => finish r.id stAborted [] (s.modTwin (fun t => { t with swap := .none }))
      | _ => s
    | 0x0601 => scrubWakeEnd (grpDrawer r.unit) (finish r.id stAborted [] (s.modGrp r.unit (fun k => { k with scrubNow := none })))
    | 0x0602 =>
      if (s.grp r.unit).st = .rebuilding then
        finish r.id stAborted [] (s.modGrp r.unit (fun k => { k with
          st := if k.rebuildOfFailed then .failed else .degraded, rebuildPtr := 0, rebuildOfFailed := false, paused := false }))
      else s
    | 0x0604 =>
      let s := s.modPower (fun p => { p with
        cisCmd := none, cisStep := if p.cisStep = .m2 then .none else p.cisStep })
      finish r.id stAborted [] (chargeCheck s)
    | 0x0903 => abortCommit r.id s
    | 0x0A01 =>
      let s := s.modPrime (fun p => { p with drain := none, noAdmit := false })
      finish r.id stAborted [] (s.modTest (fun t => { t with advancing := none }))
    | _ => s

/-- ABORT (R438 to R440). -/
def execAbort (h : CmdHdr) (target : BitVec 16) (s : State) : Res :=
  let m := h.mbx.val
  takeCommand h 0x0003 .immediate devUnit (fun s => firstFail [
      exists_ (s.abortTarget m target).isSome,
      refuse (need ((s.abortTarget m target).any (fun r => r.kind == .long)) 0x0003 devUnit)])
    (fun id s =>
      match s.abortTarget m target with
      | some r =>
        let s := s.modCtl (fun c => { c with running := c.running.map (fun q => if q.id = r.id then { q with marked := true } else q) })
        let s := finish id stOk [] s
        if r.marked then s else abortNow { r with marked := true } s
      | none => finish id stNotFound [] s) s

/-! Group 0x01. -/

/-- SET_DURABILITY (R55). -/
def execSetDurability (h : CmdHdr) (pHold kMargin tFixed : Option Nat) (s : State) : Res :=
  cfgCommand h 0x0101 devUnit (.durability pHold kMargin tFixed) (fun _ => []) s
/-- SET_INTEGRITY (R139, R575, R618). -/
def execSetIntegrity (h : CmdHdr) (scope unit param value : Nat) (s : State) : Res :=
  cfgCommand h 0x0102 unit (.integrity scope unit param value) (fun _ => []) s
/-- SET_POOL (R681). -/
def execSetPool (h : CmdHdr) (p : PoolParams) (s : State) : Res := cfgCommand h 0x0103 devUnit (.pool p) (fun _ => []) s
/-- SET_PORT (R299, R301). -/
def execSetPort (h : CmdHdr) (p : PortParams) (s : State) : Res := cfgCommand h 0x0104 p.port (.port p) (fun _ => []) s
/-- SET_XPORT (R351). -/
def execSetXport (h : CmdHdr) (p : XportParams) (s : State) : Res := cfgCommand h 0x0105 devUnit (.xport p) (fun _ => []) s
/-- SET_HOSTPORT (R388, R389, R412). -/
def execSetHostport (h : CmdHdr) (maxRate perstSys ssvid ssid : Option Nat) (s : State) : Res :=
  cfgCommand h 0x0106 devUnit (.hostport maxRate perstSys ssvid ssid) (fun _ => []) s
/-- SET_HDM (R396). -/
def execSetHdm (h : CmdHdr) (k nsid : Nat) (s : State) : Res := cfgCommand h 0x0107 k (.setHdm k nsid) (fun _ => []) s
/-- CLEAR_HDM (R398). -/
def execClearHdm (h : CmdHdr) (k : Nat) (s : State) : Res := cfgCommand h 0x0108 k (.clearHdm k) (fun _ => []) s
/-- SET_EVENT_ROUTE (R648). -/
def execSetEventRoute (h : CmdHdr) (ev vec cores : Nat) (msix : Bool) (s : State) : Res :=
  cfgCommand h 0x0109 ev (.eventRoute ev vec cores msix) (fun _ => []) s
/-- SET_COMPAT (R24, R478). -/
def execSetCompat (h : CmdHdr) (mask : Nat) (s : State) : Res := cfgCommand h 0x010A devUnit (.compat mask) (fun _ => []) s
/-- SET_MBX (R425, R449). -/
def execSetMbx (h : CmdHdr) (lease addr : Option Nat) (s : State) : Res :=
  cfgCommand h 0x010B devUnit (.mbx lease addr) (fun _ => []) s

/-- A parameter's value by number, in the order of its command's table: the low byte is 16 × the command's number plus the
place, the rest the unit (log entry 90, DESIGN CHOICE). None names no parameter. -/
def State.param (s : State) (id : Nat) : Option Nat :=
  let u := id / 256
  let dev := fun (v : Nat) => if u = 0 then some v else none
  match id % 256 with
  | 0x10 => dev (s.dura.pHold.getD 0) | 0x11 => dev s.dura.kMargin | 0x12 => dev s.dura.tFixed
  | 0x20 => if u < 144 then some (s.chan u).ceThresh else none
  | 0x21 => if u < 144 then some (s.chan u).retireSym else none
  | 0x22 => dev s.plat.rowLease | 0x23 => dev s.plat.scrubDays | 0x24 => dev s.plat.scrubShare
  | 0x25 => dev s.plat.parkScrubDays | 0x26 => dev s.plat.parkScrubRate
  | 0x27 => if u < 16 then some (s.grp u).rebuildShare else none
  | 0x28 => if u < 16 then some (bit (s.grp u).autoRebuild) else none
  | 0x29 => if u < 32 then some (s.drch u).srIdle else none
  | 0x2A => dev s.dram.actThresh | 0x2B => dev s.dram.rhRadius | 0x2C => dev s.dram.rhEvent
  | 0x2D => if u < 32 then some (s.drch u).ceThresh else none
  | 0x2E => dev s.test.ttPass
  | 0x30 => dev s.sump.intentRsv | 0x31 => dev s.sump.spillHigh | 0x32 => dev s.sump.spillLow | 0x33 => dev s.sump.mergeWait
  | 0x34 => dev s.sump.readFloor | 0x35 => dev s.sump.pfFloor
  | 0x40 => if u < 32 then some (s.nport (u / 4)).mode else none
  | 0x41 => if u < 32 then some (s.subPort (u / 4) (u % 4)).vlan else none
  | 0x42 => if u < 32 then some (s.subPort (u / 4) (u % 4)).pcp else none
  | 0x43 => if u < 32 then some (s.subPort (u / 4) (u % 4)).mac else none
  | 0x44 => if u < 32 then some (s.subPort (u / 4) (u % 4)).ip4 else none
  | 0x45 => if u < 32 then some (s.subPort (u / 4) (u % 4)).ip6 else none
  | 0x50 => dev s.xport.dscpData | 0x51 => dev s.xport.dscpCtrl | 0x52 => dev s.xport.ecnMark | 0x53 => dev s.xport.ecnReact
  | 0x54 => dev s.xport.ackCount | 0x55 => dev s.xport.ackDelay | 0x56 => dev s.xport.reasm | 0x57 => dev s.xport.creditIdle
  | 0x60 => dev s.host.maxRateNext | 0x61 => dev (bit s.host.perstSys) | 0x62 => dev s.host.ssvid | 0x63 => dev s.host.ssid
  | 0x70 => if u < 4 then some (s.hdm u).nsid else none
  | 0x90 => if u < 1024 then some (s.ev.route u).vec else none
  | 0x91 => if u < 1024 then some (s.ev.route u).cores.toNat else none
  | 0x92 => if u < 1024 then some (bit (s.ev.route u).msix) else none
  | 0xA0 => dev (bit s.cipher.blockSusp)
  | 0xB0 => dev s.ctl.lease | 0xB1 => dev s.ctl.smbAddr
  | 0xC0 => dev s.twin.twinCredit | 0xC1 => dev s.twin.resyncShare | 0xC2 => dev s.twin.ueStorm | 0xC3 => dev s.twin.hsWait
  | 0xD0 => if u < 8 then some (bit (s.drw u).parkable) else none
  | 0xD1 => if u < 8 then some (s.drw u).parkIdle else none
  | 0xE0 => dev s.power.wlTimeout | 0xE1 => dev s.power.vinFail | 0xE2 => dev s.power.vChg | 0xE3 => dev s.power.vMin
  | 0xE4 => dev s.power.cNom | 0xE5 => dev s.power.esrMax | 0xE6 => dev s.power.rTest | 0xE7 => dev s.power.tTest
  | _ => none

/-- GET_CONFIG. -/
def execGetConfig (h : CmdHdr) (param : Nat) (s : State) : Res :=
  readCommand h 0x010C devUnit (fun s => refuse (need (s.param param).isSome 0x0023 devUnit))
    (fun s => leBytes 16 ((s.param param).getD 0)) s

/-! Group 0x02. -/

/-- R74: all nine modules are present. -/
def State.nineModules (s : State) (g : Nat) : Bool :=
  (List.range 9).all (fun p => let k := s.chan (grpChan g p); k.desc.isSome && k.link == .active && k.health != .failed)

/-- R75: the header that marks the group as formatting goes to media, at a place that the manual leaves open (log entry
112, DESIGN CHOICE). -/
def openFormat (g : Nat) (s : State) : State :=
  let n := s.draws
  let (v, s) := s.freeVal
  openMeta g .format ((s.formatSize g).2 * easelRows + v.toNat % 4096) (Config.metaBytes n) s

/-- FORMAT_GROUP (R73 to R75): its point of no return is the write of the header. -/
def execFormatGroup (h : CmdHdr) (g : Nat) (s : State) : Res :=
  takeCommand h 0x0201 .long g (fun s => firstFail [
      exists_ (decide (g < 16)),
      refuse (need ((s.drw (grpDrawer g)).st != .dfault) 0x0305 (grpDrawer g)),
      refuse (need (s.nineModules g && decide ((s.formatSize g).2 ≥ 1)) 0x0204 g),
      refuse (need (!s.easels.any (fun e => e.1 / 4096 == g && e.2.nsid != 0)) 0x0205 g),
      if (s.grp g).formatting || s.ops.any (fun o => o.grp == g && o.purpose == .metaRow .format) then
        some (stBusy, blkBusy (Config.busyHint 0x0201)) else none])
    (fun _ s => openFormat g s) s

/-- CREATE_NS (R442); answers the NSID. -/
def execCreateNs (h : CmdHdr) (p : CreateNsParams) (s : State) : Res :=
  cfgCommand h 0x0202 devUnit (.createNs p) (fun s => leBytes 4 ((s.pickNs p.nsid).getD 0)) s
/-- DELETE_NS (R443). -/
def execDeleteNs (h : CmdHdr) (nsid : Nat) (s : State) : Res := cfgCommand h 0x0203 nsid (.deleteNs nsid) (fun _ => []) s
/-- RESIZE_NS (R443). -/
def execResizeNs (h : CmdHdr) (nsid units : Nat) (s : State) : Res := cfgCommand h 0x0204 nsid (.resizeNs nsid units) (fun _ => []) s

/-- SET_NS_ATTR (R197, R448): attributes left out keep their value; VIS_AT_VARNISH and ENCRYPTED cannot change. -/
def execSetNsAttr (h : CmdHdr) (nsid : Nat) (parkable cacheFill visVarnish encrypted : Option Bool) (s : State) : Res :=
  let n := (s.ns nsid).getD {}
  let c : Cfg := .nsAttr nsid (parkable.getD n.parkable) (cacheFill.getD n.cacheFill)
  takeCommand h 0x0205 .immediate nsid (fun s => firstFail [
      s.cfgCheck c,
      refuse (need (visVarnish.getD n.visVarnish == n.visVarnish && encrypted.getD n.encrypted == n.encrypted) 0x0012 devUnit)])
    (commit 0x0205 h.tag c (fun _ => []) none) s

/-- NS_STATUS: units, ψ, attributes, units whose zero writes run. -/
def execNsStatus (h : CmdHdr) (nsid : Nat) (s : State) : Res :=
  readCommand h 0x0206 nsid (fun s => exists_ (s.ns nsid).isSome) (fun s =>
    match s.ns nsid with
    | some n => leBytes 4 n.units.length ++ leBytes 2 n.psi
        ++ leBytes 2 (bit n.parkable + 2 * bit n.visVarnish + 4 * bit n.cacheFill + 8 * bit n.encrypted)
        ++ leBytes 4 (n.units.filter (fun u => (s.easel (easelKey u.1 u.2)).filling)).length
    | none => []) s

/-- READ_EASEL: the per-easel state in the order of its table; a REMAP entry is its slot, with bit 31 where it is valid. -/
def execReadEasel (h : CmdHdr) (g e : Nat) (s : State) : Res :=
  readCommand h 0x0207 g (fun s => exists_ (decide (g < 16) && decide (e < (s.grp g).eg))) (fun s =>
    let k := s.easel (easelKey g e)
    leBytes 2 k.nsid ++ leBytes 2 k.unit ++ k.key.flatMap (fun r => leBytes 2 r.toNat) ++ leBytes 4 k.start ++ leBytes 4 k.gap
      ++ leBytes 2 k.psi ++ leBytes 2 k.wcount ++ leBytes 8 k.moves.toNat ++ leBytes 1 k.spares ++ leBytes 1 (bit k.worn)
      ++ (List.range 63).flatMap (fun i => match lookupNat i k.remap with
        | some x => leBytes 4 (x + 2147483648)
        | none => leBytes 4 0)) s

/-- R444, R445: alignment, length and extent of a mailbox access. -/
def State.memRange (s : State) (nsid off len : Nat) : Verdict :=
  firstFail [exists_ (s.ns nsid).isSome,
    refuse (need (off % 64 == 0 && len % 64 == 0 && decide (64 ≤ len) && decide (len ≤ 512) && decide (off + len ≤ s.nsSize nsid))
      0x0013 devUnit)]

/-- R193, R444: the access is answered BUSY with the largest drawer hint, and wakes those drawers. -/
def memBusy (id : Nat) (ds : List Nat) (s : State) : State :=
  finish id stBusy (blkBusy (listMax 0 (ds.map s.drawerHint))) (wakeSpan ds s)

/-- Drawers of a set of codewords that are not AWAKE. -/
def State.cwsAsleep (s : State) (nsid : Nat) (cws : List Nat) : List Nat :=
  (cws.flatMap (fun c => s.rangeDrawers nsid (256 * c) 256)).filter (fun d => (s.drw d).st != .awake)

/-- MEM_READ (R444). -/
def execMemRead (h : CmdHdr) (nsid off len : Nat) (s : State) : Res :=
  takeCommand h 0x0208 .waiting nsid (fun s => s.memRange nsid off len)
    (fun id s =>
      match s.cwsAsleep nsid (s.mediaNeeds nsid off len) with
      | [] =>
        let (g, s) := s.fresh
        gatherRun { id := g, cmd := some id, ns := nsid, off, len } s
      | ds => memBusy id ds s) s

/-- One line of a MEM_WRITE: placed visible-dirty, with its CXL_WRITE entry (R445); answers the entry's LSN. -/
def memLine (nsid off : Nat) (d : Bytes) (s : State) : State × Lsn :=
  let (s, lsn) := logEntry { anchor := true, durable := false, conn := 0, msg := 0, nsid
                             body := .cxlWrite off (BitVec.allOnes 64) d } s
  let s := (showLine none nsid (off / 64) (imgOf d) false lsn [] s).getD s
  (foldStep [(nsid, off / 64)] s, lsn)

/-- MEM_WRITE (R193, R445). It is put off while admission is stopped, a planned swap runs, a gather holds its lines back, or
no lines are free. -/
def execMemWrite (h : CmdHdr) (nsid off : Nat) (data : Bytes) (s : State) : Res :=
  let n := data.length / 64
  takeCommand h 0x0209 .waiting nsid (fun s => s.memRange nsid off data.length)
    (fun id s =>
      match s.cwsAsleep nsid ((List.range n).map (fun i => (off + 64 * i) / 256)) with
      | [] =>
        if s.dura.clow ∨ s.dura.overBud then finish id stBusy (blkBusy 10000) s
        else if s.prime.noAdmit ∨ s.twin.swap ≠ .none ∨ s.heldBack nsid off data.length ∨ !s.lineRoom false n then
          finish id stBusy (blkBusy (Config.busyHint 0x0209)) s
        else
          let (s, lsn) := (List.range n).foldl (fun (a : State × Lsn) i => memLine nsid (off + 64 * i) (slice data (64 * i) 64) a.1)
            (nextStamp s, 0)
          answerLogged id lsn stOk [] s
      | ds => memBusy id ds s) s

/-! Group 0x03. -/

/-- R184, R185, R190: a PARK_DRAWER that R190 accepts, or that a drawer in WAKING latches. -/
def requestPark (d id : Nat) (s : State) : State :=
  let k := s.drw d
  match k.st with
  | .awake => beginPark d [id] s
  | .waking => s.modDrw d (fun k => { k with latch := .park (id :: k.latch.cmds) })
  | .parking =>
    let s := s.modDrw d (fun k => { k with latch := .none, cmds := k.cmds ++ [id] })
    match k.latch with
    | .wake ws => finishAll ws stRefused (blkRefused 0x0309 d) s
    | _ => s
  | .parked | .dfault => finish id stOk [] s

/-- PARK_DRAWER (R190, R206). -/
def execParkDrawer (h : CmdHdr) (d : Nat) (s : State) : Res :=
  takeCommand h codePark .long d (fun s => firstFail [exists_ (decide (d < 8)),
      if (s.drw d).st = .waking then none else refuse ((s.parkRefusal d).map (fun r => (r, d)))])
    (fun id s => requestPark d id s) s

/-- WAKE_DRAWER (R184, R189). -/
def execWakeDrawer (h : CmdHdr) (d : Nat) (s : State) : Res :=
  takeCommand h codeWake .waiting d (fun _ => exists_ (decide (d < 8))) (fun id s => requestWake d (some id) s) s

/-- SET_DRAWER (R197). -/
def execSetDrawer (h : CmdHdr) (d : Nat) (parkable : Bool) (parkIdle : Nat) (s : State) : Res :=
  cfgCommand h 0x0303 d (.setDrawer d parkable parkIdle) (fun _ => []) s

/-- Encodings of DRW_STATE.STEP (R208). -/
def DrawerStep.code : DrawerStep → Nat
  | .none => 0 | .w1 => 1 | .w2 => 2 | .w3 => 3 | .w4 => 4 | .w5 => 5 | .w6 => 6 | .w7 => 7 | .p1 => 8 | .p2 => 9 | .p3 => 10
  | .p4 => 11 | .d4 => 12 | .d3 => 13 | .d2 => 14 | .d1 => 15

/-- DRAWER_STATUS: state, step, PARKABLE and latch, PARK_IDLE, wakes, slips. -/
def execDrawerStatus (h : CmdHdr) (d : Nat) (s : State) : Res :=
  readCommand h 0x0304 d (fun s => firstFail [exists_ (decide (d < 8)), refuse (need ((s.drw d).st != .dfault) 0x0305 d)]) (fun s =>
    let k := s.drw d
    leBytes 1 k.st.code ++ leBytes 1 k.step.code ++ leBytes 2 (bit k.parkable + 2 * bit (k.latch != .none)) ++ leBytes 4 k.parkIdle
      ++ leBytes 4 (s.pins d) ++ leBytes 4 k.wakes ++ leBytes 4 k.slips) s

/-! Group 0x04. -/

/-- OPEN_CONNECTION (R353, R354). -/
def execOpenConnection (h : CmdHdr) (p : OpenParams) (s : State) : Res :=
  cfgCommand h 0x0401 devUnit (.openConn p) (fun _ => []) s

/-- CLOSE_CONNECTION (R356, R382): the commit is its point of no return; it ends when the connection is CLOSED. -/
def execCloseConnection (h : CmdHdr) (conn : Nat) (s : State) : Res :=
  takeCommand h 0x0402 .long devUnit (fun s => s.cfgCheck (.closeConn conn)) (fun id s =>
    commit 0x0402 h.tag (.closeConn conn) (fun _ => []) (some (fun s =>
      let s := setPast id s
      if (s.conn conn).st = .closed then finish id stOk [] s
      else s.modConn conn (fun k => { k with closers := k.closers ++ [id] }))) id s) s

/-- REKEY (R314, R356). -/
def execRekey (h : CmdHdr) (conn gen : Nat) (blob0 blob1 : Blob) (s : State) : Res :=
  cfgCommand h 0x0403 devUnit (.rekey conn gen blob0 blob1) (fun _ => []) s

/-- CONN_STATUS: state, generation, watermark, DWMARK, DROPCNT, live paths; of a CLOSED connection refused 0x0411. -/
def execConnStatus (h : CmdHdr) (conn : Nat) (s : State) : Res :=
  readCommand h 0x0404 devUnit (fun s => refuse (need (decide (conn < 65536) && (s.conn conn).st != .closed) 0x0411 devUnit)) (fun s =>
    let k := s.conn conn
    let st : Nat := match k.st with | .closed => 0 | .opened => 1 | .closing => 2 | .error => 3
    leBytes 1 st ++ leBytes 1 (maskOf 8 ((k.paths.filter (·.live)).map (·.q))).toNat ++ leBytes 2 0 ++ leBytes 4 k.gen
      ++ leBytes 4 k.wmark.toNat ++ leBytes 4 k.dwmark.toNat ++ leBytes 4 k.dropcnt.toNat) s

/-- REGISTER_GRANT (R198, R359, R360): answers AKEY at commit, or for a pinned grant once its drawers are AWAKE. -/
def execRegisterGrant (h : CmdHdr) (p : GrantParams) (s : State) : Res :=
  if p.pinned = 1 then
    takeCommand h 0x0405 .waiting devUnit (fun s => s.cfgCheck (.regGrant p)) (fun id s =>
      let g := s.freeSlot.getD 0
      commit 0x0405 h.tag (.regGrant p) (fun _ => []) (some (fun s =>
        pinCheck g (s.modGrant g (fun k => { k with pinCmd := some id })))) id s) s
  else cfgCommand h 0x0405 devUnit (.regGrant p) (fun s => leBytes 4 (s.akey (s.freeSlot.getD 0))) s

/-- REVOKE_GRANT (R369, R448): ends when the grant is DEAD. -/
def execRevokeGrant (h : CmdHdr) (akey : BitVec 32) (s : State) : Res :=
  let g := akey.toNat % 131072
  takeCommand h codeRevoke .waiting devUnit (fun s => firstFail [
      refuse (need (s.akey g == akey.toNat) 0x0416 devUnit), s.cfgCheck (.revokeGrant g)])
    (fun id s => commit codeRevoke h.tag (.revokeGrant g) (fun _ => []) (some (fun s =>
      if (s.grant g).st = .dead then finish id stOk [] s
      else s.modGrant g (fun k => { k with waiters := k.waiters ++ [(id, false)] }))) id s) s

/-- GRANT_STATUS (R361, R362): state, generation, references, range, rights; reading a DEAD slot returns it to FREE. -/
def execGrantStatus (h : CmdHdr) (slot : Nat) (s : State) : Res :=
  takeCommand h 0x0407 .immediate devUnit (fun _ => exists_ (decide (slot < 131072))) (fun id s =>
    let k := s.grant slot
    let st : Nat := match k.st with | .free => 0 | .live => 1 | .revoking => 2 | .dead => 3
    let (ns, off, len, r) := match k.params with | some p => (p.nsid, p.off, p.len, p.rights.toNat) | none => (0, 0, 0, 0)
    let b := leBytes 1 st ++ leBytes 1 r ++ leBytes 2 ns ++ leBytes 4 k.gen ++ leBytes 4 k.refs ++ leBytes 8 off ++ leBytes 8 len
    finish id stOk b (if k.st = .dead then freeGrant slot s else s)) s

/-! Group 0x07. -/

/-- SCHED_CREATE (R199); answers the handle. -/
def execSchedCreate (h : CmdHdr) (p : SchedParams) (s : State) : Res :=
  cfgCommand h 0x0701 devUnit (.schedCreate p) (fun s => leBytes 4 ((lowestFrom 0 64 (fun i => (s.sched i).isSome)).getD 0)) s
/-- SCHED_APPEND (R199). -/
def execSchedAppend (h : CmdHdr) (handle : Nat) (extents : List (Nat × Nat)) (s : State) : Res :=
  cfgCommand h 0x0702 devUnit (.schedAppend handle extents) (fun _ => []) s
/-- SCHED_START (R200). -/
def execSchedStart (h : CmdHdr) (handle : Nat) (s : State) : Res := cfgCommand h 0x0703 devUnit (.schedStart handle) (fun _ => []) s
/-- SCHED_DELETE (R203). -/
def execSchedDelete (h : CmdHdr) (handle : Nat) (s : State) : Res := cfgCommand h 0x0704 devUnit (.schedDelete handle) (fun _ => []) s

/-- SCHED_STATUS: started, complete, cursor, extents, bytes of the extent read, slips. -/
def execSchedStatus (h : CmdHdr) (handle : Nat) (s : State) : Res :=
  readCommand h 0x0705 devUnit (fun s => exists_ (s.sched handle).isSome) (fun s =>
    match s.sched handle with
    | some k => leBytes 2 k.nsid ++ leBytes 1 (bit k.started) ++ leBytes 1 (bit k.done) ++ leBytes 4 k.cursor
        ++ leBytes 4 k.extents.length ++ leBytes 8 k.head ++ leBytes 4 k.slips
    | none => []) s

end Sys2Proof.Machine
end

