-- ==== Sys2Proof/Machine/CmdMaint.lean ====
section
/-! DEFINITION. Mailbox commands of the groups 0x05, 0x06 and 0x08: twin and roles, maintenance, recorder. Result blocks are
those of log entry 85, DESIGN CHOICE. -/

namespace Sys2Proof.Machine

open Sys2Proof

/-! Group 0x05. -/

/-- SWAP_ROLES (R287): step S1 begins. -/
def execSwapRoles (h : CmdHdr) (s : State) : Res :=
  takeCommand h 0x0501 .long devUnit (fun s => firstFail [
      refuse (need (s.twin.role == .active) 0x0501 devUnit), refuse (need s.peerFit 0x0502 devUnit),
      if s.twin.swap ≠ .none then some (stBusy, blkBusy (Config.busyHint 0x0501)) else none])
    (fun id s => s.modTwin (fun t => { t with swap := .s1 id s.now })) s

/-- FORCE_TAKEOVER (R282, R283): K1 and K2 without a witness; ends at K4. -/
def execForceTakeover (h : CmdHdr) (s : State) : Res :=
  takeCommand h 0x0502 .waiting devUnit (fun s =>
      refuse (need (s.twin.role == .standby && s.twin.witness.isNone
        && (match s.twin.heardAt with | some t => decide (s.now ≥ t + 5000000) | none => true)) 0x0503 devUnit))
    (fun id s => takeoverOn (takeoverSolo (s.twin.epoch + 1) false) (takeoverHeld none (s.modTwin (fun t => { t with takeCmd := some id })))) s

/-- SET_WITNESS (R273). -/
def execSetWitness (h : CmdHdr) (p : WitnessParams) (s : State) : Res := cfgCommand h 0x0503 devUnit (.witness p) (fun _ => []) s
/-- SET_TWIN (R297). -/
def execSetTwin (h : CmdHdr) (p : TwinParams) (s : State) : Res := cfgCommand h 0x0504 devUnit (.twin p) (fun _ => []) s

/-- TWIN_STATUS: role, twin number, cause of FENCED, flags, epoch, LSNs, tiles of the bitmap. -/
def execTwinStatus (h : CmdHdr) (s : State) : Res :=
  readCommand h 0x0505 devUnit (fun _ => none) (fun s =>
    let t := s.twin
    leBytes 1 t.role.code ++ leBytes 1 t.num ++ leBytes 1 t.fcause
      ++ leBytes 1 (bit t.resync + 2 * bit t.resyncFull + 4 * bit t.silent + 8 * bit t.witness.isSome + 16 * bit s.peerFit)
      ++ leBytes 4 t.epoch.toNat ++ leBytes 8 t.sent.toNat ++ leBytes 8 t.applied.toNat ++ leBytes 4 t.tileBits) s

/-! Group 0x06. -/

/-- SCRUB_NOW (R140): a group of a parked drawer is woken as for a scrub wake. A group without rows is answered OK at once
(log entry 122, DESIGN CHOICE). -/
def execScrubNow (h : CmdHdr) (g : Nat) (s : State) : Res :=
  let d := grpDrawer g
  takeCommand h codeScrubNow .long g (fun s => firstFail [
      exists_ (decide (g < 16)), refuse (need ((s.drw d).st != .dfault) 0x0305 d),
      if (s.grp g).scrubNow.isSome then some (stBusy, blkBusy (Config.busyHint codeScrubNow)) else none])
    (fun id s =>
      if (s.grp g).ng = 0 then finish id stOk [] s
      else
        let s := s.modGrp g (fun k => { k with scrubNow := some 0 })
        if (s.drw d).st = .parked ∨ (s.drw d).st = .parking then requestWake d none s else s) s

/-- REBUILD (R134, R139). -/
def execRebuild (h : CmdHdr) (g : Nat) (s : State) : Res :=
  takeCommand h codeRebuild .long g (fun s =>
      let k := s.grp g
      firstFail [exists_ (decide (g < 16)),
        refuse (need (k.st != .sound && k.st != .unformatted) 0x0206 g), refuse (need (k.st != .rebuilding) 0x0207 g),
        refuse (need (!(k.st == .failed && s.twin.role == .solo)) 0x020A g),
        refuse (need (!k.lost.any (fun p => (s.chan (grpChan g p)).health == .tooSmall)) 0x0201 g),
        refuse (need (k.lost.all (fun p => (s.chan (grpChan g p)).health == .rebuildTarget)) 0x0208 g)])
    (fun _ s => s.modGrp g (fun k => { k with
      st := .rebuilding, rebuildPtr := 0, rebuildOfFailed := k.st == .failed, paused := false })) s

/-- SANITIZE (R483): the commit is its point of no return; it ends when every unit reads zero. -/
def execSanitize (h : CmdHdr) (nsid : Nat) (s : State) : Res :=
  takeCommand h codeSanitize .long nsid (fun s => s.cfgCheck (.sanitize nsid)) (fun id s =>
    commit codeSanitize h.tag (.sanitize nsid) (fun _ => []) (some (fun s =>
      let s := setPast id s
      let left := match s.ns nsid with | some n => n.units.any (fun u => (s.easel (easelKey u.1 u.2)).filling) | none => false
      if left then s else finish id stOk [] s)) id s) s

/-- CISTERN_TEST (R515, R516): a measurement is due at once. -/
def execCisternTest (h : CmdHdr) (s : State) : Res :=
  takeCommand h 0x0604 .long devUnit (fun s => firstFail [
      refuse (need (s.power.cisStep == .none && !s.power.pwrFail) 0x0705 devUnit),
      if s.power.cisCmd.isSome then some (stBusy, blkBusy (Config.busyHint 0x0604)) else none])
    (fun id s => tryMeasure (s.modPower (fun p => { p with cisCmd := some id }))) s

/-- MARGIN (R517, R518). -/
def execMargin (h : CmdHdr) (port rail : Nat) (step : Int) (s : State) : Res :=
  takeCommand h 0x0605 .waiting rail (fun s => firstFail [
      exists_ (decide (rail < 48)), refuse (need (!s.serving) 0x0701 rail),
      refuse (need ((s.rail rail).pmbPort == port + 1 && decide (-20 ≤ step) && decide (step ≤ 20)) 0x0702 rail),
      refuse (need ((s.rail rail).st == .good) 0x0704 rail),
      if (s.marginOn port).isSome then some (stBusy, blkBusy (Config.busyHint 0x0605)) else none])
    (fun id s => startMargin rail step (some id) s) s

/-- Checks that the channel commands share (R181). -/
def State.chanCheck (s : State) (c : Nat) : Verdict :=
  let d := s.drw (chDrawer c)
  firstFail [exists_ (decide (c < 144)), refuse (need (d.st != .dfault) 0x0305 (chDrawer c)),
    refuse (need (d.st != .parked && d.st != .waking) 0x0102 c), refuse (need (s.chan c).sbPres 0x0101 c)]

/-- CH_RETRAIN (R146, R181): ends once the link is ACTIVE again. -/
def execChRetrain (h : CmdHdr) (ch : Nat) (s : State) : Res :=
  takeCommand h 0x0606 .waiting ch (fun s => firstFail [s.chanCheck ch, refuse (need ((s.chan ch).link == .active) 0x0103 ch)])
    (fun _ s => startRetrain ch s) s

/-- CH_SBRESET (R172, R173): ends once the module shows READY. -/
def execChSbreset (h : CmdHdr) (ch : Nat) (s : State) : Res :=
  takeCommand h 0x0607 .waiting ch (fun s => firstFail [s.chanCheck ch,
      refuse (need ((s.chan ch).link == .down || (s.chan ch).link == .failed) 0x0104 ch)])
    (fun _ s => s.send (.sbReset ch)) s

/-- CH_DESC (R181): a 256-byte page of the descriptor last read. -/
def execChDesc (h : CmdHdr) (ch page : Nat) (s : State) : Res :=
  takeCommand h 0x0608 .immediate ch (fun s => firstFail [
      encoded (decide (page < 2)), s.chanCheck ch, refuse (need ((s.chan ch).dstat != 0) 0x0105 ch)])
    (fun id s => finish id stOk ((lookupNat page (s.chan ch).descPages).getD []) s) s

/-- Encodings of GRP_STATE.STATE (R141). -/
def GroupState.code : GroupState → Nat
  | .unformatted => 0 | .sound => 1 | .degraded => 2 | .rebuilding => 3 | .failed => 4

/-- MAINT_STATUS: state of each group, groups in a SCRUB_NOW pass, cistern state, margins in force. -/
def execMaintStatus (h : CmdHdr) (s : State) : Res :=
  readCommand h 0x0609 devUnit (fun _ => none) (fun s =>
    (List.range 16).flatMap (fun g => leBytes 1 (s.grp g).st.code)
      ++ leBytes 2 (maskOf 16 ((List.range 16).filter (fun g => (s.grp g).scrubNow.isSome))).toNat ++ leBytes 1 s.power.cisSt
      ++ leBytes 1 ((List.range 48).filter (fun i => (s.rail i).margin != 0)).length) s

/-! Group 0x08. -/

/-- REC_FREEZE (R639). The second of the freeze runs from the latest one. -/
def execRecFreeze (h : CmdHdr) (s : State) : Res :=
  takeCommand h 0x0801 .immediate devUnit (fun _ => none) (fun id s =>
    finish id stOk [] (s.modTest (fun t => { t with frozen := true, frozenAt := s.now }))) s

/-- R639: recording goes on; one drop record covers every record dropped. -/
def unfreeze (s : State) : State :=
  if !s.test.frozen then s
  else
    let d := s.test.dropped
    let s := s.modTest (fun t => { t with frozen := false, dropped := none })
    match d with
    | some (a, b, n) => record 0x0002 0xFFFF false (dropBody n a b) s
    | none => s

/-- REC_UNFREEZE (R639). -/
def execRecUnfreeze (h : CmdHdr) (s : State) : Res :=
  takeCommand h 0x0802 .immediate devUnit (fun _ => none) (fun id s => finish id stOk [] (unfreeze s)) s

/-- Bytes of a record (R634). -/
def Rec.bytes (r : Rec) : Bytes :=
  leBytes 2 r.len ++ leBytes 2 r.ty ++ leBytes 2 r.src ++ leBytes 1 (bit r.crit) ++ leBytes 1 0 ++ leBytes 8 r.seq.toNat ++ r.body

/-- Records that a source of REC_READ holds, oldest first (R640). -/
def State.recSource (s : State) (source : Nat) : List Rec :=
  if source = 1 then s.test.critical.map (·.2)
  else match s.test.ring with
    | r :: _ => s.test.spilled.filter (fun q => decide (q.seq < r.seq)) ++ s.test.ring
    | [] => s.test.spilled

/-- The first records that fit, at most `n`, in `left` bytes. -/
def fitting : Nat → Nat → List Rec → List Rec
  | 0, _, _ => []
  | _, _, [] => []
  | n + 1, left, r :: t => if r.len ≤ left then r :: fitting n (left - r.len) t else []

/-- Result block of REC_READ (R640): NREC, FLAGS, records. -/
def State.recBlock (s : State) (source : Nat) (start : BitVec 64) (count : Nat) : Bytes :=
  let all := s.recSource source
  let l := fitting count 892 (all.filter (fun r => decide (start ≤ r.seq) && r.ty != 0))
  let old := match all with | r :: _ => decide (start < r.seq) | [] => false
  leBytes 2 l.length ++ leBytes 2 (bit old) ++ l.flatMap Rec.bytes

/-- REC_READ (R640, R641). -/
def execRecRead (h : CmdHdr) (source : Nat) (start : BitVec 64) (count : Nat) (s : State) : Res :=
  readCommand h 0x0803 devUnit
    (fun _ => refuse (need (decide (source ≤ 1) && decide (1 ≤ count) && decide (count ≤ 64)) 0x0065 devUnit))
    (fun s => s.recBlock source start count) s

end Sys2Proof.Machine
end

