-- ==== Sys2Proof/Machine/CmdFw.lean ====
section
/-! DEFINITION. Mailbox commands of the groups 0x09 and 0x0A: firmware update (R603 to R606), life cycle (R624 to R632), and
the JTAG authentication (R632). Result blocks are those of log entry 85, DESIGN CHOICE. -/

namespace Sys2Proof.Machine

open Sys2Proof

/-! Group 0x09. -/

/-- Bytes of an image slot (R579). -/
def slotSize : Nat := 8388608

/-- The session of a mailbox for an image. -/
def State.ownSession (s : State) (m img : Nat) : Bool :=
  match s.flash.session with
  | some (i, _, k) => i == img && k == m
  | none => false

/-- LENGTH of the session. -/
def State.sessionLen (s : State) : Nat := match s.flash.session with | some (_, n, _) => n | none => 0

/-- R606: a fail flag stands for a sector of the image slot: of bank 0 for image A, bank 1 for B. -/
def State.slotFailed (s : State) (img : Nat) : Bool :=
  let b := s.fbank img
  (b.pfail || b.efail) && decide (b.sector % 512 < 128)

/-- An operation is a slot erase. -/
def isSlotErase (o : FOp) : Bool := match o.purpose with | .slotErase _ => true | _ => false

/-- FW_BEGIN (R603, R605). -/
def execFwBegin (h : CmdHdr) (image len : Nat) (s : State) : Res :=
  let m := h.mbx.val
  takeCommand h 0x0901 .immediate devUnit (fun s => firstFail [
      encoded (decide (image < 2)),
      refuse (need ((match s.flash.session with | some (_, _, k) => k == m | none => true) && s.flash.committing.isNone) 0x0055 devUnit),
      refuse (need (!(s.prime.image == image && s.flash.named == image && !s.prime.bootFail)) 0x0051 devUnit),
      refuse (need (decide (len ≤ slotSize) && len % 8 == 0) 0x0052 devUnit)])
    (fun id s =>
      let s := s.modFlash (fun f => { f with
        session := some (image, len, m), written := [], erased := 0
        banks := f.banks.map (fun b => { b with queue := b.queue.filter (fun o => !isSlotErase o) }) })
      let s := flashQueue image { erase := true, sector := image * 512, left := 127, purpose := .slotErase image } (bootWord 0xB1 image id s)
      finish id stOk [] s) s

/-- R583: the program of a range of the slot would be refused NOT_ERASED. -/
def State.notErased (s : State) (img off : Nat) (d : Bytes) : Bool :=
  (List.range (d.length / 8)).any (fun i =>
    let w := s.flash.word img (off / 8 + i)
    w != BitVec.allOnes 64 && w != BitVec.ofNat 64 (leVal (slice d (8 * i) 8)))

/-- Slot sectors that a range touches. -/
def sectorsOf (off len : Nat) : List Nat := if len = 0 then [] else (List.range ((off + len - 1) / 65536 - off / 65536 + 1)).map (· + off / 65536)

/-- FW_DATA (R583, R603): answered after programming. -/
def execFwData (h : CmdHdr) (image off : Nat) (data : Bytes) (s : State) : Res :=
  let n := data.length
  takeCommand h 0x0902 .immediate devUnit (fun s => firstFail [
      encoded (decide (image < 2)),
      refuse (need (s.ownSession h.mbx.val image && s.flash.committing.isNone) 0x0055 devUnit),
      refuse (need (off % 8 == 0 && n % 8 == 0 && decide (n ≤ 848) && decide (off + n ≤ s.sessionLen)) 0x0053 devUnit),
      refuse (need (!s.slotFailed image) 0x0057 devUnit),
      if (sectorsOf off n).any (fun k => decide (k ≥ s.flash.erased)) then
        some (stBusy, blkBusy (Config.eraseHint (128 - s.flash.erased))) else none,
      refuse (need (!s.notErased image off data) 0x0053 devUnit)])
    (fun id s =>
      match s.flash.imageLeft image off data (n / 8 - 1) with
      | none => imageDone off data id s
      | some l => flashQueue image { erase := false, sector := imageSector image off data l, left := l
                                     purpose := .image image off data id } s) s

/-- FW_COMMIT (R529, R586, R602, R604): the image is verified, then its 0xC1 word is programmed. How many words of the
slot a coded read corrects is a free value. -/
def execFwCommit (h : CmdHdr) (image : Nat) (s : State) : Res :=
  takeCommand h 0x0903 .long devUnit (fun s =>
      let len := s.sessionLen
      firstFail [encoded (decide (image < 2)),
        refuse (need (s.ownSession h.mbx.val image && s.flash.committing.isNone) 0x0055 devUnit),
        refuse (need (covers s.flash.written 0 len) 0x0054 devUnit),
        refuse (need (!s.slotFailed image) 0x0057 devUnit),
        refuse (need (s.flash.imageOk image) 0x0054 devUnit),
        refuse (need (decide (s.flash.secver image ≥ s.flash.secMin)) 0x0056 devUnit)])
    (fun id s =>
      let (v, s) := s.freeVal
      let s := s.modFbank image (fun k => { k with ce := Nat.min 255 (k.ce + v.toNat % 256) })
      bootWord 0xC1 image id (s.modFlash (fun f => { f with committing := some id }))) s

/-- FW_ACTIVATE (R600, R603). -/
def execFwActivate (h : CmdHdr) (image : Nat) (s : State) : Res :=
  takeCommand h 0x0904 .immediate devUnit (fun s => firstFail [encoded (decide (image < 2)),
      refuse (need (s.flash.valid image) 0x0050 devUnit)])
    (fun id s => finish id stOk [] (bootWord 0xA1 image id s)) s

/-- FW_STATUS (R603). -/
def execFwStatus (h : CmdHdr) (s : State) : Res :=
  readCommand h 0x0905 devUnit (fun _ => none) (fun s =>
    let one := fun (i : Nat) => leBytes 1 (bit (s.flash.valid i)) ++ leBytes 1 (s.flash.secver i) ++ s.flash.version i
    let (img, m) := match s.flash.session with | some (i, _, m) => (i, m) | none => (0, 0)
    one 0 ++ one 1 ++ leBytes 1 s.flash.named ++ leBytes 1 s.prime.image ++ leBytes 1 (bit s.flash.session.isSome + 2 * img)
      ++ leBytes 1 m ++ leBytes 4 (rangeBytes s.flash.written) ++ leBytes 1 s.flash.erased) s

/-! Group 0x0A. -/

/-- The life-cycle state that TARGET names (R626). -/
def lcTarget : Nat → Option LcState
  | 0 => some .manufacture | 1 => some .provision | 2 => some .deployed | 3 => some .ret | 4 => some .endOfLife | _ => none

/-- R625: the transitions. -/
def lcStep (a b : LcState) : Bool :=
  match a, b with
  | .manufacture, .provision | .provision, .deployed | .provision, .ret | .deployed, .ret => true
  | .endOfLife, _ => false
  | _, .endOfLife => true
  | _, _ => false

/-- Digest of the integrator key, the Laneracor key in its place while none is fused (R625). -/
def State.integratorKey (s : State) : Nat := s.test.ikey.getD Config.laneracorKey

/-- R625: a key digest that authorises a transition. -/
def State.keyOk (s : State) (target : LcState) (d : Nat) : Bool :=
  match s.test.lc, target with
  | _, .endOfLife => d == s.integratorKey || d == Config.laneracorKey
  | .manufacture, _ => d == Config.laneracorKey
  | _, _ => d == s.integratorKey

/-- A key digest, as the number of its bytes. -/
def keyDigest (a : LcAuth) : Nat := leVal (sha384 a.key)

/-- R626: the signature verifies over the SHA-384 digest of CHALLENGE ‖ DIE_ID and what follows. -/
def State.signed (s : State) (a : LcAuth) (d : Bytes) : Bool :=
  match s.test.challenge with
  | some c => ecdsaVerify a.key (sha384 (leBytes 32 c ++ leBytes 16 Config.dieId ++ d)) a.sig
  | none => false

/-- R626: key digest, and signature over the current challenge, TARGET, ITEM and the item's data. -/
def State.authOk (s : State) (target : LcState) (item : Nat) (d : Bytes) (a : LcAuth) : Bool :=
  s.keyOk target (keyDigest a) && s.signed a (leBytes 1 target.code ++ leBytes 1 item ++ d)

/-- R626: the challenge is discarded at the first LC_ADVANCE that follows. -/
def dropChallenge (s : State) : State := s.modTest (fun t => { t with challenge := none })

/-- R641: the first reason to refuse a state change. -/
def State.lcRefusal (s : State) (target : Nat) (a : LcAuth) : Verdict :=
  match lcTarget target with
  | none => refuse (some (0x0060, devUnit))
  | some t => firstFail [
      refuse (need (lcStep s.test.lc t) 0x0060 devUnit),
      refuse (need (!(t == .deployed && s.test.secret.isNone)) 0x0064 devUnit),
      refuse (need (s.authOk t 0 [] a) 0x0061 devUnit),
      refuse (need (!(s.test.lc == .deployed && s.serving)) 0x0062 devUnit),
      if s.prime.drain.isSome || s.hostDraining then some (stBusy, blkBusy (Config.busyHint 0x0A01)) else none]

/-- R22: TARGET and the bytes that must be zero hold no reserved encoding. -/
def lcEncoded (target : Nat) (a : LcAuth) : Bool := (lcTarget target).isSome && a.rsv == 0

/-- LC_ADVANCE with ITEM 0 (R22, R625, R626, R628, R629): the drain of R63 begins. -/
def execLcAdvance (h : CmdHdr) (target : Nat) (auth : LcAuth) (s : State) : Res :=
  takeCommand h 0x0A01 .long devUnit (fun _ => encoded (lcEncoded target auth)) (fun id s =>
    let v := s.lcRefusal target auth
    let s := dropChallenge s
    match v, lcTarget target with
    | some (st, b), _ => finish id st b s
    | none, some t => startDrain (.reset .lifeCycle) (some id) (s.modTest (fun x => { x with advancing := some (id, t) }))
    | none, none => s) s

/-- R627: the entries of item 2. -/
def fuseEntries : Nat → Bytes → List (Nat × Nat × Nat)
  | 0, _ => []
  | n + 1, d => (leVal (slice d 0 1), leVal (slice d 1 1), leVal (slice d 4 4)) :: fuseEntries n (d.drop 8)

/-- R522: least and greatest VALUE of a field of the rail fuse record, in the units of R627 (log entry 146, DEDUCED). -/
def fuseRange : Nat → Nat × Nat
  | 1 | 4 | 8 => (0, 1)
  | 2 => (1, 12)
  | 3 => (500, 14000)
  | 5 | 6 | 7 => (1, 100)
  | 9 => (0x08, 0x77)
  | 10 => (0, 255)
  | 11 => (50, 2000)
  | 12 => (1000, 60000)
  | 13 | 14 => (5000, 60000)
  | 15 => (100, 100000)
  | 16 => (1, 500)
  | 17 => (100, 20000)
  | _ => (20, 500)

/-- R522, R627: a well-formed entry of item 2: fields 1 to 3 belong to rails 8 to 15, 4 to 10 to every rail, 11 to 18 to the
device, and the value lies in the field's range (log entry 146, DEDUCED). -/
def fuseEntryOk (d : Bytes) (i : Nat) : Bool :=
  let f := leVal (slice d (8 * i) 1)
  let r := leVal (slice d (8 * i + 1) 1)
  let v := leVal (slice d (8 * i + 4) 4)
  decide (1 ≤ f) && decide (f ≤ 18) && leVal (slice d (8 * i + 2) 2) == 0
    && (if f ≤ 3 then decide (8 ≤ r) && decide (r ≤ 15) else if f ≤ 10 then decide (r ≤ 47) else r == 0xFF)
    && decide ((fuseRange f).1 ≤ v) && decide (v ≤ (fuseRange f).2)

/-- R627: the item is well formed. -/
def itemShape (item : Nat) (d : Bytes) : Bool :=
  match item with
  | 1 => d.length == 32
  | 2 => d.length % 8 == 0 && decide (8 ≤ d.length) && decide (d.length ≤ 512) && (List.range (d.length / 8)).all (fuseEntryOk d)
      && decide (((fuseEntries (d.length / 8) d).map (fun e => (e.1, e.2.1))).Nodup)
  | 3 => d.isEmpty
  | 4 => d.length == 48
  | _ => false

/-- R627: part of the item is already fused. -/
def State.itemFused (s : State) (item : Nat) (d : Bytes) : Bool :=
  match item with
  | 1 => s.test.secret.isSome
  | 2 => (fuseEntries (d.length / 8) d).any (fun e => s.test.railRec.any (fun q => q.1 == e.1 && q.2.1 == e.2.1))
  | 3 => s.flash.level2
  | _ => s.test.ikey.isSome

/-- R627: an item is fused. A digest or secret is kept as the number of its bytes, lowest address first. -/
def fuseItem (item : Nat) (d : Bytes) (s : State) : State :=
  match item with
  | 1 => s.modTest (fun t => { t with secret := some (leVal d) })
  | 2 => s.modTest (fun t => { t with railRec := t.railRec ++ fuseEntries (d.length / 8) d })
  | 3 => s.modFlash (fun f => { f with level2 := true })
  | _ => s.modTest (fun t => { t with ikey := some (leVal d) })

/-- R522: with the entries of item 2, V_MIN lies below 0.8 × V_CHG (log entry 146, DEDUCED). -/
def State.vMinOk (s : State) (item : Nat) (d : Bytes) : Bool :=
  let t := (fuseItem item d s).test
  item != 2 || decide (10 * t.fused 14 0xFF 24000 < 8 * t.fused 13 0xFF 48000)

/-- LC_ADVANCE with a non-zero ITEM (R22, R626, R627). -/
def execLcFuseItem (h : CmdHdr) (target item : Nat) (data : Bytes) (auth : LcAuth) (s : State) : Res :=
  takeCommand h 0x0A01 .long devUnit (fun _ => encoded (lcEncoded target auth && decide (item ≤ 4))) (fun id s =>
    let v := firstFail [
      refuse (need (s.test.lc == .provision && lcTarget target == some .provision && itemShape item data
        && (s.test.ikey.isSome || item == 4) && !s.itemFused item data && s.vMinOk item data) 0x0063 devUnit),
      refuse (need (s.authOk .provision item data auth) 0x0061 devUnit)]
    let s := dropChallenge s
    match v with
    | some (st, b) => finish id st b s
    | none => finish id stOk [] (fuseItem item data s)) s

/-- LC_STATUS (R626): the state and a fresh challenge of 32 bytes. -/
def execLcStatus (h : CmdHdr) (s : State) : Res :=
  takeCommand h 0x0A02 .immediate devUnit (fun _ => none) (fun id s =>
    let (v, s) := s.draw
    let c := v.toNat % 2 ^ 256
    let s := s.modTest (fun t => { t with challenge := some c })
    finish id stOk (leBytes 1 s.test.lc.code ++ leBytes 1 (bit s.test.jtag) ++ leBytes 2 0 ++ leBytes 32 c) s) s

/-- LC_RESET_TIMER (R628): 100 ms after the answer the device resets. -/
def execLcResetTimer (s : State) : Res :=
  .next (if s.prime.lcReset.isNone then s else startReset .lifeCycle (s.modPrime (fun p => { p with lcReset := none })))

/-- R632: the authentication passes: in PROVISION and RETURN, over the challenge last drawn and DIE_ID (log entry 92, DEDUCED). -/
def State.jtagOk (s : State) (a : LcAuth) : Bool :=
  (s.test.lc == .provision || s.test.lc == .ret) && keyDigest a == s.integratorKey && s.signed a []

/-- JTAG_AUTHENTICATE (R632): the test access port opens; the challenge is used up. -/
def execJtagAuthenticate (auth : LcAuth) (s : State) : Res :=
  .next (dropChallenge (if s.jtagOk auth then s.modTest (fun t => { t with jtag := true }) else s))

end Sys2Proof.Machine
end

