-- ==== Sys2Proof/Machine/DramRows.lean ====
section
/-! DEFINITION. The LPDDR4X controller (R552 to R576): refresh and calibration, self-refresh, activation accounting,
patrol, and reads with their corrected and uncorrectable words. -/

namespace Sys2Proof.Machine

open Sys2Proof

/-- A pool address in DRAM: channel, rank, bank, row, slot. -/
structure DramAddr where
  ch : Nat
  rank : Nat
  bank : Nat
  row : Nat
  slot : Nat
  deriving DecidableEq, Repr

/-- R553: dram_map over the usable channels; none past the pool's end. -/
def dramMap (l : List Nat) (a : Nat) : Option DramAddr :=
  let u := a / 256
  match l[u % l.length]? with
  | none => none
  | some ch =>
    let v := u / l.length
    let r := v / 7
    if r / 16 < 131072 then some { ch, rank := r / 8 % 2, bank := r % 8, row := r / 16, slot := v % 7 } else none

/-- R563: the refreshes that are due go out, over the 16 banks of the channel in turn. -/
def issueRefresh (ch : Nat) (s : State) : State :=
  let k := s.drch ch
  let n := k.postponed + 1
  let s := forEach (List.range n) (fun i s => s.send (.refresh ch ((k.nextBank + i) % 16))) s
  s.modDrch ch (fun k => { k with postponed := 0, nextBank := (k.nextBank + n) % 16 })

/-- DRAM_REFRESH_TIMER (R563): at most 8 intervals stand behind pool requests. -/
def execDramRefreshTimer (ch : Fin 32) (behindRequests : Bool) (s : State) : Res :=
  let k := s.drch ch
  .next (if k.st ≠ 1 then s
    else if behindRequests ∧ k.postponed < 8 then s.modDrch ch (fun k => { k with postponed := k.postponed + 1 })
    else issueRefresh ch s)

/-- R562: ZQ calibration of a rank. -/
def zqRun (ch rank : Nat) (s : State) : State :=
  (s.modDrch ch (fun k => { k with zqTemp := modAt k.zqTemp rank (fun _ => k.mr4.getD rank 0) })).send (.zqCal ch rank)

/-- DRAM_MR4_POLL (R562 to R564). -/
def execDramMr4Poll (ch : Fin 32) (rank : Fin 2) (mult temp : Nat) (hot : Bool) (s : State) : Res :=
  let k := s.drch ch
  if k.st ≠ 1 ∧ k.st ≠ 2 then .next s
  else
    let was := k.hot.getD rank false
    let m := if hot then 4 else if mult = 1 ∨ mult = 2 ∨ mult = 4 then mult else k.mult.getD rank 1
    let s := s.modDrch ch (fun k => { k with
      mult := modAt k.mult rank (fun _ => m), hot := modAt k.hot rank (fun _ => hot), mr4 := modAt k.mr4 rank (fun _ => temp) })
    let s := if hot && !was then raiseWith 992 ch rank s else s
    let z := k.zqTemp.getD rank 0
    .next (if z + 2 ≤ temp ∨ temp + 2 ≤ z then zqRun ch rank s else s)

/-- ZQ_CALIBRATION_TIMER (R562). -/
def execZqCalibrationTimer (ch : Fin 32) (rank : Fin 2) (s : State) : Res :=
  .next (if (s.drch ch).st = 1 then zqRun ch rank s else s)

/-- SELF_REFRESH_IDLE (R563, R565): an all-bank refresh, number 16, on entry. -/
def execSelfRefreshIdle (ch : Fin 32) (s : State) : Res :=
  let k := s.drch ch
  .next (if k.st = 1 ∧ k.srIdle ≠ 0 then
      (s.modDrch ch (fun k => { k with st := 2, postponed := 0 })).send (.refresh ch 16)
    else s)

/-- R565: the channel leaves self-refresh at a request. -/
def selfExit (ch : Nat) (s : State) : State :=
  if (s.drch ch).st = 2 then s.modDrch ch (fun k => { k with st := 1, srxWin := k.srxWin + 1 }) else s

/-- ACTIVATION_TABLE_CLEAR (R566). -/
def execActivationTableClear (ch : Fin 32) (rank : Fin 2) (s : State) : Res :=
  .next (s.modDrch ch (fun k => { k with acts := k.acts.filter (fun e => e.1 / 8 != rank.val) }))

/-- Data units of a channel (R554). -/
def chanUnits : Nat := 14680064

/-- DRAM_PATROL_READ (R559): the next unit is read; its words come back with DRAM_READ_COMPLETE. -/
def execDramPatrolRead (ch : Fin 32) (s : State) : Res :=
  let k := s.drch ch
  .next (if k.st = 1 ∨ k.st = 2 then
      (selfExit ch s).modDrch ch (fun k => { k with patrol := (k.patrol + 1) % chanUnits })
    else s)

/-- DRAM_CE_WINDOW (R558, R568, R576): the second ends. -/
def execDramCeWindow (ch : Fin 32) (s : State) : Res :=
  .next (s.modDrch ch (fun k => { k with
    ceWin := 0, ceRaised := false, nref := Nat.min 65535 k.nrefWin, nrefWin := 0, srx := Nat.min 255 k.srxWin, srxWin := 0 }))

/-! Row activation (R566 to R568). -/

/-- R566: count an activation: the row's entry, a free entry, or in place of the lowest count. -/
def actCount (t : List (Nat × Nat)) (row : Nat) : List (Nat × Nat) × Nat :=
  match lookupNat row t with
  | some n => (t.map (fun e => if e.1 = row then (row, n + 1) else e), n + 1)
  | none =>
    if t.length < 16 then (t ++ [(row, 1)], 1)
    else
      let low := listMin (match t with | e :: _ => e.2 | [] => 0) (t.map (·.2))
      match t.find? (fun e => e.2 == low) with
      | some v => (t.map (fun e => if e = v then (row, low + 1) else e), low + 1)
      | none => (t, 0)

/-- Rows within a radius of a row, on both sides. -/
def neighbours (row radius : Nat) : Nat :=
  ((List.range radius).filter (fun i => decide (i + 1 ≤ row))).length
    + ((List.range radius).filter (fun i => decide (row + i + 1 < 131072))).length

/-- R566 to R568: a row is activated. -/
def activate (p : DramAddr) (s : State) : State :=
  let key := p.rank * 8 + p.bank
  let (t, n) := actCount (tabGet [] (s.drch p.ch).acts key) p.row
  let th := s.dram.actThresh
  let hit := decide (n ≥ th)
  let t := if hit then t.map (fun e => if e.1 = p.row then (e.1, e.2 - th) else e) else t
  let s := s.modDrch p.ch (fun k => { k with acts := tabSet [] k.acts key t })
  if !hit then s
  else
    let old := (s.drch p.ch).nrefWin
    let new := old + neighbours p.row s.dram.rhRadius
    let s := (s.modDrch p.ch (fun k => { k with nrefWin := new })).send (.neighbourRef p.ch p.rank p.bank p.row s.dram.rhRadius)
    if old ≤ s.dram.rhEvent ∧ s.dram.rhEvent < new then raiseWith (672 + 2 * p.ch + 1) p.ch new s else s

/-! Corrected and uncorrectable words. -/

/-- R569, R571, R580: retire a row; it joins the repair list, and a channel of more than 64 is left out from the next
priming. -/
def retireRow (p : DramAddr) (s : State) : State :=
  let r := (p.rank, p.bank, p.row)
  if (s.drch p.ch).retired.contains r then s
  else
    let s := s.modDrch p.ch (fun k => { k with
      retired := k.retired ++ [r], badNext := k.badNext || decide (k.retired.length ≥ 64)
      ceDays := k.ceDays.filter (fun e => e.1 != r) })
    if s.dram.repairs.length < 1024 then
      flashQueue 0 { erase := false, sector := 128, left := 1, purpose := .config 2 }
        (s.modDram (fun d => { d with repairs := d.repairs ++ [(p.ch, r)] }))
    else s

/-- R557, R558, R569: a corrected word. -/
def wordCorrected (p : DramAddr) (s : State) : State :=
  let s := s.modDrch p.ch (fun k => { k with ceWin := sat16 k.ceWin })
  let k := s.drch p.ch
  let s := if k.ceWin ≥ k.ceThresh ∧ !k.ceRaised then
      raiseWith (672 + 2 * p.ch + 1) p.ch k.ceWin (s.modDrch p.ch (fun k => { k with ceRaised := true }))
    else s
  let r := (p.rank, p.bank, p.row)
  let days := match k.ceDays.find? (fun e => e.1 == r) with | some e => e.2 | none => []
  let days := insNat days s.prime.bootcnt.toNat
  if days.length ≥ 3 then retireRow p s
  else s.modDrch p.ch (fun k => { k with ceDays := k.ceDays.filter (fun e => e.1 != r) ++ [(r, days)] })

/-- R54, R574: poison the lines of an overflow entry, their tile in the drain journal. -/
def drainPoison (ns cw l : Nat) (s : State) : State :=
  let s := repairOv ns (256 * cw) l (List.replicate 256 0) 0xF s
  match s.decodeOff ns (256 * cw), s.tileIdx ns (256 * cw) with
  | some p, some t => writeTiles p.g [t] s
  | _, _ => s

/-- R572, R574: an uncorrectable word of dirty overflow: line l, or all four for a header word. -/
def ovUncorrectable (e : OvEntry) (l : Nat) (s : State) : State :=
  if s.prime.drain.isSome then drainPoison e.ns e.cw l s
  else if s.twin.role = .active ∨ s.twin.role = .standby then sendRepair (true, l) e.ns (256 * e.cw) s
  else repairOv e.ns (256 * e.cw) l (List.replicate 256 0) 0xF s

/-- A clean copy is discarded (R572). -/
def dropCopy (p : PoolPage) (cw : Nat) (s : State) : State :=
  s.modSump (fun u => { u with pages := (u.pages.map (fun x =>
    if x = p then { x with cws := tabDel x.cws cw } else x)).filter (fun x => !x.cws.isEmpty) })

/-- A member of a list by a free value. -/
def pick {α : Type} (l : List α) (v : Nat) : Option α := l[v % l.length]?

/-- R572: an uncorrectable word of a page of the read cache or of prefetch. -/
def cleanUncorrectable (client v : Nat) (s : State) : State :=
  let l := (s.sump.pages.filter (fun p => p.client == client)).flatMap (fun p => p.cws.map (fun c => (p, c.1)))
  match pick l v with
  | none => s
  | some (p, cw) =>
    let s := dropCopy p cw s
    if client = 2 then schedSlip p.sched p.ns (256 * cw) 256 s else s

/-- R34, R572: an uncorrectable word of connection state: a record is read from its other copy; a reassembly entry drops
its message. -/
def connUncorrectable (v : Nat) (s : State) : State :=
  let l := s.xport.conns.flatMap (fun e => (e.2.msgs.filter (fun m => m.st == .incomplete)).map (fun m => (e.1, m)))
  match pick (none :: l.map some) v with
  | some (some (c, m)) =>
    if s.serving then dropEvent m.port (dropAndRelease c (nakDrop c m.id 5 0 0 0 0 m.psn) s) else s
  | _ => s

/-- R468, R476, R572: an uncorrectable word of the keys client: a wrapped key, or a saved context. -/
def keysUncorrectable (v : Nat) (s : State) : State :=
  let l : List (KeyTag ⊕ Saved) := s.cipher.wrapped.map Sum.inl ++ s.cipher.contexts.map Sum.inr
  match pick l v with
  | some (.inl (.conn c _)) => connError c s
  | some (.inl (.ns _)) | none => s
  | some (.inr x) => failContext x (s.modCipher (fun c => { c with contexts := c.contexts.erase x }))

/-- R572: an uncorrectable word of metadata: read again from another copy, rebuilt, or a cause to relinquish. -/
def metaUncorrectable (v : Nat) (s : State) : State := if v % 3 = 2 then relinquishCause s else s

/-- Words of the resync bitmap (R224). -/
def bitmapWords : Nat := 29818880

/-- R572: all 64 bits of a word of the resync bitmap are set. -/
def bitmapUncorrectable (v : Nat) (s : State) : State :=
  let w := v % bitmapWords
  s.modTwin (fun t => { t with bitmap := (List.range 64).foldl (fun l i => insNat l (64 * w + i)) t.bitmap })

/-- R572: the outcome by the pool client that owns the page. The pages' places are not given, so the client and the
entry that the word belongs to are free values. -/
def clientOutcome (client v : Nat) (s : State) : State :=
  match client with
  | 0 => match pick s.sump.overflow (v / 5) with
    | some e => ovUncorrectable e (v % 5) s
    | none => s
  | 1 | 2 => cleanUncorrectable client v s
  | 3 => connUncorrectable v s
  | 4 => keysUncorrectable v s
  | 5 => metaUncorrectable v s
  | _ => bitmapUncorrectable v s

/-- R558, R569, R572, R576: an uncorrectable word. -/
def wordUncorrectable (p : DramAddr) (addr : Nat) (s : State) : State :=
  let (c, s) := s.freeVal
  let (v, s) := s.freeVal
  let client := c.toNat % 7
  let k := s.drch p.ch
  let quiet := match k.ueAt with | some t => decide (s.now < t + 1000000) | none => false
  let s := s.modDrch p.ch (fun k => { k with
    ueTotal := sat16 k.ueTotal, errLoc := (p.row, p.bank, p.rank, p.slot, client), ueAt := if quiet then k.ueAt else some s.now })
  let s := if quiet then s else raiseWith (672 + 2 * p.ch) p.ch addr s
  let s := record 0x0003 (672 + 2 * p.ch) false (leBytes 8 addr ++ leBytes 8 client) s
  clientOutcome client v.toNat (retireRow p s)

/-- R557, R558: a word at a pool address and its check byte as they were read. A corrected word is written back. -/
def wordRead (addr : Nat) (w : BitVec 64 × BitVec 8) (s : State) : State :=
  match dramMap s.dram.usable addr, checkWord w.1 w.2 with
  | none, _ | _, .clean => s
  | some p, .corrected d => wordCorrected p (s.send (.wordBack addr d (storedCheck d)))
  | some p, .uncorrectable => settle (wordUncorrectable p addr s)

/-- DRAM_READ_COMPLETE (R553 to R557, R565 to R574): a unit's read returns with its words from an address on. Whether it
activated its row depends on the row open before, which is a free value. -/
def execDramReadComplete (addr : Nat) (words : List (BitVec 64 × BitVec 8)) (s : State) : Res :=
  match dramMap s.dram.usable addr with
  | none => .next s
  | some p =>
    let s := (selfExit p.ch s).modDrch p.ch (fun k => { k with lastReq := s.now })
    let (f, s) := s.freeVal
    let s := if f.getLsbD 0 then activate p s else s
    .next (forEach words.zipIdx (fun w s => wordRead (addr / 8 * 8 + 8 * w.2) w.1 s) s)

end Sys2Proof.Machine
end

