-- ==== Sys2Proof/Machine/PrimeRows.lean ====
section
/-! DEFINITION. Commands of priming and of the recovery of groups (R525 to R550, R560 to R562, R570, R592 to R598, R613 to
R617, R622, R624, R630, R631). -/

namespace Sys2Proof.Machine

open Sys2Proof

/-! Step 2: fuses. -/

/-- R624: the state of a number of blown fuses. -/
def lcOf : Nat → LcState
  | 0 => .manufacture | 1 => .provision | 2 => .deployed | 3 => .ret | _ => .endOfLife

/-- Nominal voltage and windlass step of rails 0 to 7 (R487). -/
def fixedRail : Nat → Nat × Nat
  | 0 => (3300, 1) | 1 => (1800, 2) | 2 => (1800, 2) | 3 => (750, 3) | 4 => (900, 4) | 5 => (1200, 5) | 6 => (1100, 5)
  | _ => (600, 6)

/-- Nominal voltage of a drawer rail (R487). -/
def drawerNom : Nat → Nat
  | 0 => 3300 | 1 => 1200 | _ => 12000

/-- R487, R522: a rail as fuses and tables give it; what its supply does stays. -/
def Rail.configured (t : Test) (i : Nat) (r : Rail) : Rail :=
  let used := decide (i < 8) || decide (i ≥ 16) || t.fused 1 i 0 == 1
  let (nom, step) := if i < 8 then fixedRail i else if i < 16 then (t.fused 3 i 0, t.fused 2 i 0) else (drawerNom ((i - 16) % 4), 12)
  { r with
    nomMv := if used then nom else 0, step := if used then step else 0, dstep := if i < 16 then 0 else (i - 16) % 4 + 1
    st := if used then (if r.st = .unused then .off else r.st) else .unused
    pgUsed := t.fused 4 i 1 == 1, tOn := t.fused 5 i 20, tOff := t.fused 6 i 20, tDis := t.fused 7 i 20
    pmbPort := match t.railRec.find? (fun e => e.1 == 8 && e.2.1 == i) with | some e => e.2.2 + 1 | none => 0
    pmbAddr := t.fused 9 i 0, pmbPage := t.fused 10 i 0 }

/-- R522: the device fields of the rail fuse record. VALUE is in mF, mΩ (kept in µΩ), mV and ms (R627). -/
def powerConfigured (t : Test) (p : Power) : Power :=
  { p with
    wlTimeout := t.fused 11 0xFF 200, vinFail := t.fused 12 0xFF 40000, vChg := t.fused 13 0xFF 48000, vMin := t.fused 14 0xFF 24000
    cNom := t.fused 15 0xFF 10000, esrMax := 1000 * t.fused 16 0xFF 50, rTest := 1000 * t.fused 17 0xFF 1200, tTest := t.fused 18 0xFF 100 }

/-- R522, R592, R624, R630: priming step 2 reads the fuses and the erase logs. -/
def readFuses (s : State) : State :=
  let s := s.modTest (fun t => { t with
    lc := lcOf t.lcFuses, jtag := t.lcFuses == 0, kekGen := if t.lcFuses ≥ 3 ∧ t.kekGen = 0 then 1 else t.kekGen })
  let s := forEach (List.range 48) (fun i s => s.modRail i (Rail.configured s.test i)) s
  markHalfErased (s.modPower (powerConfigured s.test))

/-- STANDBY_POWER_GOOD (R527 step 1). -/
def execStandbyPowerGood (s : State) : Res :=
  let s := s.modPrime (fun p => { p with standby := true })
  .next (if s.power.wl = 0 ∧ s.prime.step = 0 ∧ s.prime.primeAt.isNone then s.modPrime (fun p => { p with step := 1 }) else s)

/-- CRYSTAL_STABLE (R23, R525, R527): with PWR_EN high a cold priming begins at step 2; otherwise an on request begins
it (R503). -/
def execCrystalStable (_r : PrimeReport) (s : State) : Res :=
  .next (if s.prime.step ≠ 1 then s
    else if s.power.pwrEn then readFuses (coldStart s)
    else s.modPrime (fun p => { p with step := 0 }))

/-! Marking units unusable (R616). -/

/-- R636: the critical record of a repair or marking: memory class or kind, and unit (log entry 12, DESIGN CHOICE). -/
def markRecord (kind unit : Nat) (s : State) : State := record 5 0xFFFF true (leBytes 4 kind ++ leBytes 4 unit) s

/-- R513: the cistern has failed. -/
def cisternFailed (s : State) : State := powerLog 7 (s.modPower (fun p => { p with cisSt := 4 }))

/-- R616, R622: a unit that fails the analog subset. -/
def analogMark (f : AnalogFail) (s : State) : State :=
  match f with
  | .mediaLane c => markRecord 0x10 c (missedBound c (s.modTest (fun t => { t with badChan := insNat t.badChan c })))
  | .netLane n => markRecord 0x11 (n / 4) (s.modTest (fun t => { t with badNet := insNat t.badNet (n / 4) }))
  | .twinLane n =>
    markRecord 0x12 (n / 4) ((s.modTest (fun t => { t with badTwin := insNat t.badTwin (n / 4) })).modTport (n / 4) (fun p => { p with st := 3 }))
  | .hostLane _ => markRecord 0x13 0 (s.modTest (fun t => { t with badHost := true }))
  | .railConverter => s.modTest (fun t => { t with railConvBad := true })
  | .cisternConverter | .cisternPath => cisternFailed s
  | .dramPhy n => markRecord 0x14 n (s.modDrch n (fun c => { c with st := 3 }))
  | .window _ => s

/-- ST_ANALOG bit of a failure (R642). -/
def analogBit : AnalogFail → BitVec 6
  | .mediaLane _ | .netLane _ | .twinLane _ | .hostLane _ => 2
  | .railConverter | .cisternConverter => 4
  | .dramPhy _ => 8
  | .window _ => 16
  | .cisternPath => 32

/-- R622: the priming subset has run; event 980 where it found a failure. -/
def analogDone (l : List AnalogFail) (s : State) : State :=
  let s := s.modTest (fun t => { t with
    analog := l.foldl (fun m f => m ||| analogBit f) 1, badNet := [], badTwin := [], badHost := false, badChan := [], railConvBad := false })
  let s := forEach l analogMark s
  if l.isEmpty then s else raise 980 s

/-- R598: every unit that the calibration row calibrates. -/
def rowUnits : List AnalogFail :=
  (List.range 144).map .mediaLane ++ (List.range 32).map .netLane ++ (List.range 16).map .twinLane ++ [.hostLane 0, .railConverter, .cisternConverter]
    ++ (List.range 32).map .dramPhy

/-- R457, R459, R613: step 9 ends: a cipher engine goes into service. -/
def enginesUp (s : State) : State :=
  forEach (List.range 8) (fun e s => s.modEngine e (fun k => { k with inServ := true, pipes := 0xFF, carrier := some e, handed := false })) s

/-- R616: an SRAM block marked unusable. -/
def sramMark (b : SramBlock) (s : State) : State :=
  match b with
  | .sump n => markRecord 0 n (s.modSump (fun u => { u with badBanks := insNat u.badBanks n }))
  | .core n => markRecord 1 n (s.modTest (fun t => { t with badCores := insNat t.badCores n }))
  | .pad n => markRecord 3 n (s.modTest (fun t => { t with badPads := insNat t.badPads n }))
  | .keyStore e => engineOut e (markRecord 6 e s)

/-- R615: blocks whose marking was due at this priming. -/
def pendingMarks (s : State) : State :=
  let bs := s.test.pendBanks
  let cs := s.test.pendCores
  let ps := s.test.pendPads
  let s := s.modTest (fun t => { t with pendBanks := [], pendCores := [], pendPads := [] })
  let s := forEach ps (fun n s => sramMark (.pad n) s) s
  forEach cs (fun n s => sramMark (.core n) s) (forEach bs (fun n s => sramMark (.sump n) s) s)

/-- No core is left (R617). -/
def State.noCore (s : State) : Bool := (List.range 4).all s.test.badCores.contains

/-! Step 5: the boot ROM. -/

/-- R596: the array is erased: images, device configuration, power log and every record. -/
def massErase (s : State) : State :=
  { s with
    flash := { level2 := s.flash.level2, secMin := s.flash.secMin }
    dura := {}
    sump := { badBanks := s.sump.badBanks, nextId := s.sump.nextId }
    chans := tabMap {} (fun _ _ => {}) s.chans
    groups := tabMap {} (fun _ k => { k with rebuildShare := 20, autoRebuild := true }) s.groups
    drawers := [], nports := []
    twin := { num := s.twin.num, journalTiles := s.twin.journalTiles }
    xport := {}
    host := { perst := s.host.perst }
    ctl := { s.ctl with lease := 10, smbAddr := 0x3A, nss := [] }
    dram := {}
    test := { s.test with soft := [], ttPass := 60, critical := [], critPtr := 0 }
    power := { s.power with plog := [], pseq := 0 }
    prime := { s.prime with roleRec := none, roleSeq := 0 }
    ev := { s.ev with routes := [] }
    plat := { s.plat with scrubDays := 7, scrubShare := 2, parkScrubDays := 30, parkScrubRate := 4, rowLease := 20 } }

/-- R593 to R596: what the boot ROM does to the array first. -/
def bootArray (s : State) : State :=
  let lvl := s.flash.level
  let s := if lvl = 1 ∧ s.test.lc = .ret then massErase s else s
  let s := reEraseAll s
  if lvl = 0 ∧ (s.test.lc = .provision ∨ s.test.lc = .deployed ∨ s.test.lc = .endOfLife) then
    flashMarks 0 239 0 .protect [0] (s.modFlash (fun f => { f with prot1 := true }))
  else s

/-- R529: an image passes. Whether one with a sector in an undefined state does is a free value. -/
def State.imagePasses (s : State) (v : BitVec 64) (i : Nat) : Bool :=
  if s.flash.slotUndef i then v.getLsbD i else s.flash.imageOk i && decide (s.flash.secver i ≥ s.flash.secMin)

/-- R529: the image that boots: the one named, else the other. -/
def State.bootImage (s : State) (v : BitVec 64) : Option Nat :=
  let n := s.flash.named
  if s.imagePasses v n then some n else if s.imagePasses v (1 - n) then some (1 - n) else none

/-- R530: the boot ROM stays at step 5. -/
def bootFailed (s : State) : State := s.modPrime (fun p => { p with step := 5, bootFail := true })

/-- R521: the boot counter of this priming. -/
def State.nextBoot (s : State) : BitVec 32 :=
  BitVec.ofNat 32 (listMax s.prime.bootAon.toNat (s.plogValid.map (·.bootcnt)) + 1)

/-- R521, R527, R529, R530, R599, R617, R635: step 5. -/
def bootStep (s : State) : State :=
  let (v, s) := (bootArray s).freeVal
  match (if s.noCore then none else s.bootImage v) with
  | none => bootFailed s
  | some i =>
    let b := s.nextBoot
    let fell := i ≠ s.flash.named
    let s := s.modPrime (fun p => { p with
      bootcnt := b, bootAon := b, image := i, bootFail := false, loaded := s.flash.segments i, entry := s.flash.entries i })
    let s := s.modTest (fun t => { t with recRun := true, seq := 0 })
    let s := pendingMarks (if fell then raiseWith 979 i 0 s else s)
    if s.noCore then bootFailed s else s.modPrime (fun p => { p with step := 6 })

/-! Steps 7 to 12. -/

/-- R473, R598, R631: step 7. -/
def calStep (ok : Bool) (s : State) : State :=
  let s := if ok then s else
    forEach rowUnits analogMark (s.modTest (fun t => { t with analog := rowUnits.foldl (fun m f => m ||| analogBit f) t.analog }))
  let s := if s.test.lc = .endOfLife then s else s.modCipher (fun c => { c with kek := some s.deriveKek })
  s.modPrime (fun p => { p with step := 8 })

/-- Seven 32-bit registers of a calibration record (R560, R598). -/
def delayRegs (v : BitVec 224) : List (BitVec 32) := (List.range 7).map (fun i => v.extractLsb' (32 * i) 32)

/-- R570: a row of the repair list: a post-package repair where its bank has a resource left, which the manual leaves to
the part (log entry 4, DESIGN CHOICE). -/
def repairRow (e : Nat × Nat × Nat × Nat) (s : State) : State :=
  let (v, s) := s.freeVal
  if v.getLsbD 0 then s.modDram (fun d => { d with repairs := d.repairs.filter (fun x => x != e) })
  else s.modDrch e.1 (fun c => { c with retired := if c.retired.contains e.2 then c.retired else c.retired ++ [e.2] })

/-- R553, R560 to R562, R571: step 8: one channel. -/
def dramUp (bad : List Nat) (n : Nat) (s : State) : State :=
  let c := s.drch n
  if c.st = 3 ∨ c.badNext ∨ bad.contains n then
    markRecord 0x14 n (s.modDrch n (fun c => { c with st := 3, badNext := false }))
  else
    let s := s.modDrch n (fun c => { c with st := 1, delays := delayRegs (Config.calDram n), lastReq := s.now })
    let s := s.modDram (fun d => { d with usable := d.usable ++ [n] })
    (s.send (.zqCal n 0)).send (.zqCal n 1)

/-- R527 step 8. -/
def dramStep (bad : List Nat) (s : State) : State :=
  let s := forEach (List.range 32) (dramUp bad) (s.modDram (fun d => { d with usable := [] }))
  let s := forEach s.dram.repairs repairRow s
  s.modPrime (fun p => { p with step := 9 })

/-- R613, R616, R617: step 9. -/
def sramStep (bad : List SramBlock) (s : State) : State :=
  let due := s.test.pendKeys
  let s := s.modTest (fun t => { t with pendKeys := [] })
  let s := forEach (bad ++ due.map SramBlock.keyStore) sramMark (enginesUp (s.modSump (fun u => { u with inService := true })))
  if s.noCore then bootFailed s
  else
    let s := s.modPrime (fun p => { p with step := 10 })
    if s.test.lc = .endOfLife then lcReached s else s

/-- R527 step 10, R534, R541: the flash records are read. A record not read is absent; END stops here (R631). -/
def recordStep (ok : Bool) (s : State) : State :=
  if s.test.lc = .endOfLife then s
  else
    let r := if ok then s.prime.roleRec else none
    let s := s.modTwin (fun t => { t with
      epoch := (r.map (·.pepoch)).getD 0, applied := (r.map (·.lsn)).getD 0, sent := (r.map (·.lsn)).getD 0
      undrained := if ok then t.undrained else 0 })
    let s := if ok then s else forEach (List.range 8) (fun d s => s.modDrw d (fun k => { k with recParked := false, parkRec := none })) s
    s.modPrime (fun p => { p with
      roleRead := r, step := 11, wakes := (List.range 8).filter (fun d => !(s.drw d).recParked) })

/-- R617: nothing is left to serve from, or no twin port to meet the peer by. -/
def State.mustFence (s : State) : Bool :=
  (List.range 8).all s.sump.badBanks.contains || (List.range 4).all s.test.badTwin.contains

/-- R541, R542: step 12 begins: the witness connection is opened and HELLO is sent. R617 ends it at once in FENCED. -/
def handshakeStep (s : State) : State :=
  let s := s.modPrime (fun p => { p with step := 12 })
  let s := s.modTwin (fun t => { t with hs := { running := true, since := s.now } })
  if s.mustFence then roleDecided (enterFenced 0 s)
  else sendHandshake (openWitness s)

/-- Every drawer's wake of step 11 is over (R527, R534). -/
def State.wakesOver (s : State) : Bool :=
  s.prime.wakes.isEmpty && (List.range 8).all (fun d =>
    let k := s.drw d
    k.st == .awake || k.st == .dfault || (k.st == .parked && k.recParked))

/-- R527 step 14: the line is stepped to state 13; a controller without the line is at RUN (log entry 71, DEDUCED). -/
def lineToRun (s : State) : State :=
  let s := s.modPrime (fun p => { p with step := 14 })
  if s.power.wl = 12 then pullLine 13 true s
  else if s.power.wl = 15 then runReached s
  else s

/-- The step that follows one that is complete (R527). Steps 1, 3, 4 and 14 end by the crystal, the cascade and the
line; step 12 by the role. -/
def stepDone (r : PrimeReport) (s : State) : State :=
  match s.prime.step with
  | 2 =>
    let s := readFuses s
    if s.prime.warm then s.modPrime (fun p => { p with step := 5 })
    else ((s.modPower (fun p => { p with cascading := true })).modPrime (fun p => { p with step := 3 })).send (.seqCo false)
  | 5 => if s.power.wl = 12 ∨ s.power.wl = 15 then (if s.prime.bootFail then s else bootStep s) else s
  | 6 => (analogDone r.analog s).modPrime (fun p => { p with step := 7 })
  | 7 => calStep r.calOk s
  | 8 => dramStep r.dramBad s
  | 9 => sramStep r.sramBad s
  | 10 => recordStep r.recordsOk s
  | 11 => if s.wakesOver then handshakeStep s else s
  | 13 => lineToRun s
  | _ => s

/-- PRIMING_STEP_COMPLETE (R527). -/
def execPrimingStepComplete (r : PrimeReport) (s : State) : Res := .next (settle (stepDone r s))

/-- R534: a step passes its bound. -/
def stepLate (r : PrimeReport) (s : State) : State :=
  match s.prime.step with
  | 3 => cascadeEnd 31 s
  | 4 | 14 => railsChanged (windFault s)
  | 5 => bootFailed s
  | 7 => calStep false s
  | 6 | 8 | 9 => stepDone r s
  | 10 => recordStep false s
  | 13 => lineToRun (s.modTest (fun t => { t with badHost := true }))
  | _ => s

/-- PRIMING_STEP_TIMEOUT (R534). -/
def execPrimingStepTimeout (r : PrimeReport) (s : State) : Res := .next (settle (stepLate r s))

/-! Step 12. -/

/-- HS_HELLO_TIMER (R542): every 1 ms in step 12. -/
def execHsHelloTimer (s : State) : Res :=
  .next (if s.twin.hs.running ∧ !s.twin.hs.hold then sendHandshake s else s)

/-- HS_DECIDE_RETRY_TIMER (R543): 10 ms after a disagreement HELLO goes out again. -/
def execHsDecideRetryTimer (s : State) : Res :=
  .next (if s.twin.hs.running ∧ s.twin.hs.hold then
      sendHandshake (s.modTwin (fun t => { t with hs := { t.hs with hold := false } }))
    else s)

/-- HS_WAIT_EXPIRY (R548 to R550): neither HANDSHAKE nor HEARTBEAT has come. -/
def execHsWaitExpiry (s : State) : Res :=
  let h := s.twin.hs
  .next (if !h.running ∨ h.peer.isSome ∨ h.decide.isSome ∨ h.hold ∨ s.prime.waitPeer then s
    else if s.stopCode ≥ 2 then s.modPrime (fun p => { p with waitPeer := true })
    else if s.twin.witness.isSome then askWit 1 s
    else settle (primeStandby s.twin.epoch s))

/-- WAITPEER_RENEW_TIMER (R550). -/
def execWaitpeerRenewTimer (s : State) : Res :=
  .next (if s.twin.hs.running ∧ s.prime.waitPeer then askWit 1 s else s)

/-! Recovery (R536, R540). -/

/-- REGION_CLEAR_TIMER (R536): regions quiet for 1 s lose their bits in one further REGION record. -/
def execRegionClearTimer (g : Fin 16) (s : State) : Res :=
  let n := s.nv g
  let busy := fun (r : Nat) => s.ops.any (fun o => o.grp == g.val && o.phase == .write && regionOf o.dst == r)
  let quiet := n.regions.filter (fun r => !busy r && decide (s.now ≥ tabGet 0 n.regionAt r + 1000000000))
  .next (if quiet.isEmpty ∨ s.now < n.regionRec + 100000000 then s
    else settle (regionRecord g quiet s))

/-- R540: suspect rows of a group, lowest first, on which no operation works. -/
def State.nextSuspect (s : State) (g : Nat) : Option Nat :=
  let l := (s.nv g).suspects.filter (fun r => !s.ops.any (fun o => o.grp == g && o.grow == r))
  match l with
  | [] => none
  | r :: t => some (listMin r t)

/-- SUSPECT_ROW_SETTLE (R539, R540): once the role is decided, the lowest suspect row of the group is settled. -/
def execSuspectRowSettle (g : Fin 16) (s : State) : Res :=
  .next (if s.twin.role = .priming ∨ !s.live g ∨ s.ops.any (fun o => o.grp == g.val && o.purpose == .settle) then s
    else match s.nextSuspect g with
      | some r => settle (openSettle g r s)
      | none => s)

end Sys2Proof.Machine
end

