-- ==== Sys2Proof/Machine/HostRows.lean ====
section
/-! DEFINITION. Commands of the host port: training, power state, HDM decoders, CXL.mem requests, GPF, resets and the
CXL mailbox (R385 to R416). -/

namespace Sys2Proof.Machine

open Sys2Proof

/-- HOST_LINK_TRAINED (R385 to R388): MAX_RATE caps the rate, and a MAX_RATE set since takes effect now. -/
def execHostLinkTrained (rate width : Nat) (flitMode cxl : Bool) (s : State) : Res :=
  let h := s.host
  let down := h.perst || s.test.badHost || h.drain != .none || s.prime.primeAt.isNone
    || (decide (0 < s.prime.step) && decide (s.prime.step < 13))
  .next (if down || rate == 0 || decide (rate > 6) || !([1, 2, 4, 8, 16].contains width) then s
    else
      let r := Nat.min rate h.maxRateNext
      settle (s.modHost (fun h => { h with
        rate := r, width, maxRate := h.maxRateNext, flit := flitMode || r == 6, cxl, l1 := false
        memEn := cxl && decide (r ≥ 5) && decide (width ≥ 4) })))

/-- R647: vectors that pend and are masked no more send their messages. -/
def sendPending (vs : List Nat) (s : State) : State :=
  forEach vs (fun v s =>
    if s.ev.pba.getLsbD v ∧ !s.vecMasked v then
      sendVector v (s.modEv (fun e => { e with pba := e.pba &&& ~~~(1#2048 <<< v) }))
    else s) s

/-- POWERSTATE_WRITE (R393 to R395): the link may enter L1 in D3hot alone (log entry 75, DEDUCED). -/
def execPowerstateWrite (d3 : Bool) (s : State) : Res :=
  .next (if d3 then
      if s.host.hdm.any (·.committed) then s else s.modHost (fun h => { h with d3 := true, l1 := true })
    else
      let was := s.host.d3
      let s := s.modHost (fun h => { h with d3 := false, l1 := false })
      if was then sendPending (setBits 2048 s.ev.pba) s else s)

/-! HDM decoders. -/

/-- R400: the decoder may be committed with this programming. -/
def State.hdmOk (s : State) (k base size ways : Nat) : Bool :=
  let n := (s.hdm k).nsid
  n != 0 && size == s.nsSize n && base % 268435456 == 0 && ways == 0 && (List.range k).all (fun j => (s.hdm j).committed)

/-- R392: the CDAT holds an entry for each committed decoder. -/
def rebuildCdat (s : State) : State :=
  s.modHost (fun h => { h with cdat := (List.range 4).filter (fun k => (h.hdm.getD k {}).committed) })

/-- HDM_DECODER_COMMIT (R400): an attempt on a committed decoder is judged like any other (log entry 76, DESIGN CHOICE). PF0 in D3hot
answers only configuration requests (R394). -/
def execHdmDecoderCommit (k : Fin 4) (base size ways : Nat) (s : State) : Res :=
  let ok := s.hdmOk k base size ways
  .next (if s.host.d3 ∨ s.hostDraining then s
    else rebuildCdat (s.modHost (fun h => { h with
      hdm := modAt h.hdm k (fun d => { d with committed := ok, err := !ok, base, size }) })))

/-- R404: the namespace and offset of a line of host physical address space. -/
def State.hpaLine (s : State) (hpa : Nat) : Option (Nat × Nat) :=
  let a := hpa / 64 * 64
  (s.host.hdm.find? (fun d => d.committed && decide (d.base ≤ a) && decide (a < d.base + d.size))).map (fun d => (d.nsid, a - d.base))

/-- What a request hits: none without a committed decoder or with Memory_Active 0 (R405). -/
def State.cxlHit (s : State) (hpa : Nat) : Option (Nat × Nat) := if s.memNow then s.hpaLine hpa else none

/-! CXL.mem requests (R404 to R408). A flit received after H1 began is discarded (R411). -/

/-- A request of CXL.mem: discarded in a host-port drain; else the link returns to L0 (R395). -/
def cxlRequest (f : State → State) (s : State) : Res :=
  .next (if s.hostDraining then s else settle (f (s.modHost (fun h => { h with l1 := false }))))

/-- R404, R405: serve a read that hits a decoder. -/
def cxlServe (tag : Nat) (a : Nat × Nat) (s : State) : State :=
  let (id, s) := s.fresh
  gatherRun { id, cxl := some tag, ns := a.1, off := a.2, len := 64 } s

/-- R405: MemRd and MemRdData. -/
def cxlRead (tag hpa : Nat) (s : State) : State :=
  match s.cxlHit hpa with
  | some a => cxlServe tag a s
  | none => cxlReadRefused tag s

/-- R405, R418: a request that leaves memory as it is. One answered under the last column counts in HP_REQ.REFUSED like any
other (log entry 144, DEDUCED). -/
def cxlNoop (tag hpa : Nat) (s : State) : State :=
  (if (s.cxlHit hpa).isNone then rasError (s.modHost (fun h => { h with refused := sat16 h.refused })) else s).send (.cxlCmp tag)

/-- R405: MemWr and MemWrPtl. -/
def cxlStore (tag hpa : Nat) (img : Img) (poison : Bool) (s : State) : State :=
  match s.cxlHit hpa with
  | some a =>
    let s := if poison then s.modHost (fun h => { h with poisonWr := sat16 h.poisonWr }) else s
    cxlWrite { tag, ns := a.1, off := a.2, img, poison } s
  | none => cxlWriteRefused tag s

/-- MEMRD (R404, R405). -/
def execMemRd (tag hpa : Nat) (s : State) : Res := cxlRequest (cxlRead tag hpa) s
/-- MEMRDDATA (R405). -/
def execMemRdData (tag hpa : Nat) (s : State) : Res := cxlRequest (cxlRead tag hpa) s
/-- MEMSPECRD (R405): one that hits is served as a MemRd, the other dropped. -/
def execMemSpecRd (tag hpa : Nat) (s : State) : Res :=
  cxlRequest (fun s => match s.cxlHit hpa with
    | some a => cxlServe tag a s
    | none => s) s
/-- MEMINV (R405). -/
def execMemInv (tag hpa : Nat) (s : State) : Res := cxlRequest (cxlNoop tag hpa) s
/-- MEMINVNT (R405). -/
def execMemInvNT (tag hpa : Nat) (s : State) : Res := cxlRequest (cxlNoop tag hpa) s
/-- MEMCLNEVCT (R405). -/
def execMemClnEvct (tag hpa : Nat) (s : State) : Res := cxlRequest (cxlNoop tag hpa) s
/-- MEMWR (R50, R405). -/
def execMemWr (tag hpa : Nat) (data : Line) (poison : Bool) (s : State) : Res :=
  cxlRequest (cxlStore tag hpa (imgOf data.toList) poison) s
/-- MEMWRPTL (R405). -/
def execMemWrPtl (tag hpa : Nat) (mask : BitVec 64) (data : Line) (poison : Bool) (s : State) : Res :=
  cxlRequest (cxlStore tag hpa (maskImg mask data.toList) poison) s

/-! GPF (R409, R410). -/

/-- GPF_PHASE2 (R409). -/
def execGpfPhase2 (s : State) : Res :=
  .next (settle (flushStart (s.modHost (fun h => { h with gpfs := sat16 h.gpfs, gpfWait := h.gpfWait ++ [{ since := s.now }] }))))

/-- GPF_TIMEOUT (R409, R410): the oldest request waiting is answered at its bound. -/
def execGpfTimeout (s : State) : Res :=
  .next (match s.host.gpfWait with
    | [] => s
    | _ :: t =>
      let s := s.modHost (fun h => { h with gpfWait := t, gpfFail := true, gpfLocal := false, events := h.events ++ [.gpfFail] })
      (record 0x0009 0 false (leBytes 8 s.lagBytes) s).send .gpfDone)

/-! Resets (R411 to R415). -/

/-- R411 H2: every write received is placed, whatever the lag; one that R58 or the sump has no room for waits. -/
def drainHeld (s : State) : State :=
  forEach s.dura.held (fun w s =>
    if s.memNow ∧ s.memRoom ∧ s.budgetFor w.ns w.off 64 then
      placeCxl w (s.modDura (fun d => { d with held := d.held.erase w }))
    else s) s

/-- R411, R418: the link is down. -/
def hostLinkDown (s : State) : State := s.modHost (fun h => { h with rate := 0, width := 0, flit := false, cxl := false, l1 := false })

/-- R411, R415: a host-port reset begins its drain. One that comes during a host-port drain, or a drain that a reset
waits for, is met by that reset. -/
def hostReset (s : State) : State :=
  let s := hostLinkDown s
  let inReset := match s.prime.drain with
    | some d => (match d.kind with | .reset _ => true | _ => false)
    | none => false
  if inReset then s.modPrime (fun p => { p with heldHost := true })
  else if s.hostDraining then s
  else drainHeld (s.modHost (fun h => { h with drain := .h3 s.now, drainAt := s.now }))

/-- PERST_ASSERT (R411, R412). -/
def execPerstAssert (s : State) : Res :=
  .next (if s.host.perst then s
    else
      let s := s.modHost (fun h => { h with perst := true, persts := sat8 h.persts })
      settle (if s.host.perstSys then startReset .perst (hostLinkDown s) else hostReset s))

/-- HOT_RESET (R411). -/
def execHotReset (s : State) : Res := .next (settle (hostReset (s.modHost (fun h => { h with hotRst := sat8 h.hotRst }))))

/-- DL_DOWN (R411). -/
def execDlDown (s : State) : Res := .next (settle (hostReset (s.modHost (fun h => { h with hotRst := sat8 h.hotRst }))))

/-- FLR (R413, R414). -/
def execFlr (s : State) : Res :=
  let s := s.modHost (fun h => { h with flrs := sat8 h.flrs, d3 := false, l1 := false })
  .next (emptyHostMbx (s.modEv (fun e => { e with table := [], pba := 0, funMask := false })))

/-- HOST_DRAIN_H3_TIMEOUT (R411). -/
def execHostDrainH3Timeout (s : State) : Res := .next (if s.hostDraining then settle (hostPortReset s) else s)

/-- PERST_DEASSERT (R411). -/
def execPerstDeassert (s : State) : Res :=
  .next (if !s.host.perst then s
    else
      let s := s.modHost (fun h => { h with perst := false })
      if s.hostDraining then s else hostTrainNow s)

/-- POISONED_TLP (R391). -/
def execPoisonedTlp (isWrite : Bool) (s : State) : Res :=
  let s := s.modHost (fun h => { h with aerPoisoned := true })
  .next (if isWrite then s else s.send .unsupported)

/-! Data objects and the CXL mailbox (R392). -/

/-- DPA base of a decoder (R396). -/
def State.dpaBase (s : State) (k : Nat) : Nat := (List.range k).foldl (fun n j => n + s.nsSize (s.hdm j).nsid) 0

/-- R401: capacity in multiples of 256 MiB. -/
def State.capacity (s : State) : Nat := s.dpaBase 4 / 268435456

/-- R392: a CDAT entry: decoder, DPA base and size, non-volatile; latencies in ns; bandwidths in GB/s. -/
def State.cdatEntry (s : State) (k : Nat) : List Nat :=
  [k, s.dpaBase k, s.nsSize (s.hdm k).nsid, 1, 2000, 250, 121, 106]

/-- DOE_REQUEST: discovery lists the two data objects, each as vendor × 2^16 + type; table access returns the CDAT. -/
def execDoeRequest (cdat : Bool) (s : State) : Res :=
  .next (if cdat then s.send (.cxlMbx 0x1E980002 true (s.host.cdat.flatMap s.cdatEntry))
    else s.send (.cxlMbx 0x00010000 true [0x00010000, 0x1E980002]))

/-- A command of the CXL mailbox; PF0 in D3hot answers none (R394). -/
def cxlCommand (f : State → State) (s : State) : Res := .next (if s.host.d3 then s else f s)

/-- Kind, namespace and offset of an event record. -/
def CxlEvent.values : CxlEvent → List Nat
  | .gpfFail => [1, 0, 0] | .raError => [2, 0, 0] | .poison n o => [3, n, o]

/-- GET_EVENT_RECORDS. -/
def execGetEventRecords (s : State) : Res :=
  cxlCommand (fun s => s.send (.cxlMbx 0x0100 true (s.host.events.flatMap CxlEvent.values))) s

/-- CLEAR_EVENT_RECORDS: the oldest `count` records go. -/
def execClearEventRecords (count : Nat) (s : State) : Res :=
  cxlCommand (fun s => (s.modHost (fun h => { h with events := h.events.drop count })).send (.cxlMbx 0x0101 true [])) s

/-- GET_FW_INFO: slots, slot running, slot of the next priming, then VERSION of each valid image; slot 1 is A, 2 is B. -/
def execGetFwInfo (s : State) : Res :=
  let ver := fun (i : Nat) => if s.flash.valid i then (s.flash.version i).map BitVec.toNat else []
  cxlCommand (fun s => s.send (.cxlMbx 0x0200 true ([2, s.prime.image + 1, s.flash.named + 1] ++ ver 0 ++ ver 1))) s

/-- GET_TIMESTAMP: the value set, grown by the time since; 0 where none was set. -/
def execGetTimestamp (s : State) : Res :=
  cxlCommand (fun s => s.send (.cxlMbx 0x0300 true
    [match s.host.cxlTimeAt with | none => 0 | some t => s.host.cxlTime + (s.now - t)])) s

/-- SET_TIMESTAMP: DEVTIME does not change. -/
def execSetTimestamp (value : Nat) (s : State) : Res :=
  cxlCommand (fun s => (s.modHost (fun h => { h with cxlTime := value, cxlTimeAt := some s.now })).send (.cxlMbx 0x0301 true [])) s

/-- Opcodes that the mailbox answers. -/
def cxlOpcodes : List Nat := [0x0100, 0x0101, 0x0200, 0x0300, 0x0301, 0x0400, 0x0401, 0x4000, 0x4100, 0x4200]

/-- GET_SUPPORTED_LOGS: the command effects log alone. -/
def execGetSupportedLogs (s : State) : Res :=
  cxlCommand (fun s => s.send (.cxlMbx 0x0400 true [1, cxlOpcodes.length])) s

/-- GET_LOG: the command effects log lists the commands answered; no other log exists. -/
def execGetLog (effects : Bool) (s : State) : Res :=
  cxlCommand (fun s => s.send (.cxlMbx 0x0401 effects (if effects then cxlOpcodes else []))) s

/-- IDENTIFY_MEMORY_DEVICE: volatile and persistent capacity (R401), LSA size. -/
def execIdentifyMemoryDevice (s : State) : Res :=
  cxlCommand (fun s => s.send (.cxlMbx 0x4000 true [0, s.capacity, 0])) s

/-- GET_PARTITION_INFO: volatile, and what no partition splits. -/
def execGetPartitionInfo (s : State) : Res := cxlCommand (fun s => s.send (.cxlMbx 0x4100 true [0, s.capacity])) s

/-- Unclean stops in the power log: power failures whose drain was incomplete (log entry 77, DEDUCED). -/
def State.uncleanStops (s : State) : Nat := (s.plogValid.filter (fun r => r.kind == 3 && r.flags / 2 % 2 == 1)).length

/-- GET_HEALTH_INFO: Dirty Shutdown Count. -/
def execGetHealthInfo (s : State) : Res := cxlCommand (fun s => s.send (.cxlMbx 0x4200 true [s.uncleanStops])) s

/-- CXL_UNSUPPORTED_COMMAND. -/
def execCxlUnsupportedCommand (opcode : Nat) (s : State) : Res := cxlCommand (fun s => s.send (.cxlMbx opcode false [])) s

end Sys2Proof.Machine
end

