-- ==== Sys2Proof/Machine/Regs.lean ====
section
/-! DEFINITION. What the BAR0 registers read (R650 to R656 and the register tables of each chapter). -/

namespace Sys2Proof.Machine

open Sys2Proof

/-- Field at bit `lo`, saturating at `top`. -/
def fl (lo top v : Nat) : Nat := Nat.min top v * 2 ^ lo

/-- A flag at bit `lo`. -/
def fb (lo : Nat) (b : Bool) : Nat := bit b * 2 ^ lo

/-- A list of units below 32 as a bit mask from bit `lo`. -/
def fm (lo : Nat) (l : List Nat) : Nat := (maskOf 32 l).toNat * 2 ^ lo

/-- MiB of a byte count, rounded up. -/
def mibUp (n : Nat) : Nat := ceilDiv n 1048576


/-- Encodings of CH_LINK.STATE (R180). -/
def LinkState.code : LinkState → Nat
  | .down => 0 | .detect => 1 | .equalise => 2 | .confirm => 3 | .active => 4 | .retrain => 5 | .quiesced => 6 | .failed => 7

/-- Encodings of CH_HEALTH.STATE (R141). -/
def Health.code : Health → Nat
  | .absent => 0 | .inService => 1 | .failed => 2 | .rebuildTarget => 3 | .tooSmall => 4

/-! Identity and global page (R652). -/

def State.regGctl (s : State) : Nat := fb 0 s.ev.evMsix

/-- Islands in fault, ascending. -/
def State.faultIslands (s : State) : List Nat := (List.range 100).filter (fun i => (s.island i).fault)

/-- A reset or power-loss drain runs. -/
def State.draining (s : State) : Bool :=
  match s.prime.drain with
  | some d => d.kind != .orderly
  | none => false

def State.regGstat (s : State) : Nat :=
  fb 0 s.ctl.selErr + fb 1 s.ev.rstRef + fb 2 (s.power.wl == 13) + fb 3 s.draining + fb 4 (!s.faultIslands.isEmpty)
    + fl 5 0x7F (s.faultIslands.head?.getD 0x7F)

/-! Durability (chapter of R50 to R64). -/

def State.regMirrorCtl (s : State) : Nat := fb 1 s.dura.busy + fb 2 s.dura.done + fb 3 s.dura.fail + fb 4 s.dura.loc
def State.regMirrorLag (s : State) : Nat :=
  let age := match s.dura.lag with | r :: _ => (s.now - r.time) / 1000 | [] => 0
  fl 0 0x7FFFFF s.lagBytes + fb 23 s.dura.lagHeld + fl 24 64 age
def State.regDuraBudget (s : State) : Nat := fl 0 16384 (s.dura.dmax / 1048576) + fl 16 65535 (mibUp s.dirtyTotal)
def State.regDuraStat (s : State) : Nat :=
  let v := match s.twin.role with | .active => 1 | .solo => 2 | _ => 0
  fb 0 s.dura.clow + fb 1 s.dura.overBud + fl 2 3 v + fb 4 s.dura.pHold.isSome

/-! Sump and pool (R239, R240). -/

def State.ovBytes (s : State) : Nat := s.sump.overflow.foldl (fun n e => n + (e.img.filter Option.isSome).length) 0
def State.regSpillStat (s : State) : Nat :=
  fb 0 s.sump.spillActive + fb 1 (s.sump.inService && s.atCeiling) + fb 2 s.sump.creditHeld
    + fl 4 32767 (mibUp s.ovBytes)
def State.regOrderStat (s : State) : Nat := fm 0 s.stallLevels + fb 6 s.sump.noWrite + fl 8 65535 s.sump.stalls

/-- R239: pages that a client holds; none while no pool is usable, so that the registers reset to 0. -/
def State.poolHeld (s : State) (i : Nat) : Nat := if s.poolPages = 0 then 0 else s.poolUsed i

/-- Pages that POOL_USED shows. Of clients 4 and 5 the manual does not state how many are in use: `v`, bounded by what is
kept for them (log entry 81, DESIGN CHOICE). -/
def State.poolShown (s : State) (i v : Nat) : Nat :=
  if i = 4 ∨ i = 5 then v % (s.poolHeld i + 1) else s.poolHeld i

def State.regPoolUsed (s : State) (i v : Nat) : Nat :=
  let p := s.poolShown i v
  fl 0 131071 (ceilDiv p 256) + fb 31 (decide (p > s.poolFloor i))
def State.regPoolFloor (s : State) (i : Nat) : Nat := if s.poolPages = 0 then 0 else fl 0 131071 (s.poolFloor i / 256)

/-! Twin (R298). -/

def State.regTwinRole (s : State) : Nat :=
  let t := s.twin
  let young := match t.matchAt with | some m => decide (s.now < m + 2000000) | none => false
  let lease := match t.leaseEnd with | some e => decide (s.now < e) | none => false
  fl 0 7 t.role.code + fb 3 t.resync + fb 4 young + fb 5 (t.heardAt.isSome && !t.silent) + fb 6 lease + fb 7 t.witness.isSome
    + fl 8 1 t.num + fl 9 7 t.fcause
def State.regTwinDigest (s : State) : Nat :=
  fl 0 65535 s.twin.mismatches + fl 16 255 (match s.twin.matchAt with | some m => Nat.min 254 ((s.now - m) / 1000000) | none => 255)
def State.regTwinResync (s : State) : Nat := fl 0 0x7FFFFFFF s.twin.tileBits + fb 31 (s.twin.resync && s.twin.resyncFull)
def State.regTwinWitness (s : State) : Nat :=
  let left := match s.twin.leaseEnd with | some e => (e - s.now) / 1000000 | none => 0
  fl 0 100 left + fl 8 255 s.twin.witFails + fb 16 (s.twin.witReqs.any (fun r => r.wtype == 2 || r.wtype == 3))

/-! Connections and grants (R384). -/

def State.connCount (s : State) (p : Conn → Bool) : Nat := (s.xport.conns.filter (fun e => p e.2)).length
def State.grantCount (s : State) (st : GrantState) : Nat := (s.xport.grants.filter (fun e => e.2.st == st)).length
def State.regXportConns (s : State) : Nat :=
  fl 0 131071 (s.connCount (fun k => k.st != .closed)) + fl 17 32767 (s.connCount (fun k => k.st == .error))
def State.regXportGrants (s : State) : Nat := fl 0 262143 (s.grantCount .live) + fl 18 16383 (s.grantCount .revoking)
def State.regXportAdmit (s : State) : Nat := fl 0 65535 s.xport.access + fl 16 65535 s.xport.revoked

/-! Host port (R418). -/

def State.regHpLink (s : State) : Nat :=
  let h := s.host
  fl 0 15 h.rate + fl 4 31 h.width + fb 9 h.flit + fb 10 h.cxl + fb 11 (h.memEn && h.rate != 0) + fb 12 h.memAct + fb 13 h.perstSys
    + fl 14 7 h.maxRate + fb 17 s.hostDraining
def State.regHpHdm (s : State) (k : Nat) : Nat := let d := s.hdm k; fl 0 1023 d.nsid + fb 10 d.committed + fb 11 d.err
def State.regHpReq (s : State) : Nat := fl 0 65535 s.host.refused + fl 16 65535 s.host.poisonRd
def State.regHpReq2 (s : State) : Nat := fl 0 65535 s.host.poisonWr + fl 16 255 s.host.holds + fl 24 255 s.host.badWr
def State.regHpReset (s : State) : Nat :=
  fl 0 255 s.host.persts + fl 8 255 s.host.hotRst + fl 16 255 s.host.flrs + fl 24 255 s.host.drainUs
def State.regHpGpf (s : State) : Nat := fl 0 65535 s.host.gpfs + fb 16 s.host.gpfFail + fb 17 s.host.gpfLocal

/-! Cipher (R485). -/

def tagIsNs : KeyTag → Bool
  | .ns _ => true
  | .conn _ _ => false
def State.regCiphAlarm (s : State) : Nat :=
  s.cipher.alarms.toNat + fb 4 s.cipher.erased + fb 5 (s.cipher.inputs != 0) + fl 8 255 s.cipher.count
def State.regPalStat (s : State) : Nat :=
  fl 0 1024 s.cipher.slots.length + fl 11 1024 (s.cipher.slots.filter (fun k => tagIsNs k.tag)).length + fl 22 3 s.test.kekGen
    + fb 24 s.cipher.blockSusp

/-! Power (R524). -/

def PwrLatch.code : PwrLatch → Nat
  | .none => 0 | .on => 1 | .off => 2
def State.regPwrStat (s : State) : Nat :=
  let p := s.power
  fl 0 15 p.wl + fb 4 p.wlDir + fb 5 p.line + fb 6 p.abandon + fb 7 p.pwrFail + fl 8 31 p.parts + fl 13 31 p.stuck
    + fl 18 3 p.latch.code + fb 20 p.offSettled
def State.regCisStat (s : State) : Nat :=
  let st := match s.power.cisStep with | .none => s.power.cisSt | _ => 3
  fl 0 65535 s.power.cisMv + fl 16 7 st + fb 19 s.power.chgEn + fb 20 s.power.testEn
def State.regCisEnergy (s : State) : Nat :=
  fl 0 0xFFFFFF s.power.emeas
    + fl 24 255 (match s.power.measAt with | some t => Nat.min 254 ((s.now - t) / 60000000000) | none => 255)
def State.regPlogSel (s : State) : Nat := fl 0 255 s.power.plogBack + fl 8 255 s.power.plogWord + fl 24 255 s.plogValid.length

/-- PLOG_DATA: word DWORD of record BACK, 0 when no such record exists. -/
def State.regPlogData (s : State) : Nat :=
  match s.plogValid[s.power.plogBack]? with
  | some r => leVal (slice r.bytes (4 * s.power.plogWord) 4)
  | none => 0

/-! Priming (R551). -/

def State.regPrimeStat (s : State) : Nat :=
  let p := s.prime
  fl 0 15 p.step + fb 4 p.warm + fl 5 1 p.image + fb 6 p.bootFail + fb 7 p.waitPeer + fb 8 p.witPath + fl 9 3 p.decide + fb 11 p.full
def State.regRecovStat (s : State) : Nat := s.prime.unclean.toNat + fl 16 65535 s.prime.replay.toNat
def State.regRecovSuspect (s : State) : Nat := fl 0 0xFFFFFFFF (s.gnv.foldl (fun n e => n + e.2.suspects.length) 0)

/-! Flash (R607). -/

def State.regFlBank (s : State) (b : Nat) : Nat :=
  let k := s.fbank b
  let op := match k.op with
    | none => 0
    | some o => if o.purpose = .massErase then 3 else if o.erase then 2 else 1
  fb 0 k.op.isSome + fl 1 3 op + fb 3 k.pfail + fb 4 k.efail + fb 5 (!k.halfErased.isEmpty) + fl 6 1023 (match k.op with | some o => o.sector | none => k.sector) + fl 16 255 k.busyRd
    + fl 24 255 k.ce
def State.regFlProt (s : State) : Nat := fl 0 3 s.flash.level + fb 2 s.flash.level2 + fl 8 63 s.flash.secMin

/-- The slot erase of the session runs or waits. -/
def State.erasing (s : State) : Bool :=
  let isSlot := fun (o : FOp) => match o.purpose with | .slotErase _ => true | _ => false
  s.flash.banks.any (fun b => b.op.any isSlot || b.queue.any isSlot)
def State.regFwImg (s : State) : Nat :=
  let (img, m) := match s.flash.session with | some (i, _, m) => (i, m) | none => (0, 0)
  fb 0 (s.flash.valid 0) + fb 1 (s.flash.valid 1) + fl 2 1 s.flash.named + fl 3 1 s.prime.image + fb 4 s.flash.session.isSome
    + fl 5 1 img + fl 6 7 m + fb 9 (s.flash.session.isSome && s.erasing)
def State.regFwProg (s : State) : Nat := fl 0 0xFFFFFF (rangeBytes s.flash.written) + fl 24 128 s.flash.erased

/-! Self-test and recorder (R642). -/

def State.regEccFlip (s : State) : Nat :=
  let t := s.test
  fl 0 7 t.flipClass + fl 4 127 t.flipBit0 + fl 12 127 t.flipBit1 + fb 19 t.flipTwo + fb 20 t.flipArm
def State.regEccFlipAt (s : State) : Nat := fl 0 0xFFFFFFF s.test.flipAt.1 + fl 28 15 s.test.flipAt.2
def State.regStEcc (s : State) : Nat := fl 0 65535 s.test.ce + fl 16 65535 s.test.ue

/-- A block under no transparent test: redirected since it has no spare (R615), or marked unusable (R616). -/
def State.untested (s : State) (cls unit : Nat) : Bool :=
  s.test.redirected.contains (cls, unit)
    || (match cls with
      | 0 => s.sump.badBanks.contains unit
      | 1 | 2 => s.test.badCores.contains unit
      | 3 => s.test.badPads.contains unit
      | _ => false)

/-- Regions of a test class under test (R618): 64 KiB of 12 MiB banks; 4 KiB of the 256 KiB TCMs and scratchpad blocks. -/
def State.ttRegions (s : State) (cls : Nat) : Nat :=
  ((List.range (if cls = 0 ∨ cls = 3 then 8 else 4)).filter (fun u => !s.untested cls u)).length * (if cls = 0 then bankRegions else 64)

def State.regStTt (s : State) : Nat :=
  let all := s.ttRegions 0 + s.ttRegions 1 + s.ttRegions 2 + s.ttRegions 3
  fl 0 65535 s.test.passes + fl 16 100 (100 * s.test.tested.foldl (· + ·) 0 / all) + fl 23 255 s.test.repairs
    + fb 31 (!s.test.redirected.isEmpty)
def State.regStUnusable (s : State) : Nat :=
  fm 0 s.sump.badBanks + fm 8 s.test.badCores + fm 16 s.test.pendBanks + fm 24 s.test.pendCores
def State.regRecStat (s : State) : Nat := fb 0 s.test.frozen + fl 16 65535 s.test.lost
def State.recOldest (s : State) : Nat := match s.test.ring with | r :: _ => r.seq.toNat | [] => 0

/-- A byte of the recorder data window: the ring is laid out back from the offset that the next record takes. -/
def State.ringByte (s : State) (off : Nat) : Byte :=
  let b := s.test.ring.flatMap Rec.bytes
  let start := (s.test.ringPtr + ringSize - b.length % ringSize) % ringSize
  b.getD ((off + ringSize - start) % ringSize) 0

/-! Events (R654). -/

def State.evWord (s : State) (w : Nat) : Nat := (s.ev.status.extractLsb' (32 * w) 32).toNat
def State.regEvSummary (s : State) : Nat := fm 0 ((List.range 32).filter (fun w => s.evWord w != 0))
def State.regEvLast (s : State) : Nat := fl 0 1023 s.ev.last + fl 16 65535 s.ev.total.toNat

/-! The mailbox window (R423 to R427). -/

/-- Word at an offset of a window that shows mailbox m. -/
def State.mbxReg (s : State) (m off : Nat) : Nat :=
  let b := s.mbx m
  match off with
  | 0x000 => m
  | 0x004 => fb 0 (decide (b.cmds.length ≥ fifoSize)) + fb 1 b.rsps.isEmpty + fb 2 b.overrun + fb 3 b.ptrErr + fb 4 b.noOwn
  | 0x008 => b.cmds.length
  | 0x010 => b.rsps.length
  | 0x018 => b.token.toNat + fl 16 255 (if b.token = 0 then 0 else (b.leaseEnd - s.now) / 1000000000)
  | _ =>
    if 0x040 ≤ off ∧ off < 0x080 then leVal (slice b.stage (off - 0x040) 4)
    else if 0x080 ≤ off ∧ off < 0x0C0 then leVal (slice (b.rsps.head?.getD []) (off - 0x080) 4)
    else 0

/-! Unit windows (R656). -/

/-- TYPE 0x01: media channel c. -/
def State.chanReg (s : State) (c off : Nat) : Nat :=
  let k := s.chan c
  match off with
  | 0x000 => fl 0 15 k.link.code + fb 4 k.sbPres + fl 8 15 k.cPreset + fl 12 15 k.mPreset + fl 16 255 k.retrains
  | 0x004 => fl 0 65535 k.crcErr + fl 16 65535 k.replays
  | 0x008 =>
    let (d, q) := match k.desc with | some d => (d.dieCount, d.qdepth) | none => (0, 0)
    fl 0 3 k.dstat + fl 8 31 d + fl 16 127 q + fl 24 15 k.reject
  | 0x00C => fl 0 1024 k.tags.length + fl 16 65535 k.timeouts
  | 0x010 =>
    let warn := match k.desc with | some d => k.tempValid && decide (k.temp.toInt > d.tWarn) | none => false
    k.temp.toNat + fb 16 k.tempValid + fb 17 warn
  | 0x100 => fl 0 65535 k.ceThresh + fl 16 15 k.retireSym
  | 0x104 => fl 0 65535 k.ceWindow + fl 16 65535 k.winOver
  | 0x108 => k.ceTotal.toNat
  | 0x10C => fl 0 0xFFFFFFFF k.ueTotal
  | 0x110 => fl 0 7 k.health.code + fb 3 k.retiring
  | _ => 0

/-- Easels of a formatted group. -/
def State.grpEasels (s : State) (g : Nat) : List Easel :=
  if (s.grp g).st = .unformatted then [] else (List.range (s.grp g).eg).map (fun e => s.easel (easelKey g e))

/-- Smallest die count of the group's present modules, divided by 8. -/
def State.minDies (s : State) (g : Nat) : Nat :=
  let l := (List.range 9).filterMap (fun p =>
    let c := s.chan (grpChan g p)
    if c.health == .inService || c.health == .rebuildTarget then c.desc.map (fun d => d.dieCount) else none)
  match l with | [] => 0 | d :: t => listMin d t / 8

/-- TYPE 0x02: stripe group g. -/
def State.groupReg (s : State) (g off : Nat) : Nat :=
  let k := s.grp g
  let formatted := fun (v : Nat) => if k.st = .unformatted then 0 else v
  match off with
  | 0x000 => formatted k.ng
  | 0x004 => fl 0 4095 (formatted k.eg) + fl 16 4095 (formatted (s.freeEasels g)) + fl 28 15 (formatted (s.minDies g))
  | 0x008 =>
    let l := s.grpEasels g
    fl 0 4095 (l.filter (·.worn)).length + fl 12 63 (listMax 0 (l.map (·.spares))) + fb 18 (l.any (·.moving))
  | 0x00C => fl 0 7 k.st.code + fl 4 15 (k.failPos.getD 15) + fl 8 15 (k.failPos2.getD 15) + fb 12 k.paused
  | 0x010 => k.rebuildPtr
  | 0x014 => fl 0 65535 k.passes + fl 16 100 (if k.ng = 0 then 0 else 100 * k.scrubPtr / k.ng) + fb 23 k.behind + fl 24 255 k.incons
  | 0x018 => fl 0 0xFFFFFFFF k.poisonLines
  | _ => 0

/-- TYPE 0x03: drawer d (R208). -/
def State.drawerReg (s : State) (d off : Nat) : Nat :=
  let k := s.drw d
  let held := decide (s.pins d > 0) || s.rebuilds d || s.schedHolds d || k.scrubWake
  match off with
  | 0x000 => fl 0 7 k.st.code + fl 4 15 k.step.code + fb 8 k.parkable + fb 9 (k.latch != .none) + fb 10 held
  | 0x004 => fl 0 131071 (s.pins d) + fb 17 (s.rebuilds d) + fb 18 (s.schedHolds d) + fb 19 k.scrubWake
  | 0x008 => fl 0 65535 k.lastMs + fl 16 65535 k.wakes
  | 0x00C => fl 0 0xFFFFFFFF k.slips
  | 0x010 => fl 0 131071 k.parkIdle
  | _ => 0


/-- TYPE 0x04: network port p (R352). -/
def State.netReg (s : State) (p off : Nat) : Nat :=
  let n := s.nport p
  let subs := (List.range (modeSubs n.mode)).map (fun q => (q, s.subPort p q))
  match off with
  | 0x000 =>
    fl 0 3 n.mode + fm 4 ((subs.filter (·.2.up)).map (·.1)) + fm 8 ((subs.filter (·.2.fecDeg)).map (·.1)) + fl 16 255 n.flaps
  | 0x004 => fl 0 65535 n.dropFrame + fl 16 65535 n.dropAuth
  | 0x008 => fl 0 65535 n.nakSeq + fl 16 65535 n.retx
  | 0x00C =>
    fl 0 131071 (s.connCount (fun k => k.st != .closed && k.paths.any (fun x => x.live && x.port == p))) + fl 17 32767 n.errors
  | 0x010 =>
    let starve := s.connCount (fun k => k.port == p && (match k.creditWait with | some t => decide (s.now > t + 1000000) | none => false))
    fl 0 65535 (n.ceTimes.filter (fun t => decide (s.now < t + 1000000))).length + fl 16 65535 starve
  | _ => 0

/-- TYPE 0x05: twin port t (R298). -/
def State.twinReg (s : State) (t off : Nat) : Nat :=
  let k := s.tport t
  match off with
  | 0x000 => fl 0 3 k.st + fl 8 255 k.retrains
  | 0x004 => fl 0 65535 k.fecCor + fl 16 65535 k.replays
  | 0x008 => fl 0 65535 k.cstall + fl 16 65535 k.stale
  | _ => 0

/-- TYPE 0x06: DRAM channel n (R576). -/
def State.dramReg (s : State) (n off : Nat) : Nat :=
  let k := s.drch n
  match off with
  | 0x000 =>
    let m := listMax 1 k.mult
    fl 0 3 k.st + fl 2 3 (if m = 1 then 0 else if m = 2 then 1 else 2) + fb 4 (k.hot.any id) + fl 16 127 k.retired.length
  | 0x020 => fl 0 65535 k.ceWin + fl 16 65535 k.ueTotal
  | 0x024 =>
    let (row, bank, rank, slot, client) := k.errLoc
    fl 0 131071 row + fl 17 7 bank + fl 20 1 rank + fl 21 7 slot + fl 24 7 client
  | 0x028 => fl 0 65535 k.nref + fl 16 255 k.srx
  | _ => if off % 4 = 0 ∧ 4 ≤ off ∧ off < 0x020 then (k.delays.getD (off / 4 - 1) 0).toNat else 0

/-- TYPE 0x07: rail i (R524). -/
def State.railReg (s : State) (i off : Nat) : Nat :=
  let r := s.rail i
  match off with
  | 0x000 => fl 0 15 r.step + fl 4 7 r.dstep + fb 7 r.pgUsed + fl 8 65535 r.nomMv + fl 24 3 r.pmbPort
  | 0x004 =>
    fl 0 7 r.st.code + fb 3 r.en + fb 4 r.pg + fb 5 r.dis + fb 6 r.warn + fb 7 r.early + fb 8 r.noFall + fb 9 r.noGood
  | 0x008 => fl 0 65535 r.mv + fl 16 65535 r.target
  | 0x00C => fl 0 255 r.tOn + fl 8 255 r.tOff + fl 16 255 r.tDis
  | 0x010 => (BitVec.ofInt 6 r.margin).toNat + fl 8 127 r.pmbAddr + fl 15 255 r.pmbPage
  | 0x014 => fl 0 65535 r.faults + fl 16 65535 r.warns
  | _ => 0

/-- TYPE 0x08: sump bank b (R240). -/
def State.sumpReg (s : State) (b off : Nat) : Nat :=
  let usable := s.sump.inService && !s.sump.badBanks.contains b
  let count := fun (st : LineState) => (s.sump.lines.filter (fun l => l.bank == b && l.st == st)).length
  match off with
  | 0x000 => fb 0 usable + fl 2 262143 (if usable then bankLines else 0)
  | 0x004 => count .pending
  | 0x008 => count .dirty
  | 0x00C => count .intent + s.rsvIn b
  | 0x010 => count .clean
  | 0x014 => fl 0 65535 s.sump.intentRsv + fl 16 65535 (s.rsvIn b)
  | _ => 0

/-- TYPE 0x09: cipher engine e (R485). -/
def State.engineReg (s : State) (e off : Nat) : Nat :=
  let k := s.engine e
  match off with
  | 0x000 => fb 0 k.inServ + fb 1 k.handed + fl 8 255 k.pipes.toNat + fl 16 255 k.katFail
  | 0x004 => fl 0 255 k.inlineLoad + fl 8 255 k.mediaLoad + fl 16 65535 k.susp
  | _ => 0

/-- A unit of the clock-island roster that can be marked unusable (R11). -/
inductive IslandUnit where
  | chan (c : Nat) | net (p : Nat) | twin (t : Nat) | host | dram (n : Nat) | bank (b : Nat) | engine (e : Nat) | core (n : Nat)
  deriving DecidableEq, Repr

/-- R11: the units that an island serves; a stripe engine, hub, flash, recorder or always-on island has none that a rule marks. -/
def islandUnits (i : Nat) : List IslandUnit :=
  if i < 36 then ((List.range 144).filter (fun c => chIsland c == i)).map .chan
  else if i < 52 then []
  else if i < 60 then [.net (i - 52)]
  else if i < 64 then [.twin (i - 60)]
  else if i = 64 then [.host]
  else if i < 73 then (List.range 4).map (fun k => .dram (4 * (i - 65) + k))
  else if i < 81 then [.bank (i - 73)]
  else if i < 89 then [.engine (i - 81)]
  else if i < 93 then [.core (i - 89)]
  else []

/-- The unit is marked unusable (R459, R531, R533, R571, R617). -/
def State.unitOut (s : State) : IslandUnit → Bool
  | .chan c => s.test.badChan.contains c
  | .net p => s.test.badNet.contains p
  | .twin t => s.test.badTwin.contains t
  | .host => s.test.badHost
  | .dram n => (s.drch n).st == 3
  | .bank b => s.sump.badBanks.contains b
  | .engine e => (s.engine e).carrier.isSome && !(s.engine e).inServ
  | .core n => s.test.badCores.contains n

/-- CI_STAT.OUT: the island's unit is marked unusable; all of them where it serves several (log entry 136, DESIGN CHOICE). -/
def State.islandOut (s : State) (i : Nat) : Bool :=
  (s.island i).out || (!(islandUnits i).isEmpty && (islandUnits i).all s.unitOut)

/-- TYPE 0x0A: clock island i. -/
def State.islandReg (s : State) (i off : Nat) : Nat :=
  let k := s.island i
  match off with
  | 0x000 => fb 0 k.running + fb 1 k.fault + fb 2 (s.islandOut i) + fl 8 7 k.cause + fl 16 65535 k.faults
  | 0x004 => fl 0 0xFFFFFF k.khz
  | 0x008 => nominalKhz i % 16777216
  | _ => 0

/-- TYPE 0x0B: event route entry x. -/
def State.routeReg (s : State) (x off : Nat) : Nat :=
  let r := s.ev.route x
  match off with
  | 0x000 => fl 0 2047 r.vec + fb 11 r.msix + fl 16 15 r.cores.toNat + fb 31 (s.ev.status.getLsbD x)
  | 0x004 => fl 0 0xFFFFFFFF (tabGet 0 s.ev.counts x)
  | _ => 0

/-- R455, R656: a register of the selected-unit window; 0 while no unit is selected. -/
def State.unitReg (s : State) (off : Nat) : Nat :=
  let i := s.ctl.unitIdx
  match s.ctl.unitType with
  | 0x01 => s.chanReg i off | 0x02 => s.groupReg i off | 0x03 => s.drawerReg i off | 0x04 => s.netReg i off
  | 0x05 => s.twinReg i off | 0x06 => s.dramReg i off | 0x07 => s.railReg i off | 0x08 => s.sumpReg i off
  | 0x09 => s.engineReg i off | 0x0A => s.islandReg i off | 0x0B => s.routeReg i off
  | _ => 0

/-! BAR0 (R650). -/

/-- The 64-bit registers by the offset of their low word (R651). -/
def State.reg64 (s : State) (off : Nat) : Option Nat :=
  match off with
  | 0x18 => some s.devtime
  | 0x288 => some s.twin.sent.toNat
  | 0x290 => some s.twin.applied.toNat
  | 0x30008 => some s.recOldest
  | 0x30010 => some s.recSeq.toNat
  | _ => none

/-- The MSI-X table and its pending-bit array (R650). -/
def State.msixReg (s : State) (off : Nat) : Nat :=
  if off < 0x28000 then
    let e := s.ev.entry ((off - 0x20000) / 16)
    match off % 16 with
    | 0 => (e.addr.extractLsb' 0 32).toNat
    | 4 => (e.addr.extractLsb' 32 32).toNat
    | 8 => e.data.toNat
    | _ => bit e.mask
  else (s.ev.pba.extractLsb' (8 * (off - 0x28000)) 32).toNat

/-- Value of the 32-bit register at an aligned offset of BAR0, apart from the high words of 64-bit registers; 0 where no
chapter assigns one (R20). `v` is the free value of log entry 81, DESIGN CHOICE. -/
def State.barReg (s : State) (v off : Nat) : Nat :=
  match s.reg64 off with
  | some x => x % 4294967296
  | none =>
    match off with
    | 0x000 => s.regDevId | 0x004 => s.regDevRev | 0x008 => s.regLcs | 0x00C => s.regGctl | 0x010 => s.regGstat
    | 0x020 => s.prime.bootcnt.toNat
    | 0x200 => s.regMirrorCtl | 0x204 => s.regMirrorLag | 0x210 => s.regDuraBudget | 0x214 => s.regDuraStat
    | 0x218 => s.regSpillStat | 0x21C => s.regOrderStat
    | 0x280 => s.regTwinRole | 0x284 => s.twin.epoch.toNat | 0x298 => s.regTwinDigest | 0x29C => s.regTwinResync
    | 0x2A0 => s.regTwinWitness
    | 0x2C0 => s.regXportConns | 0x2C4 => s.regXportGrants | 0x2C8 => s.regXportAdmit
    | 0x300 => s.regHpLink | 0x310 => s.regHpHdm 0 | 0x314 => s.regHpHdm 1 | 0x318 => s.regHpHdm 2 | 0x31C => s.regHpHdm 3
    | 0x320 => s.regHpReq | 0x324 => s.regHpReq2 | 0x328 => s.regHpReset | 0x32C => s.regHpGpf
    | 0x340 => s.regCiphAlarm | 0x344 => s.regPalStat | 0x348 => s.cipher.misses
    | 0x360 => s.regPwrStat | 0x368 => s.regCisStat | 0x36C => fl 0 0xFFFFF s.power.cap | 0x370 => fl 0 0xFFFFFF s.power.esr
    | 0x374 => s.regCisEnergy | 0x378 => s.regPlogSel | 0x37C => s.regPlogData
    | 0x380 => s.regPrimeStat | 0x384 => fl 0 0xFFFFFFFF s.prime.runMs | 0x388 => s.regRecovStat | 0x38C => s.regRecovSuspect
    | 0x3A0 => s.regFlBank 0 | 0x3A4 => s.regFlBank 1 | 0x3A8 => s.regFlProt | 0x3AC => s.regFwImg | 0x3B0 => s.regFwProg
    | 0x3C0 => s.regEccFlip | 0x3C4 => s.regEccFlipAt | 0x3C8 => s.regStEcc | 0x3CC => s.regStTt
    | 0x3D0 => s.test.analog.toNat | 0x3D4 => s.regStUnusable
    | 0x2000 => fl 0 65535 s.ctl.unitIdx + fl 24 255 s.ctl.unitType
    | 0x10080 => s.regEvSummary | 0x10084 => s.regEvLast | 0x10088 => fl 0 0xFFFFFFFF s.ev.drop
    | 0x30000 => s.regRecStat | 0x30018 => fl 15 31 s.test.winBase
    | _ =>
      if 0x240 ≤ off ∧ off < 0x278 then
        (if off % 8 = 0 then s.regPoolUsed ((off - 0x240) / 8) v else s.regPoolFloor ((off - 0x244) / 8))
      else if 0x1000 ≤ off ∧ off < 0x10C0 then s.mbxReg s.ctl.sel (off - 0x1000)
      else if 0x1400 ≤ off ∧ off < 0x1800 then s.mbxReg ((off - 0x1400) / 0x100) (off % 0x100)
      else if 0x3000 ≤ off ∧ off < 0x4000 then s.unitReg (off - 0x3000)
      else if 0x10000 ≤ off ∧ off < 0x10080 then s.evWord ((off - 0x10000) / 4)
      else if 0x20000 ≤ off ∧ off < 0x28100 then s.msixReg off
      else if 0x38000 ≤ off ∧ off < 0x40000 then
        leVal ((List.range 4).map (fun i => s.ringByte (s.test.winBase * 32768 + (off - 0x38000) + i)))
      else 0

/-! PF0's configuration space (R389 and the tables of its capabilities and DVSECs). No command of the table reads it: these are
the values that a configuration read shows. -/

/-- R389: 32-bit words of PF0's header, placed as PCI Express places them (log entry 148, PRESUMED); none for a word of which the
manual states nothing. -/
def State.pf0Word (s : State) : Nat → Option Nat
  | 0x00 => some (Config.vendorId.toNat + 65536 * 0x2144)
  | 0x08 => some (s.regDevRev % 256 + 256 * 0x050210)
  | 0x0C | 0x20 | 0x24 => some 0
  | 0x2C => some (s.host.ssvid + 65536 * s.host.ssid)
  | _ => none

/-- Device Serial Number: the die ID. -/
def pf0Serial : Nat := Config.dieId

/-- DVSEC 0x0000, Range 1 (R401, R403): capacity in multiples of 256 MiB, Memory_Info_Valid and Memory_Active. -/
def State.dvsecRange (s : State) : Nat × Bool × Bool := (s.capacity, s.atRun, s.host.memAct)

/-- DVSEC 0x0005: GPF Phase 2 Duration in ms and Power in mW. -/
def dvsecGpf : Nat × Nat := (1, 240000)

end Sys2Proof.Machine
end

