-- ==== Sys2Proof/Machine/TestRows.lean ====
section
/-! DEFINITION. SRAM self-test and error injection (R608 to R621) and the recorder's spill and freeze (R637, R639). -/

namespace Sys2Proof.Machine

open Sys2Proof

/-! Error injection. -/

/-- ECC_FLIP_WRITE (R611, R612, R642). -/
def execEccFlipWrite (v : BitVec 32) (s : State) : Res :=
  let two := v.getLsbD 19
  .next (if s.test.lc = .endOfLife ∨ (s.test.lc = .deployed ∧ two) then s
    else s.modTest (fun t => { t with
      flipClass := v.toNat % 8, flipBit0 := v.toNat / 16 % 128, flipBit1 := v.toNat / 4096 % 128, flipTwo := two, flipArm := v.getLsbD 20 }))

/-- ECC_INJECTION_APPLY (R611, R643): the first write to the class that is granted after arming takes the corruption; event 981. -/
def execEccInjectionApply (unit addr : Nat) (s : State) : Res :=
  .next (if s.test.flipArm then
      raiseWith 981 unit addr (s.modTest (fun t => { t with flipArm := false, flipAt := (addr % 268435456, unit % 16) }))
    else s)

/-! The transparent test (R609, R610, R614, R615, R618, R619). -/

/-- Memory class and unit of a place (R608); none where the number names no unit. -/
def State.sramUnit (s : State) (p : SramPlace) : Option (Nat × Nat) :=
  let within := fun (c n u : Nat) => if u < n then some (c, u) else none
  match p with
  | .sumpLine id => (s.sump.lines.find? (fun l => l.id == id)).map (fun l => (0, l.bank))
  | .sumpFree b r => if r < bankRegions then within 0 8 b else none
  | .directory b => within 0 8 b
  | .itcm n => within 1 4 n
  | .dtcm n => within 2 4 n
  | .scratchpad n => within 3 8 n
  | .ring => some (4, 0)
  | .buffer => some (5, 0)
  | .keyStore e => within 6 8 e

/-- Event of a class's uncorrectable word (R608). -/
def sramEvent (cls unit : Nat) : Nat :=
  match cls with
  | 0 => 960 + unit
  | 1 | 2 => 968 + unit
  | 3 => 972
  | 4 => 984
  | 5 => 973
  | _ => 864 + unit

/-- R610: an uncorrectable word of a sump line. -/
def sumpUncorrectable (l : SumpLine) (s : State) : State :=
  let drop := fun (s : State) => s.modSump (fun u => { u with lines := u.lines.filter (fun x => x.id != l.id) })
  if s.twin.role = .standby then relinquishCause (if l.st = .clean then drop s else s)
  else match l.st with
    | .clean => drop s
    | .pending => match l.tag with
      | some (c, m) => if s.serving then dropAndRelease c (nakDrop c m 5 0 0 0 0 0) s else s
      | none => s
    | .dirty | .intent =>
      if s.fixFromPeer true && s.prime.drain.isNone then sendRepair (false, l.id) l.ns (256 * (l.line / 4)) s
      else repairSump l.id (List.replicate 256 0) 0xF s

/-- A record of the ring is discarded, a pad in its place (R610). Which one holds the word is a free value. -/
def ringDiscard (s : State) : State :=
  let (v, s) := s.freeVal
  if s.test.ring.isEmpty then s
  else s.modTest (fun t => { t with
    lost := sat16 t.lost
    ring := modAt t.ring (v.toNat % t.ring.length) (fun r =>
      { r with ty := 0, src := 0xFFFF, crit := false, body := List.replicate r.body.length 0 }) })

/-- R610: the outcome by the place. -/
def sramUncorrectable (p : SramPlace) (s : State) : State :=
  match p with
  | .sumpLine id => match s.sump.lines.find? (fun l => l.id == id) with
    | some l => sumpUncorrectable l s
    | none => s
  | .sumpFree b r =>
    let s := s.modTest (fun t => { t with heldRegions := t.heldRegions ++ [b * bankRegions + r] })
    if s.twin.role = .standby then relinquishCause s else s
  | .ring => ringDiscard s
  | .keyStore e => engineOut e s
  | .directory _ | .itcm _ | .dtcm _ | .scratchpad _ | .buffer => relinquishCause s

/-- R610: count, event of the class and outcome. An engine that leaves service raises its event itself. -/
def sramFault (p : SramPlace) (cls unit : Nat) (s : State) : State :=
  let s := s.modTest (fun t => { t with ue := sat16 t.ue })
  let s := if cls = 6 ∧ (s.engine unit).inServ then s else raiseWith (sramEvent cls unit) unit cls s
  sramUncorrectable p s

/-- R580, R614: a free spare is switched in; the device configuration and a critical record take the repair. -/
def softRepair (cls unit : Nat) (s : State) : State :=
  let s := s.modTest (fun t => { t with soft := t.soft ++ [(cls, unit)], repairs := sat8 t.repairs })
  let s := flashQueue 0 { erase := false, sector := 128, left := 1, purpose := .config 3 } s
  raiseWith 982 unit cls (markRecord cls unit s)

/-- R615: without a spare the region stays redirected until the block is marked at the next priming. -/
def redirect (cls unit : Nat) (s : State) : State :=
  if s.test.redirected.contains (cls, unit) then s
  else raiseWith 983 unit cls (markRecord cls unit (s.modTest (fun t => { t with
    redirected := t.redirected ++ [(cls, unit)]
    pendBanks := if cls = 0 then insNat t.pendBanks unit else t.pendBanks
    pendCores := if cls = 1 ∨ cls = 2 then insNat t.pendCores unit else t.pendCores
    pendPads := if cls = 3 then insNat t.pendPads unit else t.pendPads
    pendKeys := if cls = 6 then insNat t.pendKeys unit else t.pendKeys })))

/-- R618: a region of classes 0 to 3 is tested; a pass ends when every region is. -/
def regionTested (cls : Nat) (s : State) : State :=
  let s := s.modTest (fun t => { t with tested := modAt t.tested cls (fun n => Nat.min (n + 1) (s.ttRegions cls)) })
  if [0, 1, 2, 3].all (fun c => decide (s.ttRegions c ≤ s.test.tested.getD c 0)) then
    s.modTest (fun t => { t with passes := sat16 t.passes, tested := [0, 0, 0, 0] })
  else s

/-- The place is a region of the transparent test; directories and buffers are read by their users. -/
def isRegion : SramPlace → Bool
  | .sumpLine _ | .sumpFree .. | .itcm _ | .dtcm _ | .scratchpad _ => true
  | _ => false

/-- A region that the test passes goes back into use (R610). -/
def regionPassed (p : SramPlace) (s : State) : State :=
  match p with
  | .sumpFree b r => s.modTest (fun t => { t with heldRegions := t.heldRegions.filter (fun x => x != b * bankRegions + r) })
  | _ => s

/-- TRANSPARENT_TEST_REGION (R609, R610, R614, R615, R618, R619): a word of an SRAM region is checked, and the region tested.
A block redirected or out of service is tested no more. -/
def execTransparentTestRegion (place : SramPlace) (outcome : EccOutcome) (spareFree : Bool) (s : State) : Res :=
  match s.sramUnit place with
  | none => .next s
  | some (cls, unit) =>
    if s.untested cls unit then .next s
    else
      let s := if isRegion place then regionTested cls s else s
      let fixed := s.modTest (fun t => { t with ce := sat16 t.ce })
      .next (settle (match outcome with
        | .clean => regionPassed place s
        | .corrected => regionPassed place fixed
        | .hardFault => if spareFree then regionPassed place (softRepair cls unit fixed) else redirect cls unit fixed
        | .uncorrectable => sramFault place cls unit s))

/-! The recorder. -/

/-- The group whose spill ring is written: the lowest-numbered formatted one in an AWAKE drawer (R637). -/
def State.spillGroup (s : State) : Option Nat :=
  (List.range 16).find? (fun g => (s.grp g).st != .unformatted && (s.drw (grpDrawer g)).st == .awake)

/-- Rows of a group's recorder spill ring (R77's table). -/
def State.spillRows (s : State) (g : Nat) : Nat := (s.grp g).ng - (s.metaRow g + 69632)

/-- The first records of a list that a 2 KiB row holds. -/
def rowRecords (l : List Rec) : List Rec := fitting l.length 2048 l

/-- The spill ring keeps the newest records that its rows hold. -/
def spillTrim (room : Nat) : List Rec → List Rec
  | [] => []
  | r :: t => if recBytes (r :: t) ≤ room then r :: t else spillTrim room t

/-- A row of the recorder spill ring is being written. -/
def State.spilling (s : State) (g : Nat) : Bool := s.ops.any (fun o => o.grp == g && o.purpose == .metaRow .spill)

/-- RECORDER_SPILL (R9, R188, R637, R639): one row of the oldest unspilled records, while more than half of the ring is unspilled and
each channel of the group has fewer than 8 foreground commands outstanding. -/
def execRecorderSpill (s : State) : Res :=
  let t := s.test
  let fresh := t.ring.drop (t.ring.length - t.unspilled)
  .next (match s.spillGroup with
    | none => s
    | some g =>
      if t.frozen ∨ recBytes fresh ≤ ringSize / 2 ∨ !s.quietGroup g ∨ s.spilling g then s
      else if !(s.grp g).awakeRec then settle (awakeRecord g s)
      else
        let row := rowRecords fresh
        settle (spillRow g (row.flatMap Rec.bytes) (s.modTest (fun t => { t with
          spilled := spillTrim (2048 * s.spillRows g) (t.spilled ++ row), unspilled := t.unspilled - row.length }))))

/-- REC_FREEZE_TIMEOUT (R639): a second after the latest REC_FREEZE; event 987. -/
def execRecFreezeTimeout (s : State) : Res :=
  .next (if s.test.frozen then raiseWith 987 0 (s.now - s.test.frozenAt) (unfreeze s) else s)

end Sys2Proof.Machine
end

