-- ==== Sys2Proof/Machine/EvRows.lean ====
section
/-! DEFINITION. Events and MSI-X (R644 to R647), register reads and writes of BAR0 (R19, R20, R390, R455, R560, R650, R651),
and the junction sensors (R678). -/

namespace Sys2Proof.Machine

open Sys2Proof

/-! EV_STATUS and MSI-X. -/

/-- Bits of word w of EV_STATUS in the whole. -/
def evMask (w : Nat) (mask : BitVec 32) : BitVec 1024 := mask.setWidth 1024 <<< (32 * w)

/-- R646, R647: clear bits of EV_STATUS; a vector with nothing pending loses its pending bit. -/
def clearStatus (w : Nat) (mask : BitVec 32) (s : State) : State :=
  let gone := setBits 1024 (s.ev.status &&& evMask w mask)
  let s := s.modEv (fun e => { e with status := e.status &&& ~~~(evMask w mask) })
  forEach gone (fun x s => if (s.ev.route x).msix then pbaCheck (s.ev.route x).vec s else s) s

/-- EV_STATUS_CLEAR (R646): a raise in the same cycle takes effect after the clear. PF0 in D3hot takes no write (R394). -/
def execEvStatusClear (w : Fin 32) (mask : BitVec 32) (raised : Option (Fin 1024)) (s : State) : Res :=
  let s := if s.host.d3 then s else clearStatus w mask s
  .next (match raised with
    | some x => raise x s
    | none => s)

/-- R647: the mask of a vector or of the function changes. -/
def maskChange (vec : Option Nat) (mask : Bool) (s : State) : State :=
  let s := match vec with
    | some v => s.modEv (fun e => { e with table := tabMod {} e.table v (fun x => { x with mask }) })
    | none => s.modEv (fun e => { e with funMask := mask })
  if mask then s
  else match vec with
    | some v => sendPending [v] s
    | none => sendPending (setBits 2048 s.ev.pba) s

/-- MSIX_MASK_CHANGE (R647). The table of vectors lies in BAR0, the function mask in configuration space. -/
def execMsixMaskChange (vec : Option (Fin 2048)) (mask : Bool) (s : State) : Res :=
  .next (if s.host.d3 ∧ vec.isSome then s else maskChange (vec.map (·.val)) mask s)

/-! Reads. -/

/-- REG64_LOW_READ (R650, R651): the low word is read and the high word latched. The next read of the high word returns the
latched value; any other offset reads as its 32-bit register. -/
def execReg64LowRead (off : Nat) (s : State) : Res :=
  if s.host.d3 then .next s
  else match s.reg64 off with
    | some x =>
      let s := s.modEv (fun e => { e with latches := tabPut e.latches (off + 4) (BitVec.ofNat 32 (x / 4294967296)) })
      .next (s.send (.barData off (BitVec.ofNat 32 x)))
    | none => match s.reg64 (off - 4), lookupNat off s.ev.latches with
      | some _, some v => .next ((s.modEv (fun e => { e with latches := tabDel e.latches off })).send (.barData off v))
      | some x, none => .next (s.send (.barData off (BitVec.ofNat 32 (x / 4294967296))))
      | none, _ =>
        let (v, s) := s.freeVal
        .next (s.send (.barData off (BitVec.ofNat 32 (s.barReg v.toNat off))))

/-! Writes. -/

/-- Replace `n` bytes from `off` on. -/
def putBytes (l : Bytes) (off : Nat) (d : Bytes) : Bytes := l.take off ++ d ++ l.drop (off + d.length)

/-- A write to a register of a mailbox window, MBX_SEL apart (R418 to R427). -/
def mbxWrite (alias_ : Option (Fin 4)) (off : Nat) (v : BitVec 32) (s : State) : Res :=
  let m := s.winMbx alias_
  match off with
  | 0x004 => .next (s.modMbx m (fun b => { b with
      overrun := b.overrun && !v.getLsbD 2, ptrErr := b.ptrErr && !v.getLsbD 3, noOwn := b.noOwn && !v.getLsbD 4 }))
  | 0x00C => execMbxCmdPush alias_ v s
  | 0x014 => execMbxRspPop alias_ v s
  | 0x018 => if v.getLsbD 31 then execMbxOwnerRelease alias_ (v.setWidth 16) s else execMbxOwnerClaim alias_ (v.setWidth 16) s
  | _ => .next (if 0x040 ≤ off ∧ off < 0x080 then s.modMbx m (fun b => { b with stage := putBytes b.stage (off - 0x040) (leBytes 4 v.toNat) })
      else s)

/-- R560: bits of the DRAM delay registers that exist. -/
def delayMask (i : Nat) : BitVec 32 := match i with | 0 => 0x3F3FFFFF | 1 => 0x03FF03FF | _ => 0xFFFFFFFF

/-- R455: a write to the selected-unit window: the delay registers of a held DRAM channel in MANUFACTURE (R560), and the
failure bits of a rail. -/
def unitWrite (off : Nat) (v : BitVec 32) (s : State) : State :=
  let i := s.ctl.unitIdx
  match s.ctl.unitType with
  | 0x06 =>
    if 0x004 ≤ off ∧ off ≤ 0x01C ∧ (s.drch i).st = 0 ∧ s.test.lc = .manufacture then
      s.modDrch i (fun k => { k with delays := modAt k.delays (off / 4 - 1) (fun _ => v &&& delayMask (off / 4 - 1)) })
    else s
  | 0x07 =>
    if off = 0x004 then s.modRail i (fun r => { r with
      early := r.early && !v.getLsbD 7, noFall := r.noFall && !v.getLsbD 8, noGood := r.noGood && !v.getLsbD 9 })
    else s
  | _ => s

/-- A write to the MSI-X table (R650). -/
def msixWrite (off : Nat) (v : BitVec 32) (s : State) : State :=
  let i := (off - 0x20000) / 16
  let put := fun (f : MsixEntry → MsixEntry) => s.modEv (fun e => { e with table := tabMod {} e.table i f })
  match off % 16 with
  | 0 => put (fun x => { x with addr := x.addr.extractLsb' 32 32 ++ v })
  | 4 => put (fun x => { x with addr := v ++ x.addr.extractLsb' 0 32 })
  | 8 => put (fun x => { x with data := v })
  | _ => maskChange (some i) (v.getLsbD 0) s

/-- R19, R20: a write of a whole 32-bit register of BAR0. A field with a command of its own acts as that command does. -/
def barWrite (off : Nat) (v : BitVec 32) (s : State) : Res :=
  match off with
  | 0x00C => execGctlRstkey (v.extractLsb' 8 8) (s.modEv (fun e => { e with evMsix := v.getLsbD 0 }))
  | 0x010 => .next ((s.modCtl (fun c => { c with selErr := c.selErr && !v.getLsbD 0 })).modEv
      (fun e => { e with rstRef := e.rstRef && !v.getLsbD 1 }))
  | 0x200 =>
    let s := s.modDura (fun d => { d with done := d.done && !v.getLsbD 2, fail := d.fail && !v.getLsbD 3 })
    if v.getLsbD 0 then execMirrorCtlFlush s else .next s
  | 0x340 => .next (s.modCipher (fun c => { c with alarms := c.alarms &&& ~~~(v.setWidth 4) }))
  | 0x364 => if v.getLsbD 0 then execPwrCtlOffreq s else .next s
  | 0x378 => .next (s.modPower (fun p => { p with plogBack := v.toNat % 256, plogWord := v.toNat / 256 % 256 }))
  | 0x3A0 => .next (s.modFbank 0 (fun k => { k with pfail := k.pfail && !v.getLsbD 3, efail := k.efail && !v.getLsbD 4 }))
  | 0x3A4 => .next (s.modFbank 1 (fun k => { k with pfail := k.pfail && !v.getLsbD 3, efail := k.efail && !v.getLsbD 4 }))
  | 0x3C0 => execEccFlipWrite v s
  | 0x1000 => execMbxSelWrite v s
  | 0x2000 => execUnitSelWrite v s
  | 0x30018 => .next (s.modTest (fun t => { t with winBase := v.toNat / 32768 % 32 }))
  | _ =>
    if 0x1004 ≤ off ∧ off < 0x10C0 then mbxWrite none (off - 0x1000) v s
    else if 0x1400 ≤ off ∧ off < 0x1800 then mbxWrite (some (Fin.ofNat 4 ((off - 0x1400) / 0x100))) (off % 0x100) v s
    else if 0x3000 ≤ off ∧ off < 0x4000 then .next (unitWrite (off - 0x3000) v s)
    else if 0x10000 ≤ off ∧ off < 0x10080 then .next (clearStatus ((off - 0x10000) / 4) v s)
    else if 0x20000 ≤ off ∧ off < 0x28000 then .next (msixWrite off v s)
    else .next s

/-- REGISTER_WRITE (R19, R20, R390, R394): a write whose byte enables are not all set, or that is not aligned, is discarded
and counted. -/
def execRegisterWrite (off : Nat) (enables : BitVec 4) (v : BitVec 32) (s : State) : Res :=
  if s.host.d3 then .next s
  else if enables ≠ 0xF ∨ off % 4 ≠ 0 then .next (s.modHost (fun h => { h with badWr := sat8 h.badWr }))
  else barWrite off v s

/-! Thermal (R678). -/

/-- A reading above a temperature in °C; readings are in 0.125 °C. -/
def above (c : Nat) (t : BitVec 16) : Bool := decide (t.toInt > 8 * (c : Int))

/-- R678: the sensors in the 8 bytes of an event record's detail, a byte each in whole °C (log entry 104, DESIGN CHOICE). -/
def sensorDetail (l : List (BitVec 16)) : Nat := leVal (l.map (fun t => BitVec.ofInt 8 (t.toInt / 8)))

/-- JUNCTION_TEMP_SAMPLE (R678): event 992 when a first sensor exceeds 95 °C; the thermal timers run above 105 and 115 °C. -/
def execJunctionTempSample (t : Vector (BitVec 16) 8) (s : State) : Res :=
  let l := t.toList
  let was := s.power.jtemp.any (above 95)
  let s := s.modPower (fun p => { p with jtemp := l })
  let s := { s with plat := { s.plat with
    hotAt := if l.any (above 105) then (match s.plat.hotAt with | some x => some x | none => some s.now) else none
    critAt := if l.any (above 115) then (match s.plat.critAt with | some x => some x | none => some s.now) else none } }
  .next (if l.any (above 95) && !was then raiseWith 992 0 (sensorDetail l) s else s)

/-- THERMAL_CRITICAL_TIMER (R268, R678). -/
def execThermalCriticalTimer (s : State) : Res :=
  .next (if s.plat.hotAt.isSome then settle (relinquishCause (raiseWith 993 0 (sensorDetail s.power.jtemp) s)) else s)

/-- THERMAL_SHUTDOWN_TIMER (R502, R678): an off request. -/
def execThermalShutdownTimer (s : State) : Res :=
  .next (if s.plat.critAt.isSome then settle (offRequest s) else s)

end Sys2Proof.Machine
end

