-- ==== Sys2Proof/Machine/FlashRows.lean ====
section
/-! DEFINITION. What a flash bank does at the end of each pulse (R580 to R592, R600, R604), and reads of it that are bus
faults (R586, R587, R592). -/

namespace Sys2Proof.Machine

open Sys2Proof

/-- First and last local sectors of the spares (R579). -/
def spareSectors : List Nat := (List.range 270).map (· + 242)

/-- R581: the lowest unused spare of the bank takes the place of a sector; none when all are used. -/
def FBank.substitute (b x : Nat) (k : FBank) : Option (Nat × FBank) :=
  let home := match k.spares.find? (fun e => e.1 == x) with | some e => e.2 | none => x
  match spareSectors.find? (fun i => !k.spares.any (fun e => e.1 == 512 * b + i)) with
  | some i => some (512 * b + i, { k with spares := (512 * b + i, home) :: k.spares })
  | none => none

/-- The operation leaves the bank and the next one starts. -/
def bankFree (b : Nat) (s : State) : State :=
  let fail := s.power.pwrFail
  flashStart b (s.modFbank b (fun k => { k with op := none, queue := if fail then k.queue.filter (fun o => o.marker) else k.queue }))

/-- R588, R589: what the bank does at a pulse boundary of an operation that goes on. -/
def boundary (b : Nat) (o : FOp) (s : State) : State :=
  let fail := s.power.pwrFail
  if fail ∧ !o.marker then
    bankFree b (s.modFbank b (fun k => { k with undef := if o.pulses = 0 then k.undef else insNat k.undef o.sector }))
  else
    s.modFbank b (fun k =>
      let ms := k.queue.filter (fun q => q.marker)
      let rest := k.queue.filter (fun q => !q.marker)
      if o.marker || ms.isEmpty then FBank.take o k
      else FBank.startNext fail (ms ++ [o] ++ rest) { k with op := none })

/-- R530, R604: the 0xC1 word is programmed: the session closes, event 979; a controller held at step 5 primes again. -/
def commitDone (img q cmd : Nat) (s : State) : State :=
  if s.flash.committing ≠ some cmd then s
  else
    let s := s.modFlash (fun f => { f with boot := (0xC1, img, q) :: f.boot, session := none, committing := none, written := [] })
    let s := raiseWith 979 img 0 s
    finish cmd stOk [] (s.modPrime (fun p => { p with bootFail := false }))

/-- The copy of a record of bank 0 goes to bank 1 (R580, R600). -/
def copyToBank1 (p : FPurpose) (s : State) : State :=
  match p with
  | .bootRec kind img q cmd => bootMark 1 kind img q cmd s
  | _ => flashQueue 1 { erase := false, sector := 640, left := 1, purpose := p } s

/-- R191: the park record is in both copies: P4 begins. -/
def parkRecorded (d : Nat) (s : State) : State :=
  if (s.drw d).st = .parking ∧ (s.drw d).step = .p3 then startP4 d s else s

/-- What an operation that has ended brings about. -/
def opEffect (b : Nat) (o : FOp) (s : State) : State :=
  match o.purpose with
  | .image _ off d cmd => imageDone off d cmd s
  | .bootRec kind img q cmd =>
    let s := if kind = 0xC1 then commitDone img q cmd s else s
    if b = 0 then copyToBank1 o.purpose s else s
  | .config _ => if b = 0 then copyToBank1 o.purpose s else s
  | .park d => if b = 0 then copyToBank1 o.purpose s else parkRecorded d s
  | .eraseLog => s.modFbank b (fun k => { k with
      eraseLog := if o.sector % 512 < 236 then ([], k.eraseLog.2) else (k.eraseLog.1, []) })
  | _ => s

/-- R581: after a failure in a configuration or recorder sector the spare takes the operation; an erase needs none. -/
def substituteSector (b : Nat) (o : FOp) (s : State) : State :=
  match (s.fbank b).substitute b o.sector with
  | some (_, k) =>
    let s := s.modFbank b (fun _ => k)
    let home := match k.spares with | e :: _ => e.2 | [] => o.sector
    if o.erase then s
    else s.modFbank b (fun k => { k with queue := { o with sector := home, pulses := 0 } :: k.queue })
  | none => s

/-- R581, R606: what a failed operation was for. -/
def opFailed (b : Nat) (o : FOp) (s : State) : State :=
  match o.purpose with
  | .image _ _ _ cmd => finish cmd stRefused (blkRefused 0x0057 devUnit) s
  | .bootRec kind _ _ cmd =>
    if b = 0 then copyToBank1 o.purpose s
    else if kind = 0xC1 ∧ s.flash.committing = some cmd then
      finish cmd stRefused (blkRefused 0x0057 devUnit) (s.modFlash (fun f => { f with committing := none }))
    else s
  | .config _ | .park _ | .critical _ | .criticalErase => substituteSector b o s
  | _ => s

/-- R578: a marker word takes a value. -/
def setMark (b w : Nat) (v : BitVec 64) (s : State) : State :=
  s.modFbank b (fun k => { k with marks := tabSet (BitVec.allOnes 64) k.marks w v })

/-- R582: the last pulse did not verify: fail flag, event 976, undefined content; a marker word reads a free value. -/
def pulseFail (b : Nat) (o : FOp) (s : State) : State :=
  let s := match o.words with | (w, _) :: _ => setMark b w (Config.free s.draws) s.freeVal.2 | [] => s
  let s := s.modFbank b (fun k => { k with
    pfail := k.pfail || !o.erase, efail := k.efail || o.erase, sector := o.sector, undef := insNat k.undef o.sector, op := none })
  bankFree b (opFailed b o (raiseWith 976 b o.sector s))

/-- A program goes on with its next word, or ends. Words that hold their value need no pulse (R583, R584). -/
def wordDone (b : Nat) (o : FOp) (s : State) : State :=
  let (s, next) := match o.purpose with
    | .image img off d _ =>
      let i := d.length / 8 - 1 - o.left
      let s := s.modFlash (fun f => { f with
        slots := tabSet (BitVec.allOnes 64) f.slots (img * slotWords + off / 8 + i) (BitVec.ofNat 64 (leVal (slice d (8 * i) 8))) })
      (s, if o.left = 0 then none
          else (s.flash.imageLeft img off d (o.left - 1)).map (fun l => { o with left := l, pulses := 0, sector := imageSector img off d l }))
    | _ =>
      match o.words with
      | (w, v) :: l =>
        let s := setMark b w v s
        (s, match (s.fbank b).dueWords l with
          | some (x :: l) => some { o with words := x :: l, left := l.length, pulses := 0 }
          | _ => none)
      | [] => (s, if o.left = 0 then none else some { o with left := o.left - 1, pulses := 0 })
  match next with
  | some o => boundary b o s
  | none => bankFree b (opEffect b o (s.modFbank b (fun k => { k with op := none })))

/-- FLASH_PROGRAM_PULSE_DONE (R582, R588, R589): at most 16 pulses a word. -/
def execFlashProgramPulseDone (bank : Fin 2) (verified : Bool) (s : State) : Res :=
  let b := bank.val
  .next (match (s.fbank b).op with
    | none => s
    | some o =>
      if o.erase then s
      else if verified then settle (wordDone b o s)
      else if o.pulses ≥ 15 then settle (pulseFail b o s)
      else boundary b { o with pulses := o.pulses + 1 } s)

/-- R578: an erased sector of a triad: with the second of its three the words read erased. -/
def FBank.markErased (sector : Nat) (k : FBank) : FBank :=
  let x := sector % 512 - 224
  if sector % 512 < 224 ∨ x ≥ 18 ∨ x % 3 ≠ 1 then k
  else { k with marks := k.marks.filter (fun e => e.1 / 8192 != x / 3) }

/-- R590, R603: a sector has verified: its entry is done; a slot's words are erased and count. -/
def sectorDone (b : Nat) (o : FOp) (s : State) : State :=
  let s := s.modFbank b (FBank.markErased o.sector)
  let s := s.modFbank b (fun k => (k.logDone o.sector) |> fun k => { k with undef := k.undef.filter (fun u => u != o.sector) })
  match o.purpose with
  | .slotErase img =>
    let lo := img * slotWords + o.sector % 512 * 8192
    s.modFlash (fun f => { f with
      erased := f.erased + 1, slots := f.slots.filter (fun e => !(decide (lo ≤ e.1) && decide (e.1 < lo + 8192))) })
  | _ => s

/-- FLASH_ERASE_PULSE_DONE (R582, R589 to R591): at most 64 pulses a sector; a power failure leaves no done mark. -/
def execFlashErasePulseDone (bank : Fin 2) (verified : Bool) (s : State) : Res :=
  let b := bank.val
  .next (match (s.fbank b).op with
    | none => s
    | some o =>
      if !o.erase then s
      else if s.power.pwrFail then boundary b { o with pulses := o.pulses + 1 } s
      else if !verified then
        if o.pulses ≥ 63 then settle (pulseFail b o s) else boundary b { o with pulses := o.pulses + 1 } s
      else
        let s := sectorDone b o s
        if o.left = 0 then settle (bankFree b (opEffect b o (s.modFbank b (fun k => { k with op := none }))))
        else boundary b { o with left := o.left - 1, pulses := 0, sector := o.sector + 1 } s)

/-- FLASH_BUS_FAULT_READ (R586, R587, R592): a read of a busy bank, of a half-erased sector or of an uncorrectable word is a
bus fault with event 978; the first kind counts in BUSYRD. Any other read gives its data. -/
def execFlashBusFaultRead (sector : Fin 1024) (uncor : Bool) (s : State) : Res :=
  let b := sector.val / 512
  let k := s.fbank b
  let fault := fun (s : State) => (raiseWith 978 b sector s).send (.busFault sector)
  .next (if k.op.isSome then fault (s.modFbank b (fun k => { k with busyRd := sat8 k.busyRd }))
    else if k.halfErased.contains sector.val || uncor then fault s
    else s)

end Sys2Proof.Machine
end

