-- ==== Sys2Proof/Machine/Dispatch.lean ====
section
/-! DEFINITION. The effect of a command: one arm per command of the opcode table. -/

namespace Sys2Proof.Machine

open Sys2Proof

/-- The effect of a command on everything but the queue. -/
def exec (i : Instr) (s : State) : Host.Outcome State Fault Refusal :=
  match i with
  | .write p data => Sys2Proof.Machine.execWrite p data s
  | .writeDurable p data => Sys2Proof.Machine.execWriteDurable p data s
  | .readReq p rlen rsv => Sys2Proof.Machine.execReadReq p rlen rsv s
  | .flush p => Sys2Proof.Machine.execFlush p s
  | .atomicCas p compare swap => Sys2Proof.Machine.execAtomicCas p compare swap s
  | .atomicFadd p addend rsv => Sys2Proof.Machine.execAtomicFadd p addend rsv s
  | .ack p b => Sys2Proof.Machine.execAck p b s
  | .probe p req => Sys2Proof.Machine.execProbe p req s
  | .witness p b => Sys2Proof.Machine.execWitness p b s
  | .readGatherComplete id => Sys2Proof.Machine.execReadGatherComplete id s
  | .reassemblyTimeout conn msg => Sys2Proof.Machine.execReassemblyTimeout conn msg s
  | .missingMessageTimeout conn => Sys2Proof.Machine.execMissingMessageTimeout conn s
  | .ackDelayTimer conn => Sys2Proof.Machine.execAckDelayTimer conn s
  | .retransmitTimer conn psn => Sys2Proof.Machine.execRetransmitTimer conn psn s
  | .creditIdleTimer conn => Sys2Proof.Machine.execCreditIdleTimer conn s
  | .hostCreditWaitTimer conn => Sys2Proof.Machine.execHostCreditWaitTimer conn s
  | .pathLivenessTimer conn q => Sys2Proof.Machine.execPathLivenessTimer conn q s
  | .ecnRateTimer conn q => Sys2Proof.Machine.execEcnRateTimer conn q s
  | .keyGenerationDiscard conn => Sys2Proof.Machine.execKeyGenerationDiscard conn s
  | .takeoverNoticeRepeat conn => Sys2Proof.Machine.execTakeoverNoticeRepeat conn s
  | .arpRequest port sub ip4 => Sys2Proof.Machine.execArpRequest port sub ip4 s
  | .neighbourSolicitation port sub ip6 => Sys2Proof.Machine.execNeighbourSolicitation port sub ip6 s
  | .echoRequest port sub v6 dst => Sys2Proof.Machine.execEchoRequest port sub v6 dst s
  | .nonVorwiriFrame port sub => Sys2Proof.Machine.execNonVorwiriFrame port sub s
  | .subportLinkChange port sub up => Sys2Proof.Machine.execSubportLinkChange port sub up s
  | .networkFecWindow port sub corrected uncor => Sys2Proof.Machine.execNetworkFecWindow port sub corrected uncor s
  | .log h e => Sys2Proof.Machine.execLog h e s
  | .applyAck h applied credit => Sys2Proof.Machine.execApplyAck h applied credit s
  | .heartbeat h role health wit applied devtime => Sys2Proof.Machine.execHeartbeat h role health wit applied devtime s
  | .digest h lsn value => Sys2Proof.Machine.execDigest h lsn value s
  | .relinquish h last cause => Sys2Proof.Machine.execRelinquish h last cause s
  | .takeoverGapFillTimeout => Sys2Proof.Machine.execTakeoverGapFillTimeout s
  | .takeoverAnnounceDelay => Sys2Proof.Machine.execTakeoverAnnounceDelay s
  | .takeover h fromLsn peer => Sys2Proof.Machine.execTakeover h fromLsn peer s
  | .fetchReq h nsid off lsn ftag => Sys2Proof.Machine.execFetchReq h nsid off lsn ftag s
  | .fetchResp h ftag mask data => Sys2Proof.Machine.execFetchResp h ftag mask data s
  | .mailbox h entry => Sys2Proof.Machine.execMailbox h entry s
  | .resyncReq h full tiles => Sys2Proof.Machine.execResyncReq h full tiles s
  | .resyncEntrySend => Sys2Proof.Machine.execResyncEntrySend s
  | .handshake h b => Sys2Proof.Machine.execHandshake h b s
  | .link h => Sys2Proof.Machine.execLink h s
  | .twinPortTrained port portNum lanesOk pair => Sys2Proof.Machine.execTwinPortTrained port portNum lanesOk pair s
  | .twinLinkAckTimer port => Sys2Proof.Machine.execTwinLinkAckTimer port s
  | .twinReplayTimer port => Sys2Proof.Machine.execTwinReplayTimer port s
  | .twinPortStallTimer port => Sys2Proof.Machine.execTwinPortStallTimer port s
  | .twinFecWindow port corrected uncor => Sys2Proof.Machine.execTwinFecWindow port corrected uncor s
  | .applyAckTimer => Sys2Proof.Machine.execApplyAckTimer s
  | .twinCreditWaitTimer => Sys2Proof.Machine.execTwinCreditWaitTimer s
  | .heartbeatTimer => Sys2Proof.Machine.execHeartbeatTimer s
  | .peerSilentTimer => Sys2Proof.Machine.execPeerSilentTimer s
  | .digestTimer => Sys2Proof.Machine.execDigestTimer s
  | .renewTimer => Sys2Proof.Machine.execRenewTimer s
  | .witnessResendTimer => Sys2Proof.Machine.execWitnessResendTimer s
  | .witnessRetryTimer => Sys2Proof.Machine.execWitnessRetryTimer s
  | .leaseLapseTimer => Sys2Proof.Machine.execLeaseLapseTimer s
  | .swapS1Timeout => Sys2Proof.Machine.execSwapS1Timeout s
  | .swapTakeoverTimeout => Sys2Proof.Machine.execSwapTakeoverTimeout s
  | .resyncTakeoverRepeat => Sys2Proof.Machine.execResyncTakeoverRepeat s
  | .coreWatchdogTimeout => Sys2Proof.Machine.execCoreWatchdogTimeout s
  | .clockMonitorWindow island khz edge => Sys2Proof.Machine.execClockMonitorWindow island khz edge s
  | .mediaStallTimer => Sys2Proof.Machine.execMediaStallTimer s
  | .readCwResponse ch tag status data => Sys2Proof.Machine.execReadCwResponse ch tag status data s
  | .peerFetchTimeout ftag => Sys2Proof.Machine.execPeerFetchTimeout ftag s
  | .writeCwResponse ch tag status => Sys2Proof.Machine.execWriteCwResponse ch tag status s
  | .dieStatusResponse ch tag status info => Sys2Proof.Machine.execDieStatusResponse ch tag status info s
  | .dieResetResponse ch tag status => Sys2Proof.Machine.execDieResetResponse ch tag status s
  | .tempResponse ch tag status info => Sys2Proof.Machine.execTempResponse ch tag status info s
  | .descriptorResponse ch tag status data => Sys2Proof.Machine.execDescriptorResponse ch tag status data s
  | .dieCommandTimeout ch tag => Sys2Proof.Machine.execDieCommandTimeout ch tag s
  | .dieResetTimeout ch tag => Sys2Proof.Machine.execDieResetTimeout ch tag s
  | .rowUpdateStart g => Sys2Proof.Machine.execRowUpdateStart g s
  | .mergeWaitExpiry op => Sys2Proof.Machine.execMergeWaitExpiry op s
  | .rowLeaseExpiry op ch => Sys2Proof.Machine.execRowLeaseExpiry op ch s
  | .gapMoveStart g e => Sys2Proof.Machine.execGapMoveStart g e s
  | .gapMoveYieldTimeout g e => Sys2Proof.Machine.execGapMoveYieldTimeout g e s
  | .scrubRead g => Sys2Proof.Machine.execScrubRead g s
  | .parkScrubDue d => Sys2Proof.Machine.execParkScrubDue d s
  | .rebuildRow g => Sys2Proof.Machine.execRebuildRow g s
  | .ceWindowTimer ch => Sys2Proof.Machine.execCeWindowTimer ch s
  | .flitReceive ch flit => Sys2Proof.Machine.execFlitReceive ch flit s
  | .lctl ch flit => Sys2Proof.Machine.execLctl ch flit s
  | .linkAckTimer ch => Sys2Proof.Machine.execLinkAckTimer ch s
  | .linkReplayTimer ch => Sys2Proof.Machine.execLinkReplayTimer ch s
  | .blockAlignmentLoss ch => Sys2Proof.Machine.execBlockAlignmentLoss ch s
  | .trn1 ch sender preset req lock eqDone => Sys2Proof.Machine.execTrn1 ch sender preset req lock eqDone s
  | .trn2 ch sender => Sys2Proof.Machine.execTrn2 ch sender s
  | .trainingStepTimeout ch => Sys2Proof.Machine.execTrainingStepTimeout ch s
  | .confirmPeriodExpiry ch => Sys2Proof.Machine.execConfirmPeriodExpiry ch s
  | .sidebandPollTimer d answers => Sys2Proof.Machine.execSidebandPollTimer d answers s
  | .tempPollTimer ch => Sys2Proof.Machine.execTempPollTimer ch s
  | .drawerRailGood d k => Sys2Proof.Machine.execDrawerRailGood d k s
  | .drawerRailOff d k => Sys2Proof.Machine.execDrawerRailOff d k s
  | .drawerWakeStepTimeout d => Sys2Proof.Machine.execDrawerWakeStepTimeout d s
  | .easelStateLoaded d => Sys2Proof.Machine.execEaselStateLoaded d s
  | .wakePeerTimeout d => Sys2Proof.Machine.execWakePeerTimeout d s
  | .parkStepTimeout d => Sys2Proof.Machine.execParkStepTimeout d s
  | .drawerSettleTimer d => Sys2Proof.Machine.execDrawerSettleTimer d s
  | .parkIdleTimer d => Sys2Proof.Machine.execParkIdleTimer d s
  | .drawerCheckTimer d => Sys2Proof.Machine.execDrawerCheckTimer d s
  | .schedRateTick h => Sys2Proof.Machine.execSchedRateTick h s
  | .spillwayMove => Sys2Proof.Machine.execSpillwayMove s
  | .dirtyBudgetEval => Sys2Proof.Machine.execDirtyBudgetEval s
  | .mirrorLagAgeLimit => Sys2Proof.Machine.execMirrorLagAgeLimit s
  | .mirrorCtlFlush => Sys2Proof.Machine.execMirrorCtlFlush s
  | .drainComplete => Sys2Proof.Machine.execDrainComplete s
  | .gctlRstkey key => Sys2Proof.Machine.execGctlRstkey key s
  | .hostLinkTrained rate width flitMode cxl => Sys2Proof.Machine.execHostLinkTrained rate width flitMode cxl s
  | .powerstateWrite d3 => Sys2Proof.Machine.execPowerstateWrite d3 s
  | .hdmDecoderCommit k base size ways => Sys2Proof.Machine.execHdmDecoderCommit k base size ways s
  | .memRd tag hpa => Sys2Proof.Machine.execMemRd tag hpa s
  | .memRdData tag hpa => Sys2Proof.Machine.execMemRdData tag hpa s
  | .memSpecRd tag hpa => Sys2Proof.Machine.execMemSpecRd tag hpa s
  | .memInv tag hpa => Sys2Proof.Machine.execMemInv tag hpa s
  | .memInvNT tag hpa => Sys2Proof.Machine.execMemInvNT tag hpa s
  | .memClnEvct tag hpa => Sys2Proof.Machine.execMemClnEvct tag hpa s
  | .memWr tag hpa data poison => Sys2Proof.Machine.execMemWr tag hpa data poison s
  | .memWrPtl tag hpa mask data poison => Sys2Proof.Machine.execMemWrPtl tag hpa mask data poison s
  | .gpfPhase2 => Sys2Proof.Machine.execGpfPhase2 s
  | .gpfTimeout => Sys2Proof.Machine.execGpfTimeout s
  | .perstAssert => Sys2Proof.Machine.execPerstAssert s
  | .hotReset => Sys2Proof.Machine.execHotReset s
  | .dlDown => Sys2Proof.Machine.execDlDown s
  | .flr => Sys2Proof.Machine.execFlr s
  | .hostDrainH3Timeout => Sys2Proof.Machine.execHostDrainH3Timeout s
  | .poisonedTlp isWrite => Sys2Proof.Machine.execPoisonedTlp isWrite s
  | .doeRequest cdat => Sys2Proof.Machine.execDoeRequest cdat s
  | .getEventRecords => Sys2Proof.Machine.execGetEventRecords s
  | .clearEventRecords count => Sys2Proof.Machine.execClearEventRecords count s
  | .getFwInfo => Sys2Proof.Machine.execGetFwInfo s
  | .getTimestamp => Sys2Proof.Machine.execGetTimestamp s
  | .setTimestamp value => Sys2Proof.Machine.execSetTimestamp value s
  | .getSupportedLogs => Sys2Proof.Machine.execGetSupportedLogs s
  | .getLog effects => Sys2Proof.Machine.execGetLog effects s
  | .identifyMemoryDevice => Sys2Proof.Machine.execIdentifyMemoryDevice s
  | .getPartitionInfo => Sys2Proof.Machine.execGetPartitionInfo s
  | .getHealthInfo => Sys2Proof.Machine.execGetHealthInfo s
  | .cxlUnsupportedCommand opcode => Sys2Proof.Machine.execCxlUnsupportedCommand opcode s
  | .mbxSelWrite v => Sys2Proof.Machine.execMbxSelWrite v s
  | .mbxCmdPush alias_ v => Sys2Proof.Machine.execMbxCmdPush alias_ v s
  | .mbxRspPop alias_ v => Sys2Proof.Machine.execMbxRspPop alias_ v s
  | .mbxOwnerClaim alias_ token => Sys2Proof.Machine.execMbxOwnerClaim alias_ token s
  | .mbxOwnerRelease alias_ token => Sys2Proof.Machine.execMbxOwnerRelease alias_ token s
  | .mbxLeaseExpiry m => Sys2Proof.Machine.execMbxLeaseExpiry m s
  | .unitSelWrite v => Sys2Proof.Machine.execUnitSelWrite v s
  | .setEndpointId eid => Sys2Proof.Machine.execSetEndpointId eid s
  | .getEndpointId => Sys2Proof.Machine.execGetEndpointId s
  | .getMctpVersionSupport => Sys2Proof.Machine.execGetMctpVersionSupport s
  | .getMessageTypeSupport => Sys2Proof.Machine.execGetMessageTypeSupport s
  | .getVendorDefinedMessageSupport => Sys2Proof.Machine.execGetVendorDefinedMessageSupport s
  | .mctpMailboxMessage eid pecOk entries => Sys2Proof.Machine.execMctpMailboxMessage eid pecOk entries s
  | .identify h => Sys2Proof.Machine.execIdentify h s
  | .getStatus h mbx tag => Sys2Proof.Machine.execGetStatus h mbx tag s
  | .abort h target => Sys2Proof.Machine.execAbort h target s
  | .setDurability h pHold kMargin tFixed => Sys2Proof.Machine.execSetDurability h pHold kMargin tFixed s
  | .setIntegrity h scope unit param value => Sys2Proof.Machine.execSetIntegrity h scope unit param value s
  | .setPool h p => Sys2Proof.Machine.execSetPool h p s
  | .setPort h p => Sys2Proof.Machine.execSetPort h p s
  | .setXport h p => Sys2Proof.Machine.execSetXport h p s
  | .setHostport h maxRate perstSys ssvid ssid => Sys2Proof.Machine.execSetHostport h maxRate perstSys ssvid ssid s
  | .setHdm h k nsid => Sys2Proof.Machine.execSetHdm h k nsid s
  | .clearHdm h k => Sys2Proof.Machine.execClearHdm h k s
  | .setEventRoute h ev vec cores msix => Sys2Proof.Machine.execSetEventRoute h ev vec cores msix s
  | .setCompat h mask => Sys2Proof.Machine.execSetCompat h mask s
  | .setMbx h lease addr => Sys2Proof.Machine.execSetMbx h lease addr s
  | .getConfig h param => Sys2Proof.Machine.execGetConfig h param s
  | .formatGroup h g => Sys2Proof.Machine.execFormatGroup h g s
  | .createNs h p => Sys2Proof.Machine.execCreateNs h p s
  | .deleteNs h nsid => Sys2Proof.Machine.execDeleteNs h nsid s
  | .resizeNs h nsid units => Sys2Proof.Machine.execResizeNs h nsid units s
  | .setNsAttr h nsid parkable cacheFill visVarnish encrypted => Sys2Proof.Machine.execSetNsAttr h nsid parkable cacheFill visVarnish encrypted s
  | .nsStatus h nsid => Sys2Proof.Machine.execNsStatus h nsid s
  | .readEasel h g e => Sys2Proof.Machine.execReadEasel h g e s
  | .memRead h nsid off len => Sys2Proof.Machine.execMemRead h nsid off len s
  | .memWrite h nsid off data => Sys2Proof.Machine.execMemWrite h nsid off data s
  | .parkDrawer h d => Sys2Proof.Machine.execParkDrawer h d s
  | .wakeDrawer h d => Sys2Proof.Machine.execWakeDrawer h d s
  | .setDrawer h d parkable parkIdle => Sys2Proof.Machine.execSetDrawer h d parkable parkIdle s
  | .drawerStatus h d => Sys2Proof.Machine.execDrawerStatus h d s
  | .openConnection h p => Sys2Proof.Machine.execOpenConnection h p s
  | .closeConnection h conn => Sys2Proof.Machine.execCloseConnection h conn s
  | .rekey h conn gen blob0 blob1 => Sys2Proof.Machine.execRekey h conn gen blob0 blob1 s
  | .connStatus h conn => Sys2Proof.Machine.execConnStatus h conn s
  | .registerGrant h p => Sys2Proof.Machine.execRegisterGrant h p s
  | .revokeGrant h akey => Sys2Proof.Machine.execRevokeGrant h akey s
  | .grantStatus h slot => Sys2Proof.Machine.execGrantStatus h slot s
  | .swapRoles h => Sys2Proof.Machine.execSwapRoles h s
  | .forceTakeover h => Sys2Proof.Machine.execForceTakeover h s
  | .setWitness h p => Sys2Proof.Machine.execSetWitness h p s
  | .setTwin h p => Sys2Proof.Machine.execSetTwin h p s
  | .twinStatus h => Sys2Proof.Machine.execTwinStatus h s
  | .scrubNow h g => Sys2Proof.Machine.execScrubNow h g s
  | .rebuild h g => Sys2Proof.Machine.execRebuild h g s
  | .sanitize h nsid => Sys2Proof.Machine.execSanitize h nsid s
  | .cisternTest h => Sys2Proof.Machine.execCisternTest h s
  | .margin h port rail step => Sys2Proof.Machine.execMargin h port rail step s
  | .chRetrain h ch => Sys2Proof.Machine.execChRetrain h ch s
  | .chSbreset h ch => Sys2Proof.Machine.execChSbreset h ch s
  | .chDesc h ch page => Sys2Proof.Machine.execChDesc h ch page s
  | .maintStatus h => Sys2Proof.Machine.execMaintStatus h s
  | .schedCreate h p => Sys2Proof.Machine.execSchedCreate h p s
  | .schedAppend h handle extents => Sys2Proof.Machine.execSchedAppend h handle extents s
  | .schedStart h handle => Sys2Proof.Machine.execSchedStart h handle s
  | .schedDelete h handle => Sys2Proof.Machine.execSchedDelete h handle s
  | .schedStatus h handle => Sys2Proof.Machine.execSchedStatus h handle s
  | .recFreeze h => Sys2Proof.Machine.execRecFreeze h s
  | .recUnfreeze h => Sys2Proof.Machine.execRecUnfreeze h s
  | .recRead h source start count => Sys2Proof.Machine.execRecRead h source start count s
  | .fwBegin h image len => Sys2Proof.Machine.execFwBegin h image len s
  | .fwData h image off data => Sys2Proof.Machine.execFwData h image off data s
  | .fwCommit h image => Sys2Proof.Machine.execFwCommit h image s
  | .fwActivate h image => Sys2Proof.Machine.execFwActivate h image s
  | .fwStatus h => Sys2Proof.Machine.execFwStatus h s
  | .lcAdvance h target auth => Sys2Proof.Machine.execLcAdvance h target auth s
  | .lcFuseItem h target item data auth => Sys2Proof.Machine.execLcFuseItem h target item data auth s
  | .lcStatus h => Sys2Proof.Machine.execLcStatus h s
  | .lcResetTimer => Sys2Proof.Machine.execLcResetTimer s
  | .jtagAuthenticate auth => Sys2Proof.Machine.execJtagAuthenticate auth s
  | .cipherKatTimer e failed keyStore => Sys2Proof.Machine.execCipherKatTimer e failed keyStore s
  | .cipherAlarm inputs => Sys2Proof.Machine.execCipherAlarm inputs s
  | .paletteUnwrapDone tag ok => Sys2Proof.Machine.execPaletteUnwrapDone tag ok s
  | .railSenseSample mv vinMv => Sys2Proof.Machine.execRailSenseSample mv vinMv s
  | .cisternSample meanMv => Sys2Proof.Machine.execCisternSample meanMv s
  | .railWarnTimer rail => Sys2Proof.Machine.execRailWarnTimer rail s
  | .railPgChange rail pg => Sys2Proof.Machine.execRailPgChange rail pg s
  | .railTOnExpiry rail => Sys2Proof.Machine.execRailTOnExpiry rail s
  | .railTOffExpiry rail => Sys2Proof.Machine.execRailTOffExpiry rail s
  | .railTDisExpiry rail => Sys2Proof.Machine.execRailTDisExpiry rail s
  | .windlassRisingEdge => Sys2Proof.Machine.execWindlassRisingEdge s
  | .windlassFallingEdge => Sys2Proof.Machine.execWindlassFallingEdge s
  | .cascadeWaitExpiry => Sys2Proof.Machine.execCascadeWaitExpiry s
  | .windlassStepTimeout => Sys2Proof.Machine.execWindlassStepTimeout s
  | .windlassFaultExit => Sys2Proof.Machine.execWindlassFaultExit s
  | .stuckLineTimeout => Sys2Proof.Machine.execStuckLineTimeout s
  | .cascadeTrainEnd pulses => Sys2Proof.Machine.execCascadeTrainEnd pulses s
  | .cascadeTimeout => Sys2Proof.Machine.execCascadeTimeout s
  | .rollCallTrainEnd holding => Sys2Proof.Machine.execRollCallTrainEnd holding s
  | .rollCallTimeout => Sys2Proof.Machine.execRollCallTimeout s
  | .pwrEnRise => Sys2Proof.Machine.execPwrEnRise s
  | .pwrEnFall => Sys2Proof.Machine.execPwrEnFall s
  | .pwrCtlOffreq => Sys2Proof.Machine.execPwrCtlOffreq s
  | .pwrfailNLow => Sys2Proof.Machine.execPwrfailNLow s
  | .vinFail => Sys2Proof.Machine.execVinFail s
  | .offSettleTimer => Sys2Proof.Machine.execOffSettleTimer s
  | .cisternMeasureDue => Sys2Proof.Machine.execCisternMeasureDue s
  | .cisternPostponeTimer => Sys2Proof.Machine.execCisternPostponeTimer s
  | .cisternSettleTimer v0 => Sys2Proof.Machine.execCisternSettleTimer v0 s
  | .cisternV1WindowEnd v1 => Sys2Proof.Machine.execCisternV1WindowEnd v1 s
  | .cisternTestLoadEnd v2 => Sys2Proof.Machine.execCisternTestLoadEnd v2 s
  | .cisternChargeTimeout => Sys2Proof.Machine.execCisternChargeTimeout s
  | .pmbusResponse port voutMode => Sys2Proof.Machine.execPmbusResponse port voutMode s
  | .pmbusTimeout port => Sys2Proof.Machine.execPmbusTimeout port s
  | .aonPinInit => Sys2Proof.Machine.execAonPinInit s
  | .standbyPowerGood => Sys2Proof.Machine.execStandbyPowerGood s
  | .crystalStable r => Sys2Proof.Machine.execCrystalStable r s
  | .primingStepComplete r => Sys2Proof.Machine.execPrimingStepComplete r s
  | .primingStepTimeout r => Sys2Proof.Machine.execPrimingStepTimeout r s
  | .hsHelloTimer => Sys2Proof.Machine.execHsHelloTimer s
  | .hsDecideRetryTimer => Sys2Proof.Machine.execHsDecideRetryTimer s
  | .hsWaitExpiry => Sys2Proof.Machine.execHsWaitExpiry s
  | .waitpeerRenewTimer => Sys2Proof.Machine.execWaitpeerRenewTimer s
  | .regionClearTimer g => Sys2Proof.Machine.execRegionClearTimer g s
  | .suspectRowSettle g => Sys2Proof.Machine.execSuspectRowSettle g s
  | .dramRefreshTimer ch behindRequests => Sys2Proof.Machine.execDramRefreshTimer ch behindRequests s
  | .dramMr4Poll ch rank mult temp hot => Sys2Proof.Machine.execDramMr4Poll ch rank mult temp hot s
  | .zqCalibrationTimer ch rank => Sys2Proof.Machine.execZqCalibrationTimer ch rank s
  | .selfRefreshIdle ch => Sys2Proof.Machine.execSelfRefreshIdle ch s
  | .activationTableClear ch rank => Sys2Proof.Machine.execActivationTableClear ch rank s
  | .dramPatrolRead ch => Sys2Proof.Machine.execDramPatrolRead ch s
  | .dramCeWindow ch => Sys2Proof.Machine.execDramCeWindow ch s
  | .dramReadComplete addr words => Sys2Proof.Machine.execDramReadComplete addr words s
  | .flashProgramPulseDone bank verified => Sys2Proof.Machine.execFlashProgramPulseDone bank verified s
  | .flashErasePulseDone bank verified => Sys2Proof.Machine.execFlashErasePulseDone bank verified s
  | .flashBusFaultRead sector uncor => Sys2Proof.Machine.execFlashBusFaultRead sector uncor s
  | .eccFlipWrite v => Sys2Proof.Machine.execEccFlipWrite v s
  | .eccInjectionApply unit addr => Sys2Proof.Machine.execEccInjectionApply unit addr s
  | .transparentTestRegion place outcome spareFree => Sys2Proof.Machine.execTransparentTestRegion place outcome spareFree s
  | .recorderSpill => Sys2Proof.Machine.execRecorderSpill s
  | .recFreezeTimeout => Sys2Proof.Machine.execRecFreezeTimeout s
  | .evStatusClear w mask raised => Sys2Proof.Machine.execEvStatusClear w mask raised s
  | .msixMaskChange vec mask => Sys2Proof.Machine.execMsixMaskChange vec mask s
  | .reg64LowRead off => Sys2Proof.Machine.execReg64LowRead off s
  | .registerWrite off enables v => Sys2Proof.Machine.execRegisterWrite off enables v s
  | .junctionTempSample t => Sys2Proof.Machine.execJunctionTempSample t s
  | .thermalCriticalTimer => Sys2Proof.Machine.execThermalCriticalTimer s
  | .thermalShutdownTimer => Sys2Proof.Machine.execThermalShutdownTimer s
  | .grantDeadTimer slot => Sys2Proof.Machine.execGrantDeadTimer slot s
  | .revocationDropTimer slot => Sys2Proof.Machine.execRevocationDropTimer slot s
  | .probeResendTimer conn => Sys2Proof.Machine.execProbeResendTimer conn s
  | .xportEntryTimer conn => Sys2Proof.Machine.execXportEntryTimer conn s
  | .idleOs ch => Sys2Proof.Machine.execIdleOs ch s
  | .perstDeassert => Sys2Proof.Machine.execPerstDeassert s
  | .twinPortLinkLoss port => Sys2Proof.Machine.execTwinPortLinkLoss port s
  | .cipherAlarmDeassert inputs => Sys2Proof.Machine.execCipherAlarmDeassert inputs s
  | .primingDrawerWakeStagger d => Sys2Proof.Machine.execPrimingDrawerWakeStagger d s

end Sys2Proof.Machine
end

