-- ==== Sys2Proof/Machine/Step.lean ====
section
/-! DEFINITION. One step of the block: the command at the front of the queue, or one idle tick. -/

namespace Sys2Proof.Machine

open Sys2Proof

/-- One step. With a command waiting, it leaves the queue and has its effect; with none, one nanosecond
passes (log entry 3, DESIGN CHOICE) and the media lanes carry IDLE flits (R149); the twin lanes run on (R246). -/
def step (s : State) : Host.Outcome State Fault Refusal :=
  match s.pending with
  | c :: rest => exec c { s with pending := rest }
  | [] => .next (fillLanes (idleFlits { s with now := s.now + 1 }))

/-- The state with the command that a table word spells at the front of its queue. -/
def State.withFetchWord (s : State) (nbits w : Nat) : State :=
  match Sys2Proof.decodeTableWord nbits w with
  | some i => { s with pending := i :: s.pending }
  | none => s

end Sys2Proof.Machine
end

