-- ==== Sys2Proof/Safety.lean ====
section
/-! DEFINITION. What counts as a safe run, and the words in which claims say what a command leaves alone and which
commands are acted on. -/

namespace Sys2Proof.Machine

open Sys2Proof

/-- A step goes on: it neither faults nor is refused. -/
def Runs (s : State) : Prop := ∃ t, step s = .next t

/-- `t` is `s` but for what events and records are written to: the event registers, the recorder, the flash queues, and
what the block has sent. -/
def Reports (s t : State) : Prop := t = { s with ev := t.ev, test := t.test, flash := t.flash, out := t.out }

/-- R21: event `x` is neither pending nor counted. -/
def Events.quiet (e : Events) (x : Nat) : Prop := e.status.getLsbD x = false ∧ tabGet 0 e.counts x = 0

/-- The shape of the machine and R21: eight mailboxes, eight cipher engines, two flash banks (R577) and four HDM decoders,
and no reserved event raised. -/
structure State.Inv (s : State) : Prop where
  mbx : s.ctl.mbx.length = 8
  engines : s.cipher.engines.length = 8
  banks : s.flash.banks.length = 2
  hdm : s.host.hdm.length = 4
  reserved : ∀ x, eventReserved x = true → s.ev.quiet x

/-- What no command undoes on the way from `s0` to `s`: the queue and the clock are as they were, no draw of a free or random
value is taken back, what was sent stays sent, a blown life-cycle fuse stays blown (R624), and the invariant goes on. -/
structure Keeps (s0 s : State) : Prop where
  pending : s.pending = s0.pending
  now : s.now = s0.now
  draws : s0.draws ≤ s.draws
  out : s0.out <+: s.out
  lcFuses : s0.test.lcFuses ≤ s.test.lcFuses
  inv : s0.Inv → s.Inv

/-! A mailbox command that is taken and passes the checks before its own (R422, R431, R432, R436, R452). -/

/-- The mailbox command has left the head of its FIFO. -/
def fetched (h : CmdHdr) (code : Nat) (s : State) : State := mbxTake h.mbx.val code h.tag.toNat h.nent s

/-- Its number. -/
def cmdId (h : CmdHdr) (code : Nat) (s : State) : Nat := (fetched h code s).ctl.nextCmd

/-- The state in which its objects and parameters are checked: its response entries are reserved, and it runs. -/
def opened (h : CmdHdr) (code : Nat) (kind : CmdKind) (unit : Nat) (s : State) : State :=
  (openCmd h.mbx.val code h.tag kind unit (fetched h code s)).2

/-- A command of this code and kind leaves its FIFO now: its mailbox is served, its largest response has room, and no
immediate command of the mailbox runs (R422, R431, R452). -/
def leavesFifo (h : CmdHdr) (code : Nat) (s : State) : Bool :=
  let m := h.mbx.val
  s.mbxServed m && decide (rspMax code ≤ rspRoom (s.mbx m)) && !(s.ctl.running.any (fun r => r.mbx == m && r.kind == .immediate))

/-- It passes the checks of R432 on life cycle, mailbox, tag, priming, role and the number of outstanding commands. -/
def admitted (h : CmdHdr) (code : Nat) (kind : CmdKind) (unit : Nat) (s : State) : Bool :=
  let m := h.mbx.val
  let t := fetched h code s
  let u := opened h code kind unit s
  groupLc code t.test.lc && groupMbx code m && !(t.ctl.running.any (fun r => r.mbx == m && r.tag == h.tag))
    && (m != 4 || u.atRun || [0x00, 0x08, 0x09].contains (code / 256)) && !u.roleBars code
    && (kind == .immediate || decide (t.longOn m < 8))

/-- The command is taken and admitted. -/
def takes (h : CmdHdr) (code : Nat) (kind : CmdKind) (unit : Nat) (s : State) : Bool :=
  leavesFifo h code s && admitted h code kind unit s

/-- The state after an immediate command that is answered OK with a block of the state it is checked in. -/
def answered (h : CmdHdr) (code unit : Nat) (block : State → Bytes) (s : State) : State :=
  let u := opened h code .immediate unit s
  settle (finish (cmdId h code s) stOk (block u) u)

/-- The configuration record passes the checks of R432 to R434 in `u`: objects, ranges, resources, consistency. -/
def acceptable (c : Cfg) (u : State) : Bool :=
  (u.cfgCheck c).isNone && (u.cfgBusy c).isNone && (u.cfgConsistent c).isNone

/-- The state whose CONTROL entry and recorder record have been written, and its LSN (R255, R435). -/
def logged (h : CmdHdr) (code : Nat) (kind : CmdKind) (unit : Nat) (c : Cfg) (s : State) : State :=
  let p := logControl code h.tag 0 c (opened h code kind unit s)
  record 0x0004 0xFFFF false (commitBody code h.tag 0 p.2) p.1

/-- LSN of that CONTROL entry. -/
def loggedLsn (h : CmdHdr) (code : Nat) (kind : CmdKind) (unit : Nat) (c : Cfg) (s : State) : Lsn :=
  (logControl code h.tag 0 c (opened h code kind unit s)).2

/-- The configuration command is taken, admitted and acceptable. -/
def commits (h : CmdHdr) (code : Nat) (kind : CmdKind) (unit : Nat) (c : Cfg) (s : State) : Bool :=
  takes h code kind unit s && acceptable c (opened h code kind unit s)

/-- The state after an immediate configuration command whose record changes the logged state to `change` of it: the
answer OK, with a block of the state before, waits for the entry's acknowledgement (R435). -/
def committed (h : CmdHdr) (code unit : Nat) (c : Cfg) (block : State → Bytes) (change : State → State) (s : State) : State :=
  settle (answerLogged (cmdId h code s) (loggedLsn h code .immediate unit c s) stOk (block (opened h code .immediate unit s))
    (change (logged h code .immediate unit c s)))

/-! Packets and twin frames that pass their checks (R243, R250, R251, R316). -/

/-- A host's sequenced packet passes checks 1 to 10 of R316; `auth` says that its tag verifies. -/
def hostAccepts (p : Pkt) (op : NetOp) (hdr auth : Bool) (s : State) : Bool :=
  let r := rxChecks p false hdr auth false false s
  r.2 && (seqChecks p (some op) r.1).2

/-- The state after those checks. -/
def hostAt (p : Pkt) (op : NetOp) (hdr auth : Bool) (s : State) : State :=
  (seqChecks p (some op) (rxChecks p false hdr auth false false s).1).1

/-- What follows a packet that was acted on between `before` and `after` (R255, R320). -/
def pktClose (p : Pkt) (before after : State) : State :=
  settle (xportChanged p.conn.toNat (ackDue p.conn.toNat (p.psn != (before.conn p.conn.toNat).cumPsn + 1) (noteArrival p after)))

/-- The packet is the first of its message, and the message is one that may begin (R324 to R331, R334). -/
def begins (p : Pkt) (op : NetOp) (data : Bytes) (rlen : Nat) (t : State) : Bool :=
  let k := t.conn p.conn.toNat
  let off := p.msgOff.toNat
  !k.dropped.contains p.msgId && later p.msgId k.wmark && decide (dist k.wmark p.msgId ≤ 1024) && (k.msg p.msgId).isNone
    && !tooBig op off data.length rlen && (!p.first || off == 0) && decide (t.inReassembly < 262144) && !t.prime.noAdmit
    && (!isWrite op || t.pktRoom p.conn.toNat (p.raddr.toNat + off) data.length)

/-- The message that a packet begins. -/
def begun (p : Pkt) (op : NetOp) (rlen : Nat) (t : State) : Msg :=
  { id := p.msgId, op, akey := p.akey, raddr := p.raddr.toNat, port := p.port, firstAt := t.now, rlen, psn := p.psn }

/-- A host's control packet passes checks 1 to 9 of R316; `auth` says that its tag verifies. -/
def ctlAccepts (p : Pkt) (n : Nat) (auth : Bool) (s : State) : Bool :=
  let r := rxChecks p true (headerOk p true n && controlOk p) auth false true s
  r.2 && (ctlCheck p r.1).2

/-- The state after those checks. -/
def ctlAt (p : Pkt) (n : Nat) (auth : Bool) (s : State) : State :=
  (ctlCheck p (rxChecks p true (headerOk p true n && controlOk p) auth false true s).1).1

/-- A twin frame has a good FCS, comes on a port in service and in order, and is of the present epoch. -/
def frameAccepts (h : TwinHdr) (b : TwinBody) (s : State) : Bool :=
  let r := linkGate h b s
  r.2 && r.1.twin.role != .priming && h.epoch == r.1.twin.epoch

/-- The state in which the frame is acted on: the peer has been heard. -/
def frameAt (h : TwinHdr) (b : TwinBody) (s : State) : State := heard (linkGate h b s).1

end Sys2Proof.Machine
end

