-- ==== Sys2Proof/Certificates/Slice0/Obligations.lean ====
section
/-! DEFINITION. Statements about the ZD-2144 for the provers. -/

open Sys2Proof Sys2Proof.Machine

/-- The queue and the clock of the model (log entry 3, DESIGN CHOICE): a step takes the command at the front of the queue and runs it on the rest. -/
def Obligations.StepRunsTheFrontCommand : Prop :=
  ∀ (c : Instr) (rest : List Instr) (s : State), s.pending = c :: rest → step s = exec c { s with pending := rest }

/-- With no command waiting the block idles: one nanosecond passes, every ACTIVE media link whose time has come sends an IDLE flit (R154, log entry 118), and every twin
lane is filled (R246, log entry 127); nothing else changes (log entry 3, DESIGN CHOICE, the model's choice). -/
def Obligations.EmptyQueueIdles : Prop :=
  ∀ s : State, s.pending = [] → step s = .next (fillLanes (idleFlits { s with now := s.now + 1 }))

/-- No command stops the model: on all operands and in every state each of the 294 commands answers a next state, so every step goes on. -/
def Obligations.EveryCommandAnswersNext : Prop :=
  (∀ (c : Instr) (s : State), ∃ t, exec c s = .next t) ∧ ∀ s : State, Runs s

/-- Reset values of the register tables: DEV_ID.PART, DEV_REV, LCS, GCTL, GSTAT (ISLAND none), BOOTCNT, TWIN_ROLE, ECC_FLIP, FL_BANK, UNIT_SEL
and the EV_STATUS words, with no event pending, no command waiting and every mailbox unowned. -/
def Obligations.ResetRegisterValues : Prop :=
  let r := State.reset
  r.barReg 0 0x000 % 65536 = 0x2144 ∧ r.barReg 0 0x004 = 0x10 ∧ r.barReg 0 0x008 = 0 ∧ r.barReg 0 0x00C = 0 ∧ r.barReg 0 0x010 = 0xFE0
    ∧ r.barReg 0 0x020 = 0 ∧ r.barReg 0 0x280 = 0 ∧ r.barReg 0 0x3C0 = 0 ∧ r.barReg 0 0x3A0 = 0 ∧ r.barReg 0 0x3A4 = 0
    ∧ r.barReg 0 0x2000 = 0 ∧ (∀ w, w < 32 → r.barReg 0 (0x10000 + 4 * w) = 0) ∧ r.pending = [] ∧ r.ev.status = 0
    ∧ r.ctl.mbx.length = 8 ∧ (∀ m, m < 8 → (r.mbx m).token = 0)

/-- Serial-number arithmetic: `earlier`, `later` and a pair half the space apart; any other two values compare one way. -/
def Obligations.SerialNumbersCompare : Prop :=
  ∀ (n : Nat) (a b : BitVec n), 0 < n →
    (earlier a b = true ↔ 1 ≤ (b.toNat + 2 ^ n - a.toNat) % 2 ^ n ∧ (b.toNat + 2 ^ n - a.toNat) % 2 ^ n ≤ 2 ^ (n - 1) - 1) ∧
    (later a b = true ↔ 1 ≤ (a.toNat + 2 ^ n - b.toNat) % 2 ^ n ∧ (a.toNat + 2 ^ n - b.toNat) % 2 ^ n ≤ 2 ^ (n - 1) - 1) ∧
    ((b.toNat + 2 ^ n - a.toNat) % 2 ^ n = 2 ^ (n - 1) → earlier a b = false ∧ later a b = false) ∧
    (a ≠ b → (b.toNat + 2 ^ n - a.toNat) % 2 ^ n ≠ 2 ^ (n - 1) → (earlier a b = true ∧ later a b = false) ∨ (later a b = true ∧ earlier a b = false))

/-- R312: the reconstructed epoch lies from the receiver's own epoch − 16 to its own epoch + 15 and has EPL as its low 5 bits, and no other epoch of
that range has them. -/
def Obligations.SenderEpochIsReconstructed : Prop :=
  ∀ (own : Epoch) (epl : BitVec 5), ∃ d : Int, -16 ≤ d ∧ d ≤ 15 ∧ (rxEpoch own epl).1 = own + BitVec.ofInt 32 d ∧
    (rxEpoch own epl).1.toNat % 32 = epl.toNat ∧
    ∀ d' : Int, -16 ≤ d' → d' ≤ 15 → (own + BitVec.ofInt 32 d').toNat % 32 = epl.toNat → d' = d

/-- R311: the fields of the nonce; and two packets that differ in sender, kind, epoch modulo 2^14 or PSN never share one. -/
def Obligations.NonceFieldsAreDistinct : Prop :=
  (∀ (salt : BitVec 32) (ctl : Bool) (e : Epoch) (psn : Psn),
    (∀ n, n = txNonce salt ctl e psn ∨ n = rxNonce salt ctl e psn → n.extractLsb' 64 32 = salt ∧ n.getLsbD 62 = ctl
      ∧ n.extractLsb' 48 14 = e.extractLsb' 0 14 ∧ n.extractLsb' 0 48 = psn) ∧
    (txNonce salt ctl e psn).getLsbD 63 = true ∧ (rxNonce salt ctl e psn).getLsbD 63 = false) ∧
  (∀ (salt : BitVec 32) (c c' : Bool) (e e' : Epoch) (p p' : Psn), txNonce salt c e p ≠ rxNonce salt c' e' p' ∧
    (txNonce salt c e p = txNonce salt c' e' p' → c = c' ∧ e.toNat % 16384 = e'.toNat % 16384 ∧ p = p'))

/-- R84: the split of the row into l and r and the four rounds; and the rounds permute the 20-bit rows, their inverse undoing them. -/
def Obligations.FeistelPermutesRows : Prop :=
  ∀ k0 k1 k2 k3 : BitVec 10,
    let f := fun (v : Nat) (k : BitVec 10) => ((v ^^^ k.toNat) * 421 + 341) % 1024
    let key := [k0, k1, k2, k3]
    (∀ x, x < 2 ^ 20 →
      let l0 := x >>> 10
      let r0 := x &&& 0x3FF
      let r1 := l0 ^^^ f r0 k0
      let r2 := r0 ^^^ f r1 k1
      let r3 := r1 ^^^ f r2 k2
      let r4 := r2 ^^^ f r3 k3
      feistel x key = (r3 <<< 10) ||| r4 ∧ feistel x key < 2 ^ 20) ∧
    (∀ x y, x < 2 ^ 20 → y < 2 ^ 20 → feistel x key = feistel y key → x = y) ∧
    (∀ x, x < 2 ^ 20 → feistelInv (feistel x key) key = x)

/-- R85: s = (x + start) mod 2^20, and s + 1 when s ≥ gap; and the mapping never gives the gap, nor one slot to two rows, and its inverse undoes it. -/
def Obligations.StartGapAvoidsTheGap : Prop :=
  ∀ x start gap : Nat, x < 2 ^ 20 → start ≤ 1048575 → gap ≤ 1048576 →
    let s := (x + start) % 2 ^ 20
    startGap x start gap = (if s ≥ gap then s + 1 else s) ∧ startGap x start gap ≤ 1048576 ∧ startGap x start gap ≠ gap ∧
    startGapInv (startGap x start gap) start gap = some x ∧
    ∀ y, y < 2 ^ 20 → startGap y start gap = startGap x start gap → y = x

/-- R71: parity lies on position G mod 9 and data codeword c on position (p + 1 + c) mod 9; and the parity and the eight data codewords of a row lie on
nine different positions. -/
def Obligations.RowPositionsRotate : Prop :=
  ∀ G c : Nat, c ≤ 7 → parityPos G = G % 9 ∧ dataPos G c = (G % 9 + 1 + c) % 9 ∧ dataPos G c ≠ parityPos G ∧
    posData G (dataPos G c) = some c ∧ posData G (parityPos G) = none ∧ ∀ c', c' ≤ 7 → dataPos G c' = dataPos G c → c' = c

/-- R427: a push or pop (MBX_CMD_PUSH, MBX_RSP_POP with bit 0 set) on a mailbox whose TOKEN is 0 changes nothing but MBX_STATUS.NOOWN. -/
def Obligations.PushAndPopNeedAnOwner : Prop :=
  ∀ (w : Option (Fin 4)) (v : BitVec 32) (s : State), (s.mbx (s.winMbx w)).token = 0 → v.getLsbD 0 = true →
    exec (.mbxCmdPush w v) s = .next (s.modMbx (s.winMbx w) (fun b => { b with noOwn := true })) ∧
    exec (.mbxRspPop w v) s = .next (s.modMbx (s.winMbx w) (fun b => { b with noOwn := true }))

/-- R454: the unit types and index ranges that UNIT_SEL takes; any other TYPE or INDEX leaves UNIT_SEL and sets GSTAT.SELERR. -/
def Obligations.UnitSelectTakesTheTable : Prop :=
  ∀ (v : BitVec 32) (s : State),
    let ix := v.toNat % 65536
    let ty := v.toNat / 16777216
    let table := [(0x01, 143), (0x02, 15), (0x03, 7), (0x04, 7), (0x05, 3), (0x06, 31), (0x07, 47), (0x08, 7), (0x09, 7), (0x0A, 99), (0x0B, 1023)]
    ((∃ e ∈ table, ty = e.1 ∧ ix ≤ e.2) →
      exec (.unitSelWrite v) s = .next { s with ctl := { s.ctl with unitType := ty, unitIdx := ix } }) ∧
    ((¬ ∃ e ∈ table, ty = e.1 ∧ ix ≤ e.2) → exec (.unitSelWrite v) s = .next { s with ctl := { s.ctl with selErr := true } })

/-- R438: an ABORT that is taken and admitted, by what its TAG names on its own mailbox. An ABORT itself is never outstanding there beside
another (R431), so it is no target. The mark of a marked command is set again, which changes nothing. -/
def Obligations.AbortMarksOnceAtMost : Prop :=
  ∀ (h : CmdHdr) (tag : BitVec 16) (s : State), takes h 0x0003 .immediate devUnit s = true →
    let u := opened h 0x0003 .immediate devUnit s
    let id := cmdId h 0x0003 s
    (u.abortTarget h.mbx.val tag = none →
      exec (.abort h tag) s = .next (settle (finish id stNotFound [] u))) ∧
    (∀ r, u.abortTarget h.mbx.val tag = some r → r.kind ≠ .long →
      exec (.abort h tag) s = .next (settle (finish id stRefused (blkRefused 0x0003 devUnit) u))) ∧
    (∀ r, u.abortTarget h.mbx.val tag = some r → r.kind = .long → r.marked = false →
      exec (.abort h tag) s = .next (settle (abortNow { r with marked := true } (finish id stOk [] { u with ctl := { u.ctl with
        running := u.ctl.running.map (fun q => if q.id = r.id then { q with marked := true } else q) } })))) ∧
    (∀ r, u.abortTarget h.mbx.val tag = some r → r.kind = .long → r.marked = true →
      (∀ q, q ∈ u.ctl.running → q.id = r.id → q.marked = true) →
      exec (.abort h tag) s = .next (settle (finish id stOk [] u)))

/-- R645: what a raise sends, through `raiseBits`, which every raise goes through: the cores its route names hear it, and the vector's message goes
out once, when the bit was 0; with the vector masked, the message waits as a pending bit instead (R647). -/
def Obligations.RaiseSendsItsMessageOnce : Prop :=
  ∀ (x : Nat) (s : State),
    let r := s.ev.route x
    let cores := (setBits 4 r.cores).map (fun n => Out.core n x)
    let fires := !s.ev.status.getLsbD x && r.msix && s.ev.evMsix
    (fires = true → s.vecMasked r.vec = false →
      (raiseBits x s).out = s.out ++ cores ++ [.msix r.vec (s.ev.entry r.vec).addr (s.ev.entry r.vec).data]) ∧
    (fires = true → s.vecMasked r.vec = true →
      (raiseBits x s).out = s.out ++ cores ∧ (raiseBits x s).ev.pba = s.ev.pba ||| (1#2048 <<< r.vec)) ∧
    (fires = false → (raiseBits x s).out = s.out ++ cores ∧ (raiseBits x s).ev.pba = s.ev.pba) ∧
    (x < 1024 → (raiseBits x s).ev.status.getLsbD x = true) ∧
    (∀ y, y ≠ x → (raiseBits x s).ev.status.getLsbD y = s.ev.status.getLsbD y)

/-- R612: ECC_FLIP in END is ignored, and so is a write with TWO set in DEPLOYED; any other write arms the injection it names. -/
def Obligations.EccFlipIsGuarded : Prop :=
  ∀ (v : BitVec 32) (s : State),
    (s.test.lc = .endOfLife → exec (.eccFlipWrite v) s = .next s) ∧
    (s.test.lc = .deployed → v.getLsbD 19 = true → exec (.eccFlipWrite v) s = .next s) ∧
    (s.test.lc ≠ .endOfLife → (s.test.lc = .deployed → v.getLsbD 19 = false) →
      exec (.eccFlipWrite v) s = .next { s with test := { s.test with
        flipClass := v.toNat % 8, flipBit0 := v.toNat / 16 % 128, flipBit1 := v.toNat / 4096 % 128
        flipTwo := v.getLsbD 19, flipArm := v.getLsbD 20 } })

/-- R432, the refusals before the command's own checks, in their order, for any mailbox command that leaves its FIFO. -/
def Obligations.MailboxChecksComeInOrder : Prop :=
  ∀ (h : CmdHdr) (code : Nat) (kind : CmdKind) (unit : Nat) (check : State → Verdict) (run : Nat → State → State) (s : State),
    leavesFifo h code s = true →
    let m := h.mbx.val
    let t := fetched h code s
    let u := opened h code kind unit s
    let id := cmdId h code s
    let early := fun (st : Nat) (b : Bytes) =>
      respond m { code, tag := h.tag, status := st, rflags := 2 * bit (kind == .long), block := b } t
    let held := t.ctl.running.any (fun r => r.mbx == m && r.tag == h.tag)
    let soon := decide (m = 4) && !u.atRun && !([0x00, 0x08, 0x09].contains (code / 256))
    let outcome := takeCommand h code kind unit check run s
    (groupLc code t.test.lc = false → outcome = .next (early stLifecycle [])) ∧
    (groupLc code t.test.lc = true → groupMbx code m = false → outcome = .next (early stRefused (blkRefused 0x0002 devUnit))) ∧
    (groupLc code t.test.lc = true → groupMbx code m = true → held = true →
      outcome = .next (early stRefused (blkRefused 0x0001 devUnit))) ∧
    (groupLc code t.test.lc = true → groupMbx code m = true → held = false → soon = true →
      outcome = .next (settle (finish id stBusy (blkBusy 100000) u))) ∧
    (groupLc code t.test.lc = true → groupMbx code m = true → held = false → soon = false → u.roleBars code = true →
      outcome = .next (settle (finish id stRole u.blkRole u))) ∧
    (groupLc code t.test.lc = true → groupMbx code m = true → held = false → soon = false → u.roleBars code = false →
      (∀ v, check u = some v → outcome = .next (settle (finish id v.1 v.2 (blobEvent v u)))) ∧
      (check u = none → kind ≠ .immediate → 8 ≤ t.longOn m → outcome = .next (settle (finish id stBusy (blkBusy 1000) u))) ∧
      (check u = none → (kind = .immediate ∨ t.longOn m < 8) → outcome = .next (settle (run id u))))

/-- The state after reset meets the invariant: eight mailboxes, eight cipher engines, two flash banks, four HDM decoders, no reserved event raised. -/
def Obligations.ResetMeetsTheInvariant : Prop := State.reset.Inv

/-- Every step keeps the invariant: no command raises a reserved event (R21), and none changes how many mailboxes, cipher engines, flash banks and
HDM decoders there are. -/
def Obligations.EveryStepKeepsTheInvariant : Prop := ∀ s t : State, s.Inv → step s = .next t → t.Inv

/-- What no command undoes: it leaves the rest of the queue and the clock (both the model's own, log entry 2, DESIGN CHOICE), takes back no draw of a free or random
value and nothing that was sent, and clears no blown life-cycle fuse (R624). -/
def Obligations.NoCommandUndoesWhatIsDone : Prop :=
  ∀ (c : Instr) (s t : State), exec c s = .next t →
    t.pending = s.pending ∧ t.now = s.now ∧ s.draws ≤ t.draws ∧ s.out <+: t.out ∧ s.test.lcFuses ≤ t.test.lcFuses

/-- R102, R103: a sector without poisoned lines keeps its 256 data bytes, and its check bytes make both interleaves multiples of g(x), whose roots are
α^0 to α^15: each interleave, read as a polynomial from the highest power down, is 0 at every root. Sixteen check bytes with that property are the
remainder, since a polynomial of degree below 16 with these roots is 0. -/
def Obligations.CheckBytesMakeCodewords : Prop :=
  ∀ data : Bytes, data.length = 256 →
    (encodeSector 0 data).length = 288 ∧ (encodeSector 0 data).take 256 = data ∧
    ∀ i, i < 2 → ∀ j, j < 16 → polyEval (gfAlpha j) (interleave i (encodeSector 0 data)) = 0

/-- R105: a sector that was stored without poisoned lines and comes back unchanged decodes with offset 0 and no correction. -/
def Obligations.CleanSectorsDecodeUnchanged : Prop :=
  ∀ data : Bytes, data.length = 256 →
    decodeSector (encodeSector 0 data) = some { sec := encodeSector 0 data, mask := 0, fixes := 0 }

/-- R106, R107: the parity sector is the bytewise XOR of the eight data sectors, and each of the nine sectors of a row is the XOR of the other eight. -/
def Obligations.ParityRebuildsAnySector : Prop :=
  ∀ data : List Bytes, data.length = 8 → (∀ x ∈ data, x.length = 288) →
    (xorAll data).length = 288 ∧
    (∀ k, k < 288 → (xorAll data)[k]? = some ((data.map (fun x => x.getD k 0)).foldr (· ^^^ ·) 0)) ∧
    ∀ (row : List Bytes) (i : Nat) (x : Bytes), row = data ++ [xorAll data] → row[i]? = some x → xorAll (row.eraseIdx i) = x

/-- R553: the map of pool addresses over the usable channels, its ranges, and that two addresses of different 256-byte units never share a channel,
rank, bank, row and slot. An address whose row lies past the die (R552) has no place. -/
def Obligations.DramMapPlacesUnitsApart : Prop :=
  ∀ (chans : List Nat) (a : Nat), chans ≠ [] →
    (∀ p, dramMap chans a = some p → p.ch ∈ chans ∧ p.rank < 2 ∧ p.bank < 8 ∧ p.row < 131072 ∧ p.slot < 7 ∧
      chans[(a / 256) % chans.length]? = some p.ch ∧ p.slot = a / 256 / chans.length % 7 ∧ p.bank = a / 256 / chans.length / 7 % 8 ∧
      p.rank = a / 256 / chans.length / 7 / 8 % 2 ∧ p.row = a / 256 / chans.length / 7 / 16) ∧
    (dramMap chans a = none ↔ 131072 ≤ a / 256 / chans.length / 7 / 16) ∧
    (chans.Nodup → ∀ (b : Nat) (p : DramAddr), dramMap chans a = some p → dramMap chans b = some p → a / 256 = b / 256)

/-- R27, R31, R38, R42, R47, R316, R320, R322, R324 to R327, R333, R365, R371, R374: a packet of a host that passes every check and begins a message.
Under a LIVE grant that covers it, the message takes its references, and a write, a durable write or an atomic is placed, logged and settled, while a
READ_REQ is complete and is settled; a FLUSH needs no grant. A message that admission refuses is refused with its NAK, and wakes the drawers it needs. -/
def Obligations.HostPacketsBeginMessages : Prop :=
  -- WRITE
  (∀ (p : Pkt) (d : Bytes) (s : State), 1 ≤ d.length → hostAccepts p .write (headerOk p false d.length && decide (1 ≤ d.length)) (s.authentic p false 1 d) s = true →
    let t := hostAt p .write (headerOk p false d.length && decide (1 ≤ d.length)) (s.authentic p false 1 d) s
    begins p .write d 0 t = true →
    (∀ g q span, t.admission p.conn.toNat .write p.akey p.raddr.toNat (p.msgOff.toNat + d.length) 0 = .grant g q span →
      exec (.write p d) s = .next (pktClose p t (placePacket p true d ((takeRefs g span t).modConn p.conn.toNat (fun k => { k with
        msgs := insMsg { begun p .write 0 t with ns := q.nsid, grant := some (g, q.off, q.len), span } k.msgs }))))) ∧
    (∀ r wake, t.admission p.conn.toNat .write p.akey p.raddr.toNat (p.msgOff.toNat + d.length) 0 = .refuse r wake →
      exec (.write p d) s = .next (pktClose p t (refuseMsg p r (wakeSpan wake t))))) ∧
  -- WRITE_DURABLE
  (∀ (p : Pkt) (d : Bytes) (s : State), 1 ≤ d.length → hostAccepts p .writeDurable (headerOk p false d.length && decide (1 ≤ d.length)) (s.authentic p false 2 d) s = true →
    let t := hostAt p .writeDurable (headerOk p false d.length && decide (1 ≤ d.length)) (s.authentic p false 2 d) s
    begins p .writeDurable d 0 t = true →
    ∀ g q span, t.admission p.conn.toNat .writeDurable p.akey p.raddr.toNat (p.msgOff.toNat + d.length) 0 = .grant g q span →
      exec (.writeDurable p d) s = .next (pktClose p t (placePacket p true d ((takeRefs g span t).modConn p.conn.toNat (fun k => { k with
        msgs := insMsg { begun p .writeDurable 0 t with ns := q.nsid, grant := some (g, q.off, q.len), span } k.msgs }))))) ∧
  -- READ_REQ
  (∀ (p : Pkt) (n : BitVec 32) (s : State), hostAccepts p .readReq (headerOk p false 8 && singleOk p) (s.authentic p false 3 (beBytes 4 n.toNat ++ beBytes 4 0)) s = true →
    let t := hostAt p .readReq (headerOk p false 8 && singleOk p) (s.authentic p false 3 (beBytes 4 n.toNat ++ beBytes 4 0)) s
    begins p .readReq [] n.toNat t = true →
    ∀ g q span, t.admission p.conn.toNat .readReq p.akey p.raddr.toNat n.toNat n.toNat = .grant g q span →
      exec (.readReq p n 0) s = .next (pktClose p t (settlePkt p (advanceConn p.conn.toNat ((takeRefs g span t).modConn p.conn.toNat (fun k => { k with
        msgs := insMsg { begun p .readReq n.toNat t with ns := q.nsid, grant := some (g, q.off, q.len), span, st := .complete } k.msgs })))))) ∧
  -- FLUSH
  (∀ (p : Pkt) (s : State), hostAccepts p .flush (headerOk p false 0 && singleOk p && noTarget p) (s.authentic p false 5 []) s = true →
    let t := hostAt p .flush (headerOk p false 0 && singleOk p && noTarget p) (s.authentic p false 5 []) s
    begins p .flush [] 0 t = true → t.dura.clow = false → (t.conn p.conn.toNat).st = .opened → t.twin.swap = .none →
    exec (.flush p) s = .next (pktClose p t (settlePkt p (advanceConn p.conn.toNat (t.modConn p.conn.toNat (fun k => { k with
      msgs := insMsg { begun p .flush 0 t with st := .complete } k.msgs })))))) ∧
  -- ATOMIC_CAS
  (∀ (p : Pkt) (c w : Octet) (s : State), hostAccepts p .cas (headerOk p false 16 && singleOk p) (s.authentic p false 7 (c.toList ++ w.toList)) s = true →
    let t := hostAt p .cas (headerOk p false 16 && singleOk p) (s.authentic p false 7 (c.toList ++ w.toList)) s
    begins p .cas (c.toList ++ w.toList) 0 t = true →
    ∀ g q span, t.admission p.conn.toNat .cas p.akey p.raddr.toNat 8 0 = .grant g q span →
      exec (.atomicCas p c w) s = .next (pktClose p t (placePacket p true (c.toList ++ w.toList) ((takeRefs g span t).modConn p.conn.toNat
        (fun k => { k with msgs := insMsg { begun p .cas 0 t with ns := q.nsid, grant := some (g, q.off, q.len), span } k.msgs }))))) ∧
  -- ATOMIC_FADD
  (∀ (p : Pkt) (a z : Octet) (s : State), z.toList = List.replicate 8 0 → hostAccepts p .fadd (headerOk p false 16 && singleOk p) (s.authentic p false 8 (a.toList ++ z.toList)) s = true →
    let t := hostAt p .fadd (headerOk p false 16 && singleOk p) (s.authentic p false 8 (a.toList ++ z.toList)) s
    begins p .fadd (a.toList ++ z.toList) 0 t = true →
    ∀ g q span, t.admission p.conn.toNat .fadd p.akey p.raddr.toNat 8 0 = .grant g q span →
      exec (.atomicFadd p a z) s = .next (pktClose p t (placePacket p true (a.toList ++ z.toList) ((takeRefs g span t).modConn p.conn.toNat
        (fun k => { k with msgs := insMsg { begun p .fadd 0 t with ns := q.nsid, grant := some (g, q.off, q.len), span } k.msgs })))))

/-- R34 to R36, R255, R314, R318, R320, R321, R335, R337 to R347, R349, R356, R362, R370 to R373: a host's ACK and PROBE, a read whose lines are
gathered, and the transport's timers. An armed timer does its one thing: it drops the incomplete or missing message with NAK_SEQUENCE, sends the ACK
owed, sends the packet again, lowers or asks for credit, marks a path silent, raises its rate, discards the old key, repeats the notice, logs read-side
state, or returns a DEAD slot to FREE. -/
def Obligations.ControlPacketsAndTransportTimers : Prop :=
  -- ACK, PROBE
  (∀ (p : Pkt) (b : AckBody) (s : State), b.rsv = 0 → ctlAccepts p 56 (s.authentic p true 0x0A (ackPayload b)) s = true →
    exec (.ack p b) s = .next (settle (xportChanged p.conn.toNat (ackBody p b (ctlAt p 56 (s.authentic p true 0x0A (ackPayload b)) s))))) ∧
  (∀ (p : Pkt) (r : BitVec 32) (s : State), ctlAccepts p 4 (s.authentic p true 0x0C (beBytes 4 r.toNat)) s = true →
    let t := ctlAt p 4 (s.authentic p true 0x0C (beBytes 4 r.toNat)) s
    let c := p.conn.toNat
    exec (.probe p r) s = .next (settle (xportChanged c (pumpTx c (sendAck c false 0 (renewCredit c (t.modConn c (fun k => { k with
      usedAt := t.now, hostLimit := if k.rxCsn = some p.psn then p.climit else k.hostLimit })))))))) ∧
  -- READ_GATHER_COMPLETE
  (∀ (id c : Nat) (m : MsgId) (g : Gather) (x : Msg) (s : State), s.xport.gathers.find? (fun g => g.id == id) = some g → g.net = some (c, m) →
    g.needs = [] → g.stale = false → (s.conn c).msg m = some x →
    (s.gatherLate g = false → exec (.readGatherComplete id) s = .next (settle (answerRead c x g s))) ∧
    (s.gatherLate g = true → exec (.readGatherComplete id) s = .next (settle (gatherRun g s)))) ∧
  -- REASSEMBLY_TIMEOUT, MISSING_MESSAGE_TIMEOUT
  (∀ (c : Nat) (id : MsgId) (m : Msg) (s : State), (s.conn c).msg id = some m → m.st = .incomplete → s.serving = true → s.prime.noAdmit = false →
    exec (.reassemblyTimeout c id) s = .next (settle (dropEvent m.port (dropAndRelease c (nakDrop c id 5 0 0 0 0 m.psn) s)))) ∧
  (∀ (c : Nat) (s : State), s.missing c = true → exec (.missingMessageTimeout c) s = .next (settle (dropEvent (s.conn c).port
    (dropAndRelease c (nakDrop c ((s.conn c).wmark + 1) 5 1 0 0 1 0) s)))) ∧
  -- ACK_DELAY_TIMER
  (∀ (c : Nat) (s : State), ((s.conn c).ackOwed ≠ 0 → exec (.ackDelayTimer c) s = .next (sendAck c false 0 s))
    ∧ ((s.conn c).ackOwed = 0 → exec (.ackDelayTimer c) s = .next s)) ∧
  -- RETRANSMIT_TIMER
  (∀ (c : Nat) (psn : Psn) (t : TxPkt) (s : State), (s.conn c).txBuf.find? (fun t => t.psn == psn) = some t → s.maySend (s.conn c) = true →
    (t.retries < (s.conn c).retryMax → exec (.retransmitTimer c psn) s = .next (retransmit c t s)) ∧
    ((s.conn c).retryMax ≤ t.retries → (s.conn c).st = .closing → exec (.retransmitTimer c psn) s = .next (settle (connClosed c s))) ∧
    ((s.conn c).retryMax ≤ t.retries → (s.conn c).st = .opened → exec (.retransmitTimer c psn) s = .next (settle (connError c s)))) ∧
  -- CREDIT_IDLE_TIMER, HOST_CREDIT_WAIT_TIMER, PROBE_RESEND_TIMER
  (∀ (c : Nat) (s : State), (s.conn c).st ≠ .closed → later (s.conn c).limit (s.conn c).received = true →
    exec (.creditIdleTimer c) s = .next (xportChanged c (sendAck c false 0 (s.modConn c (fun k => { k with
      limit := k.received, lowerCsn := some k.txCsn, short := false }))))) ∧
  (∀ (c : Nat) (s : State), (s.conn c).creditWait.isSome = true →
    exec (.hostCreditWaitTimer c) s = .next (portEvent (s.conn c).port 3 1000000 s)) ∧
  (∀ (c : Nat) (s : State), (s.conn c).creditWait.isSome = true → (s.conn c).txWait ≠ [] →
    exec (.probeResendTimer c) s = .next (sendCtl c 0 (.probe (s.conn c).txWait.length)
      (s.modConn c (fun k => { k with probeIval := Nat.min 1000000 (2 * k.probeIval) })))) ∧
  -- PATH_LIVENESS_TIMER, ECN_RATE_TIMER
  (∀ (c q : Nat) (s : State), exec (.pathLivenessTimer c q) s = .next (s.modConn c (fun k => { k with
    paths := k.paths.map (fun p => if p.q = q then { p with live := false } else p) }))) ∧
  (∀ (c q : Nat) (s : State), s.xport.ecnReact = 1 → exec (.ecnRateTimer c q) s = .next (pumpTx c (s.modConn c (fun k => { k with
    paths := k.paths.map (fun p => if p.q = q then raiseRate (modeRate (s.nport p.port).mode) p else p) })))) ∧
  -- KEY_GENERATION_DISCARD
  (∀ (c g : Nat) (s : State), (s.conn c).oldGen = some g →
    exec (.keyGenerationDiscard c) s = .next (erasePalette (fun t => t == .conn c g)
      (s.modConn c (fun k => { k with keys := k.keys.filter (fun e => e.1 != g), oldGen := none })))) ∧
  -- TAKEOVER_NOTICE_REPEAT, XPORT_ENTRY_TIMER
  (∀ (c : Nat) (s : State), (s.conn c).noticeOn = true → (s.conn c).notices ≠ 0 →
    exec (.takeoverNoticeRepeat c) s = .next (sendNotice c (s.modConn c (fun k => { k with notices := k.notices - 1 })))) ∧
  (∀ (c : Nat) (s : State), (s.conn c).st ≠ .closed → s.logging = true → exec (.xportEntryTimer c) s = .next (logXport c s)) ∧
  -- GRANT_DEAD_TIMER, REVOCATION_DROP_TIMER
  (∀ (g : Nat) (s : State), (s.grant g).st = .dead → exec (.grantDeadTimer g) s =
    .next (s.modGrant g (fun k => { gen := if k.gen ≥ 32767 then 1 else k.gen + 1 }))) ∧
  (∀ (g : Nat) (s : State), (s.grant g).st = .revoking → s.serving = true →
    exec (.revocationDropTimer g) s = .next (settle (revocationDrop g s)))

/-- R2, R286, R299 to R301, R352: the Ethernet side. A sub-port with link answers ARP, neighbour solicitations and at most 1,000 echo requests per second
for its own service address, and no other, while the controller may send from it; a frame that is no Vorwiri packet is discarded; a change of link sets
UP, counts a flap and raises event 576 + 8p; a FEC window sets FECDEG, with event 576 + 8p + 1 as it goes to 1. -/
def Obligations.NetworkPortsAnswerAndReport : Prop :=
  -- ARP_REQUEST
  (∀ (p : Fin 8) (q : Fin 4) (a : Nat) (s : State),
    (s.mayAnswer p q = true → a ≠ 0 → (s.subPort p q).ip4 = a → exec (.arpRequest p q a) s = .next { s with out := s.out ++ [.arp p q false] }) ∧
    ((s.mayAnswer p q = false ∨ (s.subPort p q).ip4 ≠ a) → exec (.arpRequest p q a) s = .next s)) ∧
  -- NEIGHBOUR_SOLICITATION
  (∀ (p : Fin 8) (q : Fin 4) (a : Nat) (s : State),
    (s.mayAnswer p q = true → a ≠ 0 → (s.subPort p q).ip6 = a →
      exec (.neighbourSolicitation p q a) s = .next { s with out := s.out ++ [.neighbour p q false] }) ∧
    ((s.mayAnswer p q = false ∨ (s.subPort p q).ip6 ≠ a) → exec (.neighbourSolicitation p q a) s = .next s)) ∧
  -- ECHO_REQUEST
  (∀ (p : Fin 8) (q : Fin 4) (a : Nat) (s : State), s.mayAnswer p q = true → a ≠ 0 → (s.subPort p q).ip4 = a →
    let recent := (s.subPort p q).echoes.filter (fun t => decide (s.now < t + 1000000000))
    (recent.length < 1000 → exec (.echoRequest p q false a) s =
      .next ((s.modSub p q (fun x => { x with echoes := s.now :: recent })).send (.echo p q false))) ∧
    (1000 ≤ recent.length → exec (.echoRequest p q false a) s = .next s)) ∧
  -- NON_VORWIRI_FRAME
  (∀ (p : Fin 8) (q : Fin 4) (s : State), exec (.nonVorwiriFrame p q) s = .next s) ∧
  -- SUBPORT_LINK_CHANGE
  (∀ (p : Fin 8) (q : Fin 4) (s : State), q.val < modeSubs (s.nport p).mode → (s.subPort p q).up = true →
    exec (.subportLinkChange p q false) s = .next (raiseWith (576 + 8 * p.val) p q.val (s.modNport p (fun n => { n with
      subs := modAt n.subs q (fun x => { x with up := false }), flaps := sat8 n.flaps })))) ∧
  (∀ (p : Fin 8) (q : Fin 4) (s : State), q.val < modeSubs (s.nport p).mode → (s.subPort p q).up = false → p.val ∉ s.test.badNet →
    let t := raiseWith (576 + 8 * p.val) p q.val (s.modNport p (fun n => { n with
      subs := modAt n.subs q (fun x => { x with up := true }), flaps := sat8 n.flaps }))
    exec (.subportLinkChange p q true) s = .next (pendingCtl p (if t.serving ∧ t.twin.hostTx then announceSub p q t else t))) ∧
  -- NETWORK_FEC_WINDOW
  (∀ (p : Fin 8) (q : Fin 4) (n : Nat) (u : Bool) (s : State), q.val < modeSubs (s.nport p).mode →
    ((1000000 < n ∨ u = true) → (s.subPort p q).fecDeg = false → exec (.networkFecWindow p q n u) s =
      .next (raiseWith (576 + 8 * p.val + 1) p q.val (s.modSub p q (fun x => { x with fecDeg := true })))) ∧
    (n ≤ 1000000 → u = false → exec (.networkFecWindow p q n u) s = .next (s.modSub p q (fun x => { x with fecDeg := false }))))

/-- R313, R316 check 6: a packet of a host whose tag is not the GCM tag of its header and payload, under the key that KG names and the nonce of
R311 and R312, is dropped and counted, and refused AUTH 0, whatever it carries: no sequence number, line, message or credit is looked at. -/
def Obligations.ForgedPacketsAreDropped : Prop :=
  ∀ (p : Pkt) (s : State) (gen : Nat) (key : ConnKey),
    let k := s.conn p.conn.toNat
    let nonce := fun (ctl : Bool) => rxNonce k.salt ctl (rxEpoch s.twin.epoch p.epl).1 p.psn
    let dropped := fun (ctl : Bool) => dropAuth p 0 (gcmJob true p.port p.conn.toNat gen (nonce ctl) p.plen.toNat s)
    s.serving = true → s.frameOk p = true → k.st ≠ .closed → k.wit = false → s.cipher.erased = false → k.kgGen p.kg = some (gen, key) →
    (∀ d : Bytes, headerOk p false d.length = true → 1 ≤ d.length → p.tag ≠ sealTag p 0x01 key (nonce false) d →
      exec (.write p d) s = .next (dropped false)) ∧
    (∀ d : Bytes, headerOk p false d.length = true → 1 ≤ d.length → p.tag ≠ sealTag p 0x02 key (nonce false) d →
      exec (.writeDurable p d) s = .next (dropped false)) ∧
    (∀ n r : BitVec 32, headerOk p false 8 = true → singleOk p = true →
      p.tag ≠ sealTag p 0x03 key (nonce false) (beBytes 4 n.toNat ++ beBytes 4 r.toNat) → exec (.readReq p n r) s = .next (dropped false)) ∧
    (headerOk p false 0 = true → singleOk p = true → noTarget p = true → p.tag ≠ sealTag p 0x05 key (nonce false) [] →
      exec (.flush p) s = .next (dropped false)) ∧
    (∀ c w : Octet, headerOk p false 16 = true → singleOk p = true → p.tag ≠ sealTag p 0x07 key (nonce false) (c.toList ++ w.toList) →
      exec (.atomicCas p c w) s = .next (dropped false)) ∧
    (∀ a r : Octet, headerOk p false 16 = true → singleOk p = true → p.tag ≠ sealTag p 0x08 key (nonce false) (a.toList ++ r.toList) →
      exec (.atomicFadd p a r) s = .next (dropped false)) ∧
    (∀ b : AckBody, headerOk p true 56 = true → controlOk p = true → p.tag ≠ sealTag p 0x0A key (nonce true) (ackPayload b) →
      exec (.ack p b) s = .next (dropped true)) ∧
    (∀ r : BitVec 32, headerOk p true 4 = true → controlOk p = true → p.tag ≠ sealTag p 0x0C key (nonce true) (beBytes 4 r.toNat) →
      exec (.probe p r) s = .next (dropped true))

/-- R310, R462, R463: what a namespace key pair encrypts it decrypts again, at any sector, codeword and block; and the key stream of a nonce, used
twice, gives the data back. -/
def Obligations.CiphersAreUndone : Prop :=
  (∀ (key : Bytes) (n j : Nat) (p : BitVec 128), key.length = 64 → xtsDecrypt key n j (xtsEncrypt key n j p) = p) ∧
  (∀ (key : Bytes) (nonce : BitVec 96) (data : Bytes), key.length = 32 →
    (gcmCrypt key nonce data).length = data.length ∧ gcmCrypt key nonce (gcmCrypt key nonce data) = data)

/-- R40, R121, R123, R243 to R245, R251, R258, R259, R261, R265, R267, R270, R283, R287, R292, R293, R453, R541, R542, R547: twin frames. One that passes
its port's checks at the present epoch has been heard and is acted on: an entry is held for application, an acknowledgement settles entries and grants
credit, a heartbeat is kept, a digest is compared, RELINQUISH and TAKEOVER change roles, a fetch is held or answered, a mailbox entry pushed, a resync
asked for. A frame of an older epoch is counted stale, and one of a newer epoch changes the role. The bounds of a takeover and a fetch follow. -/
def Obligations.TwinFramesAreActedOn : Prop :=
  -- LOG
  (∀ (h : TwinHdr) (e : LogEntry) (s : State), frameAccepts h (.data (.log { lsn := h.lsn, entry := e })) s = true →
    exec (.log h e) s = .next (settle (logFrame h.lsn e (frameAt h (.data (.log { lsn := h.lsn, entry := e })) s)))) ∧
  -- APPLY_ACK
  (∀ (h : TwinHdr) (a : Lsn) (c : BitVec 32) (s : State), frameAccepts h (.applyAck a c) s = true →
    let t := frameAt h (.applyAck a c) s
    t.logging = true → atOrBefore a t.twin.sent = true →
    exec (.applyAck h a c) s = .next (settle (pumpFetches (pumpLog (clearTiles a { t with twin := { t.twin with
      applied := serialMax t.twin.applied a, unacked := t.twin.unacked.filter (fun e => later e.lsn a)
      creditIn := serialMax t.twin.creditIn c
      resyncLive := t.twin.resyncLive || (match t.twin.resyncFrom with | some f => atOrBefore f a | none => false) } }))))) ∧
  -- HEARTBEAT, in a role and in priming step 12
  (∀ (h : TwinHdr) (role health wit : BitVec 8) (a : Lsn) (dt : BitVec 64) (s : State), s.twin.role ≠ .priming →
    frameAccepts h (.heartbeat role.toNat health.toNat wit.toNat a dt) s = true →
    let t := frameAt h (.heartbeat role.toNat health.toNat wit.toNat a dt) s
    exec (.heartbeat h role health wit a dt) s = .next (settle { t with twin := { t.twin with beat := some {
      role := role.toNat, health := health.toNat, wit := wit.toNat, applied := a, epoch := h.epoch, time := t.now } } })) ∧
  (∀ (h : TwinHdr) (role health wit : BitVec 8) (a : Lsn) (dt : BitVec 64) (s : State), s.twin.role = .priming →
    (linkGate h (.heartbeat role.toNat health.toNat wit.toNat a dt) s).2 = true →
    exec (.heartbeat h role health wit a dt) s = .next (settle (primeBeat h.port h.epoch role.toNat (linkGate h (.heartbeat role.toNat health.toNat wit.toNat a dt) s).1))) ∧
  -- DIGEST
  (∀ (h : TwinHdr) (l : Lsn) (v own : BitVec 64) (s : State), frameAccepts h (.digest l v) s = true →
    let t := frameAt h (.digest l v) s
    t.twin.resync = false → t.twin.role = .active → t.twin.digests.find? (fun e => e.1 == l) = some (l, own) →
    (own = v → exec (.digest h l v) s = .next (settle (digestMatch l t))) ∧
    (own ≠ v → exec (.digest h l v) s = .next (settle (digestMismatch h.port t)))) ∧
  -- RELINQUISH
  (∀ (h : TwinHdr) (l : Lsn) (c : BitVec 8) (s : State), frameAccepts h (.relinquish l c.toNat) s = true →
    let t := relinquishEvent h.port (frameAt h (.relinquish l c.toNat) s)
    (t.twin.role = .standby → t.twin.resync = false → t.twin.take = .none → c.toNat < 3 →
      exec (.relinquish h l c) s = .next (settle (takeoverK1 { t with twin := { t.twin with
        take := .k1 l (c.toNat == 1), witReqs := t.twin.witReqs.filter (fun r => r.wtype == 1) } }))) ∧
    (t.twin.role = .active → (c.toNat = 2 ∨ c.toNat = 3) →
      exec (.relinquish h l c) s = .next (settle (enterSolo (t.twin.epoch + 1) t)))) ∧
  -- TAKEOVER_GAP_FILL_TIMEOUT, TAKEOVER_ANNOUNCE_DELAY
  (∀ (l : Lsn) (w : Bool) (s : State), s.twin.take = .k1 l w →
    exec .takeoverGapFillTimeout s = .next (settle (takeoverOn (takeoverGo w) (takeoverHeld (some l) s)))) ∧
  (∀ (w : Bool) (s : State), s.twin.take = .wait w → exec .takeoverAnnounceDelay s = .next (settle (takeoverAnnounce s))) ∧
  -- TAKEOVER at the present epoch, and a newer one that assigns STANDBY to a standby
  (∀ (h : TwinHdr) (f : Lsn) (p : BitVec 8) (s : State), frameAccepts h (.takeover f p.toNat) s = true →
    exec (.takeover h f p) s = .next (settle (takeoverFrame f p.toNat (frameAt h (.takeover f p.toNat) s)))) ∧
  (∀ (h : TwinHdr) (f : Lsn) (s : State), (linkGate h (.takeover f 2) s).2 = true →
    let t := (linkGate h (.takeover f 2) s).1
    t.twin.role = .standby → later h.epoch t.twin.epoch = true → h.epoch ≠ t.twin.epoch →
    exec (.takeover h f 2) s = .next (settle (standbyEpoch h.epoch (heard t)))) ∧
  -- FETCH_REQ, FETCH_RESP, PEER_FETCH_TIMEOUT
  (∀ (h : TwinHdr) (ns ft : BitVec 16) (off : BitVec 64) (l : Lsn) (s : State),
    frameAccepts h (.data (.fetchReq ns.toNat off.toNat l ft.toNat)) s = true →
    let u := frameAt h (.data (.fetchReq ns.toNat off.toNat l ft.toNat)) s
    let t := u.fresh.2
    exec (.fetchReq h ns off l ft) s = .next (settle (pumpFetches { t with twin := { t.twin with heldFetches := t.twin.heldFetches ++
      [{ id := u.fresh.1, ftag := ft.toNat, port := h.port, ns := ns.toNat, off := off.toNat, lsn := l }] } }))) ∧
  (∀ (h : TwinHdr) (ft : BitVec 16) (m : BitVec 4) (d : Vector Byte 256) (f : SentFetch) (s : State),
    frameAccepts h (.data (.fetchResp ft.toNat m d.toList)) s = true →
    (frameAt h (.data (.fetchResp ft.toNat m d.toList)) s).twin.sentFetches.find? (fun f => f.ftag == ft.toNat) = some f →
    exec (.fetchResp h ft m d) s = .next (settle (fetchDone f d.toList m (frameAt h (.data (.fetchResp ft.toNat m d.toList)) s)))) ∧
  (∀ (ft : Nat) (f : SentFetch) (s : State), s.twin.sentFetches.find? (fun f => f.ftag == ft) = some f →
    exec (.peerFetchTimeout ft) s = .next (settle (fetchDone f (List.replicate 256 0) 0xF s))) ∧
  -- MAILBOX, LINK
  (∀ (h : TwinHdr) (e : MbxEntry) (s : State), frameAccepts h (.data (.mailbox e.toList)) s = true →
    exec (.mailbox h e) s = .next (settle (mbxPush 5 e.toList (frameAt h (.data (.mailbox e.toList)) s)).1)) ∧
  (∀ (h : TwinHdr) (s : State), frameAccepts h .link s = true → exec (.link h) s = .next (settle (frameAt h .link s))) ∧
  (∀ (h : TwinHdr) (s : State), (linkGate h .link s).2 = true →
    let t := (linkGate h .link s).1
    t.twin.role ≠ .priming → h.epoch ≠ t.twin.epoch →
    (later h.epoch t.twin.epoch = false → exec (.link h) s = .next (settle (staleFrame h.port t))) ∧
    (later h.epoch t.twin.epoch = true → exec (.link h) s = .next (settle (newerFrame h.epoch none t)))) ∧
  -- RESYNC_REQ, RESYNC_ENTRY_SEND, RESYNC_TAKEOVER_REPEAT
  (∀ (h : TwinHdr) (tiles : List Nat) (s : State), frameAccepts h (.data (.resyncReq true tiles)) s = true →
    let t := frameAt h (.data (.resyncReq true tiles)) s
    t.twin.role = .solo → t.twin.resync = false →
    exec (.resyncReq h true tiles) s = .next (settle (startResync { t with twin := { t.twin with
      bitmap := [], bitmapAll := true, tileLsn := [], resyncFull := true } }))) ∧
  (∀ s : State, s.twin.role = .solo → s.twin.resync = true →
    (s.twin.waiting = [] → exec .resyncEntrySend s = .next (settle (walkStep s))) ∧
    (s.twin.waiting ≠ [] → exec .resyncEntrySend s = .next s)) ∧
  (∀ (f : Lsn) (s : State), s.twin.role = .solo → s.twin.resync = true → s.twin.resyncLive = false → s.twin.resyncFrom = some f →
    exec .resyncTakeoverRepeat s = .next (ctlAll (.takeover f Role.standby.code) s)) ∧
  -- HANDSHAKE in priming step 12
  (∀ (h : TwinHdr) (b : HsBody) (s : State), s.twin.role = .priming → (linkGate h (.handshake b) s).2 = true →
    (linkGate h (.handshake b) s).1.twin.hs.running = true → exec (.handshake h b) s = .next (settle (hsFrame b (linkGate h (.handshake b) s).1)))

/-- R245, R247, R248, R251, R252, R260, R261, R265, R267, R270, R271, R273 to R282, R287, R288, R298, R548: twin ports, the twin engine's timers and the
witness's replies. A port trained with its own number, lane order and pair goes into service; a stalled or lost port gives its frames to the others; the
timers acknowledge, replay, count stalls, send heartbeat, RELINQUISH, digest and RENEW; a silent peer is answered by role; a reply of the witness is
taken once its fields and sequence number name a request; the bounds of the planned swap end SWAP_ROLES with TIMEOUT. -/
def Obligations.TwinTimersAndWitness : Prop :=
  -- TWIN_PORT_TRAINED, TWIN_PORT_LINK_LOSS
  (∀ (p : Fin 4) (n : Nat) (ok : Bool) (pair : BitVec 64) (s : State), s.test.badTwin.contains p = false →
    (n = p.val → ok = true → pair = s.twin.pair →
      let t := s.modTport p (fun k => { k with
        st := 2, lane := [], pieces := 0, txSeq := 0, txBuf := [], rxExp := 0, rxNak := false, rxUnacked := 0, ackAt := s.now, ackDue := false })
      exec (.twinPortTrained p n ok pair) s = .next (settle (pumpLog (if (s.tport p).ackDue && s.twin.role == .standby
        then ctlOn p (.applyAck t.twin.applied t.twin.creditOut) t else t)))) ∧
    ((n ≠ p.val ∨ ok = false ∨ pair ≠ s.twin.pair) → exec (.twinPortTrained p n ok pair) s =
      .next (raiseWith (640 + 8 * p.val) p n (s.modTport p (fun k => { k with st := 3 }))))) ∧
  (∀ (p : Fin 4) (s : State),
    ((s.tport p).st = 2 → exec (.twinPortLinkLoss p) s = .next (settle ((twinPortOut p s).modTport p (fun k => { k with st := 0 })))) ∧
    ((s.tport p).st = 1 ∨ (s.tport p).st = 3 → exec (.twinPortLinkLoss p) s =
      .next (raiseWith (640 + 8 * p.val) p 0 (s.modTport p (fun k => { k with st := 0 }))))) ∧
  -- TWIN_LINK_ACK_TIMER, TWIN_REPLAY_TIMER, TWIN_PORT_STALL_TIMER
  (∀ (p : Fin 4) (s : State), (s.tport p).st = 2 →
    ((s.tport p).rxUnacked ≠ 0 → exec (.twinLinkAckTimer p) s = .next (sendLink p false (s.modTport p (fun k => { k with rxUnacked := 0 })))) ∧
    ((s.tport p).rxUnacked = 0 → exec (.twinLinkAckTimer p) s = .next s) ∧
    ((s.tport p).txBuf ≠ [] → s.twin.relinquished = none → exec (.twinReplayTimer p) s =
      .next (twinReplay p ((s.tport p).txSeq - BitVec.ofNat 16 (s.tport p).txBuf.length) s)) ∧
    ((∃ c, s.twin.relinquished = some c) → exec (.twinReplayTimer p) s = .next s) ∧
    ((s.tport p).txBuf ≠ [] → exec (.twinPortStallTimer p) s = .next (settle (twinPortOut p s)))) ∧
  -- TWIN_FEC_WINDOW
  (∀ (p : Fin 4) (n : Nat) (u : Bool) (s : State),
    let t := s.modTport p (fun k => { k with fecCor := Nat.min 65535 (n / 1000) })
    ((1000000 < n ∨ u = true) → exec (.twinFecWindow p n u) s = .next (raiseWith (640 + 8 * p.val + 1) p n t)) ∧
    (n ≤ 1000000 → u = false → exec (.twinFecWindow p n u) s = .next t)) ∧
  -- APPLY_ACK_TIMER, TWIN_CREDIT_WAIT_TIMER
  (∀ s : State, s.twin.role = .standby → s.twin.ackCount ≠ 0 → s.prime.noAdmit = false → exec .applyAckTimer s = .next (sendApplyAck s)) ∧
  (∀ (e : Logged) (l : List Logged) (t : Nat) (s : State), s.twin.waiting = e :: l → s.twinUp = some t →
    dist s.twin.creditUsed s.twin.creditIn < entryUnits e.entry →
    exec .twinCreditWaitTimer s = .next (raiseWith (640 + 8 * t + 6) t 0 (s.modTport t (fun k => { k with cstall := sat16 k.cstall })))) ∧
  -- HEARTBEAT_TIMER
  (∀ s : State, s.twin.role ≠ .priming →
    (s.twin.relinquished = none → exec .heartbeatTimer s = .next (ctlAll
      (.heartbeat s.twin.role.code s.twin.health (bit s.leaseHeld) s.twin.applied (BitVec.ofNat 64 s.devtime)) s)) ∧
    (∀ c, s.twin.relinquished = some c → exec .heartbeatTimer s = .next (ctlAll (.relinquish s.twin.relLast c) s))) ∧
  -- DIGEST_TIMER
  (∀ s : State, s.twin.role = .active → s.twin.silent = false →
    (s.twin.digestAt = none → exec .digestTimer s = .next (ctlOne (.digest s.twin.sent s.twin.digest) { s with twin := { s.twin with
      digestMiss := 0, digestAt := some s.twin.sent, digests := (s.twin.sent, s.twin.digest) :: s.twin.digests.take 1023 } })) ∧
    (∀ l, s.twin.digestAt = some l → 2 ≤ s.twin.digestMiss →
      exec .digestTimer s = .next (settle (digestMismatch (s.twinUp.getD 0) s)))) ∧
  -- PEER_SILENT_TIMER: ACTIVE without a witness goes SOLO, with one it asks; STANDBY asks to take over
  (∀ s : State, s.twin.silent = false →
    let t : State := { s with twin := { s.twin with silent := true } }
    (s.twin.role = .active → s.twin.witness = none → exec .peerSilentTimer s = .next (settle (soloOn (s.twin.epoch + 1) t))) ∧
    (∀ w, s.twin.role = .active → s.twin.witness = some w → exec .peerSilentTimer s =
      .next (settle (leaseCheck (askWit 3 { t with twin := { t.twin with askSolo := true } })))) ∧
    (s.twin.role = .standby → s.twin.resync = false → s.twin.take = .none → exec .peerSilentTimer s = .next (settle (askWit 2 t)))) ∧
  -- RENEW_TIMER, WITNESS_RESEND_TIMER, WITNESS_RETRY_TIMER
  (∀ (w : WitnessParams) (s : State), s.twin.witness = some w → s.twin.role ≠ .priming → s.twin.witReqs.any (fun r => r.wtype == 1) = false →
    exec .renewTimer s = .next (askWit 1 s)) ∧
  (∀ s : State, s.twin.witRetry = none → exec .witnessResendTimer s = .next (forEach s.twin.witReqs transmitWit s)) ∧
  (∀ (w : Nat) (s : State), s.twin.witRetry = some (w, 4) →
    exec .witnessRetryTimer s = .next (askWit w { s with twin := { s.twin with witRetry := none } })) ∧
  -- LEASE_LAPSE_TIMER
  (∀ (e : Nat) (s : State), s.twin.leaseEnd = some e → exec .leaseLapseTimer s = .next (settle (leaseCheck { s with twin := { s.twin with
    leaseEnd := some (Nat.min s.now e) } }))) ∧
  -- SWAP_S1_TIMEOUT, SWAP_TAKEOVER_TIMEOUT
  (∀ (c t : Nat) (s : State), s.twin.swap = .s1 c t →
    exec .swapS1Timeout s = .next (settle (finish c stTimeout [] { s with twin := { s.twin with swap := .none } }))) ∧
  (∀ (c : Nat) (s : State), s.twin.swap = .s2 c →
    let t := finish c stTimeout [] { s with twin := { s.twin with swap := .none, relinquished := none } }
    (s.twin.beat = none → exec .swapTakeoverTimeout s = .next (settle (peerSilent t))) ∧
    (∀ b, s.twin.beat = some b → b.role = 2 → b.epoch = s.twin.epoch → s.twin.silent = false →
      exec .swapTakeoverTimeout s = .next (settle (announceAll (memActive { t with twin := { t.twin with hostTx := true } }))))) ∧
  -- WITNESS
  (∀ (p : Pkt) (b : WitBody) (s t u : State) (r : WitReq), rxChecks p false (headerOk p false 24 && singleOk p && noTarget p)
      (s.authentic p false 0x0D (witPayload b)) true false s = (t, true) →
    seqChecks p none t = (u, true) →
    let v := ackDue p.conn.toNat (p.psn != (u.conn p.conn.toNat).cumPsn + 1) (settlePkt p u)
    v.replyOk b = true → v.twin.witReqs.find? (fun r => r.wseq == b.wseq) = some r →
    exec (.witness p b) s = .next (settle (witReply r b v)))

/-- R88 to R91, R105 to R114, R127 to R131, R134, R140, R157, R159, R160, R164 to R170, R216, R217: responses of modules, and the row work of the stripe
engines. A response frees its tag and credit and acts: a sector that is read is decoded, a written one leaves its operation's wait, a temperature is kept,
a descriptor is judged once both halves have come (log entry 64, the model's choice); a late command is met with a DIE_RESET, and a late reset fails the module. A row update locks the row
of the oldest dirty codeword; MERGE_WAIT's end gathers it; a lease's end fails the module; a due gap move, patrol read, rebuild row or scrub wake starts. -/
def Obligations.MediaResponsesAndRowWork : Prop :=
  -- READ_CW_RESPONSE
  (∀ (c : Fin 144) (tag : Fin 1024) (d : Sector) (t : TagRec) (u : State) (s : State), takeTag c tag .readCw s = some (t, u) → t.lost = false →
    exec (.readCwResponse c tag 0 d) s = .next (afterMedia c (readDone c t.cmd d.toList u)) ∧
    exec (.readCwResponse c tag 4 d) s = .next (afterMedia c (u.modChan c (fun k => { k with
      waiting := k.waiting ++ [{ t.cmd with reissued := true }] })))) ∧
  -- WRITE_CW_RESPONSE
  (∀ (c : Fin 144) (tag : Fin 1024) (t : TagRec) (u : State) (s : State), takeTag c tag .writeCw s = some (t, u) → t.lost = false →
    let v := modOp t.cmd.rowOp (fun o => { o with await := o.await.filter (fun p => p != chPos c) }) u
    exec (.writeCwResponse c tag 0) s = .next (afterMedia c v) ∧
    exec (.writeCwResponse c tag 1) s = .next (afterMedia c (failForGood c t.cmd.grow v))) ∧
  -- DIE_STATUS_RESPONSE, DIE_RESET_RESPONSE, TEMP_RESPONSE
  (∀ (c : Fin 144) (tag : Fin 1024) (i : BitVec 16) (t : TagRec) (u : State) (s : State), takeTag c tag .dieStatus s = some (t, u) → t.lost = false →
    exec (.dieStatusResponse c tag 0 i) s = .next (afterMedia c u)) ∧
  (∀ (c : Fin 144) (tag : Fin 1024) (t : TagRec) (u : State) (s : State), takeTag c tag .dieReset s = some (t, u) → t.lost = false →
    exec (.dieResetResponse c tag 0) s = .next (afterMedia c u) ∧
    exec (.dieResetResponse c tag 3) s = .next (afterMedia c (moduleFailed c (loseCommand c t.cmd u)))) ∧
  (∀ (c : Fin 144) (tag : Fin 1024) (i : BitVec 16) (t : TagRec) (d : Descriptor) (u : State) (s : State), takeTag c tag .temp s = some (t, u) → t.lost = false →
    let v := u.modChan c (fun k => { k with temp := i, tempValid := true })
    (v.chan c).desc = some d →
    (i.toInt ≤ d.tWarn → exec (.tempResponse c tag 0 i) s = .next (afterMedia c v)) ∧
    (d.tWarn < i.toInt → exec (.tempResponse c tag 0 i) s = .next (afterMedia c (raiseWith 992 c i.toNat v)))) ∧
  -- DESCRIPTOR_RESPONSE
  (∀ (c : Fin 144) (tag : Fin 1024) (d : Sector) (t : TagRec) (u : State) (s : State), takeTag c tag .descriptor s = some (t, u) → t.lost = false →
    let v := u.modChan c (fun k => { k with descPages := tabPut k.descPages t.cmd.arg (slice d.toList 0 256) })
    (∀ b, descSettled (v.chan c) = true → (v.chan c).descBytes = some b → exec (.descriptorResponse c tag 0 d) s =
      .next (settle (wakeCheck (chDrawer c) (runEngines (pumpChan c (descRead c b v)))))) ∧
    (descSettled (v.chan c) = false → exec (.descriptorResponse c tag 0 d) s =
      .next (settle (wakeCheck (chDrawer c) (runEngines (pumpChan c v)))))) ∧
  -- DIE_COMMAND_TIMEOUT, DIE_RESET_TIMEOUT
  (∀ (c : Fin 144) (tag : Fin 1024) (t : TagRec) (s : State), (s.chan c).tags.find? (fun t => t.tag == tag.val) = some t →
    t.cmd.op.dieQueue = true → t.lost = false →
    (t.cmd.reissued = true → exec (.dieCommandTimeout c tag) s = .next (afterMedia c (moduleFailed c s))) ∧
    (t.cmd.reissued = false → t.resetSent = false →
      (s.chan c).tags.any (fun r => r.cmd.op == .dieReset && r.cmd.die == t.cmd.die) = false →
      exec (.dieCommandTimeout c tag) s = .next (submit c { op := .dieReset, die := t.cmd.die, fg := false } (s.modChan c (fun k => { k with
        tags := k.tags.map (fun r => if r.tag = tag.val then { r with resetSent := true } else r), timeouts := sat16 k.timeouts }))))) ∧
  (∀ (c : Fin 144) (tag : Fin 1024) (t : TagRec) (s : State), (s.chan c).tags.find? (fun t => t.tag == tag.val) = some t →
    t.cmd.op = .dieReset → t.lost = false → exec (.dieResetTimeout c tag) s = .next (afterMedia c (moduleFailed c s))) ∧
  -- ROW_UPDATE_START, MERGE_WAIT_EXPIRY, ROW_LEASE_EXPIRY
  (∀ (g : Fin 16) (st ns cw : Nat) (p : Place) (s : State), s.grpWorks g = true → s.reserveRoom g = true → s.chooseCw g = some (st, ns, cw) →
    s.decodeOff ns (256 * cw) = some p →
    exec (.rowUpdateStart g) s = .next (openOp { id := 0, grp := g, grow := p.grow, dst := p.grow, purpose := .host ns (cw / 8 * 2048) []
                                                 phase := .merge, locked := true } s)) ∧
  (∀ (id : Nat) (o : RowOp) (s : State), s.op id = some o →
    (o.phase = .merge → exec (.mergeWaitExpiry id) s = .next (settle (endMerge o s))) ∧
    (o.phase ≠ .merge → exec (.mergeWaitExpiry id) s = .next s)) ∧
  (∀ (id : Nat) (c : Fin 144) (o : RowOp) (s : State), s.op id = some o → o.phase = .write → o.grp = chGroup c → o.await.contains (chPos c) = true →
    exec (.rowLeaseExpiry id c) s = .next (settle (modOp id (fun x => { x with locked := false }) (moduleFailed c s)))) ∧
  -- GAP_MOVE_START, GAP_MOVE_YIELD_TIMEOUT
  (∀ (g : Fin 16) (e : Nat) (s : State), s.moveDue g e = true →
    (s.quietGroup g = true → exec (.gapMoveStart g e) s = .next (startMove g e s)) ∧
    (s.quietGroup g = false → exec (.gapMoveStart g e) s = .next s) ∧
    exec (.gapMoveYieldTimeout g e) s = .next (startMove g e s)) ∧
  -- SCRUB_READ, PARK_SCRUB_DUE
  (∀ (g : Fin 16) (s : State), s.live g = true → (s.drw (grpDrawer g)).st = .awake → s.quietGroup g = true → (s.grp g).ng ≠ 0 →
    exec (.scrubRead g) s = .next (settle (scrubNowNext g (patrolNext g s)))) ∧
  (∀ (d : Fin 8) (s : State), (s.drw d).st = .parked ∨ (s.drw d).st = .parking → s.drawerGroups d ≠ [] → exec (.parkScrubDue d) s =
    .next (settle (requestWake d none (s.modDrw d (fun x => { x with scrubLeft := s.drawerGroups d }))))) ∧
  -- REBUILD_ROW
  (∀ (g : Fin 16) (s : State), (s.grp g).st = .rebuilding → s.grpWorks g = true → s.rebuildHeld = false →
    let t := s.modGrp g (fun k => { k with paused := s.rebuildHeld })
    t.unitAborted codeRebuild g = false → t.ops.any (fun o => o.grp == g.val && o.purpose == .rebuild) = false →
    exec (.rebuildRow g) s = .next (settle (openOp { id := 0, grp := g, grow := (t.grp g).rebuildPtr, dst := (t.grp g).rebuildPtr
                                                     purpose := .rebuild, phase := .read } t)))

/-- R110, R144 to R156, R170, R173 to R175: the media link. A flit or LCTL is descrambled; on an ACTIVE link it joins the stream, and in the confirm millisecond it is judged; the
timers acknowledge and replay; alignment lost on an ACTIVE link retrains it; training sets count and move DETECT to EQUALISE and on; a late step fails
the link, and a confirmed one becomes ACTIVE and reads its descriptor; the module's idle closes a link in P4; sideband and temperature are polled, and
the corrected-error window starts afresh. -/
def Obligations.MediaLinksTrainAndCarry : Prop :=
  -- FLIT_RECEIVE, LCTL
  (∀ (c : Fin 144) (f : Line) (s : State), (s.chan c).link = .active →
    let x := scramble (s.chan c).rxScr f.toList
    let t := s.modChan c (fun k => { k with rxScr := x.2 })
    exec (.flitReceive c f) s = .next (afterLink c (flitRx c x.1 t)) ∧ exec (.lctl c f) s = .next (afterLink c (flitRx c x.1 t))) ∧
  (∀ (c : Fin 144) (f : Line) (s : State), (s.chan c).link = .confirm →
    let x := scramble (s.chan c).rxScr f.toList
    let t := s.modChan c (fun k => { k with rxScr := x.2 })
    (leBytes 2 (crc16 (x.1.take 62)).toNat ≠ (x.1.drop 62).take 2 →
      exec (.flitReceive c f) s = .next (afterLink c (t.modChan c (fun k => { k with confirmErr := true })))) ∧
    (leBytes 2 (crc16 (x.1.take 62)).toNat = (x.1.drop 62).take 2 → exec (.flitReceive c f) s = .next (afterLink c t))) ∧
  -- LINK_ACK_TIMER, LINK_REPLAY_TIMER
  (∀ (c : Fin 144) (s : State), (s.chan c).link = .active →
    ((s.chan c).rxUnacked ≠ 0 → exec (.linkAckTimer c) s = .next ((sendBlocks c (mkFlit 4 (s.chan c).txNext (lctlBody (some ((s.chan c).rxExp - 1)) none false false)) s).modChan c
      (fun k => { k with rxUnacked := 0 }))) ∧
    ((s.chan c).rxUnacked = 0 → exec (.linkAckTimer c) s = .next s) ∧
    ((s.chan c).txBuf ≠ [] → exec (.linkReplayTimer c) s =
      .next (replayFrom c ((s.chan c).txNext - BitVec.ofNat 12 (s.chan c).txBuf.length) s)) ∧
    ((s.chan c).txBuf = [] → exec (.linkReplayTimer c) s = .next s)) ∧
  -- BLOCK_ALIGNMENT_LOSS
  (∀ (c : Fin 144) (s : State),
    ((s.chan c).link = .active → exec (.blockAlignmentLoss c) s = .next (startRetrain c s)) ∧
    ((s.chan c).link = .confirm → exec (.blockAlignmentLoss c) s = .next (s.modChan c (fun k => { k with confirmErr := true })))) ∧
  -- TRN1 of a module in DETECT: the eighth locked set starts equalisation
  (∀ (c : Fin 144) (pr rq : Nat) (e : Bool) (s : State), (s.chan c).link = .detect → pr ≤ 10 → (s.chan c).shortTrain = false →
    (s.chan c).eqTry = none → (s.chan c).eqDone = false →
    let t := s.modChan c (fun k => { k with trn1Lock := (s.chan c).trn1Lock + 1, mPreset := pr })
    ((s.chan c).trn1Lock < 7 → exec (.trn1 c 1 pr rq true e) s = .next t) ∧
    (7 ≤ (s.chan c).trn1Lock → exec (.trn1 c 1 pr rq true e) s = .next (equalise c (t.modChan c (fun k => { k with link := .equalise }))))) ∧
  (∀ (c : Fin 144) (x pr rq : Nat) (l e : Bool) (s : State), x ≠ 1 → exec (.trn1 c x pr rq l e) s = .next s) ∧
  -- TRN2
  (∀ (c : Fin 144) (s : State), (s.chan c).link = .confirm →
    exec (.trn2 c 1) s = .next (s.modChan c (fun k => { k with trn2Seen := k.trn2Seen + 1, rxScr := BitVec.allOnes 31 }))) ∧
  -- TRAINING_STEP_TIMEOUT: a training fails; a short retraining falls back to a full one, which then fails the link
  (∀ (c : Fin 144) (s : State), ((s.chan c).link = .detect ∨ (s.chan c).link = .equalise ∨ (s.chan c).link = .confirm) →
    exec (.trainingStepTimeout c) s = .next (afterLink c (raiseWith (4 * c.val) c 0 (s.modChan c (fun k => { k with link := .failed }))))) ∧
  (∀ (c : Fin 144) (s : State), (s.chan c).link = .retrain →
    ((s.chan c).secondTry = false → exec (.trainingStepTimeout c) s = .next ((s.modChan c (fun k => { k with
      secondTry := true, shortTrain := false, trn1Lock := 0, eqTry := none, eqDone := false, trn2Seen := 0, confirmErr := false
      cPreset := 5 })).send (.trn1 c 5 15 false false))) ∧
    ((s.chan c).secondTry = true → exec (.trainingStepTimeout c) s = .next (afterLink c (linkLost c
      (raiseWith (4 * c.val) c 0 (s.modChan c (fun k => { k with link := .failed }))))))) ∧
  -- CONFIRM_PERIOD_EXPIRY
  (∀ (c : Fin 144) (s : State), (s.chan c).link = .confirm →
    ((s.chan c).confirmErr = false → 16 ≤ (s.chan c).trn2Seen → exec (.confirmPeriodExpiry c) s = .next (afterLink c (linkUp c s))) ∧
    ((s.chan c).confirmErr = true ∨ (s.chan c).trn2Seen < 16 → exec (.confirmPeriodExpiry c) s = .next s)) ∧
  -- IDLE_OS
  (∀ (c : Fin 144) (s : State), (s.chan c).link = .active → (s.drw (chDrawer c)).step = .p4 →
    exec (.idleOs c) s = .next (settle (checkP4 (chDrawer c) (s.modChan c (fun k => { k with link := .quiesced }))))) ∧
  -- SIDEBAND_POLL_TIMER
  (∀ (d : Fin 8) (a : Vector (Option (BitVec 8)) 18) (s : State),
    (s.drawerPowered d = true → exec (.sidebandPollTimer d a) s = .next (settle (wakeCheck d (runEngines (forEach (List.range 18) (fun i s =>
      sidebandOne (18 * d + i) (a.toList.getD i none) (s.send (.sbPoll (18 * d + i)))) s))))) ∧
    (s.drawerPowered d = false → exec (.sidebandPollTimer d a) s = .next s)) ∧
  -- TEMP_POLL_TIMER, CE_WINDOW_TIMER
  (∀ (c : Fin 144) (x : Descriptor) (s : State), (s.chan c).desc = some x → x.tsense = true → (s.chan c).link = .active →
    exec (.tempPollTimer c) s = .next (submit c { op := .temp, fg := false } s)) ∧
  (∀ (c : Fin 144) (s : State), exec (.ceWindowTimer c) s = .next (s.modChan c (fun k => { k with ceWindow := 0, ceRaised := false })))

/-- R184 to R191, R200, R205, R505, R527, R538, R687: the timers of a drawer. A wake step W1 to W4 past its bound is a drawer fault; W7
loads the easel state once; a wake whose own part is done ends without the peer's acknowledgement after 250 ms; a park step past its
bound makes the drawer AWAKE again; a latched wake begins 50 ms after the last rail fell; an idle parkable drawer parks; the active
logs the check that is due; priming wakes its drawers one by one; the tick of a serving twin wakes what a schedule will read. -/
def Obligations.DrawerTimersMoveTheDrawer : Prop :=
  -- DRAWER_WAKE_STEP_TIMEOUT
  (∀ (s : State) (d : Fin 8), (s.drw d).st = .waking → (s.drw d).step = .w1 ∨ (s.drw d).step = .w2 ∨ (s.drw d).step = .w3
      ∨ (s.drw d).step = .w4 → exec (.drawerWakeStepTimeout d) s = .next (settle (drawerFault d true s))) ∧
  (∀ (s : State) (d : Fin 8), (s.drw d).st = .waking → (s.drw d).step = .w6 →
    (∀ i, i < 18 → descSettled (s.chan (18 * d + i)) = true) → exec (.drawerWakeStepTimeout d) s = .next (settle (markerCheck d s))) ∧
  -- EASEL_STATE_LOADED
  (∀ (s : State) (d : Fin 8), (s.drw d).st = .waking → (s.drw d).step = .w7 → (s.drw d).loaded = false → (s.drw d).recovering = [] →
    (∀ e ∈ s.easels, e.2.filling = false) →
    exec (.easelStateLoaded d) s = .next (settle (s.modDrw d (fun k => { k with loaded := true })))) ∧
  -- WAKE_PEER_TIMEOUT
  (∀ (s : State) (d : Fin 8), (s.drw d).st = .waking → (s.drw d).wakeDone = true →
    exec (.wakePeerTimeout d) s = .next (settle (becomeAwake d (s.modDrw d (fun k => { k with wakeLsn := none }))))) ∧
  (∀ (s : State) (d : Fin 8), (s.drw d).st = .waking → (s.drw d).wakeDone = false →
    exec (.wakePeerTimeout d) s = .next (settle (s.modDrw d (fun k => { k with wakeLsn := none })))) ∧
  -- PARK_STEP_TIMEOUT
  (∀ (s : State) (d : Fin 8), (s.drw d).st = .parking → (s.drw d).step = .p1 ∨ (s.drw d).step = .p2 → (s.drw d).cmds = [] →
    (s.drw d).latch = .none → exec (.parkStepTimeout d) s = .next (settle (s.modDrw d (fun k => { k with
      st := .awake, step := .none, draining := false, cmds := [], latch := .none })))) ∧
  -- DRAWER_SETTLE_TIMER
  (∀ (s : State) (d : Fin 8) (ws : List Nat), (s.drw d).latch = .wake ws → (s.drw d).st = .parked → (s.drw d).step = .none →
    (∀ i, i < 4 → (s.rail (drawerRail d i)).down = true) →
    exec (.drawerSettleTimer d) s = .next (settle (beginWake d ws (s.modDrw d (fun k => { k with latch := .none }))))) ∧
  -- PARK_IDLE_TIMER
  (∀ (s : State) (d : Fin 8), s.serving = true → (s.drw d).st = .awake → (s.drw d).parkIdle ≠ 0 → (s.drw d).refs = 0 →
    s.parkRefusal d = none → exec (.parkIdleTimer d) s = .next (settle (beginPark d [] s))) ∧
  -- DRAWER_CHECK_TIMER
  (∀ (s : State) (d : Fin 8) (t : Nat), s.twin.checks = [(d.val, t)] → s.logging = true →
    exec (.drawerCheckTimer d) s = .next (logControl 0x0304 0 (s.drw d).st.code (.drawerCheck d (s.drw d).st.code)
      { s with twin := { s.twin with checks := [] } }).1) ∧
  -- PRIMING_DRAWER_WAKE_STAGGER
  (∀ (s : State) (d : Fin 8), s.prime.step = 11 → s.prime.wakes = [d.val] → (s.drw d).st = .parked → (s.drw d).step = .none →
    (s.drw d).fellAt = 0 → exec (.primingDrawerWakeStagger d) s =
    .next (settle (beginWake d [] { s with prime := { s.prime with wakes := [] } }))) ∧
  -- SCHED_RATE_TICK
  (∀ (s : State) (h : Fin 64), s.serving = true → exec (.schedRateTick h) s = .next (settle (schedWake h s)))

/-- R51, R52, R55, R60, R61, R63, R64, R219, R220, R236, R268, R653, R655: the budget, the spillway, the lag, drains and resets. An
evaluation sets D_max from the measured energy, cistern low and over budget; the spillway moves the oldest codeword into its overflow entry, and stops below SPILL_LOW; a lag past
its age withholds completions; once nothing that can drain is left a drain writes its markers,
and an orderly one ends once they are on media; the reset key is refused on a serving
twin in DEPLOYED and otherwise starts the drain of a reset; a core watchdog raises event 1000; media that cannot progress take the twin
out of service; a clock window is judged against 5 % of the nominal frequency and an edge. -/
def Obligations.BudgetDrainsAndMonitors : Prop :=
  -- DIRTY_BUDGET_EVAL
  (∀ s : State, s.dura.clow = true → 2 * s.dMax s.energy < 3 * s.sumpSize → exec .dirtyBudgetEval s = .next (settle { s with
    power := { s.power with emeas := s.energy.1 / s.energy.2 }
    dura := { s.dura with dmax := s.dMax s.energy, overBud := decide (s.dirtyTotal > s.dMax s.energy) || (s.dura.overBud && decide (s.dirtyTotal = s.dMax s.energy)) } })) ∧
  -- SPILLWAY_MOVE
  (∀ s : State, (spillCheck s).sump.spillActive = false → exec .spillwayMove s = .next (settle (spillCheck s))) ∧
  (∀ (s v : State) (stamp ns cw : Nat), (spillCheck s).sump.spillActive = true → (spillCheck s).atCeiling = false →
    oldestCw (spillCheck s).spillable = some (stamp, ns, cw) →
    (if ((spillCheck s).ovEntry ns cw).isNone then entryRoom (spillCheck s) else some (spillCheck s)) = some v →
    let mine := fun (l : SumpLine) => l.st == .dirty && l.ns == ns && l.line / 4 == cw
    let ls := (spillCheck s).sump.lines.filter mine
    let t := ovMerge
      { ns, cw, stamp, lsn := ls.foldl (fun x l => serialMax x l.lsn) 0, conns := ls.foldl (fun acc l => l.conns.foldl earliestOf acc) []
        img := (List.range 4).flatMap (fun k => match ls.find? (fun l => l.line % 4 == k) with | some l => l.img | none => imgEmpty 64)
        poison := maskOf 4 ((ls.filter (fun l => l.poison)).map (fun l => l.line % 4)) }
      (v.modSump (fun u => { u with lines := u.lines.filter (fun l => !mine l) }))
    (spillCheck t).sump.spillActive = false → exec .spillwayMove s = .next (settle (spillCheck t))) ∧
  -- MIRROR_LAG_AGE_LIMIT
  (∀ (s : State) (r : LagRec), r ∈ s.dura.lag → r.time + 64000 ≤ s.now →
    exec .mirrorLagAgeLimit s = .next { s with dura := { s.dura with lagHeld := true } }) ∧
  -- MIRROR_CTL_FLUSH
  (∀ (s : State) (r : LagRec), r ∈ s.dura.lag → s.twin.role = .active → s.ackedTo r.lsn = false → s.dura.clow = false →
    exec .mirrorCtlFlush s = .next (settle { s with dura := { s.dura with
      busy := true, cover := (s.dura.lag.map (·.lsn)).filter (fun l => !s.ackedTo l) } })) ∧
  -- DRAIN_COMPLETE
  (∀ (s : State) (d : Drain), s.prime.drain = some d → s.drained = true →
    (d.sealed = false → d.cmd = none →
      let t := sealDrain d { s with prime := { s.prime with drain := some { d with sealed := true } } }
      (t.metaOpen = true → exec .drainComplete s = .next (settle t)) ∧
      (t.metaOpen = false → d.kind = .orderly →
        exec .drainComplete s = .next (settle (releaseLine (t.modPrime (fun p => { p with drain := none })))))) ∧
    (d.sealed = true → s.metaOpen = false → d.kind = .orderly →
      exec .drainComplete s = .next (settle (releaseLine { s with prime := { s.prime with drain := none } })))) ∧
  -- GCTL_RSTKEY
  (∀ (s : State) (key : BitVec 8), key ≠ 0xA5 → exec (.gctlRstkey key) s = .next s) ∧
  (∀ s : State, s.serving = true → s.test.lc = .deployed →
    exec (.gctlRstkey 0xA5) s = .next { s with ev := { s.ev with rstRef := true } }) ∧
  (∀ s : State, s.serving = false → s.twin.role ≠ .fenced → s.prime.drain = none → s.host.drain = .none → s.power.wl = 13 →
    exec (.gctlRstkey 0xA5) s = .next (pullLine 14 true (startDrain (.reset .system) none s))) ∧
  -- CORE_WATCHDOG_TIMEOUT
  (∀ s : State, exec .coreWatchdogTimeout s = .next (settle (startReset .watchdog (relinquishCause (raiseWith 1000 0 0 s))))) ∧
  -- MEDIA_STALL_TIMER
  (∀ s : State, s.mediaStuck = false → exec .mediaStallTimer s = .next s) ∧
  (∀ s : State, s.mediaStuck = true →
    (s.twin.role = .active → exec .mediaStallTimer s = .next (settle (enterFenced 5 (sendRelinquish 0 s)))) ∧
    (s.twin.role = .standby → exec .mediaStallTimer s = .next (settle (enterFenced 5 (sendRelinquish 3 s)))) ∧
    (s.twin.role = .solo → exec .mediaStallTimer s = .next (settle (enterFenced 5 s)))) ∧
  -- CLOCK_MONITOR_WINDOW
  (∀ (s : State) (i : Fin 100) (khz : Nat), (s.island i).fault = true → 95 * nominalKhz i ≤ 100 * khz →
    100 * khz ≤ 105 * nominalKhz i → 2 ≤ (s.island i).good → exec (.clockMonitorWindow i khz true) s =
    .next ((s.modIsland i (fun x => { x with khz := khz, running := true })).modIsland i (fun x => { x with fault := false, good := 0 }))) ∧
  (∀ (s : State) (i : Fin 100) (khz : Nat), (s.island i).fault = true → exec (.clockMonitorWindow i khz false) s =
    .next ((s.modIsland i (fun x => { x with khz := khz, running := false })).modIsland i
      (fun x => { x with fault := true, cause := 1, good := 0 })))

/-- R55, R60, R61, R63, R64, R220 to R222, R236, R268, R507, R526, R653, R655: completion of SPILLWAY_MOVE, MEDIA_STALL_TIMER, CORE_WATCHDOG_TIMEOUT,
CLOCK_MONITOR_WINDOW, DRAIN_COMPLETE, DIRTY_BUDGET_EVAL and GCTL_RSTKEY. The watchdog raises event 1000, is a cause to relinquish and resets; a stalled
medium fences the twin with cause 5; a window marks its island good, bad, or good again after three windows; at its ceiling or without room the spillway
moves nothing; a drain of a power failure logs whether data is left and goes on down, and one of a reset begins priming; an evaluation below the sump's
size enters cistern low with event 997. -/
def Obligations.MonitorsAndDrainsComplete : Prop :=
  -- CORE_WATCHDOG_TIMEOUT
  (∀ s : State, exec .coreWatchdogTimeout s = .next (settle (startReset .watchdog (relinquishCause (raiseWith 1000 0 0 s))))) ∧
  -- MEDIA_STALL_TIMER
  (∀ s : State, s.mediaStuck = true →
    (s.twin.role = .active → exec .mediaStallTimer s = .next (settle (enterFenced 5 (sendRelinquish 0 s)))) ∧
    (s.twin.role = .standby → exec .mediaStallTimer s = .next (settle (enterFenced 5 (sendRelinquish 3 s)))) ∧
    (s.twin.role = .solo → exec .mediaStallTimer s = .next (settle (enterFenced 5 s))) ∧
    (s.twin.role = .fenced ∨ s.twin.role = .priming → exec .mediaStallTimer s = .next (settle s))) ∧
  -- CLOCK_MONITOR_WINDOW: a good window, a bad one (no edge, or 5 % low or high), and good ones after a fault
  (∀ (s : State) (i : Fin 100) (khz : Nat), 95 * nominalKhz i ≤ 100 * khz → 100 * khz ≤ 105 * nominalKhz i →
    let t := s.modIsland i (fun x => { x with khz := khz, running := true })
    ((s.island i).fault = false → exec (.clockMonitorWindow i khz true) s = .next t) ∧
    ((s.island i).fault = true → exec (.clockMonitorWindow i khz true) s =
      .next (t.modIsland i (fun x => if 2 ≤ x.good then { x with fault := false, good := 0 } else { x with good := x.good + 1 })))) ∧
  (∀ (s : State) (i : Fin 100) (khz cause : Nat) (e : Bool),
    (e = false ∧ cause = 1) ∨ (e = true ∧ 100 * khz < 95 * nominalKhz i ∧ cause = 2) ∨ (e = true ∧ 105 * nominalKhz i < 100 * khz ∧ cause = 3) →
    let t := s.modIsland i (fun x => { x with khz := khz, running := e })
    ((s.island i).fault = true → exec (.clockMonitorWindow i khz e) s =
      .next (t.modIsland i (fun x => { x with fault := true, cause := cause, good := 0 }))) ∧
    ((s.island i).fault = false → exec (.clockMonitorWindow i khz e) s = .next (settle (relinquishCause (raiseWith 994 i cause
      (t.modIsland i (fun x => { x with fault := true, cause := cause, good := 0, faults := sat16 x.faults })))))))  ∧
  -- SPILLWAY_MOVE: at the ceiling, or with nothing to move, the lines stay
  (∀ s : State, (spillCheck s).sump.spillActive = true → (spillCheck s).atCeiling = true ∨ oldestCw (spillCheck s).spillable = none →
    exec .spillwayMove s = .next (settle (spillCheck s))) ∧
  -- DRAIN_COMPLETE of a power failure in state 13, and of a reset without a life-cycle advance
  (∀ (s : State) (d : Drain), s.prime.drain = some d → s.drained = true → d.sealed = true → s.metaOpen = false →
    (d.kind = .power → exec .drainComplete s =
      let t := (powerLogF 3 (if s.leftBytes = 0 then 1 else 2) s).modPrime (fun p => { p with drain := none })
      .next (settle (if t.power.stepTo = some (14, true) then releaseLine t
        else if t.power.wl = 15 then soloDown 12 { t with power := { t.power with soloUp := false, solo := true, goingDown := true } }
        else goDown t))) ∧
    (∀ c, d.kind = .reset c → d.cmd = none →
      let t := s.modPrime (fun p => { p with drain := none, heldReset := [], heldHost := false })
      (s.power.stepTo ≠ some (14, true) → exec .drainComplete s = .next (settle (beginPriming true t))) ∧
      (s.power.stepTo = some (14, true) → exec .drainComplete s =
        .next (settle (releaseLine (t.modPrime (fun p => { p with warmDue := true }))))))) ∧
  (∀ s : State, (s.prime.drain = none ∨ s.drained = false) → exec .drainComplete s = .next (settle s)) ∧
  -- DIRTY_BUDGET_EVAL that enters cistern low
  (∀ s : State, s.dura.clow = false → s.dMax s.energy < s.sumpSize →
    let t := raiseWith 997 0 0 { s with
      power := { s.power with emeas := s.energy.1 / s.energy.2 }, dura := { s.dura with dmax := s.dMax s.energy, clow := true } }
    exec .dirtyBudgetEval s = .next (settle { t with dura := { t.dura with
      overBud := decide (t.dirtyTotal > t.dura.dmax) || (t.dura.overBud && decide (t.dirtyTotal = t.dura.dmax)) } })) ∧
  -- GCTL_RSTKEY of a fenced twin
  (∀ s : State, s.twin.role = .fenced → exec (.gctlRstkey 0xA5) s = .next (startReset .fenced s))

/-- R144: descrambling with the register that the sender began with gives back the bytes, and both ends hold the same register after them. -/
def Obligations.ScramblerIsUndone : Prop :=
  ∀ (r : BitVec 31) (b : Bytes), (scramble r (scramble r b).1).1 = b ∧ (scramble r (scramble r b).1).2 = (scramble r b).2 ∧
    (scramble r b).1.length = b.length

/-- R555, R557: the code of a DRAM word, whichever eight vectors of weight 5 its matrix has and in whichever order its columns stand (log entry 138, DESIGN
CHOICE). A word stored with the complement of its check bits reads clean; one flipped bit of its 72 is corrected; two flipped data bits, two flipped check
bits, or one of each are uncorrectable; and so is a word of all zeros with a check byte of zeros. -/
def Obligations.DramCodeCorrectsOneBit : Prop :=
  (∀ d : BitVec 64, checkWord d (storedCheck d) = .clean) ∧
  (∀ (d : BitVec 64) (i : Nat), i < 64 → checkWord (d ^^^ (1#64 <<< i)) (storedCheck d) = .corrected d) ∧
  (∀ (d : BitVec 64) (k : Nat), k < 8 → checkWord d (storedCheck d ^^^ (1#8 <<< k)) = .corrected d) ∧
  (∀ (d : BitVec 64) (i j : Nat), i < 64 → j < 64 → i ≠ j →
    checkWord (d ^^^ (1#64 <<< i) ^^^ (1#64 <<< j)) (storedCheck d) = .uncorrectable) ∧
  (∀ (d : BitVec 64) (i k : Nat), i < 64 → k < 8 →
    checkWord (d ^^^ (1#64 <<< i)) (storedCheck d ^^^ (1#8 <<< k)) = .uncorrectable) ∧
  (∀ (d : BitVec 64) (k l : Nat), k < 8 → l < 8 → k ≠ l →
    checkWord d (storedCheck d ^^^ (1#8 <<< k) ^^^ (1#8 <<< l)) = .uncorrectable) ∧
  checkWord 0 0 = .uncorrectable

/-- R385 to R395, R400, R411 to R415: the host link and its resets. Training sets rate (capped by MAX_RATE) and width, and CXL.mem comes
up at 32 GT/s and x4 or better; D3hot is refused while a decoder is committed; a decoder commits when its programming fits the namespace
that it maps; PERST#, a hot reset and a link loss begin the host-port drain, at whose bound the port resets; an FLR clears the MSI-X
state and releases mailboxes 0 to 3 without a drain; training begins when PERST# ends; a poisoned write is only logged. -/
def Obligations.HostLinkDecodersAndResets : Prop :=
  -- HOST_LINK_TRAINED
  (∀ (s : State) (rate width : Nat) (flit cxl : Bool), s.host.perst = false → s.test.badHost = false → s.host.drain = .none →
    s.prime.primeAt.isSome = true → s.prime.step = 0 → 1 ≤ rate → rate ≤ 6 → width ∈ [1, 2, 4, 8, 16] →
    ∀ r, r = Nat.min rate s.host.maxRateNext → exec (.hostLinkTrained rate width flit cxl) s = .next (settle { s with host := { s.host with
      rate := r, width := width, maxRate := s.host.maxRateNext, flit := flit || r == 6, cxl := cxl, l1 := false
      memEn := cxl && decide (5 ≤ r) && decide (4 ≤ width) } })) ∧
  -- POWERSTATE_WRITE
  (∀ s : State, (∀ d ∈ s.host.hdm, d.committed = false) →
    exec (.powerstateWrite true) s = .next { s with host := { s.host with d3 := true, l1 := true } }) ∧
  (∀ (s : State) (d : Hdm), d ∈ s.host.hdm → d.committed = true → exec (.powerstateWrite true) s = .next s) ∧
  (∀ s : State, s.host.d3 = false → exec (.powerstateWrite false) s = .next { s with host := { s.host with d3 := false, l1 := false } }) ∧
  -- HDM_DECODER_COMMIT
  (∀ (s : State) (k : Fin 4) (base size ways : Nat) (ok : Bool), s.host.d3 = false → s.host.drain = .none →
    (ok = true ↔ (s.hdm k).nsid ≠ 0 ∧ size = s.nsSize (s.hdm k).nsid ∧ base % 268435456 = 0 ∧ ways = 0
      ∧ ∀ j, j < k.val → (s.hdm j).committed = true) →
    ∃ t, exec (.hdmDecoderCommit k base size ways) s = .next t ∧ t = { s with host := { s.host with hdm := t.host.hdm, cdat := t.host.cdat } }
      ∧ t.host.hdm = modAt s.host.hdm k (fun d => { d with committed := ok, err := !ok, base := base, size := size })
      ∧ t.host.cdat = (List.range 4).filter (fun j => (t.host.hdm.getD j {}).committed)) ∧
  -- PERST_ASSERT, HOT_RESET, DL_DOWN
  (∀ s : State, s.host.perst = false → s.host.perstSys = false → s.prime.drain = none → s.host.drain = .none →
    exec .perstAssert s = .next (settle (drainHeld { s with host := { s.host with
      rate := 0, width := 0, flit := false, cxl := false, l1 := false
      perst := true, persts := sat8 s.host.persts, drain := .h3 s.now, drainAt := s.now } }))) ∧
  (∀ (s : State) (c : Instr), c = .hotReset ∨ c = .dlDown → s.prime.drain = none → s.host.drain = .none →
    exec c s = .next (settle (drainHeld { s with host := { s.host with
      rate := 0, width := 0, flit := false, cxl := false, l1 := false
      hotRst := sat8 s.host.hotRst, drain := .h3 s.now, drainAt := s.now } }))) ∧
  -- FLR
  (∀ s : State, exec .flr s = .next (mbxRelease 3 (mbxRelease 2 (mbxRelease 1 (mbxRelease 0 { s with
    host := { s.host with flrs := sat8 s.host.flrs, d3 := false, l1 := false }
    ev := { s.ev with table := [], pba := 0, funMask := false } }))))) ∧
  -- HOST_DRAIN_H3_TIMEOUT
  (∀ (s : State) (t : Nat), s.host.drain = .h3 t → exec .hostDrainH3Timeout s = .next (settle (hostPortReset s))) ∧
  -- PERST_DEASSERT
  (∀ s : State, s.host.perst = true → s.host.drain = .none → s.test.badHost = false → s.prime.primeAt.isSome = true → s.prime.step = 0 →
    exec .perstDeassert s = .next { s with host := { s.host with perst := false }, out := s.out ++ [.hostTrain] }) ∧
  -- POISONED_TLP
  (∀ s : State, exec (.poisonedTlp true) s = .next { s with host := { s.host with aerPoisoned := true } }
    ∧ exec (.poisonedTlp false) s = .next { s with host := { s.host with aerPoisoned := true }, out := s.out ++ [.unsupported] })

/-- R50, R51, R404 to R410: CXL.mem. A request brings the link back to L0. A read that hits a committed decoder is gathered from the
line that the decoder maps; one that hits none is answered with poison and logged, or dropped when it is speculative. The requests that
leave memory as it is are completed. A write that hits is placed when nothing withholds it, and waits behind the withheld writes
otherwise, poison counted; one that hits nothing is discarded. GPF phase 2 starts a FLUSH_MIRROR, and its bound answers the oldest
request as failed. -/
def Obligations.CxlMemRequestsAreServed : Prop :=
  -- MEMRD, MEMRDDATA, MEMSPECRD
  (∀ (s : State) (tag hpa ns off : Nat) (c : Instr), c = .memRd tag hpa ∨ c = .memRdData tag hpa ∨ c = .memSpecRd tag hpa →
    s.host.drain = .none → s.cxlHit hpa = some (ns, off) → exec c s = .next (settle (gatherRun
      { id := s.nextId, cxl := some tag, ns, off, len := 64 }
      { s with nextId := s.nextId + 1, host := { s.host with l1 := false } }))) ∧
  (∀ (s : State) (tag hpa : Nat) (c : Instr), c = .memRd tag hpa ∨ c = .memRdData tag hpa → s.host.drain = .none →
    s.cxlHit hpa = none → exec c s = .next (settle { s with
      out := s.out ++ [.cxlData tag (List.replicate 64 0) true]
      host := { s.host with l1 := false, refused := sat16 s.host.refused, poisonRd := sat16 s.host.poisonRd, rasUncor := true
                            aerInternal := true, events := s.host.events ++ [.raError] } })) ∧
  (∀ (s : State) (tag hpa : Nat), s.host.drain = .none → s.cxlHit hpa = none →
    exec (.memSpecRd tag hpa) s = .next (settle { s with host := { s.host with l1 := false } })) ∧
  -- MEMINV, MEMINVNT, MEMCLNEVCT
  (∀ (s : State) (tag hpa : Nat) (c : Instr), c = .memInv tag hpa ∨ c = .memInvNT tag hpa ∨ c = .memClnEvct tag hpa →
    s.host.drain = .none → (s.cxlHit hpa).isSome = true →
    exec c s = .next (settle { s with host := { s.host with l1 := false }, out := s.out ++ [.cxlCmp tag] })) ∧
  -- MEMWR, MEMWRPTL
  (∀ (s : State) (tag hpa ns off : Nat) (c : Instr) (img : Img),
    (∃ d, c = .memWr tag hpa d false ∧ img = imgOf d.toList) ∨ (∃ m d, c = .memWrPtl tag hpa m d false ∧ img = maskImg m d.toList) →
    s.host.drain = .none → s.cxlHit hpa = some (ns, off) → s.dura.held = [] →
    s.canPlace { tag, ns, off, img, poison := false } = true →
    exec c s = .next (settle (placeCxl { tag, ns, off, img, poison := false } { s with host := { s.host with l1 := false } }))) ∧
  (∀ (s : State) (tag hpa ns off : Nat) (c : Instr) (img : Img),
    (∃ d, c = .memWr tag hpa d true ∧ img = imgOf d.toList) ∨ (∃ m d, c = .memWrPtl tag hpa m d true ∧ img = maskImg m d.toList) →
    s.host.drain = .none → s.cxlHit hpa = some (ns, off) → s.dura.held ≠ [] →
    exec c s = .next (settle { s with
      host := { s.host with l1 := false, poisonWr := sat16 s.host.poisonWr }
      dura := { s.dura with held := s.dura.held ++ [{ tag, ns, off, img, poison := true }] } })) ∧
  (∀ (s : State) (tag hpa : Nat) (d : Line) (p : Bool), s.host.drain = .none → s.cxlHit hpa = none →
    exec (.memWr tag hpa d p) s = .next (settle { s with
      out := s.out ++ [.cxlCmp tag], sump := { s.sump with rsvHost := s.sump.rsvHost - 1 }
      host := { s.host with l1 := false, refused := sat16 s.host.refused, rasUncor := true, aerInternal := true
                            events := s.host.events ++ [.raError] } })) ∧
  -- a host-port drain discards what arrives
  (∀ (s : State) (t tag hpa : Nat), s.host.drain = .h3 t → exec (.memRd tag hpa) s = .next s) ∧
  -- GPF_PHASE2, GPF_TIMEOUT
  (∀ s : State, exec .gpfPhase2 s = .next (settle (flushStart { s with host := { s.host with
    gpfs := sat16 s.host.gpfs, gpfWait := s.host.gpfWait ++ [{ since := s.now }] } }))) ∧
  (∀ (s : State) (g : Gpf) (l : List Gpf), s.host.gpfWait = g :: l → ∃ t u, exec .gpfTimeout s = .next t ∧ Reports s u
    ∧ t = { u with out := u.out ++ [.gpfDone], host := { s.host with
      gpfWait := l, gpfFail := true, gpfLocal := false, events := s.host.events ++ [.gpfFail] } })

/-- R389, R392, R396, R401, R410: the data object exchange and the CXL mailbox. Each command out of D3hot is answered by its opcode with
what the spec gives: the event records and their clearing, the firmware slots, the timestamp (0 until one is set, then growing), the
one log, the capacity in multiples of 256 MiB of the four decoders, no partition, the dirty shutdowns; any other opcode is answered
as not supported. Nothing but what is sent changes, save by a clearing and by a setting. -/
def Obligations.CxlMailboxAnswers : Prop :=
  -- DOE_REQUEST
  (∀ s : State, exec (.doeRequest true) s = .next { s with out := s.out ++ [.cxlMbx 0x1E980002 true (s.host.cdat.flatMap (fun k =>
    [k, (List.range k).foldl (fun n j => n + s.nsSize (s.hdm j).nsid) 0, s.nsSize (s.hdm k).nsid, 1, 2000, 250, 121, 106]))] }
    ∧ exec (.doeRequest false) s = .next { s with out := s.out ++ [.cxlMbx 0x00010000 true [0x00010000, 0x1E980002]] }) ∧
  (∀ s : State, s.host.d3 = false →
    -- GET_EVENT_RECORDS, CLEAR_EVENT_RECORDS
    exec .getEventRecords s = .next { s with out := s.out ++ [.cxlMbx 0x0100 true (s.host.events.flatMap (fun e => match e with
      | .gpfFail => [1, 0, 0] | .raError => [2, 0, 0] | .poison n o => [3, n, o]))] } ∧
    (∀ n, exec (.clearEventRecords n) s = .next { s with
      host := { s.host with events := s.host.events.drop n }, out := s.out ++ [.cxlMbx 0x0101 true []] }) ∧
    -- GET_FW_INFO
    (s.flash.valid 0 = true → s.flash.valid 1 = false → exec .getFwInfo s = .next { s with out := s.out ++ [.cxlMbx 0x0200 true
      ([2, s.prime.image + 1, s.flash.named + 1] ++ (s.flash.version 0).map BitVec.toNat)] }) ∧
    -- GET_TIMESTAMP, SET_TIMESTAMP
    (s.host.cxlTimeAt = none → exec .getTimestamp s = .next { s with out := s.out ++ [.cxlMbx 0x0300 true [0]] }) ∧
    (∀ t, s.host.cxlTimeAt = some t →
      exec .getTimestamp s = .next { s with out := s.out ++ [.cxlMbx 0x0300 true [s.host.cxlTime + (s.now - t)]] }) ∧
    (∀ v, exec (.setTimestamp v) s = .next { s with
      host := { s.host with cxlTime := v, cxlTimeAt := some s.now }, out := s.out ++ [.cxlMbx 0x0301 true []] }) ∧
    -- GET_SUPPORTED_LOGS, GET_LOG
    exec .getSupportedLogs s = .next { s with out := s.out ++ [.cxlMbx 0x0400 true [1, 10]] } ∧
    exec (.getLog true) s = .next { s with out := s.out ++ [.cxlMbx 0x0401 true
      [0x0100, 0x0101, 0x0200, 0x0300, 0x0301, 0x0400, 0x0401, 0x4000, 0x4100, 0x4200]] } ∧
    exec (.getLog false) s = .next { s with out := s.out ++ [.cxlMbx 0x0401 false []] } ∧
    -- IDENTIFY_MEMORY_DEVICE, GET_PARTITION_INFO
    (∀ c, c = (s.nsSize (s.hdm 0).nsid + s.nsSize (s.hdm 1).nsid + s.nsSize (s.hdm 2).nsid + s.nsSize (s.hdm 3).nsid) / 268435456 →
      exec .identifyMemoryDevice s = .next { s with out := s.out ++ [.cxlMbx 0x4000 true [0, c, 0]] } ∧
      exec .getPartitionInfo s = .next { s with out := s.out ++ [.cxlMbx 0x4100 true [0, c]] }) ∧
    -- GET_HEALTH_INFO, CXL_UNSUPPORTED_COMMAND
    exec .getHealthInfo s = .next { s with out := s.out ++ [.cxlMbx 0x4200 true
      [(s.plogValid.filter (fun r => r.kind == 3 && r.flags / 2 % 2 == 1)).length]] } ∧
    (∀ op, exec (.cxlUnsupportedCommand op) s = .next { s with out := s.out ++ [.cxlMbx op false []] })) ∧
  -- in D3hot the mailbox answers nothing
  (∀ (s : State) (op : Nat), s.host.d3 = true → exec (.cxlUnsupportedCommand op) s = .next s ∧ exec .getHealthInfo s = .next s)

/-- R419 to R428, R449 to R454: the mailbox and unit-select windows and the BMC's endpoint. MBX_SEL and UNIT_SEL select, and flag what they cannot;
a push moves the staged entry into a FIFO with room and clears it, and a pop drops the head response; a mailbox is claimed with a token that is not 0,
each access renewing its lease, and released by its owner or at its lease's end; the endpoint answers MCTP control messages from priming step 5 on,
and takes a mailbox message whose PEC is right and whose entries have room (control fields are the model's, log entry 83, PRESUMED). -/
def Obligations.MailboxWindowsAndEndpoint : Prop :=
  -- MBX_SEL_WRITE
  (∀ (v : BitVec 32) (s : State), (v.toNat % 8 ≤ 3 → exec (.mbxSelWrite v) s = .next { s with ctl := { s.ctl with sel := v.toNat % 8 } })
    ∧ (v.toNat % 8 = 4 ∨ v.toNat % 8 = 5 → exec (.mbxSelWrite v) s = .next { s with ctl := { s.ctl with selErr := true } })) ∧
  -- MBX_CMD_PUSH
  (∀ (a : Option (Fin 4)) (v : BitVec 32) (s : State), v.getLsbD 0 = true →
    let m := s.winMbx a
    ((s.mbx m).token = 0 → exec (.mbxCmdPush a v) s = .next (s.modMbx m (fun b => { b with noOwn := true }))) ∧
    ((s.mbx m).token ≠ 0 → (mbxPush m (s.mbx m).stage (renewLease m s)).2 = true → exec (.mbxCmdPush a v) s = .next
      ((mbxPush m (s.mbx m).stage (renewLease m s)).1.modMbx m (fun b => { b with stage := List.replicate 64 0 })))) ∧
  -- MBX_RSP_POP
  (∀ (a : Option (Fin 4)) (v : BitVec 32) (s : State), v.getLsbD 0 = true →
    let m := s.winMbx a
    (s.mbx m).token ≠ 0 → exec (.mbxRspPop a v) s = .next (framing m ((ptrCheck m (renewLease m s)).modMbx m
      (fun b => { b with rsps := b.rsps.drop 1 })))) ∧
  -- MBX_OWNER_CLAIM, MBX_OWNER_RELEASE, MBX_LEASE_EXPIRY
  (∀ (a : Option (Fin 4)) (t : BitVec 16) (s : State), t ≠ 0 →
    let m := s.winMbx a
    ((s.mbx m).token = 0 ∨ (s.mbx m).token = t →
      exec (.mbxOwnerClaim a t) s = .next (renewLease m (s.modMbx m (fun b => { b with token := t })))) ∧
    ((s.mbx m).token ≠ 0 → (s.mbx m).token ≠ t → exec (.mbxOwnerClaim a t) s = .next s) ∧
    ((s.mbx m).token = t → exec (.mbxOwnerRelease a t) s = .next (mbxRelease m s)) ∧
    ((s.mbx m).token ≠ t → exec (.mbxOwnerRelease a t) s = .next s)) ∧
  (∀ (m : Fin 8) (s : State), (s.mbx m).token ≠ 0 → exec (.mbxLeaseExpiry m) s = .next (mbxRelease m s)) ∧
  -- UNIT_SEL_WRITE
  (∀ (v : BitVec 32) (s : State), 
    (v.toNat % 65536 < unitCount (v.toNat / 16777216) → exec (.unitSelWrite v) s =
      .next { s with ctl := { s.ctl with unitType := v.toNat / 16777216, unitIdx := v.toNat % 65536 } }) ∧
    (unitCount (v.toNat / 16777216) ≤ v.toNat % 65536 → exec (.unitSelWrite v) s = .next { s with ctl := { s.ctl with selErr := true } })) ∧
  -- SET_ENDPOINT_ID, GET_ENDPOINT_ID, GET_MCTP_VERSION_SUPPORT, GET_MESSAGE_TYPE_SUPPORT, GET_VENDOR_DEFINED_MESSAGE_SUPPORT
  (∀ s : State, s.bmcUp = true →
    (∀ e : Nat, 0 < e → e < 255 → exec (.setEndpointId e) s = .next { s with
      ctl := { s.ctl with eid := e }, out := s.out ++ [.mctp 0x00 [0, 0, BitVec.ofNat 8 e, 0]] }) ∧
    (∀ e : Nat, e = 0 ∨ 255 ≤ e → exec (.setEndpointId e) s = .next { s with out := s.out ++ [.mctp 0x00 [2]] }) ∧
    exec .getEndpointId s = .next { s with out := s.out ++ [.mctp 0x00 [0, BitVec.ofNat 8 s.ctl.eid, 0, 0]] } ∧
    exec .getMctpVersionSupport s = .next { s with out := s.out ++ [.mctp 0x00 [0, 1, 0xF1, 0xF3, 0xFF, 0]] } ∧
    exec .getMessageTypeSupport s = .next { s with out := s.out ++ [.mctp 0x00 [0, 1, 0x7E]] } ∧
    exec .getVendorDefinedMessageSupport s = .next { s with
      out := s.out ++ [.mctp 0x00 ([0, 0xFF, 0] ++ beBytes 2 Config.vendorId.toNat ++ [0, 0])] }) ∧
  -- MCTP_MAILBOX_MESSAGE
  (∀ (e : Nat) (l : List MbxEntry) (s : State), s.bmcUp = true →
    exec (.mctpMailboxMessage e false l) s = .next s ∧
    (((ptrCheck 4 s).mbx 4).cmds.length + l.length ≤ fifoSize → exec (.mctpMailboxMessage e true l) s = .next (framing 4
      ((ptrCheck 4 s).modMbx 4 (fun b => { b with eid := e, cmds := b.cmds ++ l.map (·.toList) })))) ∧
    (fifoSize < ((ptrCheck 4 s).mbx 4).cmds.length + l.length →
      exec (.mctpMailboxMessage e true l) s = .next (setOverrun 4 (ptrCheck 4 s))))

/-- R24, R55, R139, R255, R299, R301, R351, R388, R389, R396, R398, R412, R425, R432 to R435, R449, R478, R575, R618, R648, R681: a command of the
group 0x01 that is taken and whose record is acceptable logs its CONTROL entry and record, changes exactly the parameters that it carries (one left out
keeps its value), and its answer OK waits for the entry's acknowledgement. Numbering of SET_INTEGRITY's parameters is the model's (log entry 46, DESIGN CHOICE). -/
def Obligations.DeviceParametersAreCommitted : Prop :=
  -- SET_DURABILITY
  (∀ (h : CmdHdr) (p k t : Option Nat) (s : State), commits h 0x0101 .immediate devUnit (.durability p k t) s = true →
    exec (.setDurability h p k t) s = .next (committed h 0x0101 devUnit (.durability p k t) (fun _ => []) (fun v => { v with
      dura := { v.dura with pHold := p <|> v.dura.pHold, kMargin := k.getD v.dura.kMargin, tFixed := t.getD v.dura.tFixed } }) s)) ∧
  -- SET_INTEGRITY
  (∀ (h : CmdHdr) (scope unit param v : Nat) (s : State), commits h 0x0102 .immediate unit (.integrity scope unit param v) s = true →
    exec (.setIntegrity h scope unit param v) s = .next (committed h 0x0102 unit (.integrity scope unit param v) (fun _ => []) (fun u =>
      match param with
      | 0 => u.modChan unit (fun k => { k with ceThresh := v })
      | 1 => u.modChan unit (fun k => { k with retireSym := v })
      | 2 => { u with plat := { u.plat with rowLease := v } }
      | 3 => { u with plat := { u.plat with scrubDays := v } }
      | 4 => { u with plat := { u.plat with scrubShare := v } }
      | 5 => { u with plat := { u.plat with parkScrubDays := v } }
      | 6 => { u with plat := { u.plat with parkScrubRate := v } }
      | 7 => u.modGrp unit (fun k => { k with rebuildShare := v })
      | 8 => u.modGrp unit (fun k => { k with autoRebuild := v == 1 })
      | 9 => u.modDrch unit (fun k => { k with srIdle := v })
      | 10 => { u with dram := { u.dram with actThresh := v } }
      | 11 => { u with dram := { u.dram with rhRadius := v } }
      | 12 => { u with dram := { u.dram with rhEvent := v } }
      | 13 => u.modDrch unit (fun k => { k with ceThresh := v })
      | _ => { u with test := { u.test with ttPass := v } }) s)) ∧
  -- SET_POOL
  (∀ (h : CmdHdr) (p : PoolParams) (s : State), commits h 0x0103 .immediate devUnit (.pool p) s = true →
    exec (.setPool h p) s = .next (committed h 0x0103 devUnit (.pool p) (fun _ => []) (fun v => { v with sump := { v.sump with
      intentRsv := p.intentRsv.getD v.sump.intentRsv, spillHigh := p.spillHigh.getD v.sump.spillHigh
      spillLow := p.spillLow.getD v.sump.spillLow, mergeWait := p.mergeWait.getD v.sump.mergeWait
      readFloor := p.readFloor.getD v.sump.readFloor, pfFloor := p.pfFloor.getD v.sump.pfFloor } }) s)) ∧
  -- SET_PORT
  (∀ (h : CmdHdr) (p : PortParams) (s : State), commits h 0x0104 .immediate p.port (.port p) s = true →
    exec (.setPort h p) s = .next (committed h 0x0104 p.port (.port p) (fun _ => []) (fun v =>
      (if p.mode = (v.nport p.port).mode then v else v.modNport p.port (fun n => { n with
        mode := p.mode, subs := n.subs.map (fun x => { x with up := false, fecDeg := false }) })).modSub p.port p.sub (fun x => { x with
          vlan := p.vlan, pcp := p.pcp, mac := p.mac, ip4 := p.ip4, ip6 := p.ip6 })) s)) ∧
  -- SET_XPORT
  (∀ (h : CmdHdr) (p : XportParams) (s : State), commits h 0x0105 .immediate devUnit (.xport p) s = true →
    exec (.setXport h p) s = .next (committed h 0x0105 devUnit (.xport p) (fun _ => []) (fun v => { v with xport := { v.xport with
      dscpData := p.dscpData.getD v.xport.dscpData, dscpCtrl := p.dscpCtrl.getD v.xport.dscpCtrl
      ecnMark := p.ecnMark.getD v.xport.ecnMark, ecnReact := p.ecnReact.getD v.xport.ecnReact
      ackCount := p.ackCount.getD v.xport.ackCount, ackDelay := p.ackDelay.getD v.xport.ackDelay
      reasm := p.reasm.getD v.xport.reasm, creditIdle := p.creditIdle.getD v.xport.creditIdle } }) s)) ∧
  -- SET_HOSTPORT
  (∀ (h : CmdHdr) (r q v w : Option Nat) (s : State), commits h 0x0106 .immediate devUnit (.hostport r q v w) s = true →
    exec (.setHostport h r q v w) s = .next (committed h 0x0106 devUnit (.hostport r q v w) (fun _ => []) (fun u => { u with
      host := { u.host with
        maxRateNext := r.getD u.host.maxRateNext, perstSys := (q.map (· == 1)).getD u.host.perstSys
        ssvid := v.getD u.host.ssvid, ssid := w.getD u.host.ssid } }) s)) ∧
  -- SET_HDM, CLEAR_HDM
  (∀ (h : CmdHdr) (k n : Nat) (s : State), commits h 0x0107 .immediate k (.setHdm k n) s = true →
    exec (.setHdm h k n) s = .next (committed h 0x0107 k (.setHdm k n) (fun _ => []) (fun v => { v with
      host := { v.host with hdm := modAt v.host.hdm k (fun x => { x with nsid := n }) } }) s)) ∧
  (∀ (h : CmdHdr) (k : Nat) (s : State), commits h 0x0108 .immediate k (.clearHdm k) s = true →
    exec (.clearHdm h k) s = .next (committed h 0x0108 k (.clearHdm k) (fun _ => []) (fun v => { v with
      host := { v.host with hdm := modAt v.host.hdm k (fun x => { x with nsid := 0 }) } }) s)) ∧
  -- SET_EVENT_ROUTE: a pending event that moves to another vector, or whose MSIX bit becomes set, sends its message once
  (∀ (h : CmdHdr) (x vec cores : Nat) (m : Bool) (s : State), commits h 0x0109 .immediate x (.eventRoute x vec cores m) s = true →
    exec (.setEventRoute h x vec cores m) s = .next (committed h 0x0109 x (.eventRoute x vec cores m) (fun _ => []) (fun v =>
      let was := v.ev.route x
      let u : State := { v with ev := { v.ev with routes := tabSet {} v.ev.routes x { vec, msix := m, cores := BitVec.ofNat 4 cores } } }
      let u := if was.msix ∧ (!m ∨ was.vec ≠ vec) then pbaCheck was.vec u else u
      if m ∧ (!was.msix ∨ was.vec ≠ vec) ∧ u.ev.status.getLsbD x ∧ u.ev.evMsix then sendVector vec u else u) s)) ∧
  -- SET_COMPAT
  (∀ (h : CmdHdr) (m : Nat) (s : State), commits h 0x010A .immediate devUnit (.compat m) s = true →
    exec (.setCompat h m) s = .next (committed h 0x010A devUnit (.compat m) (fun _ => []) (fun v => { v with
      cipher := { v.cipher with blockSusp := m % 2 == 1 } }) s)) ∧
  -- SET_MBX
  (∀ (h : CmdHdr) (l a : Option Nat) (s : State), commits h 0x010B .immediate devUnit (.mbx l a) s = true →
    exec (.setMbx h l a) s = .next (committed h 0x010B devUnit (.mbx l a) (fun _ => []) (fun v => { v with
      ctl := { v.ctl with lease := l.getD v.ctl.lease, smbAddr := a.getD v.ctl.smbAddr } }) s))

/-- R80, R81, R197, R199, R200, R203, R273, R297, R314, R353 to R356, R359, R360, R369, R432 to R435, R442, R443, R448, R471, R483: the other commands
that commit a record. Taken, and with an acceptable record, each logs its CONTROL entry and record and changes the logged state: namespaces, drawers,
connections, grants, schedules, the witness and the twin. Immediate ones answer OK, with the NSID, AKEY or handle taken; a pinned grant, a revocation, a
close and a sanitize go on after the commit. -/
def Obligations.ObjectsAreCommitted : Prop :=
  -- CREATE_NS (these four also write the table's new copies, R77): units from R80's easels, the lowest free NSID for 0
  (∀ (h : CmdHdr) (p : CreateNsParams) (s : State) (n : Nat) (l : List (Nat × Nat)) (t : State),
    commits h 0x0202 .immediate devUnit (.createNs p) s = true →
    (logged h 0x0202 .immediate devUnit (.createNs p) s).pickNs p.nsid = some n →
    allocUnits p.units n 0 p.psi p.parkable (logged h 0x0202 .immediate devUnit (.createNs p) s) = some (l, t) →
    exec (.createNs h p) s = .next (committed h 0x0202 devUnit (.createNs p) (fun u => leBytes 4 ((u.pickNs p.nsid).getD 0)) (fun _ => tableCopies { t with
      ctl := { t.ctl with nss := tabPut t.ctl.nss n {
        units := l, psi := p.psi, parkable := p.parkable, visVarnish := p.visVarnish, cacheFill := p.cacheFill, encrypted := p.encrypted
        blob := if t.twin.num = 0 then p.blob0 else p.blob1, peerBlob := if t.twin.num = 0 then p.blob1 else p.blob0 } } }) s)) ∧
  -- DELETE_NS: its data, easels, keys and entry go
  (∀ (h : CmdHdr) (n : Nat) (s : State) (x : Ns), commits h 0x0203 .immediate n (.deleteNs n) s = true →
    (logged h 0x0203 .immediate n (.deleteNs n) s).ns n = some x →
    exec (.deleteNs h n) s = .next (committed h 0x0203 n (.deleteNs n) (fun _ => []) (fun v => tableCopies (erasePalette (fun t => t == .ns n)
      ((forEach x.units (fun u s => freeEasel (easelKey u.1 u.2) s) (dropData n 0 v)).modCtl (fun c => { c with nss := tabDel c.nss n })))) s)) ∧
  -- RESIZE_NS, shrinking and growing
  (∀ (h : CmdHdr) (n units : Nat) (s : State) (x : Ns), commits h 0x0204 .immediate n (.resizeNs n units) s = true →
    (logged h 0x0204 .immediate n (.resizeNs n units) s).ns n = some x → units ≤ x.units.length →
    exec (.resizeNs h n units) s = .next (committed h 0x0204 n (.resizeNs n units) (fun _ => []) (fun v => tableCopies (
      (forEach (x.units.drop units) (fun u s => freeEasel (easelKey u.1 u.2) s) (dropData n (units * 2147483648) v)).modNs n
        (fun k => { k with units := k.units.take units }))) s)) ∧
  (∀ (h : CmdHdr) (n units : Nat) (s : State) (x : Ns) (l : List (Nat × Nat)) (t : State),
    commits h 0x0204 .immediate n (.resizeNs n units) s = true →
    (logged h 0x0204 .immediate n (.resizeNs n units) s).ns n = some x → x.units.length < units →
    allocUnits (units - x.units.length) n x.units.length x.psi x.parkable (logged h 0x0204 .immediate n (.resizeNs n units) s) = some (l, t) →
    exec (.resizeNs h n units) s = .next (committed h 0x0204 n (.resizeNs n units) (fun _ => []) (fun _ =>
      tableCopies (t.modNs n (fun k => { k with units := k.units ++ l }))) s)) ∧
  -- SET_NS_ATTR: an attribute left out, or given as it is, keeps its value
  (∀ (h : CmdHdr) (n : Nat) (pk cf vv en : Option Bool) (s : State) (x : Ns),
    (opened h 0x0205 .immediate n s).ns n = some x → vv.getD x.visVarnish = x.visVarnish → en.getD x.encrypted = x.encrypted →
    s.ns n = some x → commits h 0x0205 .immediate n (.nsAttr n (pk.getD x.parkable) (cf.getD x.cacheFill)) s = true →
    exec (.setNsAttr h n pk cf vv en) s = .next (committed h 0x0205 n (.nsAttr n (pk.getD x.parkable) (cf.getD x.cacheFill)) (fun _ => [])
      (fun v => tableCopies (v.modNs n (fun k => { k with parkable := pk.getD x.parkable, cacheFill := cf.getD x.cacheFill }))) s)) ∧
  -- SET_DRAWER
  (∀ (h : CmdHdr) (d : Nat) (p : Bool) (i : Nat) (s : State), commits h 0x0303 .immediate d (.setDrawer d p i) s = true →
    exec (.setDrawer h d p i) s = .next (committed h 0x0303 d (.setDrawer d p i) (fun _ => []) (fun v =>
      v.modDrw d (fun k => { k with parkable := p, parkIdle := i })) s)) ∧
  -- OPEN_CONNECTION
  (∀ (h : CmdHdr) (p : OpenParams) (s : State) (k : ConnKey), commits h 0x0401 .immediate devUnit (.openConn p) s = true →
    (logged h 0x0401 .immediate devUnit (.openConn p) s).connBlob p.conn 0 p.blob0 p.blob1 = some k →
    exec (.openConnection h p) s = .next (committed h 0x0401 devUnit (.openConn p) (fun _ => []) (fun v =>
      keyKeep (.conn p.conn 0) (setReserve p.conn p.creditWin (v.modConn p.conn (fun _ =>
        openedConn p (some (k, v.ownBlob p.blob0 p.blob1, v.peerBlob p.blob0 p.blob1)) v.twin.epoch)))) s)) ∧
  -- CLOSE_CONNECTION: an OPEN connection becomes CLOSING, and the command waits for CLOSED
  (∀ (h : CmdHdr) (c : Nat) (s : State), commits h 0x0402 .long devUnit (.closeConn c) s = true →
    ((logged h 0x0402 .long devUnit (.closeConn c) s).conn c).st = .opened →
    let v := setPast (cmdId h 0x0402 s) ((logged h 0x0402 .long devUnit (.closeConn c) s).modConn c (fun k => { k with st := .closing }))
    exec (.closeConnection h c) s = .next (settle (v.modConn c (fun k => { k with closers := k.closers ++ [cmdId h 0x0402 s] })))) ∧
  -- REKEY
  (∀ (h : CmdHdr) (c g : Nat) (b0 b1 : Blob) (s : State) (k : ConnKey), commits h 0x0403 .immediate devUnit (.rekey c g b0 b1) s = true →
    (logged h 0x0403 .immediate devUnit (.rekey c g b0 b1) s).connBlob c g b0 b1 = some k →
    exec (.rekey h c g b0 b1) s = .next (committed h 0x0403 devUnit (.rekey c g b0 b1) (fun _ => []) (fun v =>
      keyKeep (.conn c g) (v.modConn c (fun x => { x with
        keys := x.keys ++ [(g, k, v.ownBlob b0 b1, v.peerBlob b0 b1)], keyEpoch := v.twin.epoch }))) s)) ∧
  -- REGISTER_GRANT: LIVE in the lowest FREE slot; its AKEY is answered, for a pinned grant after its drawers
  (∀ (h : CmdHdr) (p : GrantParams) (s : State) (g : Nat), p.pinned ≠ 1 → commits h 0x0405 .immediate devUnit (.regGrant p) s = true →
    (logged h 0x0405 .immediate devUnit (.regGrant p) s).freeSlot = some g →
    exec (.registerGrant h p) s = .next (committed h 0x0405 devUnit (.regGrant p) (fun u => leBytes 4 (u.akey (u.freeSlot.getD 0))) (fun v =>
      v.modGrant g (fun k => { k with st := .live, params := some p, conns := p.conns, pinWait := false })) s)) ∧
  (∀ (h : CmdHdr) (p : GrantParams) (s : State) (g : Nat), p.pinned = 1 → commits h 0x0405 .waiting devUnit (.regGrant p) s = true →
    (opened h 0x0405 .waiting devUnit s).freeSlot = some g → (logged h 0x0405 .waiting devUnit (.regGrant p) s).freeSlot = some g →
    (logged h 0x0405 .waiting devUnit (.regGrant p) s).serving = true →
    let v := (logged h 0x0405 .waiting devUnit (.regGrant p) s).modGrant g
      (fun k => { k with st := .live, params := some p, conns := p.conns, pinWait := true })
    let v := wakeSpan (v.rangeDrawers p.nsid p.off p.len) v
    exec (.registerGrant h p) s = .next (settle (pinCheck g (v.modGrant g (fun k => { k with pinCmd := some (cmdId h 0x0405 s) }))))) ∧
  -- REVOKE_GRANT: the command waits for DEAD
  (∀ (h : CmdHdr) (a : BitVec 32) (s : State), let g := a.toNat % 131072
    commits h codeRevoke .waiting devUnit (.revokeGrant g) s = true → (opened h codeRevoke .waiting devUnit s).akey g = a.toNat →
    let v := revoke g (logged h codeRevoke .waiting devUnit (.revokeGrant g) s)
    exec (.revokeGrant h a) s = .next (settle (if (v.grant g).st = .dead then finish (cmdId h codeRevoke s) stOk [] v
      else v.modGrant g (fun k => { k with waiters := k.waiters ++ [(cmdId h codeRevoke s, false)] })))) ∧
  -- SET_WITNESS, SET_TWIN
  (∀ (h : CmdHdr) (p : WitnessParams) (s : State), commits h 0x0503 .immediate devUnit (.witness p) s = true →
    (applyWitness p (logged h 0x0503 .immediate devUnit (.witness p) s)).2 = 0 →
    exec (.setWitness h p) s = .next (committed h 0x0503 devUnit (.witness p) (fun _ => []) (fun v => (applyWitness p v).1) s)
    ∧ (applyWitness p (logged h 0x0503 .immediate devUnit (.witness p) s)).1.twin.witness = some p) ∧
  (∀ (h : CmdHdr) (p : TwinParams) (s : State), commits h 0x0504 .immediate devUnit (.twin p) s = true →
    exec (.setTwin h p) s = .next (committed h 0x0504 devUnit (.twin p) (fun _ => []) (fun v => { v with twin := { v.twin with
      twinCredit := p.twinCredit.getD v.twin.twinCredit, resyncShare := p.resyncShare.getD v.twin.resyncShare
      ueStorm := p.ueStorm.getD v.twin.ueStorm, hsWaitNext := p.hsWait.getD v.twin.hsWaitNext } }) s)) ∧
  -- SANITIZE: ends at once only where no unit is left to rewrite
  (∀ (h : CmdHdr) (n : Nat) (s : State) (x : Ns), commits h codeSanitize .long n (.sanitize n) s = true →
    let v := setPast (cmdId h codeSanitize s) (applySanitize n (logged h codeSanitize .long n (.sanitize n) s))
    v.ns n = some x →
    exec (.sanitize h n) s = .next (settle (if x.units.any (fun u => (v.easel (easelKey u.1 u.2)).filling) then v
      else finish (cmdId h codeSanitize s) stOk [] v))) ∧
  -- SCHED_CREATE, SCHED_APPEND, SCHED_START, SCHED_DELETE
  (∀ (h : CmdHdr) (p : SchedParams) (s : State) (k : Nat), commits h 0x0701 .immediate devUnit (.schedCreate p) s = true →
    lowestFrom 0 64 (fun i => ((logged h 0x0701 .immediate devUnit (.schedCreate p) s).sched i).isSome) = some k →
    exec (.schedCreate h p) s = .next (committed h 0x0701 devUnit (.schedCreate p)
      (fun u => leBytes 4 ((lowestFrom 0 64 (fun i => (u.sched i).isSome)).getD 0)) (fun v => { v with ctl := { v.ctl with
        scheds := tabPut v.ctl.scheds k { nsid := p.nsid, conn := p.conn, leadMs := p.leadMs, lookahead := p.lookahead } } }) s)) ∧
  (∀ (h : CmdHdr) (k : Nat) (l : List (Nat × Nat)) (s : State), commits h 0x0702 .immediate devUnit (.schedAppend k l) s = true →
    exec (.schedAppend h k l) s = .next (committed h 0x0702 devUnit (.schedAppend k l) (fun _ => []) (fun v =>
      v.modSched k (fun x => { x with extents := x.extents ++ l })) s)) ∧
  (∀ (h : CmdHdr) (k : Nat) (s : State), commits h 0x0703 .immediate devUnit (.schedStart k) s = true →
    exec (.schedStart h k) s = .next (committed h 0x0703 devUnit (.schedStart k) (fun _ => []) (fun v =>
      let u := v.modSched k (fun x => if x.started then x else { x with started := true, startAt := v.now })
      if u.serving then schedStage k (schedWake k u) else u) s)) ∧
  (∀ (h : CmdHdr) (k : Nat) (s : State), commits h 0x0704 .immediate devUnit (.schedDelete k) s = true →
    exec (.schedDelete h k) s = .next (committed h 0x0704 devUnit (.schedDelete k) (fun _ => []) (fun v =>
      (schedRelease k (v.modSched k (fun x => { x with cursor := x.extents.length }))).modCtl (fun x => { x with scheds := tabDel x.scheds k })) s))

/-- R361, R362, R422, R437 to R440, R444, R445, R603, R626, R639, R640: commands that are answered at once. Taken, and with the object named present,
each is answered OK with the block shown (the layout of the result blocks is the model's, log entry 85, DESIGN CHOICE); ABORT marks its target, REC_FREEZE and
REC_UNFREEZE stop and resume the recorder, GRANT_STATUS returns a DEAD slot to FREE, and LC_STATUS draws a fresh challenge. -/
def Obligations.ImmediateCommandsAnswer : Prop :=
  -- IDENTIFY
  (∀ (h : CmdHdr) (s : State), takes h 0x0001 .immediate devUnit s = true →
    exec (.identify h) s = .next (answered h 0x0001 devUnit (fun u => leBytes 4 u.regDevId ++ leBytes 4 u.regDevRev ++ leBytes 4 u.regLcs
      ++ leBytes 1 u.twin.num ++ leBytes 1 u.twin.role.code ++ leBytes 2 0 ++ leBytes 4 u.twin.epoch.toNat ++ u.flash.version 0
      ++ u.flash.version 1 ++ leBytes 16 Config.dieId) s)) ∧
  -- GET_STATUS
  (∀ (h : CmdHdr) (m : Nat) (tag : BitVec 16) (e : StatusRec) (s : State), takes h 0x0002 .immediate devUnit s = true →
    (opened h 0x0002 .immediate devUnit s).statusOf m tag = some e →
    exec (.getStatus h m tag) s = .next (answered h 0x0002 devUnit (fun _ => leBytes 1 e.mbx ++ leBytes 1 0 ++ leBytes 2 e.code
      ++ leBytes 2 e.tag.toNat ++ leBytes 1 (e.status.getD 0xFF) ++ leBytes 1 e.rflags ++ leBytes 2 e.reason) s)) ∧
  -- ABORT
  (∀ (h : CmdHdr) (tag : BitVec 16) (r : Running) (s : State), takes h 0x0003 .immediate devUnit s = true →
    let u := opened h 0x0003 .immediate devUnit s
    u.abortTarget h.mbx.val tag = some r → r.kind = .long → r.marked = false →
    exec (.abort h tag) s = .next (settle (abortNow { r with marked := true } (finish (cmdId h 0x0003 s) stOk [] { u with ctl := { u.ctl with
      running := u.ctl.running.map (fun q => if q.id = r.id then { q with marked := true } else q) } })))) ∧
  -- GET_CONFIG
  (∀ (h : CmdHdr) (id v : Nat) (s : State), takes h 0x010C .immediate devUnit s = true →
    (opened h 0x010C .immediate devUnit s).param id = some v →
    exec (.getConfig h id) s = .next (answered h 0x010C devUnit (fun _ => leBytes 16 v) s)) ∧
  -- NS_STATUS, READ_EASEL
  (∀ (h : CmdHdr) (n : Nat) (x : Ns) (s : State), takes h 0x0206 .immediate n s = true → (opened h 0x0206 .immediate n s).ns n = some x →
    exec (.nsStatus h n) s = .next (answered h 0x0206 n (fun u => leBytes 4 x.units.length ++ leBytes 2 x.psi
      ++ leBytes 2 (bit x.parkable + 2 * bit x.visVarnish + 4 * bit x.cacheFill + 8 * bit x.encrypted)
      ++ leBytes 4 (x.units.filter (fun y => (u.easel (easelKey y.1 y.2)).filling)).length) s)) ∧
  (∀ (h : CmdHdr) (g e : Nat) (s : State), takes h 0x0207 .immediate g s = true → g < 16 →
    e < ((opened h 0x0207 .immediate g s).grp g).eg →
    exec (.readEasel h g e) s = .next (answered h 0x0207 g (fun u =>
      let k := u.easel (easelKey g e)
      leBytes 2 k.nsid ++ leBytes 2 k.unit ++ k.key.flatMap (fun r => leBytes 2 r.toNat) ++ leBytes 4 k.start ++ leBytes 4 k.gap
        ++ leBytes 2 k.psi ++ leBytes 2 k.wcount ++ leBytes 8 k.moves.toNat ++ leBytes 1 k.spares ++ leBytes 1 (bit k.worn)
        ++ (List.range 63).flatMap (fun i => match lookupNat i k.remap with
          | some x => leBytes 4 (x + 2147483648)
          | none => leBytes 4 0)) s)) ∧
  -- DRAWER_STATUS
  (∀ (h : CmdHdr) (d : Nat) (s : State), takes h 0x0304 .immediate d s = true → d < 8 →
    ((opened h 0x0304 .immediate d s).drw d).st ≠ .dfault →
    exec (.drawerStatus h d) s = .next (answered h 0x0304 d (fun u =>
      let k := u.drw d
      leBytes 1 k.st.code ++ leBytes 1 k.step.code ++ leBytes 2 (bit k.parkable + 2 * bit (k.latch != .none)) ++ leBytes 4 k.parkIdle
        ++ leBytes 4 (u.pins d) ++ leBytes 4 k.wakes ++ leBytes 4 k.slips) s)) ∧
  -- CONN_STATUS of an OPEN connection, GRANT_STATUS
  (∀ (h : CmdHdr) (c : Nat) (s : State), takes h 0x0404 .immediate devUnit s = true → c < 65536 →
    ((opened h 0x0404 .immediate devUnit s).conn c).st = .opened →
    exec (.connStatus h c) s = .next (answered h 0x0404 devUnit (fun u =>
      let k := u.conn c
      leBytes 1 1 ++ leBytes 1 (maskOf 8 ((k.paths.filter (·.live)).map (·.q))).toNat ++ leBytes 2 0 ++ leBytes 4 k.gen
        ++ leBytes 4 k.wmark.toNat ++ leBytes 4 k.dwmark.toNat ++ leBytes 4 k.dropcnt.toNat) s)) ∧
  (∀ (h : CmdHdr) (g : Nat) (p : GrantParams) (s : State), takes h 0x0407 .immediate devUnit s = true → g < 131072 →
    let u := opened h 0x0407 .immediate devUnit s
    (u.grant g).st = .dead → (u.grant g).params = some p →
    exec (.grantStatus h g) s = .next (settle (finish (cmdId h 0x0407 s) stOk (leBytes 1 3 ++ leBytes 1 p.rights.toNat ++ leBytes 2 p.nsid
      ++ leBytes 4 (u.grant g).gen ++ leBytes 4 (u.grant g).refs ++ leBytes 8 p.off ++ leBytes 8 p.len) (freeGrant g u)))) ∧
  -- TWIN_STATUS
  (∀ (h : CmdHdr) (s : State), takes h 0x0505 .immediate devUnit s = true →
    exec (.twinStatus h) s = .next (answered h 0x0505 devUnit (fun u => leBytes 1 u.twin.role.code ++ leBytes 1 u.twin.num
      ++ leBytes 1 u.twin.fcause ++ leBytes 1 (bit u.twin.resync + 2 * bit u.twin.resyncFull + 4 * bit u.twin.silent
        + 8 * bit u.twin.witness.isSome + 16 * bit u.peerFit)
      ++ leBytes 4 u.twin.epoch.toNat ++ leBytes 8 u.twin.sent.toNat ++ leBytes 8 u.twin.applied.toNat ++ leBytes 4 u.twin.tileBits) s)) ∧
  -- CH_DESC, MAINT_STATUS
  (∀ (h : CmdHdr) (c page : Nat) (d : Bytes) (s : State), takes h 0x0608 .immediate c s = true → c < 144 → page < 2 →
    let u := opened h 0x0608 .immediate c s
    u.chanCheck c = none → (u.chan c).dstat ≠ 0 → lookupNat page (u.chan c).descPages = some d →
    exec (.chDesc h c page) s = .next (settle (finish (cmdId h 0x0608 s) stOk d u))) ∧
  (∀ (h : CmdHdr) (s : State), takes h 0x0609 .immediate devUnit s = true →
    exec (.maintStatus h) s = .next (answered h 0x0609 devUnit (fun u => (List.range 16).flatMap (fun g => leBytes 1 (u.grp g).st.code)
      ++ leBytes 2 (maskOf 16 ((List.range 16).filter (fun g => (u.grp g).scrubNow.isSome))).toNat ++ leBytes 1 u.power.cisSt
      ++ leBytes 1 ((List.range 48).filter (fun i => (u.rail i).margin != 0)).length) s)) ∧
  -- SCHED_STATUS
  (∀ (h : CmdHdr) (k : Nat) (x : Sched) (s : State), takes h 0x0705 .immediate devUnit s = true →
    (opened h 0x0705 .immediate devUnit s).sched k = some x →
    exec (.schedStatus h k) s = .next (answered h 0x0705 devUnit (fun _ => leBytes 2 x.nsid ++ leBytes 1 (bit x.started)
      ++ leBytes 1 (bit x.done) ++ leBytes 4 x.cursor ++ leBytes 4 x.extents.length ++ leBytes 8 x.head ++ leBytes 4 x.slips) s)) ∧
  -- REC_FREEZE, REC_UNFREEZE, REC_READ
  (∀ (h : CmdHdr) (s : State), takes h 0x0801 .immediate devUnit s = true →
    let u := opened h 0x0801 .immediate devUnit s
    exec (.recFreeze h) s = .next (settle (finish (cmdId h 0x0801 s) stOk []
      { u with test := { u.test with frozen := true, frozenAt := u.now } }))) ∧
  (∀ (h : CmdHdr) (a b : BitVec 64) (n : Nat) (s : State), takes h 0x0802 .immediate devUnit s = true →
    let u := opened h 0x0802 .immediate devUnit s
    u.test.frozen = true → u.test.dropped = some (a, b, n) →
    exec (.recUnfreeze h) s = .next (settle (finish (cmdId h 0x0802 s) stOk [] (record 0x0002 0xFFFF false (dropBody n a b)
      { u with test := { u.test with frozen := false, dropped := none } })))) ∧
  (∀ (h : CmdHdr) (source : Nat) (start : BitVec 64) (count : Nat) (s : State), takes h 0x0803 .immediate devUnit s = true →
    source ≤ 1 → 1 ≤ count → count ≤ 64 →
    exec (.recRead h source start count) s = .next (answered h 0x0803 devUnit (fun u => u.recBlock source start count) s)) ∧
  -- FW_STATUS, LC_STATUS
  (∀ (h : CmdHdr) (s : State), takes h 0x0905 .immediate devUnit s = true → (opened h 0x0905 .immediate devUnit s).flash.session = none →
    exec (.fwStatus h) s = .next (answered h 0x0905 devUnit (fun u =>
      leBytes 1 (bit (u.flash.valid 0)) ++ leBytes 1 (u.flash.secver 0) ++ u.flash.version 0
        ++ (leBytes 1 (bit (u.flash.valid 1)) ++ leBytes 1 (u.flash.secver 1) ++ u.flash.version 1)
        ++ leBytes 1 u.flash.named ++ leBytes 1 u.prime.image ++ leBytes 1 0 ++ leBytes 1 0
        ++ leBytes 4 (rangeBytes u.flash.written) ++ leBytes 1 u.flash.erased) s)) ∧
  (∀ (h : CmdHdr) (s : State), takes h 0x0A02 .immediate devUnit s = true →
    let u := opened h 0x0A02 .immediate devUnit s
    let c := u.draw.1.toNat % 2 ^ 256
    let v : State := { u.draw.2 with test := { u.draw.2.test with challenge := some c } }
    exec (.lcStatus h) s = .next (settle (finish (cmdId h 0x0A02 s) stOk
      (leBytes 1 v.test.lc.code ++ leBytes 1 (bit v.test.jtag) ++ leBytes 2 0 ++ leBytes 32 c) v)))

/-- R73 to R75, R134, R140, R146, R172, R173, R181, R184, R189, R190, R193, R206, R287, R444, R445, R515 to R518: waiting and long-running commands
that are admitted and whose conditions hold begin their work: a format begins with the write of its header, a mailbox access reads or writes its lines or is answered
BUSY while it wakes a drawer, a drawer parks or wakes, a planned swap enters S1, a scrub or rebuild starts at row 0, a measurement is due, a margin is
set, and a channel is retrained or reset. -/
def Obligations.LongCommandsBegin : Prop :=
  -- FORMAT_GROUP
  (∀ (h : CmdHdr) (g : Nat) (s : State), takes h 0x0201 .long g s = true → g < 16 →
    let u := opened h 0x0201 .long g s
    (u.drw (grpDrawer g)).st ≠ .dfault → u.nineModules g = true → 1 ≤ (u.formatSize g).2 →
    (∀ e ∈ u.easels, e.1 / 4096 = g → e.2.nsid = 0) → (u.grp g).formatting = false →
    (∀ o ∈ u.ops, o.grp = g → o.purpose ≠ .metaRow .format) → exec (.formatGroup h g) s = .next (settle (openFormat g u))) ∧
  -- MEM_READ, with every drawer AWAKE, and with one that is not
  (∀ (h : CmdHdr) (n off len : Nat) (s : State), takes h 0x0208 .waiting n s = true →
    let u := opened h 0x0208 .waiting n s
    (u.ns n).isSome = true → off % 64 = 0 → len % 64 = 0 → 64 ≤ len → len ≤ 512 → off + len ≤ u.nsSize n →
    (u.cwsAsleep n (u.mediaNeeds n off len) = [] → exec (.memRead h n off len) s = .next (settle (gatherRun
      { id := u.fresh.1, cmd := some (cmdId h 0x0208 s), ns := n, off, len } u.fresh.2))) ∧
    (∀ d ds, u.cwsAsleep n (u.mediaNeeds n off len) = d :: ds → exec (.memRead h n off len) s = .next (settle
      (finish (cmdId h 0x0208 s) stBusy (blkBusy (listMax 0 ((d :: ds).map u.drawerHint))) (wakeSpan (d :: ds) u))))) ∧
  -- MEM_WRITE of one line
  (∀ (h : CmdHdr) (n off : Nat) (d : Bytes) (s : State), takes h 0x0209 .waiting n s = true → d.length = 64 →
    let u := opened h 0x0209 .waiting n s
    (u.ns n).isSome = true → off % 64 = 0 → off + 64 ≤ u.nsSize n → u.cwsAsleep n [off / 256] = [] → u.dura.clow = false →
    u.dura.overBud = false → u.prime.noAdmit = false → u.twin.swap = .none → u.heldBack n off 64 = false → u.lineRoom false 1 = true →
    let p := memLine n off d (nextStamp u)
    exec (.memWrite h n off d) s = .next (settle (answerLogged (cmdId h 0x0209 s) p.2 stOk [] p.1))) ∧
  -- PARK_DRAWER, WAKE_DRAWER
  (∀ (h : CmdHdr) (d : Nat) (s : State), takes h codePark .long d s = true → d < 8 →
    let u := opened h codePark .long d s
    ((u.drw d).st = .awake → u.parkRefusal d = none → exec (.parkDrawer h d) s = .next (settle (beginPark d [cmdId h codePark s] u))) ∧
    ((u.drw d).st = .waking → (u.drw d).latch = .none → exec (.parkDrawer h d) s = .next (settle
      (u.modDrw d (fun k => { k with latch := .park [cmdId h codePark s] }))))) ∧
  (∀ (h : CmdHdr) (d : Nat) (s : State), takes h codeWake .waiting d s = true → d < 8 →
    exec (.wakeDrawer h d) s = .next (settle (requestWake d (some (cmdId h codeWake s)) (opened h codeWake .waiting d s)))) ∧
  -- SWAP_ROLES, FORCE_TAKEOVER
  (∀ (h : CmdHdr) (s : State), takes h 0x0501 .long devUnit s = true →
    let u := opened h 0x0501 .long devUnit s
    u.twin.role = .active → u.peerFit = true → u.twin.swap = .none →
    exec (.swapRoles h) s = .next (settle { u with twin := { u.twin with swap := .s1 (cmdId h 0x0501 s) u.now } })) ∧
  (∀ (h : CmdHdr) (s : State), takes h 0x0502 .waiting devUnit s = true →
    let u := opened h 0x0502 .waiting devUnit s
    u.twin.role = .standby → u.twin.witness = none → (∀ t, u.twin.heardAt = some t → t + 5000000 ≤ u.now) →
    let v := takeoverHeld none { u with twin := { u.twin with takeCmd := some (cmdId h 0x0502 s) } }
    (v.twin.role = .standby → exec (.forceTakeover h) s = .next (settle (takeoverSolo (u.twin.epoch + 1) false v))) ∧
    (v.twin.role ≠ .standby → exec (.forceTakeover h) s = .next (settle v))) ∧
  -- SCRUB_NOW, REBUILD
  (∀ (h : CmdHdr) (g : Nat) (s : State), takes h codeScrubNow .long g s = true → g < 16 →
    let u := opened h codeScrubNow .long g s
    (u.drw (grpDrawer g)).st = .awake → (u.grp g).scrubNow = none → (u.grp g).ng ≠ 0 →
    exec (.scrubNow h g) s = .next (settle (u.modGrp g (fun k => { k with scrubNow := some 0 })))) ∧
  (∀ (h : CmdHdr) (g : Nat) (s : State), takes h codeRebuild .long g s = true → g < 16 →
    let u := opened h codeRebuild .long g s
    ((u.grp g).st = .degraded ∨ (u.grp g).st = .failed ∧ u.twin.role ≠ .solo) →
    (∀ p ∈ (u.grp g).lost, (u.chan (grpChan g p)).health = .rebuildTarget) →
    exec (.rebuild h g) s = .next (settle (u.modGrp g (fun k => { k with
      st := .rebuilding, rebuildPtr := 0, rebuildOfFailed := k.st == .failed, paused := false })))) ∧
  -- CISTERN_TEST, MARGIN
  (∀ (h : CmdHdr) (s : State), takes h 0x0604 .long devUnit s = true →
    let u := opened h 0x0604 .long devUnit s
    u.power.cisStep = .none → u.power.pwrFail = false → u.power.cisCmd = none →
    exec (.cisternTest h) s = .next (settle (tryMeasure { u with power := { u.power with cisCmd := some (cmdId h 0x0604 s) } }))) ∧
  (∀ (h : CmdHdr) (port rail : Nat) (step : Int) (s : State), takes h 0x0605 .waiting rail s = true → rail < 48 → -20 ≤ step → step ≤ 20 →
    let u := opened h 0x0605 .waiting rail s
    u.serving = false → (u.rail rail).pmbPort = port + 1 → (u.rail rail).st = .good → u.marginOn port = none →
    exec (.margin h port rail step) s = .next (settle (startMargin rail step (some (cmdId h 0x0605 s)) u))) ∧
  -- CH_RETRAIN, CH_SBRESET
  (∀ (h : CmdHdr) (c : Nat) (s : State), takes h 0x0606 .waiting c s = true → c < 144 →
    let u := opened h 0x0606 .waiting c s
    (u.drw (chDrawer c)).st = .awake → (u.chan c).sbPres = true → (u.chan c).link = .active →
    exec (.chRetrain h c) s = .next (settle (startRetrain c u))) ∧
  (∀ (h : CmdHdr) (c : Nat) (s : State), takes h 0x0607 .waiting c s = true → c < 144 →
    let u := opened h 0x0607 .waiting c s
    (u.drw (chDrawer c)).st = .awake → (u.chan c).sbPres = true → ((u.chan c).link = .down ∨ (u.chan c).link = .failed) →
    exec (.chSbreset h c) s = .next (settle (u.send (.sbReset c))))

/-- R529, R583, R586, R600, R602 to R605, R624 to R629, R632: firmware update and the life cycle. FW_BEGIN opens the session, writes the 0xB1 word and
erases the slot; FW_DATA queues the programming of its bytes; FW_COMMIT verifies the image and programs 0xC1; FW_ACTIVATE names a valid image. An
LC_ADVANCE drops the challenge; one whose signature over it verifies starts the drain or fuses its item at once, any other is refused 0x0061;
100 ms after the answer the device resets; JTAG opens to the integrator in PROVISION and RETURN, over a challenge that is used once. -/
def Obligations.FirmwareAndLifeCycleAdvance : Prop :=
  -- FW_BEGIN
  (∀ (h : CmdHdr) (i len : Nat) (s : State), takes h 0x0901 .immediate devUnit s = true → i < 2 → len ≤ slotSize → len % 8 = 0 →
    let u := opened h 0x0901 .immediate devUnit s
    u.flash.session = none → u.flash.committing = none → (u.prime.image ≠ i ∨ u.flash.named ≠ i) →
    let v : State := { u with flash := { u.flash with
      session := some (i, len, h.mbx.val), written := [], erased := 0
      banks := u.flash.banks.map (fun b => { b with queue := b.queue.filter (fun o => !isSlotErase o) }) } }
    exec (.fwBegin h i len) s = .next (settle (finish (cmdId h 0x0901 s) stOk [] (flashQueue i
      { erase := true, sector := i * 512, left := 127, purpose := .slotErase i } (bootWord 0xB1 i (cmdId h 0x0901 s) v))))) ∧
  -- FW_DATA
  (∀ (h : CmdHdr) (i off l : Nat) (d : Bytes) (s : State), takes h 0x0902 .immediate devUnit s = true → i < 2 → off % 8 = 0 →
    d.length % 8 = 0 → d.length ≤ 848 →
    let u := opened h 0x0902 .immediate devUnit s
    u.ownSession h.mbx.val i = true → u.flash.committing = none → off + d.length ≤ u.sessionLen → u.slotFailed i = false →
    (∀ k ∈ sectorsOf off d.length, k < u.flash.erased) → u.notErased i off d = false → u.flash.imageLeft i off d (d.length / 8 - 1) = some l →
    exec (.fwData h i off d) s = .next (settle (flashQueue i
      { erase := false, sector := imageSector i off d l, left := l, purpose := .image i off d (cmdId h 0x0902 s) } u))) ∧
  -- FW_COMMIT: an image that does not verify is refused 0x0054
  (∀ (h : CmdHdr) (i : Nat) (s : State), takes h 0x0903 .long devUnit s = true → i < 2 →
    let u := opened h 0x0903 .long devUnit s
    u.ownSession h.mbx.val i = true → u.flash.committing = none → covers u.flash.written 0 u.sessionLen = true → u.slotFailed i = false →
    u.flash.secMin ≤ u.flash.secver i →
    exec (.fwCommit h i) s = .next (settle (if u.flash.imageOk i = true
      then bootWord 0xC1 i (cmdId h 0x0903 s) ((u.freeVal.2.modFbank i (fun k => { k with
        ce := Nat.min 255 (k.ce + u.freeVal.1.toNat % 256) })).modFlash (fun f => { f with committing := some (cmdId h 0x0903 s) }))
      else finish (cmdId h 0x0903 s) stRefused (blkRefused 0x0054 devUnit) u))) ∧
  -- FW_ACTIVATE
  (∀ (h : CmdHdr) (i : Nat) (s : State), takes h 0x0904 .immediate devUnit s = true → i < 2 →
    let u := opened h 0x0904 .immediate devUnit s
    u.flash.valid i = true →
    exec (.fwActivate h i) s = .next (settle (finish (cmdId h 0x0904 s) stOk [] (bootWord 0xA1 i (cmdId h 0x0904 s) u)))) ∧
  -- LC_ADVANCE with ITEM 0, and with an item
  (∀ (h : CmdHdr) (target : Nat) (t : LcState) (a : LcAuth) (s : State), takes h 0x0A01 .long devUnit s = true → lcEncoded target a = true → lcTarget target = some t →
    let u := opened h 0x0A01 .long devUnit s
    lcStep u.test.lc t = true → (t = .deployed → u.test.secret.isSome = true) →
    (u.test.lc = .deployed → u.serving = false) → u.prime.drain = none → u.hostDraining = false →
    exec (.lcAdvance h target a) s = .next (settle (if u.authOk t 0 [] a = true
      then startDrain (.reset .lifeCycle) (some (cmdId h 0x0A01 s))
        { u with test := { u.test with challenge := none, advancing := some (cmdId h 0x0A01 s, t) } }
      else finish (cmdId h 0x0A01 s) stRefused (blkRefused 0x0061 devUnit) { u with test := { u.test with challenge := none } }))) ∧
  (∀ (h : CmdHdr) (item : Nat) (d : Bytes) (a : LcAuth) (s : State), takes h 0x0A01 .long devUnit s = true → lcEncoded 1 a = true →
    let u := opened h 0x0A01 .long devUnit s
    u.test.lc = .provision → itemShape item d = true → (u.test.ikey.isSome = true ∨ item = 4) → u.itemFused item d = false →
    u.vMinOk item d = true →
    exec (.lcFuseItem h 1 item d a) s = .next (settle (if u.authOk .provision item d a = true
      then finish (cmdId h 0x0A01 s) stOk [] (fuseItem item d { u with test := { u.test with challenge := none } })
      else finish (cmdId h 0x0A01 s) stRefused (blkRefused 0x0061 devUnit) { u with test := { u.test with challenge := none } }))) ∧
  -- LC_RESET_TIMER
  (∀ (s : State) (t : Nat), s.prime.lcReset = some t →
    exec .lcResetTimer s = .next (startReset .lifeCycle { s with prime := { s.prime with lcReset := none } })) ∧
  -- JTAG_AUTHENTICATE
  (∀ (a : LcAuth) (s : State), exec (.jtagAuthenticate a) s = .next { s with test := { s.test with
    jtag := s.test.jtag || s.jtagOk a, challenge := none } })

/-- R492 to R494, R498: what a step of the windlass line does. A rising edge ends the step under way: the controller reads the next
state by its direction and pulls the line low for the step after it. The controller's part begins when the cascade wait is over.
A step that takes longer than its time leads to state 15, where the controller lets the line go and removes the rails of step
12 first; from state 15 with every rail off it returns to state 0. With the line stuck low at priming step 4 it brings its rails
up alone. -/
def Obligations.WindlassLineStepsTheSequence : Prop :=
  -- WINDLASS_RISING_EDGE on the way up, and on the way down
  (∀ s : State, s.power.hold = false → s.power.line = false → 1 ≤ s.power.wl → s.power.wl ≤ 10 → s.power.wlDir = true →
    s.power.goingDown = false → s.power.latch ≠ .off →
    exec .windlassRisingEdge s = .next (settle { s with power := { s.power with
      line := false, hold := true, wl := s.power.wl + 1, wlDir := true, stepTo := some (s.power.wl + 2, true), acting := false } })) ∧
  (∀ s : State, s.power.hold = false → s.power.line = false → 2 ≤ s.power.wl → s.power.wl ≤ 12 → s.power.wlDir = false →
    exec .windlassRisingEdge s = .next (settle { s with power := { s.power with
      line := false, hold := true, wl := s.power.wl - 1, wlDir := false, stepTo := some (s.power.wl - 2, false), acting := false } })) ∧
  -- WINDLASS_FALLING_EDGE away from a request in state 13: the level alone
  (∀ s : State, s.power.wl ≠ 13 ∨ s.power.hold = true →
    exec .windlassFallingEdge s = .next { s with power := { s.power with line := false } }) ∧
  -- CASCADE_WAIT_EXPIRY: the rails of the step are enabled, and the step is examined
  (∀ s : State, ∀ n, s.power.hold = true → s.power.stepTo = some (n, true) → n ≤ 12 → s.power.acting = false →
    exec .cascadeWaitExpiry s = .next (settle (windCheck (forEach (s.stepRails n) enableRail
      { s with power := { s.power with acting := true } })))) ∧
  -- WINDLASS_STEP_TIMEOUT: state 15
  (∀ s : State, s.power.line = false → s.power.wl ≠ 15 → s.power.wl ≠ 0 →
    exec .windlassStepTimeout s = .next (settle (railsChanged (soloDown 12 { s with
      out := s.out ++ [.seqCo true], prime := { s.prime with step := 0, drain := none }
      power := { s.power with wl := 15, hold := false, abandon := true, stepTo := none, acting := false, rollCall := true
                              solo := true, soloUp := false, goingDown := true } })))) ∧
  -- WINDLASS_FAULT_EXIT: state 0, all that priming clears cleared
  (∀ s : State, s.power.wl = 15 → s.allOff = true → ∃ u, exec .windlassFaultExit s = .next u ∧ u.power.wl = 0
    ∧ u.power.line = true ∧ u.power.solo = false ∧ u.prime.step = 0 ∧ u.prime.primeAt = none ∧ u.misses = [] ∧ u.ops = []
    ∧ u.tports = [] ∧ u.easels = tabMap {} (fun _ k => { k with moving := false, wcount := 0 }) s.easels ∧ u.gnv = s.gnv) ∧
  -- STUCK_LINE_TIMEOUT: the rails of step 1 come up without the line
  (∀ s : State, s.power.wl = 0 → s.prime.step = 4 → s.power.line = false → s.power.stepTo = none →
    exec .stuckLineTimeout s = .next (settle (railsChanged (forEach (s.stepRails 1) enableRail
      { s with out := s.out ++ [.seqCo true]
               power := { s.power with wl := 15, hold := false, abandon := true, stepTo := none, acting := false
                                       rollCall := true, solo := true, soloUp := true, soloStep := 1 } }))))

/-- R500 to R503, R507: the count of sequencers, the roll call, and the power requests. A cascade train of p pulses counts p − 1
sequencers, and none, more than 17 or no train at all reads 31; in priming step 3 step 4 follows. The roll call names the lowest
holder of the line, or 0x1F, and is logged. An on request in a settled OFF starts a cold priming, and while a sequence goes down it
is latched; an off request in RUN, with no drain under way, starts the orderly drain and pulls the line for state 14. A failing
input in RUN raises event 998, stops the charger and admission, gives the role up and starts the drain. -/
def Obligations.SequencersAndPowerRequests : Prop :=
  -- CASCADE_TRAIN_END, CASCADE_TIMEOUT
  (∀ (s : State) (p : Nat), s.power.cascading = true → s.prime.step ≠ 3 → exec (.cascadeTrainEnd p) s =
    .next { s with power := { s.power with cascading := false, parts := if p = 0 ∨ p > 17 then 31 else p - 1 } }) ∧
  (∀ s : State, s.power.cascading = true → s.prime.step = 3 → s.power.line = true → s.power.wl = 0 → exec .cascadeTimeout s =
    .next { s with prime := { s.prime with step := 4 }
                   power := { s.power with cascading := false, parts := 31, hold := true, line := false, wlDir := true
                                           stepTo := some (1, true), acting := false } }) ∧
  -- ROLL_CALL_TRAIN_END, ROLL_CALL_TIMEOUT
  (∀ (s : State) (l : List Bool) (i : Nat), s.power.rollCall = true → l[i]? = some true → (∀ j, j < i → l[j]? = some false) →
    exec (.rollCallTrainEnd l) s = .next (powerLog 5 { s with power := { s.power with stuck := i + 1, rollCall := false } })) ∧
  (∀ s : State, s.power.rollCall = true →
    exec .rollCallTimeout s = .next (powerLog 5 { s with power := { s.power with stuck := 0x1F, rollCall := false } })) ∧
  -- PWR_EN_RISE
  (∀ s : State, s.power.latch ≠ .off → s.power.wl = 0 → s.power.stepTo = none → s.prime.step = 0 → s.prime.standby = true →
    s.allOff = true → s.power.offSettled = true → exec .pwrEnRise s = .next (settle (beginPriming false { s with power := { s.power with
      pwrEn := true, latch := .none, goingDown := false, offSettled := false, firstRail := 0xFF, firstCause := 0xFF
      usedDis := false, pwrFail := false } }))) ∧
  (∀ s : State, s.power.latch ≠ .off → s.power.wl ≠ 0 → s.power.goingDown = true →
    exec .pwrEnRise s = .next (settle { s with power := { s.power with pwrEn := true, latch := .on } })) ∧
  -- PWR_EN_FALL, PWR_CTL_OFFREQ
  (∀ s : State, s.power.wl = 13 → s.power.stepTo = none → s.prime.drain = none →
    exec .pwrEnFall s = .next (settle (pullLine 14 true (startDrain .orderly none
      { s with power := { s.power with pwrEn := false, goingDown := true, latch := if s.power.latch == .on then .none else s.power.latch } })))) ∧
  (∀ s : State, s.power.wl = 13 → s.power.stepTo = none → s.prime.drain = none →
    exec .pwrCtlOffreq s = .next (settle (pullLine 14 true (startDrain .orderly none
      { s with power := { s.power with goingDown := true, latch := if s.power.latch == .on then .none else s.power.latch } })))) ∧
  -- PWRFAIL_N_LOW, VIN_FAIL
  (∀ (s : State) (c : Instr) (cause : Nat), c = .pwrfailNLow ∧ cause = 5 ∨ c = .vinFail ∧ cause = 6 → s.power.pwrFail = false →
    s.power.cisCmd = none → s.power.firstRail = 0xFF → s.power.firstCause = 0xFF → s.power.wl = 13 → s.prime.drain = none →
    s.twin.role = .solo →
    ∃ u, u = raiseWith 998 0 cause { s with power := { s.power with pwrFail := true } } ∧
      exec c s = .next (settle (pullLine 14 true (startDrain .power none { u with
        prime := { s.prime with noAdmit := true }
        power := { s.power with pwrFail := true, firstCause := cause, chgEn := false, testEn := false, chgAt := none
                                cisStep := .none } })))) ∧
  -- OFF_SETTLE_TIMER
  (∀ s : State, s.power.wl = 0 → s.power.stepTo = none → s.allOff = true → s.prime.step = 0 → s.power.latch ≠ .on →
    exec .offSettleTimer s = .next { s with power := { s.power with offSettled := true, goingDown := false } })

/-- R511 to R513, R515 to R517, R663: the cistern's measurement and the margins. A sample sets the mean and, at 98 % of V_CHG, ends
the wait for charge. A measurement that may start stops the charger (M2), and is postponed otherwise; V0, V1 and V2 are taken in
M3, M4 and M5, the load connected from V0 on; an accepted result sets C, ESR and STATE 2, and charging goes on. A charge that takes
too long fails the cistern and is logged. VOUT_MODE's answer is followed by VOUT_COMMAND of the margined target, and no answer
refuses the margin. Island 99 comes up with the line released and nothing latched. -/
def Obligations.CisternMeasuresAndMarginsAreSet : Prop :=
  -- CISTERN_SAMPLE
  (∀ (s : State) (m : Nat), exec (.cisternSample m) s = .next { s with power := { s.power with
    cisMv := m, chgAt := if 98 * s.power.vChg ≤ 100 * m then none else s.power.chgAt } }) ∧
  -- CISTERN_MEASURE_DUE, CISTERN_POSTPONE_TIMER
  (∀ s : State, s.measureOk = true → exec .cisternMeasureDue s = .next { s with power := { s.power with
    cisStep := .m2, postponed := false, firstDue := true, chgEn := false, chgAt := none } }) ∧
  (∀ s : State, s.measureOk = false → s.power.cisStep = .none →
    exec .cisternMeasureDue s = .next { s with power := { s.power with postponed := true } }) ∧
  (∀ s : State, s.measureOk = true → s.power.postponed = true → exec .cisternPostponeTimer s = .next { s with power := { s.power with
    cisStep := .m2, postponed := false, firstDue := true, chgEn := false, chgAt := none } }) ∧
  -- CISTERN_SETTLE_TIMER, CISTERN_V1_WINDOW_END, CISTERN_TEST_LOAD_END
  (∀ (s : State) (v0 : Nat), s.power.cisStep = .m2 → exec (.cisternSettleTimer v0) s = .next (forEach s.power.cisCmd.toList setPast
    { s with power := { s.power with cisStep := .m3 v0, testEn := true } })) ∧
  (∀ (s : State) (v0 v1 : Nat), s.power.cisStep = .m3 v0 →
    exec (.cisternV1WindowEnd v1) s = .next { s with power := { s.power with cisStep := .m4 v0 v1 } }) ∧
  (∀ (s : State) (v0 v1 v2 esr c : Nat), s.power.cisStep = .m4 v0 v1 → v2 < v1 → v1 ≤ v0 → esr = (v0 - v1) * s.power.rTest / v1 →
    c = 1000 * (v1 + v2) * (1000 * s.power.tTest - 120) * v1 / (2 * s.power.rTest * (v1 - v2) * v0) →
    6 * s.power.cNom ≤ 10 * c → 10 * c ≤ 15 * s.power.cNom → esr ≤ s.power.esrMax → s.power.wl = 13 → s.power.pwrFail = false →
    s.power.chgEn = false → s.power.cisCmd = none → exec (.cisternTestLoadEnd v2) s = .next { s with power := { s.power with
      cisStep := .none, testEn := false, cap := c, esr := esr, measAt := some s.now, cisSt := 2, chgEn := true, chgAt := some s.now } }) ∧
  -- CISTERN_CHARGE_TIMEOUT
  (∀ (s : State) (t : Nat), s.power.chgEn = true → s.power.chgAt = some t →
    exec .cisternChargeTimeout s = .next (powerLog 7 { s with power := { s.power with cisSt := 4, chgAt := none } })) ∧
  -- PMBUS_RESPONSE, PMBUS_TIMEOUT
  (∀ (s : State) (port : Fin 2) (mode : BitVec 8) (m : Margin), s.marginOn port = some m → mode.toNat < 32 →
    (s.rail m.rail).st ≠ .good → ∀ r, r = { (s.rail m.rail) with margin := m.step } →
    exec (.pmbusResponse port mode) s = .next (settle (marginDone m.rail { s with
      out := s.out ++ [.pmbus port r.pmbAddr r.pmbPage 0x21 (linearMantissa r.target mode)]
      power := { s.power with
        rails := tabSet {} s.power.rails m.rail r
        margins := s.power.margins.map (fun x => if x.rail = m.rail then { x with phase := 3 } else x) } }))) ∧
  (∀ (s : State) (port : Fin 2) (m : Margin), s.marginOn port = some m → exec (.pmbusTimeout port) s =
    .next (finishAll m.cmd.toList stRefused (blkRefused 0x0703 m.rail)
      { s with power := { s.power with margins := s.power.margins.filter (fun x => x.rail != m.rail) } })) ∧
  -- AON_PIN_INIT
  (∀ s : State, ∃ t, exec .aonPinInit s = .next t ∧ t.power.wl = 0 ∧ t.power.line = true ∧ t.power.hold = false ∧ t.power.latch = .none
    ∧ t.power.chgEn = false ∧ t.power.testEn = false ∧ t.prime.step = 0 ∧ t.prime.standby = false ∧ t.prime.primeAt = none
    ∧ t.power.rails = tabMap {} (fun _ r => { r with faults := 0, warns := 0 }) (forEach (List.range 48) (fun i s => s.modRail i
        (fun r => { r with en := false, dis := false, st := if r.st = .unused then .unused else .off })) s).power.rails)

/-- R488 to R490, R504, R505: what the sense inputs and the timers of a rail do. A sample is judged rail by rail; a power-good input
that makes a rising rail good, or takes a good rail's goodness away while the windlass line sequences, changes its state; a good rail
outside 5 % of its target for the time warns. A rail that does not rise or fall in time fails: a drawer's rail takes its drawer to
DFAULT, a rail of the windlass is the first failure of its sequence. A fall that takes too long asserts RAIL_DIS. -/
def Obligations.RailsAreJudgedAndTimed : Prop :=
  -- RAIL_SENSE_SAMPLE: while every rail is off the readings alone change
  (∀ (s : State) (mv : Vector Nat 48) (vin : Nat), (∀ i, i < 48 → (s.rail i).st = .off ∨ (s.rail i).st = .unused) →
    exec (.railSenseSample mv vin) s = .next (settle (forEach (List.range 48)
      (fun i s => s.modRail i (fun r => { r with mv := mv.toList.getD i 0 })) { s with power := { s.power with vinMv := vin } }))) ∧
  -- RAIL_PG_CHANGE
  (∀ (s : State) (i : Fin 48) (pg : Bool), (s.rail i).st = .ramping → ({ (s.rail i) with pg } : Rail).isGood s.test.railConvBad = true →
    exec (.railPgChange i pg) s = .next (settle (railNowGood i (s.modRail i (fun r => { r with pg }))))) ∧
  (∀ (s : State) (i : Fin 48), i.val < 16 → (s.rail i).st = .good → (s.rail i).pgUsed = true → s.power.wl ≠ 13 → s.power.goingDown = false →
    exec (.railPgChange i false) s = .next (settle ((s.modRail i (fun r => { r with pg := false })).modRail i
      (fun r => { r with st := .ramping })))) ∧
  -- RAIL_WARN_TIMER
  (∀ (s : State) (i : Fin 48), (s.rail i).st = .good → (s.rail i).within 5 = false → exec (.railWarnTimer i) s =
    .next (raiseWith (736 + 2 * i + 1) i 0 ((s.modRail i (fun r => { r with warn := true })).modRail i
      (fun r => { r with warns := sat16 r.warns })))) ∧
  -- RAIL_T_ON_EXPIRY
  (∀ (s : State) (d : Fin 8) (k : Fin 4) (i : Fin 48), i.val = 16 + 4 * d.val + k.val → (s.rail i).st = .ramping →
    exec (.railTOnExpiry i) s = .next (settle (drawerFault d true (railFault i
      (s.modRail i (fun r => { r with st := .failed, noGood := true })))))) ∧
  (∀ (s : State) (i : Fin 48), i.val < 16 → (s.rail i).st = .ramping → s.power.firstRail = 0xFF → s.power.firstCause = 0xFF →
    exec (.railTOnExpiry i) s = .next (settle (railsChanged (railFault i
      ((s.modRail i (fun r => { r with st := .failed, noGood := true })).modPower (fun p => { p with firstRail := i, firstCause := 1 })))))) ∧
  -- RAIL_T_OFF_EXPIRY, RAIL_T_DIS_EXPIRY
  (∀ (s : State) (i : Fin 48), (s.rail i).st = .falling → exec (.railTOffExpiry i) s =
    .next ((s.modRail i (fun r => { r with dis := true, st := .discharging })).modPower (fun p => { p with usedDis := true }))) ∧
  (∀ (s : State) (i : Fin 48), i.val < 16 → (s.rail i).st = .discharging → exec (.railTDisExpiry i) s =
    .next (settle (railsChanged (railFault i (noteFailure i 3 (s.modRail i (fun r => { r with st := .failed, noFall := true }))))))) ∧
  -- DRAWER_RAIL_GOOD, DRAWER_RAIL_OFF
  (∀ (s : State) (d : Fin 8) (k : Fin 4), (s.rail (16 + 4 * d.val + k.val)).st = .ramping → s.power.margins = [] →
    (s.drw d).st = .waking → (s.drw d).step = riseStep k → exec (.drawerRailGood d k) s =
    .next (settle (wakeNext d (s.modRail (16 + 4 * d.val + k.val) (fun r => { r with st := .good, outAt := none }))))) ∧
  (∀ (s : State) (d : Fin 8) (k : Fin 4), (s.rail (16 + 4 * d.val + k.val)).en = false → (s.rail (16 + 4 * d.val + k.val)).st = .falling →
    (s.drw d).step = fallStep k → exec (.drawerRailOff d k) s =
    .next (settle (railsChanged (fallFrom d k ((s.modRail (16 + 4 * d.val + k.val) (fun r => { r with st := .off, dis := false })).modPower
      (fun p => { p with lastFall := s.now }))))))

/-- R23, R503, R525 to R550, R598, R613, R616, R617, R622, R631: priming. Standby power lets priming begin; a stable crystal with PWR_EN high
starts a cold priming at step 2; each step that is complete leads to the next (2 to 3 with the cascade asked for, 6 to 7, 7 to 8 with the
KEK, 8 to 9 with its usable channels, 10 to 11 with the record's epoch and drawers to wake, 13 to 14 with the line pulled for RUN); a late
step 5 is a failed boot and a late step 10 reads no record. The handshake repeats HELLO, again 10 ms after a disagreement; a twin that has
waited in vain with an unclean stop waits for its peer. Quiet regions lose their bits, and the lowest suspect row is settled. -/
def Obligations.PrimingStepsAndRecovery : Prop :=
  -- STANDBY_POWER_GOOD, CRYSTAL_STABLE
  (∀ s : State, s.power.wl = 0 → s.prime.step = 0 → s.prime.primeAt = none → exec .standbyPowerGood s =
    .next { s with prime := { s.prime with standby := true, step := 1 } }) ∧
  (∀ (s : State) (r : PrimeReport), s.prime.step = 1 → s.power.pwrEn = true →
    exec (.crystalStable r) s = .next (readFuses (coldStart s))) ∧
  (∀ (s : State) (r : PrimeReport), s.prime.step = 1 → s.power.pwrEn = false →
    exec (.crystalStable r) s = .next { s with prime := { s.prime with step := 0 } }) ∧
  -- PRIMING_STEP_COMPLETE
  (∀ (s : State) (r : PrimeReport), s.prime.step = 2 → (readFuses s).prime.warm = false →
    exec (.primingStepComplete r) s = .next (settle ((((readFuses s).modPower (fun p => { p with cascading := true })).modPrime
      (fun p => { p with step := 3 })).send (.seqCo false)))) ∧
  (∀ (s : State) (r : PrimeReport), s.prime.step = 6 → r.analog = [] → exec (.primingStepComplete r) s = .next (settle { s with
    prime := { s.prime with step := 7 }
    test := { s.test with analog := 1, badNet := [], badTwin := [], badHost := false, badChan := [], railConvBad := false } })) ∧
  (∀ (s : State) (r : PrimeReport), s.prime.step = 7 → r.calOk = true → s.test.lc ≠ .endOfLife → exec (.primingStepComplete r) s =
    let key := kdf (leBytes 32 (s.test.secret.getD 0)) (asciiBytes "NOLDAN-KEK") (leBytes 16 Config.dieId ++ leBytes 1 s.test.kekGen)
    .next (settle { s with prime := { s.prime with step := 8 }, cipher := { s.cipher with kek := some { bytes := key } } })) ∧
  (∀ (s : State) (r : PrimeReport), s.prime.step = 10 → r.recordsOk = true → s.prime.roleRec = none → s.test.lc ≠ .endOfLife →
    exec (.primingStepComplete r) s = .next (settle { s with
      twin := { s.twin with epoch := 0, applied := 0, sent := 0 }
      prime := { s.prime with step := 11, roleRead := none, wakes := (List.range 8).filter (fun d => !(s.drw d).recParked) } })) ∧
  (∀ (s : State) (r : PrimeReport), s.prime.step = 13 → s.power.wl = 12 → exec (.primingStepComplete r) s = .next (settle { s with
    prime := { s.prime with step := 14 }
    power := { s.power with hold := true, line := false, wlDir := true, stepTo := some (13, true), acting := false } })) ∧
  -- PRIMING_STEP_TIMEOUT
  (∀ (s : State) (r : PrimeReport), s.prime.step = 5 →
    exec (.primingStepTimeout r) s = .next (settle { s with prime := { s.prime with step := 5, bootFail := true } })) ∧
  (∀ (s : State) (r : PrimeReport), s.prime.step = 10 → exec (.primingStepTimeout r) s = .next (settle (recordStep false s))) ∧
  -- HS_HELLO_TIMER, HS_DECIDE_RETRY_TIMER
  (∀ s : State, s.twin.hs.running = true → s.twin.hs.hold = false → exec .hsHelloTimer s = .next (sendHandshake s)) ∧
  (∀ s : State, s.twin.hs.running = true → s.twin.hs.hold = true → exec .hsDecideRetryTimer s =
    .next (sendHandshake { s with twin := { s.twin with hs := { s.twin.hs with hold := false } } })) ∧
  -- HS_WAIT_EXPIRY, WAITPEER_RENEW_TIMER
  (∀ s : State, s.twin.hs.running = true → s.twin.hs.peer = none → s.twin.hs.decide = none → s.twin.hs.hold = false →
    s.prime.waitPeer = false →
    (2 ≤ s.stopCode → exec .hsWaitExpiry s = .next { s with prime := { s.prime with waitPeer := true } }) ∧
    (s.stopCode < 2 → s.twin.witness.isSome = true → exec .hsWaitExpiry s = .next (askWit 1 s)) ∧
    (s.stopCode < 2 → s.twin.witness = none → exec .hsWaitExpiry s = .next (settle (primeStandby s.twin.epoch s)))) ∧
  (∀ s : State, s.twin.hs.running = true → s.prime.waitPeer = true → exec .waitpeerRenewTimer s = .next (askWit 1 s)) ∧
  -- REGION_CLEAR_TIMER, SUSPECT_ROW_SETTLE
  (∀ (s : State) (g : Fin 16) (r : Nat), s.ops = [] → r ∈ (s.nv g).regions → (∀ x ∈ (s.nv g).regions, tabGet 0 (s.nv g).regionAt x + 1000000000 ≤ s.now) →
    (s.nv g).regionRec + 100000000 ≤ s.now → exec (.regionClearTimer g) s = .next (settle (regionRecord g (s.nv g).regions s))) ∧
  (∀ (s : State) (g : Fin 16) (r : Nat), s.twin.role ≠ .priming → s.live g = true → s.ops = [] → (s.nv g).suspects = [r] →
    exec (.suspectRowSettle g) s = .next (settle (openSettle g r s)))

/-- R552 to R569, R576, R580 to R592: the pulses of a flash bank and the duties of a DRAM channel. A program pulse that verifies ends its
word, one that does not is repeated up to 16 times and then fails the sector; an erase has 64 pulses a sector; a read of a busy bank is a
bus fault and counts. A DRAM refresh stands behind requests for 8 intervals at most; MR4 sets the multiplier and calls for calibration at
2 °C of change; an idle channel enters self-refresh after an all-bank refresh; the activation counts of a rank and the windows of a
channel clear; a patrol read takes the channel out of self-refresh; each word of a unit that is read goes through the check of its code, and a unit
read clean changes no count but the row's activation. A word of all zeros with a check byte of zeros is uncorrectable. -/
def Obligations.FlashPulsesAndDramDuties : Prop :=
  -- FLASH_PROGRAM_PULSE_DONE
  (∀ (s : State) (b : Fin 2) (o : FOp), (s.fbank b).op = some o → o.erase = false →
    exec (.flashProgramPulseDone b true) s = .next (settle (wordDone b o s)) ∧
    (o.pulses < 15 → exec (.flashProgramPulseDone b false) s = .next (boundary b { o with pulses := o.pulses + 1 } s)) ∧
    (15 ≤ o.pulses → exec (.flashProgramPulseDone b false) s = .next (settle (pulseFail b o s)))) ∧
  -- FLASH_ERASE_PULSE_DONE
  (∀ (s : State) (b : Fin 2) (o : FOp), (s.fbank b).op = some o → o.erase = true → s.power.pwrFail = false →
    (0 < o.left → exec (.flashErasePulseDone b true) s =
      .next (boundary b { o with left := o.left - 1, pulses := 0, sector := o.sector + 1 } (sectorDone b o s))) ∧
    (o.left = 0 → exec (.flashErasePulseDone b true) s = .next (settle (bankFree b (opEffect b o
      ((sectorDone b o s).modFbank b (fun k => { k with op := none })))))) ∧
    (o.pulses < 63 → exec (.flashErasePulseDone b false) s = .next (boundary b { o with pulses := o.pulses + 1 } s)) ∧
    (63 ≤ o.pulses → exec (.flashErasePulseDone b false) s = .next (settle (pulseFail b o s)))) ∧
  -- FLASH_BUS_FAULT_READ
  (∀ (s : State) (x : Fin 1024) (u : Bool), (s.fbank (x.val / 512)).op.isSome = true → exec (.flashBusFaultRead x u) s =
    .next ((raiseWith 978 (x.val / 512) x (s.modFbank (x.val / 512) (fun k => { k with busyRd := sat8 k.busyRd }))).send (.busFault x))) ∧
  (∀ (s : State) (x : Fin 1024), (s.fbank (x.val / 512)).op = none → x.val ∉ (s.fbank (x.val / 512)).halfErased →
    exec (.flashBusFaultRead x false) s = .next s ∧
    exec (.flashBusFaultRead x true) s = .next ((raiseWith 978 (x.val / 512) x s).send (.busFault x))) ∧
  -- DRAM_REFRESH_TIMER
  (∀ (s : State) (c : Fin 32), (s.drch c).st = 1 → (s.drch c).postponed < 8 → exec (.dramRefreshTimer c true) s =
    .next (s.modDrch c (fun k => { k with postponed := k.postponed + 1 }))) ∧
  (∀ (s : State) (c : Fin 32), (s.drch c).st = 1 → (s.drch c).postponed = 0 → exec (.dramRefreshTimer c false) s =
    .next ((s.send (.refresh c ((s.drch c).nextBank % 16))).modDrch c
      (fun k => { k with postponed := 0, nextBank := (k.nextBank + 1) % 16 }))) ∧
  -- DRAM_MR4_POLL, ZQ_CALIBRATION_TIMER
  (∀ (s : State) (c : Fin 32) (r : Fin 2) (m temp : Nat), (s.drch c).st = 1 ∨ (s.drch c).st = 2 → m = 1 ∨ m = 2 ∨ m = 4 →
    temp < (s.drch c).zqTemp.getD r 0 + 2 → (s.drch c).zqTemp.getD r 0 < temp + 2 → exec (.dramMr4Poll c r m temp false) s =
    .next (s.modDrch c (fun k => { k with
      mult := modAt k.mult r (fun _ => m), hot := modAt k.hot r (fun _ => false), mr4 := modAt k.mr4 r (fun _ => temp) }))) ∧
  (∀ (s : State) (c : Fin 32) (r : Fin 2), (s.drch c).st = 1 → exec (.zqCalibrationTimer c r) s =
    .next ((s.modDrch c (fun k => { k with zqTemp := modAt k.zqTemp r (fun _ => k.mr4.getD r 0) })).send (.zqCal c r))) ∧
  -- SELF_REFRESH_IDLE, ACTIVATION_TABLE_CLEAR
  (∀ (s : State) (c : Fin 32), (s.drch c).st = 1 → (s.drch c).srIdle ≠ 0 → exec (.selfRefreshIdle c) s =
    .next ((s.modDrch c (fun k => { k with st := 2, postponed := 0 })).send (.refresh c 16))) ∧
  (∀ (s : State) (c : Fin 32) (r : Fin 2), exec (.activationTableClear c r) s =
    .next (s.modDrch c (fun k => { k with acts := k.acts.filter (fun e => e.1 / 8 != r.val) }))) ∧
  -- DRAM_PATROL_READ, DRAM_CE_WINDOW
  (∀ (s : State) (c : Fin 32), (s.drch c).st = 1 → exec (.dramPatrolRead c) s =
    .next (s.modDrch c (fun k => { k with patrol := (k.patrol + 1) % 14680064 }))) ∧
  (∀ (s : State) (c : Fin 32), exec (.dramCeWindow c) s = .next (s.modDrch c (fun k => { k with
    ceWin := 0, ceRaised := false, nref := Nat.min 65535 k.nrefWin, nrefWin := 0, srx := Nat.min 255 k.srxWin, srxWin := 0 }))) ∧
  -- DRAM_READ_COMPLETE
  (∀ (s : State) (a : Nat) (p : DramAddr), dramMap s.dram.usable a = some p → (s.drch p.ch).st = 1 →
    let t : State := { (s.modDrch p.ch (fun k => { k with lastReq := s.now })) with draws := s.draws + 1 }
    let t := if (Config.free s.draws).getLsbD 0 then activate p t else t
    (∀ ws, exec (.dramReadComplete a ws) s = .next (forEach ws.zipIdx (fun w s => wordRead (a / 8 * 8 + 8 * w.2) w.1 s) t)) ∧
    (∀ ws, (∀ w ∈ ws, checkWord w.1 w.2 = .clean) → exec (.dramReadComplete a ws) s = .next t)) ∧
  checkWord 0 0 = .uncorrectable

/-- R459, R470, R472, R479, R480, R485, R610 to R615, R618, R637, R639, R642: engines, alarms, key unwraps, error injection, the
transparent test and the recorder's timers. A known-answer test takes the failed pipelines out and counts them; a new alarm input erases
palette and KEK, latches and counts, and is a cause to relinquish; an unwrapped key takes its slot, and the jobs that waited for it run; the injection register is written as a
whole outside END_OF_LIFE, and its corruption is taken once; a tested region counts, a corrected word counts in CE, and a hard fault
without a spare is redirected; a freeze a second old ends with event 987. -/
def Obligations.CiphersTestsAndRecorder : Prop :=
  -- CIPHER_KAT_TIMER
  (∀ (s : State) (e : Fin 8) (f : BitVec 8), (s.engine e).inServ = true → pipesOk ((s.engine e).pipes &&& ~~~f) = true →
    exec (.cipherKatTimer e f false) s = .next (s.modEngine e (fun k => { k with
      inlineLoad := Config.engineLoad e 0 s.now % 101, mediaLoad := Config.engineLoad e 1 s.now % 101
      pipes := (s.engine e).pipes &&& ~~~f
      katFail := Nat.min 255 ((s.engine e).katFail + (setBits 8 ((s.engine e).pipes &&& f)).length) }))) ∧
  -- CIPHER_ALARM, CIPHER_ALARM_DEASSERT
  (∀ (s : State) (i : BitVec 4), i &&& ~~~s.cipher.inputs = 0 → exec (.cipherAlarm i) s = .next { s with cipher := { s.cipher with
    inputs := s.cipher.inputs ||| i, alarms := s.cipher.alarms ||| i } }) ∧
  (∀ (s : State) (i n : BitVec 4), n = i &&& ~~~s.cipher.inputs → n ≠ 0 → exec (.cipherAlarm i) s = .next (settle (relinquishCause
    (raiseWith 873 0 0 (raiseWith 872 0 n.toNat { s with cipher := { s.cipher with
      inputs := s.cipher.inputs ||| i, alarms := s.cipher.alarms ||| i, slots := [], unwrapping := [], kek := none, erased := true
      contexts := [], engines := s.cipher.engines.map (fun k => { k with jobs := [] })
      count := Nat.min 255 (s.cipher.count + (setBits 4 n).length) } }))))) ∧
  (∀ (s : State) (i : BitVec 4), exec (.cipherAlarmDeassert i) s =
    .next { s with cipher := { s.cipher with inputs := s.cipher.inputs &&& ~~~i } }) ∧
  -- PALETTE_UNWRAP_DONE
  (∀ (s : State) (t : KeyTag), t ∈ s.cipher.unwrapping → s.cipher.kek.isSome = true → s.cipher.slots.length < 1024 →
    exec (.paletteUnwrapDone t true) s = .next (dropJobs t { s with cipher := { s.cipher with
      slots := s.cipher.slots.filter (fun k => k.tag != t) ++ [{ tag := t, used := s.now }]
      wrapped := s.cipher.wrapped.filter (fun x => x != t), unwrapping := s.cipher.unwrapping.filter (fun x => x != t) } })) ∧
  (∀ (s : State) (t : KeyTag), t ∈ s.cipher.unwrapping → exec (.paletteUnwrapDone t false) s = .next (raiseWith 874 0 0
    (dropJobs t { s with cipher := { s.cipher with unwrapping := s.cipher.unwrapping.filter (fun x => x != t) } }))) ∧
  -- ECC_FLIP_WRITE, ECC_INJECTION_APPLY
  (∀ (s : State) (v : BitVec 32), s.test.lc ≠ .endOfLife → (s.test.lc = .deployed → v.getLsbD 19 = false) →
    exec (.eccFlipWrite v) s = .next { s with test := { s.test with
      flipClass := v.toNat % 8, flipBit0 := v.toNat / 16 % 128, flipBit1 := v.toNat / 4096 % 128, flipTwo := v.getLsbD 19
      flipArm := v.getLsbD 20 } }) ∧
  (∀ s : State, s.test.lc = .endOfLife → ∀ v, exec (.eccFlipWrite v) s = .next s) ∧
  (∀ (s : State) (unit addr : Nat), s.test.flipArm = true → exec (.eccInjectionApply unit addr) s = .next (raiseWith 981 unit addr { s with
    test := { s.test with flipArm := false, flipAt := (addr % 268435456, unit % 16) } })) ∧
  -- TRANSPARENT_TEST_REGION
  (∀ (s : State) (n : Nat) (sp : Bool), n < 4 → s.untested 1 n = false →
    exec (.transparentTestRegion (.itcm n) .clean sp) s = .next (settle (regionTested 1 s)) ∧
    exec (.transparentTestRegion (.itcm n) .corrected sp) s = .next (settle ((regionTested 1 s).modTest
      (fun t => { t with ce := sat16 t.ce }))) ∧
    exec (.transparentTestRegion (.itcm n) .hardFault false) s = .next (settle (redirect 1 n ((regionTested 1 s).modTest
      (fun t => { t with ce := sat16 t.ce })))) ∧
    exec (.transparentTestRegion (.itcm n) .uncorrectable sp) s = .next (settle (relinquishCause (raiseWith (968 + n) n 1
      ((regionTested 1 s).modTest (fun t => { t with ue := sat16 t.ue })))))) ∧
  -- RECORDER_SPILL
  (∀ (s : State) (g : Nat), s.spillGroup = some g → s.test.frozen = false → s.quietGroup g = true → s.spilling g = false →
    ringSize / 2 < recBytes (s.test.ring.drop (s.test.ring.length - s.test.unspilled)) →
    ∀ row, row = rowRecords (s.test.ring.drop (s.test.ring.length - s.test.unspilled)) →
    ((s.grp g).awakeRec = true → exec .recorderSpill s = .next (settle (spillRow g (row.flatMap Rec.bytes) (s.modTest (fun t => { t with
      spilled := spillTrim (2048 * s.spillRows g) (s.test.spilled ++ row), unspilled := s.test.unspilled - row.length }))))) ∧
    ((s.grp g).awakeRec = false → exec .recorderSpill s = .next (settle (awakeRecord g s)))) ∧
  -- REC_FREEZE_TIMEOUT
  (∀ s : State, s.test.frozen = true → s.test.dropped = none → exec .recFreezeTimeout s = .next (raiseWith 987 0 (s.now - s.test.frozenAt)
    { s with test := { s.test with frozen := false, dropped := none } }))

/-- R19, R20, R390, R502, R646, R647, R650, R651, R678: events, the MSI-X masks, register access and the junction sensors. Writing 1
clears bits of EV_STATUS, a vector's pending bit going with the last of its events; a mask change alone sends nothing; a 64-bit counter
is read low word first and its high word latched; a write of less than a whole word is discarded and counted, and the reset-cause, unit and
mailbox selection registers take theirs; the first sensor above 95 °C raises event 992, and the timers above 105 and 115 °C run from the
first such sample. -/
def Obligations.EventsRegistersAndSensors : Prop :=
  -- EV_STATUS_CLEAR
  (∀ (s : State) (w : Fin 32) (mask : BitVec 32), s.host.d3 = false → (∀ x, (s.ev.route x).msix = false) →
    exec (.evStatusClear w mask none) s = .next { s with ev := { s.ev with status := s.ev.status &&& ~~~(mask.setWidth 1024 <<< (32 * w.val)) } }) ∧
  (∀ (s : State) (w : Fin 32) (mask : BitVec 32) (x : Fin 1024), s.host.d3 = true →
    exec (.evStatusClear w mask (some x)) s = .next (raiseWith x 0 0 s)) ∧
  -- MSIX_MASK_CHANGE
  (∀ (s : State) (v : Fin 2048), s.host.d3 = false → exec (.msixMaskChange (some v) true) s = .next { s with ev := { s.ev with
    table := tabMod {} s.ev.table v (fun x => { x with mask := true }) } }) ∧
  (∀ (s : State), s.ev.pba = 0 → exec (.msixMaskChange none false) s = .next { s with ev := { s.ev with funMask := false } }) ∧
  (∀ (s : State) (v : Fin 2048), s.host.d3 = false → s.ev.funMask = false → s.ev.pba.getLsbD v = true →
    exec (.msixMaskChange (some v) false) s = .next { s with
      out := s.out ++ [.msix v (s.ev.entry v).addr (s.ev.entry v).data]
      ev := { s.ev with table := tabMod {} s.ev.table v (fun x => { x with mask := false }), pba := s.ev.pba &&& ~~~(1#2048 <<< v.val) } }) ∧
  -- REG64_LOW_READ
  (∀ (s : State) (off x : Nat), s.host.d3 = false → s.reg64 off = some x → exec (.reg64LowRead off) s = .next { s with
    out := s.out ++ [.barData off (BitVec.ofNat 32 x)]
    ev := { s.ev with latches := tabPut s.ev.latches (off + 4) (BitVec.ofNat 32 (x / 4294967296)) } }) ∧
  -- REGISTER_WRITE
  (∀ (s : State) (off : Nat) (en : BitVec 4) (v : BitVec 32), s.host.d3 = false → en ≠ 0xF ∨ off % 4 ≠ 0 →
    exec (.registerWrite off en v) s = .next { s with host := { s.host with badWr := sat8 s.host.badWr } }) ∧
  (∀ (s : State) (v : BitVec 32), s.host.d3 = false → exec (.registerWrite 0x378 0xF v) s = .next { s with
    power := { s.power with plogBack := v.toNat % 256, plogWord := v.toNat / 256 % 256 } }) ∧
  (∀ (s : State) (v : BitVec 32), s.host.d3 = false → exec (.registerWrite 0x010 0xF v) s = .next { s with
    ctl := { s.ctl with selErr := s.ctl.selErr && !v.getLsbD 0 }, ev := { s.ev with rstRef := s.ev.rstRef && !v.getLsbD 1 } }) ∧
  (∀ (s : State) (v : BitVec 32), s.host.d3 = false → exec (.registerWrite 0x2000 0xF v) s = exec (.unitSelWrite v) s
    ∧ exec (.registerWrite 0x1000 0xF v) s = exec (.mbxSelWrite v) s ∧ exec (.registerWrite 0x3C0 0xF v) s = exec (.eccFlipWrite v) s) ∧
  -- JUNCTION_TEMP_SAMPLE
  (∀ (s : State) (t : Vector (BitVec 16) 8), (∀ x ∈ t.toList, x.toInt ≤ 8 * 95) → exec (.junctionTempSample t) s = .next { s with
    power := { s.power with jtemp := t.toList }, plat := { s.plat with hotAt := none, critAt := none } }) ∧
  (∀ (s : State) (t : Vector (BitVec 16) 8) (x : BitVec 16), x ∈ t.toList → 8 * 115 < x.toInt → (∀ y ∈ s.power.jtemp, y.toInt ≤ 8 * 95) →
    s.plat.hotAt = none → s.plat.critAt = none → exec (.junctionTempSample t) s = .next (raiseWith 992 0 (sensorDetail t.toList) { s with
      power := { s.power with jtemp := t.toList }, plat := { s.plat with hotAt := some s.now, critAt := some s.now } })) ∧
  -- THERMAL_CRITICAL_TIMER, THERMAL_SHUTDOWN_TIMER
  (∀ s : State, s.plat.hotAt.isSome = true → exec .thermalCriticalTimer s =
    .next (settle (relinquishCause (raiseWith 993 0 (sensorDetail s.power.jtemp) s)))) ∧
  (∀ s : State, s.plat.critAt.isSome = true → s.power.wl = 13 → s.power.stepTo = none → s.prime.drain = none →
    exec .thermalShutdownTimer s = .next (settle (pullLine 14 true (startDrain .orderly none { s with power := { s.power with
      goingDown := true, latch := if s.power.latch == .on then .none else s.power.latch } }))))
end

