-- ==== Sys2Proof/Laws/Aes.lean ====
section
/-! SUPPORT. AES decryption undoes encryption, and a key unwraps to what was wrapped. -/

namespace Sys2Proof.Machine

open Sys2Proof

/-! Byte strings. -/

@[simp] theorem slice_length (l : Bytes) (off n : Nat) : (slice l off n).length = n := by
  simp [slice]

theorem xorBytes_length : ∀ a b : Bytes, (xorBytes a b).length = Nat.max a.length b.length
  | [], b => by simp [xorBytes]
  | _ :: _, [] => by simp [xorBytes]
  | _ :: a, _ :: b => by simp [xorBytes, xorBytes_length a b]

theorem xorBytes_undone : ∀ a b : Bytes, b.length ≤ a.length → xorBytes (xorBytes a b) b = a
  | [], [], _ => rfl
  | _ :: _, [], _ => rfl
  | x :: a, y :: b, h => by
    have : xorBytes (xorBytes a b) b = a := xorBytes_undone a b (by simpa using h)
    simp [xorBytes, this]

theorem leBytes_length : ∀ n v, (leBytes n v).length = n
  | 0, _ => rfl
  | n + 1, v => by simp [leBytes, leBytes_length n]

theorem beBytes_length (n v : Nat) : (beBytes n v).length = n := by simp [beBytes, leBytes_length]

/-- A list of 16 bytes, by its bytes. -/
theorem bytes16 {P : Bytes → Prop} (h : ∀ a b c d e f g i j k l m n o p q, P [a, b, c, d, e, f, g, i, j, k, l, m, n, o, p, q]) :
    ∀ b : Bytes, b.length = 16 → P b
  | [_, _, _, _, _, _, _, _, _, _, _, _, _, _, _, _], _ => h _ _ _ _ _ _ _ _ _ _ _ _ _ _ _ _

/-! The field. -/

theorem aesDouble_xor (a b : Byte) : aesDouble (a ^^^ b) = aesDouble a ^^^ aesDouble b := by
  simp only [aesDouble, BitVec.msb_xor, BitVec.shiftLeft_xor_distrib]
  cases a.msb <;> cases b.msb <;> simp only [Bool.xor_false, Bool.xor_true, Bool.not_false, Bool.not_true, if_true, if_false, Bool.false_eq_true]
  · ac_rfl
  · ac_rfl
  · generalize (0x1B : Byte) = c
    rw [show a <<< 1 ^^^ c ^^^ (b <<< 1 ^^^ c) = a <<< 1 ^^^ b <<< 1 ^^^ (c ^^^ c) from by ac_rfl, BitVec.xor_self, BitVec.xor_zero]

@[simp] theorem aesDouble_zero : aesDouble 0#8 = 0#8 := by decide

theorem aesTimes_xor (m : Nat) (a b : Byte) : aesTimes m (a ^^^ b) = aesTimes m a ^^^ aesTimes m b := by
  simp only [aesTimes]
  cases m.testBit 0 <;> cases m.testBit 1 <;> cases m.testBit 2 <;> cases m.testBit 3 <;> simp [aesDouble_xor] <;> ac_rfl

/-- The matrices of MixColumns and of its inverse multiply to the identity: one entry for each difference of places. -/
theorem mix_entries : ∀ a : Byte,
    aesTimes 14 (aesTimes 2 a) ^^^ aesTimes 11 (aesTimes 1 a) ^^^ aesTimes 13 (aesTimes 1 a) ^^^ aesTimes 9 (aesTimes 3 a) = a ∧
    aesTimes 14 (aesTimes 3 a) ^^^ aesTimes 11 (aesTimes 2 a) ^^^ aesTimes 13 (aesTimes 1 a) ^^^ aesTimes 9 (aesTimes 1 a) = 0 ∧
    aesTimes 14 (aesTimes 1 a) ^^^ aesTimes 11 (aesTimes 3 a) ^^^ aesTimes 13 (aesTimes 2 a) ^^^ aesTimes 9 (aesTimes 1 a) = 0 ∧
    aesTimes 14 (aesTimes 1 a) ^^^ aesTimes 11 (aesTimes 1 a) ^^^ aesTimes 13 (aesTimes 3 a) ^^^ aesTimes 9 (aesTimes 2 a) = 0 := by
  decide +kernel

theorem subByteInv_subByte : ∀ a : Byte, subByteInv (subByte a) = a := by decide +kernel

theorem mixColumn_undone (a b c d : Byte) : mixColumn [14, 11, 13, 9] (mixColumn [2, 3, 1, 1] [a, b, c, d]) = [a, b, c, d] := by
  obtain ⟨a0, a1, a2, a3⟩ := mix_entries a
  obtain ⟨b0, b1, b2, b3⟩ := mix_entries b
  obtain ⟨c0, c1, c2, c3⟩ := mix_entries c
  obtain ⟨d0, d1, d2, d3⟩ := mix_entries d
  have join (w x y z p q r s : Byte) (h : w = p) (h1 : x = q) (h2 : y = r) (h3 : z = s) : w ^^^ x ^^^ y ^^^ z = p ^^^ q ^^^ r ^^^ s := by
    rw [h, h1, h2, h3]
  have e0 := join _ _ _ _ _ _ _ _ a0 b1 c2 d3
  have e1 := join _ _ _ _ _ _ _ _ a3 b0 c1 d2
  have e2 := join _ _ _ _ _ _ _ _ a2 b3 c0 d1
  have e3 := join _ _ _ _ _ _ _ _ a1 b2 c3 d0
  have zx (x : Byte) : 0 ^^^ x = x := by simp
  simp only [mixColumn, List.range, List.range.loop, List.map, List.foldl, List.getD_cons_zero, List.getD_cons_succ, Nat.reduceAdd, Nat.reduceSub,
    Nat.reduceMod, aesTimes_xor, zx, List.cons.injEq, and_true]
  refine ⟨Eq.trans ?_ (e0.trans (by simp)), Eq.trans ?_ (e1.trans (by simp)), Eq.trans ?_ (e2.trans (by simp)), Eq.trans ?_ (e3.trans (by simp))⟩ <;> ac_rfl

/-! Blocks. -/

theorem mixWith_length (m : List Nat) (b : Bytes) : (mixWith m b).length = 16 := rfl

theorem mixWith_undone : ∀ b : Bytes, b.length = 16 → mixWith [14, 11, 13, 9] (mixWith [2, 3, 1, 1] b) = b := by
  refine bytes16 fun a b c d e f g i j k l m n o p q => ?_
  have cut (m : List Nat) (a b c d e f g i j k l m' n o p q : Byte) : mixWith m [a, b, c, d, e, f, g, i, j, k, l, m', n, o, p, q]
      = mixColumn m [a, b, c, d] ++ mixColumn m [e, f, g, i] ++ mixColumn m [j, k, l, m'] ++ mixColumn m [n, o, p, q] := rfl
  have cut4 (m : List Nat) (a b c d : Bytes) (ha : a.length = 4) (hb : b.length = 4) (hc : c.length = 4) (hd : d.length = 4) :
      mixWith m (a ++ b ++ c ++ d) = mixColumn m a ++ mixColumn m b ++ mixColumn m c ++ mixColumn m d := by
    match a, b, c, d, ha, hb, hc, hd with
    | [_, _, _, _], [_, _, _, _], [_, _, _, _], [_, _, _, _], _, _, _, _ => rfl
  rw [cut, cut4 _ _ _ _ _ rfl rfl rfl rfl, mixColumn_undone, mixColumn_undone, mixColumn_undone, mixColumn_undone]
  rfl

theorem shiftRows_undone : ∀ b : Bytes, b.length = 16 → shiftRowsInv (shiftRows b) = b :=
  bytes16 fun _ _ _ _ _ _ _ _ _ _ _ _ _ _ _ _ => rfl

theorem subBytes_undone (b : Bytes) : (b.map subByte).map subByteInv = b := by
  induction b with
  | nil => rfl
  | cons a b ih => simp [subByteInv_subByte, ih]

theorem shiftRows_length (b : Bytes) : (shiftRows b).length = 16 := by simp [shiftRows]

/-- The last two operations of a round, and the first two of a round of decryption. -/
theorem shiftSub_undone (b : Bytes) (h : b.length = 16) : (shiftRowsInv (shiftRows (b.map subByte))).map subByteInv = b := by
  rw [shiftRows_undone _ (by simpa using h), subBytes_undone]

/-- A round of encryption with key `k`, and the one of decryption that undoes it. -/
def aesRound (b k : Bytes) : Bytes := xorBytes (mixWith [2, 3, 1, 1] (shiftRows (b.map subByte))) k

def aesRoundInv (b k : Bytes) : Bytes := mixWith [14, 11, 13, 9] (xorBytes ((shiftRowsInv b).map subByteInv) k)

theorem aesRound_length (b k : Bytes) (hk : k.length = 16) : (aesRound b k).length = 16 := by
  rw [aesRound, xorBytes_length, mixWith_length, hk]
  rfl

theorem aesRounds_length (ks : List Bytes) (b : Bytes) (hk : ∀ k ∈ ks, k.length = 16) (hb : b.length = 16) :
    (ks.foldl aesRound b).length = 16 := by
  induction ks generalizing b with
  | nil => exact hb
  | cons k ks ih => exact ih _ (fun x hx => hk x (by simp [hx])) (aesRound_length _ _ (hk k (by simp)))

/-- Decryption's rounds, each from the text before its key is added, undo those of encryption. -/
theorem aesRounds_undone (ks : List Bytes) (b : Bytes) (hk : ∀ k ∈ ks, k.length = 16) (hb : b.length = 16) :
    ks.reverse.foldl aesRoundInv (shiftRows ((ks.foldl aesRound b).map subByte)) = shiftRows (b.map subByte) := by
  induction ks generalizing b with
  | nil => rfl
  | cons k ks ih =>
    have h := ih (aesRound b k) (fun x hx => hk x (by simp [hx])) (aesRound_length _ _ (hk k (by simp)))
    rw [List.reverse_cons, List.foldl_append, List.foldl_cons (l := ks), h]
    have l : (aesRound b k).length = 16 := aesRound_length _ _ (hk k (by simp))
    have e : xorBytes (aesRound b k) k = mixWith [2, 3, 1, 1] (shiftRows (b.map subByte)) :=
      xorBytes_undone _ _ (by rw [mixWith_length, hk k (by simp)])
    simp only [List.foldl_cons, List.foldl_nil, aesRoundInv]
    rw [shiftSub_undone _ l, e, mixWith_undone _ (shiftRows_length _)]

/-! The key schedule. -/

theorem nextKeyWord_length (nk : Nat) (w : List Bytes) (hw : ∀ x ∈ w, x.length = 4) (h0 : 1 ≤ nk) (hn : nk ≤ w.length) :
    (nextKeyWord nk w).length = 4 := by
  have get (i : Nat) (h : i < w.length) : (w.getD i []).length = 4 := by
    rw [List.getD_eq_getElem _ _ h]
    exact hw _ (List.getElem_mem h)
  have h1 := get (w.length - 1) (by omega)
  have h2 := get (w.length - nk) (by omega)
  unfold nextKeyWord
  simp only
  rw [xorBytes_length, h2]
  split
  · simp [xorBytes_length]
  · split
    · rw [List.length_map, h1]
      rfl
    · rw [h1]
      rfl

theorem moreKeyWords_spec (nk : Nat) (h0 : 1 ≤ nk) : ∀ (n : Nat) (w : List Bytes), (∀ x ∈ w, x.length = 4) → nk ≤ w.length →
    (∀ x ∈ moreKeyWords nk n w, x.length = 4) ∧ (moreKeyWords nk n w).length = w.length + n
  | 0, w, hw, _ => ⟨hw, rfl⟩
  | n + 1, w, hw, hn => by
    have h := moreKeyWords_spec nk h0 n (w ++ [nextKeyWord nk w]) (fun x hx => by
      rcases List.mem_append.1 hx with hx | hx
      · exact hw x hx
      · rw [List.mem_singleton.1 hx]
        exact nextKeyWord_length nk w hw h0 hn) (by simp; omega)
    refine ⟨h.1, ?_⟩
    rw [moreKeyWords, h.2]
    simp
    omega

/-- A key of 16 or 32 bytes has a round key of 16 bytes for each round and one more. -/
theorem aesKeys_spec (key : Bytes) (h : 4 ≤ key.length) :
    (aesKeys key).length = aesRounds (key.length / 4) + 1 ∧ ∀ k ∈ aesKeys key, k.length = 16 := by
  have hw := moreKeyWords_spec (key.length / 4) (by omega) (4 * (aesRounds (key.length / 4) + 1) - key.length / 4)
    ((List.range (key.length / 4)).map (fun i => slice key (4 * i) 4)) (by simp) (by simp)
  refine ⟨by simp [aesKeys], fun k hk => ?_⟩
  simp only [aesKeys, List.mem_map, List.mem_range] at hk
  obtain ⟨r, hr, rfl⟩ := hk
  have get (c : Nat) (hc : c < 4) : ((moreKeyWords (key.length / 4) (4 * (aesRounds (key.length / 4) + 1) - key.length / 4)
      ((List.range (key.length / 4)).map (fun i => slice key (4 * i) 4))).getD (4 * r + c) []).length = 4 := by
    have hl := hw.2
    simp only [List.length_map, List.length_range, aesRounds] at hl hr
    rw [List.getD_eq_getElem _ _ (by simp only [aesRounds]; omega)]
    exact hw.1 _ (List.getElem_mem _)
  have four (f : Nat → Bytes) (hf : ∀ c, c < 4 → (f c).length = 4) : ((List.range 4).flatMap f).length = 16 := by
    simp [show List.range 4 = [0, 1, 2, 3] from rfl, hf]
  exact four _ get

/-! The cipher. -/

/-- The round keys as the first, the middle and the last. -/
theorem aesKeys_ends (key : Bytes) (h : 4 ≤ key.length) : ∃ k0 mid kl, aesKeys key = k0 :: (mid ++ [kl]) ∧ k0.length = 16 ∧ kl.length = 16 ∧
    ∀ k ∈ mid, k.length = 16 := by
  obtain ⟨hl, h16⟩ := aesKeys_spec key h
  generalize aesKeys key = ks at hl h16
  match ks, hl with
  | k0 :: t, hl =>
    obtain ⟨mid, kl, rfl⟩ : ∃ mid kl, t = mid ++ [kl] := by
      refine ⟨t.dropLast, t.getLast (by rintro rfl; simp [aesRounds] at hl), (List.dropLast_append_getLast _).symm⟩
    exact ⟨k0, mid, kl, rfl, h16 _ (by simp), h16 _ (by simp), fun k hk => h16 k (by simp [hk])⟩

theorem aesEncrypt_eq {key k0 kl : Bytes} {mid : List Bytes} (h : aesKeys key = k0 :: (mid ++ [kl])) (b : Bytes) :
    aesEncrypt key b = xorBytes (shiftRows ((mid.foldl aesRound (xorBytes b k0)).map subByte)) kl := by
  simp only [aesEncrypt, h]
  simp
  rfl

theorem aesDecrypt_eq {key k0 kl : Bytes} {mid : List Bytes} (h : aesKeys key = k0 :: (mid ++ [kl])) (b : Bytes) :
    aesDecrypt key b = xorBytes ((shiftRowsInv (mid.reverse.foldl aesRoundInv (xorBytes b kl))).map subByteInv) k0 := by
  simp only [aesDecrypt, h]
  simp
  rfl

theorem aesEncrypt_length (key b : Bytes) (hk : 4 ≤ key.length) : (aesEncrypt key b).length = 16 := by
  obtain ⟨k0, mid, kl, e, -, h1, -⟩ := aesKeys_ends key hk
  rw [aesEncrypt_eq e, xorBytes_length, shiftRows_length, h1]
  rfl

theorem aesDecrypt_aesEncrypt (key b : Bytes) (hk : 4 ≤ key.length) (hb : b.length = 16) : aesDecrypt key (aesEncrypt key b) = b := by
  obtain ⟨k0, mid, kl, e, h0, h1, hm⟩ := aesKeys_ends key hk
  have hx : (xorBytes b k0).length = 16 := by
    rw [xorBytes_length, hb, h0]
    rfl
  rw [aesEncrypt_eq e, aesDecrypt_eq e, xorBytes_undone _ kl (by rw [shiftRows_length, h1]), aesRounds_undone _ _ hm hx, shiftSub_undone _ hx,
    xorBytes_undone _ _ (by rw [hb, h0])]

/-! Key wrap. -/

theorem slice_left (a b : Bytes) {n : Nat} (h : a.length = n) : slice (a ++ b) 0 n = a := by
  subst h
  simp [slice]

theorem slice_right (a b : Bytes) {m n : Nat} (h : a.length = m) (hb : b.length = n) : slice (a ++ b) m n = b := by
  subst h hb
  simp [slice]

theorem slice_join (b : Bytes) (m n : Nat) (h : b.length = m + n) : slice b 0 m ++ slice b m n = b := by
  have e : b = b.take m ++ b.drop m := (List.take_append_drop m b).symm
  have h1 : (b.take m).length = m := by simp [h]
  rw [e, slice_left _ _ h1, slice_right _ _ h1 (by simp [h])]

/-- What holds of a wrapped key between two steps. -/
def WrapOk (n : Nat) (x : Bytes × List Bytes) : Prop := x.1.length = 8 ∧ x.2.length = n ∧ ∀ s ∈ x.2, s.length = 8

theorem wrapStep_ok {kek : Bytes} {n : Nat} {x : Bytes × List Bytes} (t : Nat) (h : WrapOk n x) : WrapOk n (wrapStep kek n x t) := by
  refine ⟨by simp [wrapStep, xorBytes_length, beBytes_length], by simp [wrapStep, h.2.1], fun s hs => ?_⟩
  rcases List.mem_or_eq_of_mem_set hs with hs | rfl
  · exact h.2.2 s hs
  · simp

theorem wrapStep_undone {kek : Bytes} {n : Nat} {x : Bytes × List Bytes} (t : Nat) (hk : 4 ≤ kek.length) (hn : 1 ≤ n) (h : WrapOk n x) :
    unwrapStep kek n (wrapStep kek n x t) t = x := by
  obtain ⟨a, r⟩ := x
  obtain ⟨ha, hl, hr⟩ := h
  have hi : (t - 1) % n < r.length := by
    simp only at hl
    rw [hl]
    exact Nat.mod_lt _ hn
  have hri : (r.getD ((t - 1) % n) []).length = 8 := by
    rw [List.getD_eq_getElem _ _ hi]
    exact hr _ (List.getElem_mem hi)
  have hb : (aesEncrypt kek (a ++ r.getD ((t - 1) % n) [])).length = 8 + 8 := aesEncrypt_length _ _ hk
  have put (y : Bytes) : (r.set ((t - 1) % n) y).getD ((t - 1) % n) [] = y := by
    rw [List.getD_eq_getElem _ _ (by simpa using hi), List.getElem_set_self]
  simp only [wrapStep, unwrapStep]
  rw [xorBytes_undone _ _ (by simp [beBytes_length]), put, slice_join _ 8 8 hb,
    aesDecrypt_aesEncrypt _ _ hk (by simp only [List.length_append, hri] at ha ⊢; omega), slice_left _ _ ha, slice_right _ _ ha hri, List.set_set,
    List.getD_eq_getElem _ _ hi, List.set_getElem_self]

theorem wrapSteps_undone {kek : Bytes} {n : Nat} (hk : 4 ≤ kek.length) (hn : 1 ≤ n) (l : List Nat) (x : Bytes × List Bytes) (h : WrapOk n x) :
    l.reverse.foldl (unwrapStep kek n) (l.foldl (wrapStep kek n) x) = x ∧ WrapOk n (l.foldl (wrapStep kek n) x) := by
  induction l generalizing x with
  | nil => exact ⟨rfl, h⟩
  | cons t l ih =>
    obtain ⟨h1, h2⟩ := ih _ (wrapStep_ok (kek := kek) t h)
    refine ⟨?_, h2⟩
    rw [List.reverse_cons, List.foldl_append, List.foldl_cons (l := l), h1]
    exact wrapStep_undone t hk hn h

theorem semiblocks_flatten (l : List Bytes) (h : ∀ s ∈ l, s.length = 8) : semiblocks l.flatten = l := by
  induction l with
  | nil => rfl
  | cons a l ih =>
    have ha : a.length = 8 := h a (by simp)
    have e : semiblocks (a ++ l.flatten) = a :: semiblocks l.flatten := by
      have hd (i : Nat) : slice (a ++ l.flatten) (8 * (i + 1)) 8 = slice l.flatten (8 * i) 8 := by
        simp only [slice]
        rw [List.drop_append, ha, show 8 * (i + 1) - 8 = 8 * i from by omega, List.drop_eq_nil_of_le (by omega : a.length ≤ 8 * (i + 1)), List.nil_append]
      rw [semiblocks, List.length_append, ha, show (8 + l.flatten.length) / 8 = l.flatten.length / 8 + 1 from by omega, List.range_succ_eq_map,
        List.map_cons, List.map_map, Nat.mul_zero, slice_left _ _ ha]
      exact congrArg _ (List.map_congr_left (fun i _ => hd i))
    rw [List.flatten_cons, e, ih (fun s hs => h s (by simp [hs]))]

theorem semiblocks_spec (b : Bytes) (n : Nat) (h : b.length = 8 * n) : (semiblocks b).flatten = b ∧ (semiblocks b).length = n ∧
    ∀ s ∈ semiblocks b, s.length = 8 := by
  refine ⟨?_, by simp [semiblocks, h], by simp [semiblocks]⟩
  induction n generalizing b with
  | zero => rw [List.eq_nil_of_length_eq_zero (by omega : b.length = 0)]; rfl
  | succ n ih =>
    have hb : b = (b.take 8 :: semiblocks (b.drop 8)).flatten := by
      rw [List.flatten_cons, ih _ (by simp; omega), List.take_append_drop]
    have h8 : ∀ s ∈ b.take 8 :: semiblocks (b.drop 8), s.length = 8 := by
      simp [semiblocks]
      omega
    have e := congrArg List.flatten (semiblocks_flatten _ h8)
    rwa [← hb] at e

/-- R472: a key of whole semiblocks, at least two, unwraps to itself. -/
theorem unwrapKey_wrapKey (kek data : Bytes) (n : Nat) (hk : 4 ≤ kek.length) (hn : 2 ≤ n) (hd : data.length = 8 * n) :
    unwrapKey kek (wrapKey kek data) = some data := by
  obtain ⟨e1, e2, e3⟩ := semiblocks_spec data n hd
  have h0 : WrapOk n (List.replicate 8 0xA6, semiblocks data) := ⟨by simp, e2, e3⟩
  obtain ⟨u1, u2⟩ := wrapSteps_undone hk (by omega) ((List.range (6 * n)).map (· + 1)) _ h0
  have hw : wrapKey kek data = (((List.range (6 * n)).map (· + 1)).foldl (wrapStep kek n) (List.replicate 8 0xA6, semiblocks data)).1 ++
      (((List.range (6 * n)).map (· + 1)).foldl (wrapStep kek n) (List.replicate 8 0xA6, semiblocks data)).2.flatten := by
    unfold wrapKey wrapUnder
    rw [show data.length / 8 = n from by omega, if_neg (by omega)]
  rw [hw]
  generalize ((List.range (6 * n)).map (· + 1)).foldl (wrapStep kek n) (List.replicate 8 0xA6, semiblocks data) = x at u1 u2
  obtain ⟨a, r⟩ := x
  obtain ⟨ha, hl, hr⟩ := u2
  have hs := semiblocks_flatten (a :: r) (fun s hs => by rcases List.mem_cons.1 hs with rfl | hs; exact ha; exact hr s hs)
  have hf : r.flatten.length = 8 * n := by
    rw [List.length_flatten, List.map_congr_left (g := fun _ => 8) hr]
    simp only at hl
    simp [hl]
    omega
  simp only at ha
  have hb : (a ++ r.flatten).length = 8 * (n + 1) := by simp [ha, hf]; omega
  have hu : unwrapUnder kek (a ++ r.flatten) = (List.replicate 8 0xA6, data) := by
    unfold unwrapUnder
    rw [hb, show 8 * (n + 1) / 8 - 1 = n from by omega]
    simp only
    rw [if_neg (by omega), slice_left _ _ ha, ← List.flatten_cons, hs, List.map_reverse]
    simp only [List.drop_succ_cons, List.drop_zero]
    rw [u1, e1]
  unfold unwrapKey
  rw [hu, if_neg (by rw [hb]; omega)]
  simp [ha, hf]
  omega

end Sys2Proof.Machine
end

