-- ==== Sys2Proof/Laws/Cmds.lean ====
section
/-! SUPPORT. What taking a mailbox command does once it is admitted. -/

namespace Sys2Proof.Machine

open Sys2Proof

/-- An admitted command goes to its own checks, and from there to its effect or its refusal. -/
theorem takeCommand_takes {h : CmdHdr} {code unit : Nat} {kind : CmdKind} {s : State} (check : State → Verdict)
    (run : Nat → State → State) (ht : takes h code kind unit s = true) :
    takeCommand h code kind unit check run s = .next (settle (match check (opened h code kind unit s) with
      | some v => finish (cmdId h code s) v.1 v.2 (blobEvent v (opened h code kind unit s))
      | none => run (cmdId h code s) (opened h code kind unit s))) := by
  simp only [takes, leavesFifo, admitted, Bool.and_eq_true, decide_eq_true_eq, Bool.not_eq_true'] at ht
  obtain ⟨⟨⟨h1, h2⟩, h3⟩, ⟨⟨⟨⟨h4, h5⟩, h6⟩, h7⟩, h8⟩, h9⟩ := ht
  simp only [takeCommand, runCommand]
  simp only [fetched] at h4 h6 h9
  rw [if_neg (by simp [h1, h3]; omega), if_neg (by simp [h4]), if_neg (by simp [h5]), if_neg (by simp [h6])]
  have e : (openCmd h.mbx.val code h.tag kind unit (mbxTake h.mbx.val code h.tag.toNat h.nent s)) =
    (cmdId h code s, opened h code kind unit s) := rfl
  rw [e]
  dsimp only
  have h7' : ¬ (h.mbx.val = 4 ∧ (!(opened h code kind unit s).atRun) = true ∧ (!([0x00, 0x08, 0x09].contains (code / 256))) = true) := by
    intro ⟨a, b, c⟩
    rw [a] at h7
    simp only [Bool.not_eq_true'] at b c
    rw [b, c] at h7
    simp at h7
  rw [if_neg h7', if_neg (by simp [h8])]
  have h9' : (kind != .immediate && decide ((mbxTake h.mbx.val code h.tag.toNat h.nent s).longOn h.mbx.val ≥ 8)) = false := by
    cases kind <;> simp_all <;> exact of_decide_eq_true h9
  rw [h9']
  cases check (opened h code kind unit s) <;> rfl

/-- An admitted command that passes its own checks has its effect. -/
theorem takeCommand_runs {h : CmdHdr} {code unit : Nat} {kind : CmdKind} {s : State} {check : State → Verdict}
    {run : Nat → State → State} (ht : takes h code kind unit s = true) (hc : check (opened h code kind unit s) = none) :
    takeCommand h code kind unit check run s = .next (settle (run (cmdId h code s) (opened h code kind unit s))) := by
  rw [takeCommand_takes check run ht, hc]

/-- An admitted command that only reads is answered OK. -/
theorem readCommand_answers {h : CmdHdr} {code unit : Nat} {s : State} {check : State → Verdict} {block : State → Bytes}
    (ht : takes h code .immediate unit s = true) (hc : check (opened h code .immediate unit s) = none) :
    readCommand h code unit check block s = .next (answered h code unit block s) :=
  takeCommand_runs ht hc

/-- A record that is acceptable is logged, recorded and applied. -/
theorem commit_logged {h : CmdHdr} {code unit : Nat} {kind : CmdKind} {c : Cfg} {s : State} (block : State → Bytes)
    (after : Option (State → State)) (id : Nat) (ha : acceptable c (opened h code kind unit s) = true)
    (hr : (applyCfg c (logged h code kind unit c s)).2 = 0) :
    commit code h.tag c block after id (opened h code kind unit s) = match after with
      | some f => f (applyCfg c (logged h code kind unit c s)).1
      | none => answerLogged id (loggedLsn h code kind unit c s) stOk (block (opened h code kind unit s))
          (applyCfg c (logged h code kind unit c s)).1 := by
  simp only [acceptable, Bool.and_eq_true, Option.isNone_iff_eq_none] at ha
  obtain ⟨⟨_, h2⟩, h3⟩ := ha
  simp only [commit, h2, h3]
  exact if_neg (fun hn => hn hr)

/-- A configuration command that commits changes the logged state and is answered OK. -/
theorem cfgCommand_commits {h : CmdHdr} {code unit : Nat} {c : Cfg} {s : State} {block : State → Bytes} {change : State → State}
    (ht : commits h code .immediate unit c s = true)
    (hr : applyCfg c (logged h code .immediate unit c s) = (change (logged h code .immediate unit c s), 0)) :
    cfgCommand h code unit c block s = .next (committed h code unit c block change s) := by
  simp only [commits, Bool.and_eq_true] at ht
  have hc : (opened h code .immediate unit s).cfgCheck c = none := by
    have := ht.2
    simp only [acceptable, Bool.and_eq_true, Option.isNone_iff_eq_none] at this
    exact this.1.1
  have e := commit_logged block none (cmdId h code s) ht.2 (by rw [hr])
  unfold cfgCommand
  rw [takeCommand_runs ht.1 hc, e, hr]
  rfl

/-- A waiting or long-running command that commits goes on with the logged state changed. -/
theorem takeCommand_commits {h : CmdHdr} {code unit : Nat} {kind : CmdKind} {c : Cfg} {s : State} {block : State → Bytes}
    {after : Nat → State → State} (ht : commits h code kind unit c s = true)
    (hr : (applyCfg c (logged h code kind unit c s)).2 = 0) :
    takeCommand h code kind unit (fun s => s.cfgCheck c) (fun id s => commit code h.tag c block (some (after id)) id s) s =
      .next (settle (after (cmdId h code s) (applyCfg c (logged h code kind unit c s)).1)) := by
  simp only [commits, Bool.and_eq_true] at ht
  have hc : (opened h code kind unit s).cfgCheck c = none := by
    have := ht.2
    simp only [acceptable, Bool.and_eq_true, Option.isNone_iff_eq_none] at this
    exact this.1.1
  rw [takeCommand_runs (check := fun s => s.cfgCheck c) ht.1 hc, commit_logged block _ _ ht.2 hr]

end Sys2Proof.Machine
end

