-- ==== Sys2Proof/Laws/Frames.lean ====
section
/-! SUPPORT. What an accepted packet or twin frame does. -/

namespace Sys2Proof.Machine

open Sys2Proof

/-- An accepted packet of a host is acted on. -/
theorem rxHost_accepts {p : Pkt} {op : NetOp} {hdr auth : Bool} {data : Bytes} {rlen : Nat} {s : State}
    (ha : hostAccepts p op hdr auth s = true) :
    rxHost p op hdr auth true data rlen s =
      pktClose p (hostAt p op hdr auth s) (hostPacket p op data rlen (hostAt p op hdr auth s)) := by
  simp only [hostAccepts, Bool.and_eq_true] at ha
  unfold rxHost hostAt pktClose
  generalize rxChecks p false hdr auth false false s = r at ha
  obtain ⟨u, ok⟩ := r
  simp only at ha
  simp only [ha.1, Bool.not_true, Bool.false_eq_true, if_false]
  generalize seqChecks p (some op) u = q at ha
  obtain ⟨v, ok2⟩ := q
  simp only at ha
  simp only [ha.2, Bool.not_true, Bool.false_eq_true, if_false]

/-- The first packet of a message that may begin is judged by admission. -/
theorem hostPacket_begins {p : Pkt} {op : NetOp} {data : Bytes} {rlen : Nat} {t : State} (hb : begins p op data rlen t = true) :
    hostPacket p op data rlen t = match t.admission p.conn.toNat op p.akey p.raddr.toNat (extent op p.msgOff.toNat data.length rlen) rlen with
    | .refuse r wake => refuseMsg p r (wakeSpan wake t)
    | .free => settlePkt p (advanceConn p.conn.toNat (t.modConn p.conn.toNat (fun k => { k with
        msgs := insMsg { begun p op rlen t with st := .complete } k.msgs })))
    | .grant g q span =>
      let u := takeRefs g span t
      let m := { begun p op rlen t with ns := q.nsid, grant := some (g, q.off, q.len), span }
      if op = .readReq then
        settlePkt p (advanceConn p.conn.toNat (u.modConn p.conn.toNat (fun k => { k with msgs := insMsg { m with st := .complete } k.msgs })))
      else placePacket p true data (u.modConn p.conn.toNat (fun k => { k with msgs := insMsg m k.msgs })) := by
  simp only [begins, Bool.and_eq_true, Bool.not_eq_true', decide_eq_true_eq, Option.isNone_iff_eq_none] at hb
  obtain ⟨⟨⟨⟨⟨⟨⟨⟨h1, h2⟩, h3⟩, h4⟩, h5⟩, h6⟩, h7⟩, h8⟩, h9⟩ := hb
  unfold hostPacket
  simp only
  rw [if_neg (by rintro (a | a); exact absurd a (by rw [h1]; decide); simp [h2] at a), if_neg (by omega), h4]
  simp only
  unfold firstPacket
  simp only
  rw [if_neg (by simp [h5]), if_neg (by simp at h6; intro ⟨a, b⟩; rcases h6 with h6 | h6; simp [a] at h6; exact b h6),
    if_neg (by simp [h8]; omega), if_neg (by rintro ⟨a, b⟩; simp [a] at h9; simp [h9] at b)]
  rfl

/-- An accepted control packet is acted on. -/
theorem rxControl_accepts {p : Pkt} {n : Nat} {auth : Bool} {act : State → State} {s : State}
    (ha : ctlAccepts p n auth s = true) :
    rxControl p n auth true act s = settle (xportChanged p.conn.toNat (act (ctlAt p n auth s))) := by
  simp only [ctlAccepts, Bool.and_eq_true] at ha
  unfold rxControl ctlAt
  generalize rxChecks p true (headerOk p true n && controlOk p) auth false true s = r at ha
  obtain ⟨u, ok⟩ := r
  simp only at ha
  simp only [ha.1, Bool.not_true, Bool.false_eq_true, if_false]
  generalize ctlCheck p u = q at ha
  obtain ⟨v, ok2⟩ := q
  simp only at ha
  simp only [ha.2, if_true]

/-- An accepted twin frame is acted on. -/
theorem twinFrame_accepts {h : TwinHdr} {b : TwinBody} {assigned : Option (Nat × Lsn)} {act : State → State} {s : State}
    (ha : frameAccepts h b s = true) : twinFrame h b assigned act s = settle (act (frameAt h b s)) := by
  simp only [frameAccepts, Bool.and_eq_true, bne_iff_ne, ne_eq, beq_iff_eq] at ha
  unfold twinFrame frameAt
  generalize linkGate h b s = r at ha
  obtain ⟨u, ok⟩ := r
  simp only at ha
  obtain ⟨⟨h1, h2⟩, h3⟩ := ha
  simp only [h1, Bool.not_true, Bool.false_eq_true, if_false, epochGate, if_neg h2, h3, if_true]

/-- A packet that ends in the tag of its own header and payload is authentic. -/
theorem authentic_sealed {s : State} {p : Pkt} {key : ConnKey} {gen op : Nat} {ctl : Bool} {d : Bytes}
    (h : (s.conn p.conn.toNat).kgGen p.kg = some (gen, key)) :
    s.authentic { p with tag := sealTag p op key (rxNonce (s.conn p.conn.toNat).salt ctl (rxEpoch s.twin.epoch p.epl).1 p.psn) d } ctl op d = true := by
  have e (x : BitVec 128) (n : BitVec 96) : sealTag { p with tag := x } op key n d = sealTag p op key n d := by
    unfold sealTag header
    rfl
  simp only [State.authentic, h, e, beq_self_eq_true]

end Sys2Proof.Machine
end

