-- ==== Sys2Proof/Laws/Tab.lean ====
section
/-! SUPPORT. What the table operations do: the entry read after a change, and the canonical form kept. -/

namespace Sys2Proof.Machine

variable {α : Type}

/-! Reading after a change. -/

theorem tabGet_tabPut (d : α) (t : List (Nat × α)) (k j : Nat) (v : α) :
    tabGet d (tabPut t k v) j = if j = k then v else tabGet d t j := by
  induction t with
  | nil => simp only [tabPut, tabGet, eq_comm (a := k)]
  | cons e t ih =>
    obtain ⟨a, w⟩ := e
    unfold tabPut
    split_ifs with h1 h2 h3 h4 <;> simp only [tabGet, ih] <;> split_ifs <;> first | rfl | omega

theorem tabGet_tabDel (d : α) (t : List (Nat × α)) (k j : Nat) :
    tabGet d (tabDel t k) j = if j = k then d else tabGet d t j := by
  induction t with
  | nil => simp [tabDel, tabGet]
  | cons e t ih =>
    obtain ⟨a, w⟩ := e
    unfold tabDel
    split_ifs with h1 <;> simp only [tabGet, ih] <;> split_ifs <;> first | rfl | omega

variable [DecidableEq α]

theorem tabGet_tabSet (d : α) (t : List (Nat × α)) (k j : Nat) (v : α) :
    tabGet d (tabSet d t k v) j = if j = k then v else tabGet d t j := by
  unfold tabSet
  split
  next h => rw [tabGet_tabDel, h]
  next => rw [tabGet_tabPut]

/-- The entry at a key after a change at a key. -/
theorem tabGet_tabMod (d : α) (t : List (Nat × α)) (k j : Nat) (f : α → α) :
    tabGet d (tabMod d t k f) j = if j = k then f (tabGet d t k) else tabGet d t j :=
  tabGet_tabSet d t k j _

@[simp] theorem tabGet_tabMod_same (d : α) (t : List (Nat × α)) (k : Nat) (f : α → α) :
    tabGet d (tabMod d t k f) k = f (tabGet d t k) := by simp [tabGet_tabMod]

theorem tabGet_tabMod_other (d : α) (t : List (Nat × α)) (k j : Nat) (f : α → α) (h : j ≠ k) :
    tabGet d (tabMod d t k f) j = tabGet d t j := by simp [tabGet_tabMod, h]

/-- Two changes that agree on the entry are one change. -/
theorem tabMod_congr (d : α) (t : List (Nat × α)) (k : Nat) {f g : α → α} (h : f (tabGet d t k) = g (tabGet d t k)) :
    tabMod d t k f = tabMod d t k g := congrArg (tabSet d t k) h

/-! The canonical form. -/

omit [DecidableEq α] in
theorem keysRise_weaken {lo hi : Nat} {t : List (Nat × α)} (h : lo ≤ hi) (r : keysRise (some hi) t = true) :
    keysRise (some lo) t = true := by
  cases t with
  | nil => rfl
  | cons e t =>
    obtain ⟨k, w⟩ := e
    simp only [keysRise, Bool.and_eq_true, decide_eq_true_eq] at r ⊢
    exact ⟨by omega, r.2⟩

omit [DecidableEq α] in
theorem keysRise_none {lo : Nat} {t : List (Nat × α)} (r : keysRise (some lo) t = true) : keysRise none t = true := by
  cases t with
  | nil => rfl
  | cons e t => obtain ⟨k, w⟩ := e; simp only [keysRise, Bool.and_eq_true] at r ⊢; exact r.2

omit [DecidableEq α] in
theorem keysRise_tabPut {lo : Nat} {t : List (Nat × α)} {k : Nat} (v : α) (h : lo < k) (r : keysRise (some lo) t = true) :
    keysRise (some lo) (tabPut t k v) = true := by
  induction t generalizing lo with
  | nil => simp [tabPut, keysRise, h]
  | cons e t ih =>
    obtain ⟨a, w⟩ := e
    simp only [keysRise, Bool.and_eq_true, decide_eq_true_eq] at r
    by_cases h1 : k < a
    · simp [tabPut, keysRise, h1, h, r.2]
    · by_cases h2 : k = a
      · simp [tabPut, keysRise, h2, r.1, r.2]
      · simp only [tabPut, h1, h2, if_false, keysRise, Bool.and_eq_true, decide_eq_true_eq]
        exact ⟨r.1, ih (by omega) r.2⟩

omit [DecidableEq α] in
theorem keysRise_tabPut_none {t : List (Nat × α)} {k : Nat} (v : α) (r : keysRise none t = true) :
    keysRise none (tabPut t k v) = true := by
  cases t with
  | nil => simp [tabPut, keysRise]
  | cons e t =>
    obtain ⟨a, w⟩ := e
    simp only [keysRise] at r
    by_cases h1 : k < a
    · simp [tabPut, keysRise, h1, r]
    · by_cases h2 : k = a
      · simp [tabPut, keysRise, h2, r]
      · simp only [tabPut, h1, h2, if_false, keysRise]
        exact keysRise_tabPut v (by omega) r

omit [DecidableEq α] in
theorem keysRise_tabDel {lo : Nat} {t : List (Nat × α)} (k : Nat) (r : keysRise (some lo) t = true) :
    keysRise (some lo) (tabDel t k) = true := by
  induction t generalizing lo with
  | nil => rfl
  | cons e t ih =>
    obtain ⟨a, w⟩ := e
    simp only [keysRise, Bool.and_eq_true, decide_eq_true_eq] at r
    by_cases h1 : a = k
    · simp only [tabDel, h1, if_true]
      exact ih (keysRise_weaken (by omega) r.2)
    · simp only [tabDel, h1, if_false, keysRise, Bool.and_eq_true, decide_eq_true_eq]
      exact ⟨r.1, ih r.2⟩

omit [DecidableEq α] in
theorem keysRise_tabDel_none {t : List (Nat × α)} (k : Nat) (r : keysRise none t = true) :
    keysRise none (tabDel t k) = true := by
  cases t with
  | nil => rfl
  | cons e t =>
    obtain ⟨a, w⟩ := e
    simp only [keysRise] at r
    by_cases h1 : a = k
    · simp only [tabDel, h1, if_true]
      exact keysRise_none (keysRise_tabDel k r)
    · simp only [tabDel, h1, if_false, keysRise]
      exact keysRise_tabDel k r

omit [DecidableEq α] in
theorem mem_tabPut {t : List (Nat × α)} {k : Nat} {v : α} {e : Nat × α} (h : e ∈ tabPut t k v) : e = (k, v) ∨ e ∈ t := by
  induction t with
  | nil => simpa [tabPut] using h
  | cons a t ih =>
    obtain ⟨j, w⟩ := a
    by_cases h1 : k < j
    · simpa [tabPut, h1] using h
    · by_cases h2 : k = j
      · rw [tabPut, if_neg h1, if_pos h2, List.mem_cons] at h
        rcases h with h | h
        · exact .inl h
        · exact .inr (List.mem_cons_of_mem _ h)
      · rw [tabPut, if_neg h1, if_neg h2, List.mem_cons] at h
        rcases h with h | h
        · exact .inr (by simp [h])
        · rcases ih h with h | h
          · exact .inl h
          · exact .inr (List.mem_cons_of_mem _ h)

omit [DecidableEq α] in
theorem mem_tabDel {t : List (Nat × α)} {k : Nat} {e : Nat × α} (h : e ∈ tabDel t k) : e ∈ t := by
  induction t with
  | nil => simp [tabDel] at h
  | cons a t ih =>
    obtain ⟨j, w⟩ := a
    by_cases h1 : j = k
    · simp only [tabDel, h1, if_true] at h
      exact List.mem_cons_of_mem _ (ih h)
    · simp only [tabDel, h1, if_false, List.mem_cons] at h
      rcases h with h | h
      · simp [h]
      · exact List.mem_cons_of_mem _ (ih h)

/-- Setting an entry keeps the canonical form. -/
theorem tabWf_tabSet {d : α} {t : List (Nat × α)} (k : Nat) (v : α) (h : tabWf d t = true) : tabWf d (tabSet d t k v) = true := by
  simp only [tabWf, Bool.and_eq_true, List.all_eq_true] at h ⊢
  unfold tabSet
  split
  next => exact ⟨keysRise_tabDel_none k h.1, fun e he => h.2 e (mem_tabDel he)⟩
  next hv =>
    refine ⟨keysRise_tabPut_none v h.1, fun e he => ?_⟩
    rcases mem_tabPut he with rfl | he
    · simpa using hv
    · exact h.2 e he

/-- Changing an entry keeps the canonical form. -/
theorem tabWf_tabMod {d : α} {t : List (Nat × α)} (k : Nat) (f : α → α) (h : tabWf d t = true) : tabWf d (tabMod d t k f) = true :=
  tabWf_tabSet k _ h

/-! Lists of fixed length. -/

omit [DecidableEq α] in
@[simp] theorem modAt_length (l : List α) (i : Nat) (f : α → α) : (modAt l i f).length = l.length := by
  induction l generalizing i with
  | nil => rfl
  | cons a t ih => cases i <;> simp [modAt, ih]

omit [DecidableEq α] in
theorem modAt_getD (l : List α) (i j : Nat) (f : α → α) (d : α) (h : i < l.length) :
    (modAt l i f).getD j d = if j = i then f (l.getD i d) else l.getD j d := by
  induction l generalizing i j with
  | nil => simp at h
  | cons a t ih =>
    cases i with
    | zero => cases j <;> simp [modAt]
    | succ i =>
      cases j with
      | zero => simp [modAt]
      | succ j => simpa [modAt] using ih i j (by simpa using h)

end Sys2Proof.Machine
end

