-- ==== Sys2Proof/Laws/State.lean ====
section
/-! SUPPORT. Each update of the state and each of its fields: what the field holds after the update. -/

namespace Sys2Proof.Machine

variable (s : State)

/-! `State.modChan` changes `chans` alone. -/
@[simp] theorem State.modChan_pending (c : Nat) (f : Chan → Chan) : (s.modChan c f).pending = s.pending := rfl
@[simp] theorem State.modChan_now (c : Nat) (f : Chan → Chan) : (s.modChan c f).now = s.now := rfl
@[simp] theorem State.modChan_draws (c : Nat) (f : Chan → Chan) : (s.modChan c f).draws = s.draws := rfl
@[simp] theorem State.modChan_nextId (c : Nat) (f : Chan → Chan) : (s.modChan c f).nextId = s.nextId := rfl
@[simp] theorem State.modChan_out (c : Nat) (f : Chan → Chan) : (s.modChan c f).out = s.out := rfl
@[simp] theorem State.modChan_dura (c : Nat) (f : Chan → Chan) : (s.modChan c f).dura = s.dura := rfl
@[simp] theorem State.modChan_sump (c : Nat) (f : Chan → Chan) : (s.modChan c f).sump = s.sump := rfl
@[simp] theorem State.modChan_chans (c : Nat) (f : Chan → Chan) : (s.modChan c f).chans = tabMod {} s.chans c f := rfl
@[simp] theorem State.modChan_groups (c : Nat) (f : Chan → Chan) : (s.modChan c f).groups = s.groups := rfl
@[simp] theorem State.modChan_easels (c : Nat) (f : Chan → Chan) : (s.modChan c f).easels = s.easels := rfl
@[simp] theorem State.modChan_gnv (c : Nat) (f : Chan → Chan) : (s.modChan c f).gnv = s.gnv := rfl
@[simp] theorem State.modChan_ops (c : Nat) (f : Chan → Chan) : (s.modChan c f).ops = s.ops := rfl
@[simp] theorem State.modChan_misses (c : Nat) (f : Chan → Chan) : (s.modChan c f).misses = s.misses := rfl
@[simp] theorem State.modChan_drawers (c : Nat) (f : Chan → Chan) : (s.modChan c f).drawers = s.drawers := rfl
@[simp] theorem State.modChan_twin (c : Nat) (f : Chan → Chan) : (s.modChan c f).twin = s.twin := rfl
@[simp] theorem State.modChan_tports (c : Nat) (f : Chan → Chan) : (s.modChan c f).tports = s.tports := rfl
@[simp] theorem State.modChan_nports (c : Nat) (f : Chan → Chan) : (s.modChan c f).nports = s.nports := rfl
@[simp] theorem State.modChan_xport (c : Nat) (f : Chan → Chan) : (s.modChan c f).xport = s.xport := rfl
@[simp] theorem State.modChan_host (c : Nat) (f : Chan → Chan) : (s.modChan c f).host = s.host := rfl
@[simp] theorem State.modChan_ctl (c : Nat) (f : Chan → Chan) : (s.modChan c f).ctl = s.ctl := rfl
@[simp] theorem State.modChan_cipher (c : Nat) (f : Chan → Chan) : (s.modChan c f).cipher = s.cipher := rfl
@[simp] theorem State.modChan_power (c : Nat) (f : Chan → Chan) : (s.modChan c f).power = s.power := rfl
@[simp] theorem State.modChan_prime (c : Nat) (f : Chan → Chan) : (s.modChan c f).prime = s.prime := rfl
@[simp] theorem State.modChan_dram (c : Nat) (f : Chan → Chan) : (s.modChan c f).dram = s.dram := rfl
@[simp] theorem State.modChan_flash (c : Nat) (f : Chan → Chan) : (s.modChan c f).flash = s.flash := rfl
@[simp] theorem State.modChan_test (c : Nat) (f : Chan → Chan) : (s.modChan c f).test = s.test := rfl
@[simp] theorem State.modChan_ev (c : Nat) (f : Chan → Chan) : (s.modChan c f).ev = s.ev := rfl
@[simp] theorem State.modChan_plat (c : Nat) (f : Chan → Chan) : (s.modChan c f).plat = s.plat := rfl

/-! `State.modGrp` changes `groups` alone. -/
@[simp] theorem State.modGrp_pending (g : Nat) (f : Group → Group) : (s.modGrp g f).pending = s.pending := rfl
@[simp] theorem State.modGrp_now (g : Nat) (f : Group → Group) : (s.modGrp g f).now = s.now := rfl
@[simp] theorem State.modGrp_draws (g : Nat) (f : Group → Group) : (s.modGrp g f).draws = s.draws := rfl
@[simp] theorem State.modGrp_nextId (g : Nat) (f : Group → Group) : (s.modGrp g f).nextId = s.nextId := rfl
@[simp] theorem State.modGrp_out (g : Nat) (f : Group → Group) : (s.modGrp g f).out = s.out := rfl
@[simp] theorem State.modGrp_dura (g : Nat) (f : Group → Group) : (s.modGrp g f).dura = s.dura := rfl
@[simp] theorem State.modGrp_sump (g : Nat) (f : Group → Group) : (s.modGrp g f).sump = s.sump := rfl
@[simp] theorem State.modGrp_chans (g : Nat) (f : Group → Group) : (s.modGrp g f).chans = s.chans := rfl
@[simp] theorem State.modGrp_groups (g : Nat) (f : Group → Group) : (s.modGrp g f).groups = tabMod {} s.groups g f := rfl
@[simp] theorem State.modGrp_easels (g : Nat) (f : Group → Group) : (s.modGrp g f).easels = s.easels := rfl
@[simp] theorem State.modGrp_gnv (g : Nat) (f : Group → Group) : (s.modGrp g f).gnv = s.gnv := rfl
@[simp] theorem State.modGrp_ops (g : Nat) (f : Group → Group) : (s.modGrp g f).ops = s.ops := rfl
@[simp] theorem State.modGrp_misses (g : Nat) (f : Group → Group) : (s.modGrp g f).misses = s.misses := rfl
@[simp] theorem State.modGrp_drawers (g : Nat) (f : Group → Group) : (s.modGrp g f).drawers = s.drawers := rfl
@[simp] theorem State.modGrp_twin (g : Nat) (f : Group → Group) : (s.modGrp g f).twin = s.twin := rfl
@[simp] theorem State.modGrp_tports (g : Nat) (f : Group → Group) : (s.modGrp g f).tports = s.tports := rfl
@[simp] theorem State.modGrp_nports (g : Nat) (f : Group → Group) : (s.modGrp g f).nports = s.nports := rfl
@[simp] theorem State.modGrp_xport (g : Nat) (f : Group → Group) : (s.modGrp g f).xport = s.xport := rfl
@[simp] theorem State.modGrp_host (g : Nat) (f : Group → Group) : (s.modGrp g f).host = s.host := rfl
@[simp] theorem State.modGrp_ctl (g : Nat) (f : Group → Group) : (s.modGrp g f).ctl = s.ctl := rfl
@[simp] theorem State.modGrp_cipher (g : Nat) (f : Group → Group) : (s.modGrp g f).cipher = s.cipher := rfl
@[simp] theorem State.modGrp_power (g : Nat) (f : Group → Group) : (s.modGrp g f).power = s.power := rfl
@[simp] theorem State.modGrp_prime (g : Nat) (f : Group → Group) : (s.modGrp g f).prime = s.prime := rfl
@[simp] theorem State.modGrp_dram (g : Nat) (f : Group → Group) : (s.modGrp g f).dram = s.dram := rfl
@[simp] theorem State.modGrp_flash (g : Nat) (f : Group → Group) : (s.modGrp g f).flash = s.flash := rfl
@[simp] theorem State.modGrp_test (g : Nat) (f : Group → Group) : (s.modGrp g f).test = s.test := rfl
@[simp] theorem State.modGrp_ev (g : Nat) (f : Group → Group) : (s.modGrp g f).ev = s.ev := rfl
@[simp] theorem State.modGrp_plat (g : Nat) (f : Group → Group) : (s.modGrp g f).plat = s.plat := rfl

/-! `State.modEasel` changes `easels` alone. -/
@[simp] theorem State.modEasel_pending (k : Nat) (f : Easel → Easel) : (s.modEasel k f).pending = s.pending := rfl
@[simp] theorem State.modEasel_now (k : Nat) (f : Easel → Easel) : (s.modEasel k f).now = s.now := rfl
@[simp] theorem State.modEasel_draws (k : Nat) (f : Easel → Easel) : (s.modEasel k f).draws = s.draws := rfl
@[simp] theorem State.modEasel_nextId (k : Nat) (f : Easel → Easel) : (s.modEasel k f).nextId = s.nextId := rfl
@[simp] theorem State.modEasel_out (k : Nat) (f : Easel → Easel) : (s.modEasel k f).out = s.out := rfl
@[simp] theorem State.modEasel_dura (k : Nat) (f : Easel → Easel) : (s.modEasel k f).dura = s.dura := rfl
@[simp] theorem State.modEasel_sump (k : Nat) (f : Easel → Easel) : (s.modEasel k f).sump = s.sump := rfl
@[simp] theorem State.modEasel_chans (k : Nat) (f : Easel → Easel) : (s.modEasel k f).chans = s.chans := rfl
@[simp] theorem State.modEasel_groups (k : Nat) (f : Easel → Easel) : (s.modEasel k f).groups = s.groups := rfl
@[simp] theorem State.modEasel_easels (k : Nat) (f : Easel → Easel) : (s.modEasel k f).easels = tabMod {} s.easels k f := rfl
@[simp] theorem State.modEasel_gnv (k : Nat) (f : Easel → Easel) : (s.modEasel k f).gnv = s.gnv := rfl
@[simp] theorem State.modEasel_ops (k : Nat) (f : Easel → Easel) : (s.modEasel k f).ops = s.ops := rfl
@[simp] theorem State.modEasel_misses (k : Nat) (f : Easel → Easel) : (s.modEasel k f).misses = s.misses := rfl
@[simp] theorem State.modEasel_drawers (k : Nat) (f : Easel → Easel) : (s.modEasel k f).drawers = s.drawers := rfl
@[simp] theorem State.modEasel_twin (k : Nat) (f : Easel → Easel) : (s.modEasel k f).twin = s.twin := rfl
@[simp] theorem State.modEasel_tports (k : Nat) (f : Easel → Easel) : (s.modEasel k f).tports = s.tports := rfl
@[simp] theorem State.modEasel_nports (k : Nat) (f : Easel → Easel) : (s.modEasel k f).nports = s.nports := rfl
@[simp] theorem State.modEasel_xport (k : Nat) (f : Easel → Easel) : (s.modEasel k f).xport = s.xport := rfl
@[simp] theorem State.modEasel_host (k : Nat) (f : Easel → Easel) : (s.modEasel k f).host = s.host := rfl
@[simp] theorem State.modEasel_ctl (k : Nat) (f : Easel → Easel) : (s.modEasel k f).ctl = s.ctl := rfl
@[simp] theorem State.modEasel_cipher (k : Nat) (f : Easel → Easel) : (s.modEasel k f).cipher = s.cipher := rfl
@[simp] theorem State.modEasel_power (k : Nat) (f : Easel → Easel) : (s.modEasel k f).power = s.power := rfl
@[simp] theorem State.modEasel_prime (k : Nat) (f : Easel → Easel) : (s.modEasel k f).prime = s.prime := rfl
@[simp] theorem State.modEasel_dram (k : Nat) (f : Easel → Easel) : (s.modEasel k f).dram = s.dram := rfl
@[simp] theorem State.modEasel_flash (k : Nat) (f : Easel → Easel) : (s.modEasel k f).flash = s.flash := rfl
@[simp] theorem State.modEasel_test (k : Nat) (f : Easel → Easel) : (s.modEasel k f).test = s.test := rfl
@[simp] theorem State.modEasel_ev (k : Nat) (f : Easel → Easel) : (s.modEasel k f).ev = s.ev := rfl
@[simp] theorem State.modEasel_plat (k : Nat) (f : Easel → Easel) : (s.modEasel k f).plat = s.plat := rfl

/-! `State.modNv` changes `gnv` alone. -/
@[simp] theorem State.modNv_pending (g : Nat) (f : GroupNv → GroupNv) : (s.modNv g f).pending = s.pending := rfl
@[simp] theorem State.modNv_now (g : Nat) (f : GroupNv → GroupNv) : (s.modNv g f).now = s.now := rfl
@[simp] theorem State.modNv_draws (g : Nat) (f : GroupNv → GroupNv) : (s.modNv g f).draws = s.draws := rfl
@[simp] theorem State.modNv_nextId (g : Nat) (f : GroupNv → GroupNv) : (s.modNv g f).nextId = s.nextId := rfl
@[simp] theorem State.modNv_out (g : Nat) (f : GroupNv → GroupNv) : (s.modNv g f).out = s.out := rfl
@[simp] theorem State.modNv_dura (g : Nat) (f : GroupNv → GroupNv) : (s.modNv g f).dura = s.dura := rfl
@[simp] theorem State.modNv_sump (g : Nat) (f : GroupNv → GroupNv) : (s.modNv g f).sump = s.sump := rfl
@[simp] theorem State.modNv_chans (g : Nat) (f : GroupNv → GroupNv) : (s.modNv g f).chans = s.chans := rfl
@[simp] theorem State.modNv_groups (g : Nat) (f : GroupNv → GroupNv) : (s.modNv g f).groups = s.groups := rfl
@[simp] theorem State.modNv_easels (g : Nat) (f : GroupNv → GroupNv) : (s.modNv g f).easels = s.easels := rfl
@[simp] theorem State.modNv_gnv (g : Nat) (f : GroupNv → GroupNv) : (s.modNv g f).gnv = tabMod {} s.gnv g f := rfl
@[simp] theorem State.modNv_ops (g : Nat) (f : GroupNv → GroupNv) : (s.modNv g f).ops = s.ops := rfl
@[simp] theorem State.modNv_misses (g : Nat) (f : GroupNv → GroupNv) : (s.modNv g f).misses = s.misses := rfl
@[simp] theorem State.modNv_drawers (g : Nat) (f : GroupNv → GroupNv) : (s.modNv g f).drawers = s.drawers := rfl
@[simp] theorem State.modNv_twin (g : Nat) (f : GroupNv → GroupNv) : (s.modNv g f).twin = s.twin := rfl
@[simp] theorem State.modNv_tports (g : Nat) (f : GroupNv → GroupNv) : (s.modNv g f).tports = s.tports := rfl
@[simp] theorem State.modNv_nports (g : Nat) (f : GroupNv → GroupNv) : (s.modNv g f).nports = s.nports := rfl
@[simp] theorem State.modNv_xport (g : Nat) (f : GroupNv → GroupNv) : (s.modNv g f).xport = s.xport := rfl
@[simp] theorem State.modNv_host (g : Nat) (f : GroupNv → GroupNv) : (s.modNv g f).host = s.host := rfl
@[simp] theorem State.modNv_ctl (g : Nat) (f : GroupNv → GroupNv) : (s.modNv g f).ctl = s.ctl := rfl
@[simp] theorem State.modNv_cipher (g : Nat) (f : GroupNv → GroupNv) : (s.modNv g f).cipher = s.cipher := rfl
@[simp] theorem State.modNv_power (g : Nat) (f : GroupNv → GroupNv) : (s.modNv g f).power = s.power := rfl
@[simp] theorem State.modNv_prime (g : Nat) (f : GroupNv → GroupNv) : (s.modNv g f).prime = s.prime := rfl
@[simp] theorem State.modNv_dram (g : Nat) (f : GroupNv → GroupNv) : (s.modNv g f).dram = s.dram := rfl
@[simp] theorem State.modNv_flash (g : Nat) (f : GroupNv → GroupNv) : (s.modNv g f).flash = s.flash := rfl
@[simp] theorem State.modNv_test (g : Nat) (f : GroupNv → GroupNv) : (s.modNv g f).test = s.test := rfl
@[simp] theorem State.modNv_ev (g : Nat) (f : GroupNv → GroupNv) : (s.modNv g f).ev = s.ev := rfl
@[simp] theorem State.modNv_plat (g : Nat) (f : GroupNv → GroupNv) : (s.modNv g f).plat = s.plat := rfl

/-! `State.modDrw` changes `drawers` alone. -/
@[simp] theorem State.modDrw_pending (d : Nat) (f : Drawer → Drawer) : (s.modDrw d f).pending = s.pending := rfl
@[simp] theorem State.modDrw_now (d : Nat) (f : Drawer → Drawer) : (s.modDrw d f).now = s.now := rfl
@[simp] theorem State.modDrw_draws (d : Nat) (f : Drawer → Drawer) : (s.modDrw d f).draws = s.draws := rfl
@[simp] theorem State.modDrw_nextId (d : Nat) (f : Drawer → Drawer) : (s.modDrw d f).nextId = s.nextId := rfl
@[simp] theorem State.modDrw_out (d : Nat) (f : Drawer → Drawer) : (s.modDrw d f).out = s.out := rfl
@[simp] theorem State.modDrw_dura (d : Nat) (f : Drawer → Drawer) : (s.modDrw d f).dura = s.dura := rfl
@[simp] theorem State.modDrw_sump (d : Nat) (f : Drawer → Drawer) : (s.modDrw d f).sump = s.sump := rfl
@[simp] theorem State.modDrw_chans (d : Nat) (f : Drawer → Drawer) : (s.modDrw d f).chans = s.chans := rfl
@[simp] theorem State.modDrw_groups (d : Nat) (f : Drawer → Drawer) : (s.modDrw d f).groups = s.groups := rfl
@[simp] theorem State.modDrw_easels (d : Nat) (f : Drawer → Drawer) : (s.modDrw d f).easels = s.easels := rfl
@[simp] theorem State.modDrw_gnv (d : Nat) (f : Drawer → Drawer) : (s.modDrw d f).gnv = s.gnv := rfl
@[simp] theorem State.modDrw_ops (d : Nat) (f : Drawer → Drawer) : (s.modDrw d f).ops = s.ops := rfl
@[simp] theorem State.modDrw_misses (d : Nat) (f : Drawer → Drawer) : (s.modDrw d f).misses = s.misses := rfl
@[simp] theorem State.modDrw_drawers (d : Nat) (f : Drawer → Drawer) : (s.modDrw d f).drawers = tabMod {} s.drawers d f := rfl
@[simp] theorem State.modDrw_twin (d : Nat) (f : Drawer → Drawer) : (s.modDrw d f).twin = s.twin := rfl
@[simp] theorem State.modDrw_tports (d : Nat) (f : Drawer → Drawer) : (s.modDrw d f).tports = s.tports := rfl
@[simp] theorem State.modDrw_nports (d : Nat) (f : Drawer → Drawer) : (s.modDrw d f).nports = s.nports := rfl
@[simp] theorem State.modDrw_xport (d : Nat) (f : Drawer → Drawer) : (s.modDrw d f).xport = s.xport := rfl
@[simp] theorem State.modDrw_host (d : Nat) (f : Drawer → Drawer) : (s.modDrw d f).host = s.host := rfl
@[simp] theorem State.modDrw_ctl (d : Nat) (f : Drawer → Drawer) : (s.modDrw d f).ctl = s.ctl := rfl
@[simp] theorem State.modDrw_cipher (d : Nat) (f : Drawer → Drawer) : (s.modDrw d f).cipher = s.cipher := rfl
@[simp] theorem State.modDrw_power (d : Nat) (f : Drawer → Drawer) : (s.modDrw d f).power = s.power := rfl
@[simp] theorem State.modDrw_prime (d : Nat) (f : Drawer → Drawer) : (s.modDrw d f).prime = s.prime := rfl
@[simp] theorem State.modDrw_dram (d : Nat) (f : Drawer → Drawer) : (s.modDrw d f).dram = s.dram := rfl
@[simp] theorem State.modDrw_flash (d : Nat) (f : Drawer → Drawer) : (s.modDrw d f).flash = s.flash := rfl
@[simp] theorem State.modDrw_test (d : Nat) (f : Drawer → Drawer) : (s.modDrw d f).test = s.test := rfl
@[simp] theorem State.modDrw_ev (d : Nat) (f : Drawer → Drawer) : (s.modDrw d f).ev = s.ev := rfl
@[simp] theorem State.modDrw_plat (d : Nat) (f : Drawer → Drawer) : (s.modDrw d f).plat = s.plat := rfl

/-! `State.modTport` changes `tports` alone. -/
@[simp] theorem State.modTport_pending (t : Nat) (f : TwinPort → TwinPort) : (s.modTport t f).pending = s.pending := rfl
@[simp] theorem State.modTport_now (t : Nat) (f : TwinPort → TwinPort) : (s.modTport t f).now = s.now := rfl
@[simp] theorem State.modTport_draws (t : Nat) (f : TwinPort → TwinPort) : (s.modTport t f).draws = s.draws := rfl
@[simp] theorem State.modTport_nextId (t : Nat) (f : TwinPort → TwinPort) : (s.modTport t f).nextId = s.nextId := rfl
@[simp] theorem State.modTport_out (t : Nat) (f : TwinPort → TwinPort) : (s.modTport t f).out = s.out := rfl
@[simp] theorem State.modTport_dura (t : Nat) (f : TwinPort → TwinPort) : (s.modTport t f).dura = s.dura := rfl
@[simp] theorem State.modTport_sump (t : Nat) (f : TwinPort → TwinPort) : (s.modTport t f).sump = s.sump := rfl
@[simp] theorem State.modTport_chans (t : Nat) (f : TwinPort → TwinPort) : (s.modTport t f).chans = s.chans := rfl
@[simp] theorem State.modTport_groups (t : Nat) (f : TwinPort → TwinPort) : (s.modTport t f).groups = s.groups := rfl
@[simp] theorem State.modTport_easels (t : Nat) (f : TwinPort → TwinPort) : (s.modTport t f).easels = s.easels := rfl
@[simp] theorem State.modTport_gnv (t : Nat) (f : TwinPort → TwinPort) : (s.modTport t f).gnv = s.gnv := rfl
@[simp] theorem State.modTport_ops (t : Nat) (f : TwinPort → TwinPort) : (s.modTport t f).ops = s.ops := rfl
@[simp] theorem State.modTport_misses (t : Nat) (f : TwinPort → TwinPort) : (s.modTport t f).misses = s.misses := rfl
@[simp] theorem State.modTport_drawers (t : Nat) (f : TwinPort → TwinPort) : (s.modTport t f).drawers = s.drawers := rfl
@[simp] theorem State.modTport_twin (t : Nat) (f : TwinPort → TwinPort) : (s.modTport t f).twin = s.twin := rfl
@[simp] theorem State.modTport_tports (t : Nat) (f : TwinPort → TwinPort) : (s.modTport t f).tports = tabMod {} s.tports t f := rfl
@[simp] theorem State.modTport_nports (t : Nat) (f : TwinPort → TwinPort) : (s.modTport t f).nports = s.nports := rfl
@[simp] theorem State.modTport_xport (t : Nat) (f : TwinPort → TwinPort) : (s.modTport t f).xport = s.xport := rfl
@[simp] theorem State.modTport_host (t : Nat) (f : TwinPort → TwinPort) : (s.modTport t f).host = s.host := rfl
@[simp] theorem State.modTport_ctl (t : Nat) (f : TwinPort → TwinPort) : (s.modTport t f).ctl = s.ctl := rfl
@[simp] theorem State.modTport_cipher (t : Nat) (f : TwinPort → TwinPort) : (s.modTport t f).cipher = s.cipher := rfl
@[simp] theorem State.modTport_power (t : Nat) (f : TwinPort → TwinPort) : (s.modTport t f).power = s.power := rfl
@[simp] theorem State.modTport_prime (t : Nat) (f : TwinPort → TwinPort) : (s.modTport t f).prime = s.prime := rfl
@[simp] theorem State.modTport_dram (t : Nat) (f : TwinPort → TwinPort) : (s.modTport t f).dram = s.dram := rfl
@[simp] theorem State.modTport_flash (t : Nat) (f : TwinPort → TwinPort) : (s.modTport t f).flash = s.flash := rfl
@[simp] theorem State.modTport_test (t : Nat) (f : TwinPort → TwinPort) : (s.modTport t f).test = s.test := rfl
@[simp] theorem State.modTport_ev (t : Nat) (f : TwinPort → TwinPort) : (s.modTport t f).ev = s.ev := rfl
@[simp] theorem State.modTport_plat (t : Nat) (f : TwinPort → TwinPort) : (s.modTport t f).plat = s.plat := rfl

/-! `State.modNport` changes `nports` alone. -/
@[simp] theorem State.modNport_pending (p : Nat) (f : NetPort → NetPort) : (s.modNport p f).pending = s.pending := rfl
@[simp] theorem State.modNport_now (p : Nat) (f : NetPort → NetPort) : (s.modNport p f).now = s.now := rfl
@[simp] theorem State.modNport_draws (p : Nat) (f : NetPort → NetPort) : (s.modNport p f).draws = s.draws := rfl
@[simp] theorem State.modNport_nextId (p : Nat) (f : NetPort → NetPort) : (s.modNport p f).nextId = s.nextId := rfl
@[simp] theorem State.modNport_out (p : Nat) (f : NetPort → NetPort) : (s.modNport p f).out = s.out := rfl
@[simp] theorem State.modNport_dura (p : Nat) (f : NetPort → NetPort) : (s.modNport p f).dura = s.dura := rfl
@[simp] theorem State.modNport_sump (p : Nat) (f : NetPort → NetPort) : (s.modNport p f).sump = s.sump := rfl
@[simp] theorem State.modNport_chans (p : Nat) (f : NetPort → NetPort) : (s.modNport p f).chans = s.chans := rfl
@[simp] theorem State.modNport_groups (p : Nat) (f : NetPort → NetPort) : (s.modNport p f).groups = s.groups := rfl
@[simp] theorem State.modNport_easels (p : Nat) (f : NetPort → NetPort) : (s.modNport p f).easels = s.easels := rfl
@[simp] theorem State.modNport_gnv (p : Nat) (f : NetPort → NetPort) : (s.modNport p f).gnv = s.gnv := rfl
@[simp] theorem State.modNport_ops (p : Nat) (f : NetPort → NetPort) : (s.modNport p f).ops = s.ops := rfl
@[simp] theorem State.modNport_misses (p : Nat) (f : NetPort → NetPort) : (s.modNport p f).misses = s.misses := rfl
@[simp] theorem State.modNport_drawers (p : Nat) (f : NetPort → NetPort) : (s.modNport p f).drawers = s.drawers := rfl
@[simp] theorem State.modNport_twin (p : Nat) (f : NetPort → NetPort) : (s.modNport p f).twin = s.twin := rfl
@[simp] theorem State.modNport_tports (p : Nat) (f : NetPort → NetPort) : (s.modNport p f).tports = s.tports := rfl
@[simp] theorem State.modNport_nports (p : Nat) (f : NetPort → NetPort) : (s.modNport p f).nports = tabMod {} s.nports p f := rfl
@[simp] theorem State.modNport_xport (p : Nat) (f : NetPort → NetPort) : (s.modNport p f).xport = s.xport := rfl
@[simp] theorem State.modNport_host (p : Nat) (f : NetPort → NetPort) : (s.modNport p f).host = s.host := rfl
@[simp] theorem State.modNport_ctl (p : Nat) (f : NetPort → NetPort) : (s.modNport p f).ctl = s.ctl := rfl
@[simp] theorem State.modNport_cipher (p : Nat) (f : NetPort → NetPort) : (s.modNport p f).cipher = s.cipher := rfl
@[simp] theorem State.modNport_power (p : Nat) (f : NetPort → NetPort) : (s.modNport p f).power = s.power := rfl
@[simp] theorem State.modNport_prime (p : Nat) (f : NetPort → NetPort) : (s.modNport p f).prime = s.prime := rfl
@[simp] theorem State.modNport_dram (p : Nat) (f : NetPort → NetPort) : (s.modNport p f).dram = s.dram := rfl
@[simp] theorem State.modNport_flash (p : Nat) (f : NetPort → NetPort) : (s.modNport p f).flash = s.flash := rfl
@[simp] theorem State.modNport_test (p : Nat) (f : NetPort → NetPort) : (s.modNport p f).test = s.test := rfl
@[simp] theorem State.modNport_ev (p : Nat) (f : NetPort → NetPort) : (s.modNport p f).ev = s.ev := rfl
@[simp] theorem State.modNport_plat (p : Nat) (f : NetPort → NetPort) : (s.modNport p f).plat = s.plat := rfl

/-! `State.modSub` changes `nports` alone. -/
@[simp] theorem State.modSub_pending (p q : Nat) (f : SubPort → SubPort) : (s.modSub p q f).pending = s.pending := rfl
@[simp] theorem State.modSub_now (p q : Nat) (f : SubPort → SubPort) : (s.modSub p q f).now = s.now := rfl
@[simp] theorem State.modSub_draws (p q : Nat) (f : SubPort → SubPort) : (s.modSub p q f).draws = s.draws := rfl
@[simp] theorem State.modSub_nextId (p q : Nat) (f : SubPort → SubPort) : (s.modSub p q f).nextId = s.nextId := rfl
@[simp] theorem State.modSub_out (p q : Nat) (f : SubPort → SubPort) : (s.modSub p q f).out = s.out := rfl
@[simp] theorem State.modSub_dura (p q : Nat) (f : SubPort → SubPort) : (s.modSub p q f).dura = s.dura := rfl
@[simp] theorem State.modSub_sump (p q : Nat) (f : SubPort → SubPort) : (s.modSub p q f).sump = s.sump := rfl
@[simp] theorem State.modSub_chans (p q : Nat) (f : SubPort → SubPort) : (s.modSub p q f).chans = s.chans := rfl
@[simp] theorem State.modSub_groups (p q : Nat) (f : SubPort → SubPort) : (s.modSub p q f).groups = s.groups := rfl
@[simp] theorem State.modSub_easels (p q : Nat) (f : SubPort → SubPort) : (s.modSub p q f).easels = s.easels := rfl
@[simp] theorem State.modSub_gnv (p q : Nat) (f : SubPort → SubPort) : (s.modSub p q f).gnv = s.gnv := rfl
@[simp] theorem State.modSub_ops (p q : Nat) (f : SubPort → SubPort) : (s.modSub p q f).ops = s.ops := rfl
@[simp] theorem State.modSub_misses (p q : Nat) (f : SubPort → SubPort) : (s.modSub p q f).misses = s.misses := rfl
@[simp] theorem State.modSub_drawers (p q : Nat) (f : SubPort → SubPort) : (s.modSub p q f).drawers = s.drawers := rfl
@[simp] theorem State.modSub_twin (p q : Nat) (f : SubPort → SubPort) : (s.modSub p q f).twin = s.twin := rfl
@[simp] theorem State.modSub_tports (p q : Nat) (f : SubPort → SubPort) : (s.modSub p q f).tports = s.tports := rfl
@[simp] theorem State.modSub_xport (p q : Nat) (f : SubPort → SubPort) : (s.modSub p q f).xport = s.xport := rfl
@[simp] theorem State.modSub_host (p q : Nat) (f : SubPort → SubPort) : (s.modSub p q f).host = s.host := rfl
@[simp] theorem State.modSub_ctl (p q : Nat) (f : SubPort → SubPort) : (s.modSub p q f).ctl = s.ctl := rfl
@[simp] theorem State.modSub_cipher (p q : Nat) (f : SubPort → SubPort) : (s.modSub p q f).cipher = s.cipher := rfl
@[simp] theorem State.modSub_power (p q : Nat) (f : SubPort → SubPort) : (s.modSub p q f).power = s.power := rfl
@[simp] theorem State.modSub_prime (p q : Nat) (f : SubPort → SubPort) : (s.modSub p q f).prime = s.prime := rfl
@[simp] theorem State.modSub_dram (p q : Nat) (f : SubPort → SubPort) : (s.modSub p q f).dram = s.dram := rfl
@[simp] theorem State.modSub_flash (p q : Nat) (f : SubPort → SubPort) : (s.modSub p q f).flash = s.flash := rfl
@[simp] theorem State.modSub_test (p q : Nat) (f : SubPort → SubPort) : (s.modSub p q f).test = s.test := rfl
@[simp] theorem State.modSub_ev (p q : Nat) (f : SubPort → SubPort) : (s.modSub p q f).ev = s.ev := rfl
@[simp] theorem State.modSub_plat (p q : Nat) (f : SubPort → SubPort) : (s.modSub p q f).plat = s.plat := rfl

/-! `State.modXport` changes `xport` alone. -/
@[simp] theorem State.modXport_pending (f : Xport → Xport) : (s.modXport f).pending = s.pending := rfl
@[simp] theorem State.modXport_now (f : Xport → Xport) : (s.modXport f).now = s.now := rfl
@[simp] theorem State.modXport_draws (f : Xport → Xport) : (s.modXport f).draws = s.draws := rfl
@[simp] theorem State.modXport_nextId (f : Xport → Xport) : (s.modXport f).nextId = s.nextId := rfl
@[simp] theorem State.modXport_out (f : Xport → Xport) : (s.modXport f).out = s.out := rfl
@[simp] theorem State.modXport_dura (f : Xport → Xport) : (s.modXport f).dura = s.dura := rfl
@[simp] theorem State.modXport_sump (f : Xport → Xport) : (s.modXport f).sump = s.sump := rfl
@[simp] theorem State.modXport_chans (f : Xport → Xport) : (s.modXport f).chans = s.chans := rfl
@[simp] theorem State.modXport_groups (f : Xport → Xport) : (s.modXport f).groups = s.groups := rfl
@[simp] theorem State.modXport_easels (f : Xport → Xport) : (s.modXport f).easels = s.easels := rfl
@[simp] theorem State.modXport_gnv (f : Xport → Xport) : (s.modXport f).gnv = s.gnv := rfl
@[simp] theorem State.modXport_ops (f : Xport → Xport) : (s.modXport f).ops = s.ops := rfl
@[simp] theorem State.modXport_misses (f : Xport → Xport) : (s.modXport f).misses = s.misses := rfl
@[simp] theorem State.modXport_drawers (f : Xport → Xport) : (s.modXport f).drawers = s.drawers := rfl
@[simp] theorem State.modXport_twin (f : Xport → Xport) : (s.modXport f).twin = s.twin := rfl
@[simp] theorem State.modXport_tports (f : Xport → Xport) : (s.modXport f).tports = s.tports := rfl
@[simp] theorem State.modXport_nports (f : Xport → Xport) : (s.modXport f).nports = s.nports := rfl
@[simp] theorem State.modXport_xport (f : Xport → Xport) : (s.modXport f).xport = f s.xport := rfl
@[simp] theorem State.modXport_host (f : Xport → Xport) : (s.modXport f).host = s.host := rfl
@[simp] theorem State.modXport_ctl (f : Xport → Xport) : (s.modXport f).ctl = s.ctl := rfl
@[simp] theorem State.modXport_cipher (f : Xport → Xport) : (s.modXport f).cipher = s.cipher := rfl
@[simp] theorem State.modXport_power (f : Xport → Xport) : (s.modXport f).power = s.power := rfl
@[simp] theorem State.modXport_prime (f : Xport → Xport) : (s.modXport f).prime = s.prime := rfl
@[simp] theorem State.modXport_dram (f : Xport → Xport) : (s.modXport f).dram = s.dram := rfl
@[simp] theorem State.modXport_flash (f : Xport → Xport) : (s.modXport f).flash = s.flash := rfl
@[simp] theorem State.modXport_test (f : Xport → Xport) : (s.modXport f).test = s.test := rfl
@[simp] theorem State.modXport_ev (f : Xport → Xport) : (s.modXport f).ev = s.ev := rfl
@[simp] theorem State.modXport_plat (f : Xport → Xport) : (s.modXport f).plat = s.plat := rfl

/-! `State.modConn` changes `xport` alone. -/
@[simp] theorem State.modConn_pending (c : Nat) (f : Conn → Conn) : (s.modConn c f).pending = s.pending := rfl
@[simp] theorem State.modConn_now (c : Nat) (f : Conn → Conn) : (s.modConn c f).now = s.now := rfl
@[simp] theorem State.modConn_draws (c : Nat) (f : Conn → Conn) : (s.modConn c f).draws = s.draws := rfl
@[simp] theorem State.modConn_nextId (c : Nat) (f : Conn → Conn) : (s.modConn c f).nextId = s.nextId := rfl
@[simp] theorem State.modConn_out (c : Nat) (f : Conn → Conn) : (s.modConn c f).out = s.out := rfl
@[simp] theorem State.modConn_dura (c : Nat) (f : Conn → Conn) : (s.modConn c f).dura = s.dura := rfl
@[simp] theorem State.modConn_sump (c : Nat) (f : Conn → Conn) : (s.modConn c f).sump = s.sump := rfl
@[simp] theorem State.modConn_chans (c : Nat) (f : Conn → Conn) : (s.modConn c f).chans = s.chans := rfl
@[simp] theorem State.modConn_groups (c : Nat) (f : Conn → Conn) : (s.modConn c f).groups = s.groups := rfl
@[simp] theorem State.modConn_easels (c : Nat) (f : Conn → Conn) : (s.modConn c f).easels = s.easels := rfl
@[simp] theorem State.modConn_gnv (c : Nat) (f : Conn → Conn) : (s.modConn c f).gnv = s.gnv := rfl
@[simp] theorem State.modConn_ops (c : Nat) (f : Conn → Conn) : (s.modConn c f).ops = s.ops := rfl
@[simp] theorem State.modConn_misses (c : Nat) (f : Conn → Conn) : (s.modConn c f).misses = s.misses := rfl
@[simp] theorem State.modConn_drawers (c : Nat) (f : Conn → Conn) : (s.modConn c f).drawers = s.drawers := rfl
@[simp] theorem State.modConn_twin (c : Nat) (f : Conn → Conn) : (s.modConn c f).twin = s.twin := rfl
@[simp] theorem State.modConn_tports (c : Nat) (f : Conn → Conn) : (s.modConn c f).tports = s.tports := rfl
@[simp] theorem State.modConn_nports (c : Nat) (f : Conn → Conn) : (s.modConn c f).nports = s.nports := rfl
@[simp] theorem State.modConn_host (c : Nat) (f : Conn → Conn) : (s.modConn c f).host = s.host := rfl
@[simp] theorem State.modConn_ctl (c : Nat) (f : Conn → Conn) : (s.modConn c f).ctl = s.ctl := rfl
@[simp] theorem State.modConn_cipher (c : Nat) (f : Conn → Conn) : (s.modConn c f).cipher = s.cipher := rfl
@[simp] theorem State.modConn_power (c : Nat) (f : Conn → Conn) : (s.modConn c f).power = s.power := rfl
@[simp] theorem State.modConn_prime (c : Nat) (f : Conn → Conn) : (s.modConn c f).prime = s.prime := rfl
@[simp] theorem State.modConn_dram (c : Nat) (f : Conn → Conn) : (s.modConn c f).dram = s.dram := rfl
@[simp] theorem State.modConn_flash (c : Nat) (f : Conn → Conn) : (s.modConn c f).flash = s.flash := rfl
@[simp] theorem State.modConn_test (c : Nat) (f : Conn → Conn) : (s.modConn c f).test = s.test := rfl
@[simp] theorem State.modConn_ev (c : Nat) (f : Conn → Conn) : (s.modConn c f).ev = s.ev := rfl
@[simp] theorem State.modConn_plat (c : Nat) (f : Conn → Conn) : (s.modConn c f).plat = s.plat := rfl

/-! `State.modGrant` changes `xport` alone. -/
@[simp] theorem State.modGrant_pending (g : Nat) (f : Grant → Grant) : (s.modGrant g f).pending = s.pending := rfl
@[simp] theorem State.modGrant_now (g : Nat) (f : Grant → Grant) : (s.modGrant g f).now = s.now := rfl
@[simp] theorem State.modGrant_draws (g : Nat) (f : Grant → Grant) : (s.modGrant g f).draws = s.draws := rfl
@[simp] theorem State.modGrant_nextId (g : Nat) (f : Grant → Grant) : (s.modGrant g f).nextId = s.nextId := rfl
@[simp] theorem State.modGrant_out (g : Nat) (f : Grant → Grant) : (s.modGrant g f).out = s.out := rfl
@[simp] theorem State.modGrant_dura (g : Nat) (f : Grant → Grant) : (s.modGrant g f).dura = s.dura := rfl
@[simp] theorem State.modGrant_sump (g : Nat) (f : Grant → Grant) : (s.modGrant g f).sump = s.sump := rfl
@[simp] theorem State.modGrant_chans (g : Nat) (f : Grant → Grant) : (s.modGrant g f).chans = s.chans := rfl
@[simp] theorem State.modGrant_groups (g : Nat) (f : Grant → Grant) : (s.modGrant g f).groups = s.groups := rfl
@[simp] theorem State.modGrant_easels (g : Nat) (f : Grant → Grant) : (s.modGrant g f).easels = s.easels := rfl
@[simp] theorem State.modGrant_gnv (g : Nat) (f : Grant → Grant) : (s.modGrant g f).gnv = s.gnv := rfl
@[simp] theorem State.modGrant_ops (g : Nat) (f : Grant → Grant) : (s.modGrant g f).ops = s.ops := rfl
@[simp] theorem State.modGrant_misses (g : Nat) (f : Grant → Grant) : (s.modGrant g f).misses = s.misses := rfl
@[simp] theorem State.modGrant_drawers (g : Nat) (f : Grant → Grant) : (s.modGrant g f).drawers = s.drawers := rfl
@[simp] theorem State.modGrant_twin (g : Nat) (f : Grant → Grant) : (s.modGrant g f).twin = s.twin := rfl
@[simp] theorem State.modGrant_tports (g : Nat) (f : Grant → Grant) : (s.modGrant g f).tports = s.tports := rfl
@[simp] theorem State.modGrant_nports (g : Nat) (f : Grant → Grant) : (s.modGrant g f).nports = s.nports := rfl
@[simp] theorem State.modGrant_host (g : Nat) (f : Grant → Grant) : (s.modGrant g f).host = s.host := rfl
@[simp] theorem State.modGrant_ctl (g : Nat) (f : Grant → Grant) : (s.modGrant g f).ctl = s.ctl := rfl
@[simp] theorem State.modGrant_cipher (g : Nat) (f : Grant → Grant) : (s.modGrant g f).cipher = s.cipher := rfl
@[simp] theorem State.modGrant_power (g : Nat) (f : Grant → Grant) : (s.modGrant g f).power = s.power := rfl
@[simp] theorem State.modGrant_prime (g : Nat) (f : Grant → Grant) : (s.modGrant g f).prime = s.prime := rfl
@[simp] theorem State.modGrant_dram (g : Nat) (f : Grant → Grant) : (s.modGrant g f).dram = s.dram := rfl
@[simp] theorem State.modGrant_flash (g : Nat) (f : Grant → Grant) : (s.modGrant g f).flash = s.flash := rfl
@[simp] theorem State.modGrant_test (g : Nat) (f : Grant → Grant) : (s.modGrant g f).test = s.test := rfl
@[simp] theorem State.modGrant_ev (g : Nat) (f : Grant → Grant) : (s.modGrant g f).ev = s.ev := rfl
@[simp] theorem State.modGrant_plat (g : Nat) (f : Grant → Grant) : (s.modGrant g f).plat = s.plat := rfl

/-! `State.modPower` changes `power` alone. -/
@[simp] theorem State.modPower_pending (f : Power → Power) : (s.modPower f).pending = s.pending := rfl
@[simp] theorem State.modPower_now (f : Power → Power) : (s.modPower f).now = s.now := rfl
@[simp] theorem State.modPower_draws (f : Power → Power) : (s.modPower f).draws = s.draws := rfl
@[simp] theorem State.modPower_nextId (f : Power → Power) : (s.modPower f).nextId = s.nextId := rfl
@[simp] theorem State.modPower_out (f : Power → Power) : (s.modPower f).out = s.out := rfl
@[simp] theorem State.modPower_dura (f : Power → Power) : (s.modPower f).dura = s.dura := rfl
@[simp] theorem State.modPower_sump (f : Power → Power) : (s.modPower f).sump = s.sump := rfl
@[simp] theorem State.modPower_chans (f : Power → Power) : (s.modPower f).chans = s.chans := rfl
@[simp] theorem State.modPower_groups (f : Power → Power) : (s.modPower f).groups = s.groups := rfl
@[simp] theorem State.modPower_easels (f : Power → Power) : (s.modPower f).easels = s.easels := rfl
@[simp] theorem State.modPower_gnv (f : Power → Power) : (s.modPower f).gnv = s.gnv := rfl
@[simp] theorem State.modPower_ops (f : Power → Power) : (s.modPower f).ops = s.ops := rfl
@[simp] theorem State.modPower_misses (f : Power → Power) : (s.modPower f).misses = s.misses := rfl
@[simp] theorem State.modPower_drawers (f : Power → Power) : (s.modPower f).drawers = s.drawers := rfl
@[simp] theorem State.modPower_twin (f : Power → Power) : (s.modPower f).twin = s.twin := rfl
@[simp] theorem State.modPower_tports (f : Power → Power) : (s.modPower f).tports = s.tports := rfl
@[simp] theorem State.modPower_nports (f : Power → Power) : (s.modPower f).nports = s.nports := rfl
@[simp] theorem State.modPower_xport (f : Power → Power) : (s.modPower f).xport = s.xport := rfl
@[simp] theorem State.modPower_host (f : Power → Power) : (s.modPower f).host = s.host := rfl
@[simp] theorem State.modPower_ctl (f : Power → Power) : (s.modPower f).ctl = s.ctl := rfl
@[simp] theorem State.modPower_cipher (f : Power → Power) : (s.modPower f).cipher = s.cipher := rfl
@[simp] theorem State.modPower_power (f : Power → Power) : (s.modPower f).power = f s.power := rfl
@[simp] theorem State.modPower_prime (f : Power → Power) : (s.modPower f).prime = s.prime := rfl
@[simp] theorem State.modPower_dram (f : Power → Power) : (s.modPower f).dram = s.dram := rfl
@[simp] theorem State.modPower_flash (f : Power → Power) : (s.modPower f).flash = s.flash := rfl
@[simp] theorem State.modPower_test (f : Power → Power) : (s.modPower f).test = s.test := rfl
@[simp] theorem State.modPower_ev (f : Power → Power) : (s.modPower f).ev = s.ev := rfl
@[simp] theorem State.modPower_plat (f : Power → Power) : (s.modPower f).plat = s.plat := rfl

/-! `State.modRail` changes `power` alone. -/
@[simp] theorem State.modRail_pending (i : Nat) (f : Rail → Rail) : (s.modRail i f).pending = s.pending := rfl
@[simp] theorem State.modRail_now (i : Nat) (f : Rail → Rail) : (s.modRail i f).now = s.now := rfl
@[simp] theorem State.modRail_draws (i : Nat) (f : Rail → Rail) : (s.modRail i f).draws = s.draws := rfl
@[simp] theorem State.modRail_nextId (i : Nat) (f : Rail → Rail) : (s.modRail i f).nextId = s.nextId := rfl
@[simp] theorem State.modRail_out (i : Nat) (f : Rail → Rail) : (s.modRail i f).out = s.out := rfl
@[simp] theorem State.modRail_dura (i : Nat) (f : Rail → Rail) : (s.modRail i f).dura = s.dura := rfl
@[simp] theorem State.modRail_sump (i : Nat) (f : Rail → Rail) : (s.modRail i f).sump = s.sump := rfl
@[simp] theorem State.modRail_chans (i : Nat) (f : Rail → Rail) : (s.modRail i f).chans = s.chans := rfl
@[simp] theorem State.modRail_groups (i : Nat) (f : Rail → Rail) : (s.modRail i f).groups = s.groups := rfl
@[simp] theorem State.modRail_easels (i : Nat) (f : Rail → Rail) : (s.modRail i f).easels = s.easels := rfl
@[simp] theorem State.modRail_gnv (i : Nat) (f : Rail → Rail) : (s.modRail i f).gnv = s.gnv := rfl
@[simp] theorem State.modRail_ops (i : Nat) (f : Rail → Rail) : (s.modRail i f).ops = s.ops := rfl
@[simp] theorem State.modRail_misses (i : Nat) (f : Rail → Rail) : (s.modRail i f).misses = s.misses := rfl
@[simp] theorem State.modRail_drawers (i : Nat) (f : Rail → Rail) : (s.modRail i f).drawers = s.drawers := rfl
@[simp] theorem State.modRail_twin (i : Nat) (f : Rail → Rail) : (s.modRail i f).twin = s.twin := rfl
@[simp] theorem State.modRail_tports (i : Nat) (f : Rail → Rail) : (s.modRail i f).tports = s.tports := rfl
@[simp] theorem State.modRail_nports (i : Nat) (f : Rail → Rail) : (s.modRail i f).nports = s.nports := rfl
@[simp] theorem State.modRail_xport (i : Nat) (f : Rail → Rail) : (s.modRail i f).xport = s.xport := rfl
@[simp] theorem State.modRail_host (i : Nat) (f : Rail → Rail) : (s.modRail i f).host = s.host := rfl
@[simp] theorem State.modRail_ctl (i : Nat) (f : Rail → Rail) : (s.modRail i f).ctl = s.ctl := rfl
@[simp] theorem State.modRail_cipher (i : Nat) (f : Rail → Rail) : (s.modRail i f).cipher = s.cipher := rfl
@[simp] theorem State.modRail_prime (i : Nat) (f : Rail → Rail) : (s.modRail i f).prime = s.prime := rfl
@[simp] theorem State.modRail_dram (i : Nat) (f : Rail → Rail) : (s.modRail i f).dram = s.dram := rfl
@[simp] theorem State.modRail_flash (i : Nat) (f : Rail → Rail) : (s.modRail i f).flash = s.flash := rfl
@[simp] theorem State.modRail_test (i : Nat) (f : Rail → Rail) : (s.modRail i f).test = s.test := rfl
@[simp] theorem State.modRail_ev (i : Nat) (f : Rail → Rail) : (s.modRail i f).ev = s.ev := rfl
@[simp] theorem State.modRail_plat (i : Nat) (f : Rail → Rail) : (s.modRail i f).plat = s.plat := rfl

/-! `State.modTwin` changes `twin` alone. -/
@[simp] theorem State.modTwin_pending (f : Twin → Twin) : (s.modTwin f).pending = s.pending := rfl
@[simp] theorem State.modTwin_now (f : Twin → Twin) : (s.modTwin f).now = s.now := rfl
@[simp] theorem State.modTwin_draws (f : Twin → Twin) : (s.modTwin f).draws = s.draws := rfl
@[simp] theorem State.modTwin_nextId (f : Twin → Twin) : (s.modTwin f).nextId = s.nextId := rfl
@[simp] theorem State.modTwin_out (f : Twin → Twin) : (s.modTwin f).out = s.out := rfl
@[simp] theorem State.modTwin_dura (f : Twin → Twin) : (s.modTwin f).dura = s.dura := rfl
@[simp] theorem State.modTwin_sump (f : Twin → Twin) : (s.modTwin f).sump = s.sump := rfl
@[simp] theorem State.modTwin_chans (f : Twin → Twin) : (s.modTwin f).chans = s.chans := rfl
@[simp] theorem State.modTwin_groups (f : Twin → Twin) : (s.modTwin f).groups = s.groups := rfl
@[simp] theorem State.modTwin_easels (f : Twin → Twin) : (s.modTwin f).easels = s.easels := rfl
@[simp] theorem State.modTwin_gnv (f : Twin → Twin) : (s.modTwin f).gnv = s.gnv := rfl
@[simp] theorem State.modTwin_ops (f : Twin → Twin) : (s.modTwin f).ops = s.ops := rfl
@[simp] theorem State.modTwin_misses (f : Twin → Twin) : (s.modTwin f).misses = s.misses := rfl
@[simp] theorem State.modTwin_drawers (f : Twin → Twin) : (s.modTwin f).drawers = s.drawers := rfl
@[simp] theorem State.modTwin_twin (f : Twin → Twin) : (s.modTwin f).twin = f s.twin := rfl
@[simp] theorem State.modTwin_tports (f : Twin → Twin) : (s.modTwin f).tports = s.tports := rfl
@[simp] theorem State.modTwin_nports (f : Twin → Twin) : (s.modTwin f).nports = s.nports := rfl
@[simp] theorem State.modTwin_xport (f : Twin → Twin) : (s.modTwin f).xport = s.xport := rfl
@[simp] theorem State.modTwin_host (f : Twin → Twin) : (s.modTwin f).host = s.host := rfl
@[simp] theorem State.modTwin_ctl (f : Twin → Twin) : (s.modTwin f).ctl = s.ctl := rfl
@[simp] theorem State.modTwin_cipher (f : Twin → Twin) : (s.modTwin f).cipher = s.cipher := rfl
@[simp] theorem State.modTwin_power (f : Twin → Twin) : (s.modTwin f).power = s.power := rfl
@[simp] theorem State.modTwin_prime (f : Twin → Twin) : (s.modTwin f).prime = s.prime := rfl
@[simp] theorem State.modTwin_dram (f : Twin → Twin) : (s.modTwin f).dram = s.dram := rfl
@[simp] theorem State.modTwin_flash (f : Twin → Twin) : (s.modTwin f).flash = s.flash := rfl
@[simp] theorem State.modTwin_test (f : Twin → Twin) : (s.modTwin f).test = s.test := rfl
@[simp] theorem State.modTwin_ev (f : Twin → Twin) : (s.modTwin f).ev = s.ev := rfl
@[simp] theorem State.modTwin_plat (f : Twin → Twin) : (s.modTwin f).plat = s.plat := rfl

/-! `State.modSump` changes `sump` alone. -/
@[simp] theorem State.modSump_pending (f : Sump → Sump) : (s.modSump f).pending = s.pending := rfl
@[simp] theorem State.modSump_now (f : Sump → Sump) : (s.modSump f).now = s.now := rfl
@[simp] theorem State.modSump_draws (f : Sump → Sump) : (s.modSump f).draws = s.draws := rfl
@[simp] theorem State.modSump_nextId (f : Sump → Sump) : (s.modSump f).nextId = s.nextId := rfl
@[simp] theorem State.modSump_out (f : Sump → Sump) : (s.modSump f).out = s.out := rfl
@[simp] theorem State.modSump_dura (f : Sump → Sump) : (s.modSump f).dura = s.dura := rfl
@[simp] theorem State.modSump_sump (f : Sump → Sump) : (s.modSump f).sump = f s.sump := rfl
@[simp] theorem State.modSump_chans (f : Sump → Sump) : (s.modSump f).chans = s.chans := rfl
@[simp] theorem State.modSump_groups (f : Sump → Sump) : (s.modSump f).groups = s.groups := rfl
@[simp] theorem State.modSump_easels (f : Sump → Sump) : (s.modSump f).easels = s.easels := rfl
@[simp] theorem State.modSump_gnv (f : Sump → Sump) : (s.modSump f).gnv = s.gnv := rfl
@[simp] theorem State.modSump_ops (f : Sump → Sump) : (s.modSump f).ops = s.ops := rfl
@[simp] theorem State.modSump_misses (f : Sump → Sump) : (s.modSump f).misses = s.misses := rfl
@[simp] theorem State.modSump_drawers (f : Sump → Sump) : (s.modSump f).drawers = s.drawers := rfl
@[simp] theorem State.modSump_twin (f : Sump → Sump) : (s.modSump f).twin = s.twin := rfl
@[simp] theorem State.modSump_tports (f : Sump → Sump) : (s.modSump f).tports = s.tports := rfl
@[simp] theorem State.modSump_nports (f : Sump → Sump) : (s.modSump f).nports = s.nports := rfl
@[simp] theorem State.modSump_xport (f : Sump → Sump) : (s.modSump f).xport = s.xport := rfl
@[simp] theorem State.modSump_host (f : Sump → Sump) : (s.modSump f).host = s.host := rfl
@[simp] theorem State.modSump_ctl (f : Sump → Sump) : (s.modSump f).ctl = s.ctl := rfl
@[simp] theorem State.modSump_cipher (f : Sump → Sump) : (s.modSump f).cipher = s.cipher := rfl
@[simp] theorem State.modSump_power (f : Sump → Sump) : (s.modSump f).power = s.power := rfl
@[simp] theorem State.modSump_prime (f : Sump → Sump) : (s.modSump f).prime = s.prime := rfl
@[simp] theorem State.modSump_dram (f : Sump → Sump) : (s.modSump f).dram = s.dram := rfl
@[simp] theorem State.modSump_flash (f : Sump → Sump) : (s.modSump f).flash = s.flash := rfl
@[simp] theorem State.modSump_test (f : Sump → Sump) : (s.modSump f).test = s.test := rfl
@[simp] theorem State.modSump_ev (f : Sump → Sump) : (s.modSump f).ev = s.ev := rfl
@[simp] theorem State.modSump_plat (f : Sump → Sump) : (s.modSump f).plat = s.plat := rfl

/-! `State.modDura` changes `dura` alone. -/
@[simp] theorem State.modDura_pending (f : Dura → Dura) : (s.modDura f).pending = s.pending := rfl
@[simp] theorem State.modDura_now (f : Dura → Dura) : (s.modDura f).now = s.now := rfl
@[simp] theorem State.modDura_draws (f : Dura → Dura) : (s.modDura f).draws = s.draws := rfl
@[simp] theorem State.modDura_nextId (f : Dura → Dura) : (s.modDura f).nextId = s.nextId := rfl
@[simp] theorem State.modDura_out (f : Dura → Dura) : (s.modDura f).out = s.out := rfl
@[simp] theorem State.modDura_dura (f : Dura → Dura) : (s.modDura f).dura = f s.dura := rfl
@[simp] theorem State.modDura_sump (f : Dura → Dura) : (s.modDura f).sump = s.sump := rfl
@[simp] theorem State.modDura_chans (f : Dura → Dura) : (s.modDura f).chans = s.chans := rfl
@[simp] theorem State.modDura_groups (f : Dura → Dura) : (s.modDura f).groups = s.groups := rfl
@[simp] theorem State.modDura_easels (f : Dura → Dura) : (s.modDura f).easels = s.easels := rfl
@[simp] theorem State.modDura_gnv (f : Dura → Dura) : (s.modDura f).gnv = s.gnv := rfl
@[simp] theorem State.modDura_ops (f : Dura → Dura) : (s.modDura f).ops = s.ops := rfl
@[simp] theorem State.modDura_misses (f : Dura → Dura) : (s.modDura f).misses = s.misses := rfl
@[simp] theorem State.modDura_drawers (f : Dura → Dura) : (s.modDura f).drawers = s.drawers := rfl
@[simp] theorem State.modDura_twin (f : Dura → Dura) : (s.modDura f).twin = s.twin := rfl
@[simp] theorem State.modDura_tports (f : Dura → Dura) : (s.modDura f).tports = s.tports := rfl
@[simp] theorem State.modDura_nports (f : Dura → Dura) : (s.modDura f).nports = s.nports := rfl
@[simp] theorem State.modDura_xport (f : Dura → Dura) : (s.modDura f).xport = s.xport := rfl
@[simp] theorem State.modDura_host (f : Dura → Dura) : (s.modDura f).host = s.host := rfl
@[simp] theorem State.modDura_ctl (f : Dura → Dura) : (s.modDura f).ctl = s.ctl := rfl
@[simp] theorem State.modDura_cipher (f : Dura → Dura) : (s.modDura f).cipher = s.cipher := rfl
@[simp] theorem State.modDura_power (f : Dura → Dura) : (s.modDura f).power = s.power := rfl
@[simp] theorem State.modDura_prime (f : Dura → Dura) : (s.modDura f).prime = s.prime := rfl
@[simp] theorem State.modDura_dram (f : Dura → Dura) : (s.modDura f).dram = s.dram := rfl
@[simp] theorem State.modDura_flash (f : Dura → Dura) : (s.modDura f).flash = s.flash := rfl
@[simp] theorem State.modDura_test (f : Dura → Dura) : (s.modDura f).test = s.test := rfl
@[simp] theorem State.modDura_ev (f : Dura → Dura) : (s.modDura f).ev = s.ev := rfl
@[simp] theorem State.modDura_plat (f : Dura → Dura) : (s.modDura f).plat = s.plat := rfl

/-! `State.modHost` changes `host` alone. -/
@[simp] theorem State.modHost_pending (f : HostPort → HostPort) : (s.modHost f).pending = s.pending := rfl
@[simp] theorem State.modHost_now (f : HostPort → HostPort) : (s.modHost f).now = s.now := rfl
@[simp] theorem State.modHost_draws (f : HostPort → HostPort) : (s.modHost f).draws = s.draws := rfl
@[simp] theorem State.modHost_nextId (f : HostPort → HostPort) : (s.modHost f).nextId = s.nextId := rfl
@[simp] theorem State.modHost_out (f : HostPort → HostPort) : (s.modHost f).out = s.out := rfl
@[simp] theorem State.modHost_dura (f : HostPort → HostPort) : (s.modHost f).dura = s.dura := rfl
@[simp] theorem State.modHost_sump (f : HostPort → HostPort) : (s.modHost f).sump = s.sump := rfl
@[simp] theorem State.modHost_chans (f : HostPort → HostPort) : (s.modHost f).chans = s.chans := rfl
@[simp] theorem State.modHost_groups (f : HostPort → HostPort) : (s.modHost f).groups = s.groups := rfl
@[simp] theorem State.modHost_easels (f : HostPort → HostPort) : (s.modHost f).easels = s.easels := rfl
@[simp] theorem State.modHost_gnv (f : HostPort → HostPort) : (s.modHost f).gnv = s.gnv := rfl
@[simp] theorem State.modHost_ops (f : HostPort → HostPort) : (s.modHost f).ops = s.ops := rfl
@[simp] theorem State.modHost_misses (f : HostPort → HostPort) : (s.modHost f).misses = s.misses := rfl
@[simp] theorem State.modHost_drawers (f : HostPort → HostPort) : (s.modHost f).drawers = s.drawers := rfl
@[simp] theorem State.modHost_twin (f : HostPort → HostPort) : (s.modHost f).twin = s.twin := rfl
@[simp] theorem State.modHost_tports (f : HostPort → HostPort) : (s.modHost f).tports = s.tports := rfl
@[simp] theorem State.modHost_nports (f : HostPort → HostPort) : (s.modHost f).nports = s.nports := rfl
@[simp] theorem State.modHost_xport (f : HostPort → HostPort) : (s.modHost f).xport = s.xport := rfl
@[simp] theorem State.modHost_host (f : HostPort → HostPort) : (s.modHost f).host = f s.host := rfl
@[simp] theorem State.modHost_ctl (f : HostPort → HostPort) : (s.modHost f).ctl = s.ctl := rfl
@[simp] theorem State.modHost_cipher (f : HostPort → HostPort) : (s.modHost f).cipher = s.cipher := rfl
@[simp] theorem State.modHost_power (f : HostPort → HostPort) : (s.modHost f).power = s.power := rfl
@[simp] theorem State.modHost_prime (f : HostPort → HostPort) : (s.modHost f).prime = s.prime := rfl
@[simp] theorem State.modHost_dram (f : HostPort → HostPort) : (s.modHost f).dram = s.dram := rfl
@[simp] theorem State.modHost_flash (f : HostPort → HostPort) : (s.modHost f).flash = s.flash := rfl
@[simp] theorem State.modHost_test (f : HostPort → HostPort) : (s.modHost f).test = s.test := rfl
@[simp] theorem State.modHost_ev (f : HostPort → HostPort) : (s.modHost f).ev = s.ev := rfl
@[simp] theorem State.modHost_plat (f : HostPort → HostPort) : (s.modHost f).plat = s.plat := rfl

/-! `State.modCtl` changes `ctl` alone. -/
@[simp] theorem State.modCtl_pending (f : Ctl → Ctl) : (s.modCtl f).pending = s.pending := rfl
@[simp] theorem State.modCtl_now (f : Ctl → Ctl) : (s.modCtl f).now = s.now := rfl
@[simp] theorem State.modCtl_draws (f : Ctl → Ctl) : (s.modCtl f).draws = s.draws := rfl
@[simp] theorem State.modCtl_nextId (f : Ctl → Ctl) : (s.modCtl f).nextId = s.nextId := rfl
@[simp] theorem State.modCtl_out (f : Ctl → Ctl) : (s.modCtl f).out = s.out := rfl
@[simp] theorem State.modCtl_dura (f : Ctl → Ctl) : (s.modCtl f).dura = s.dura := rfl
@[simp] theorem State.modCtl_sump (f : Ctl → Ctl) : (s.modCtl f).sump = s.sump := rfl
@[simp] theorem State.modCtl_chans (f : Ctl → Ctl) : (s.modCtl f).chans = s.chans := rfl
@[simp] theorem State.modCtl_groups (f : Ctl → Ctl) : (s.modCtl f).groups = s.groups := rfl
@[simp] theorem State.modCtl_easels (f : Ctl → Ctl) : (s.modCtl f).easels = s.easels := rfl
@[simp] theorem State.modCtl_gnv (f : Ctl → Ctl) : (s.modCtl f).gnv = s.gnv := rfl
@[simp] theorem State.modCtl_ops (f : Ctl → Ctl) : (s.modCtl f).ops = s.ops := rfl
@[simp] theorem State.modCtl_misses (f : Ctl → Ctl) : (s.modCtl f).misses = s.misses := rfl
@[simp] theorem State.modCtl_drawers (f : Ctl → Ctl) : (s.modCtl f).drawers = s.drawers := rfl
@[simp] theorem State.modCtl_twin (f : Ctl → Ctl) : (s.modCtl f).twin = s.twin := rfl
@[simp] theorem State.modCtl_tports (f : Ctl → Ctl) : (s.modCtl f).tports = s.tports := rfl
@[simp] theorem State.modCtl_nports (f : Ctl → Ctl) : (s.modCtl f).nports = s.nports := rfl
@[simp] theorem State.modCtl_xport (f : Ctl → Ctl) : (s.modCtl f).xport = s.xport := rfl
@[simp] theorem State.modCtl_host (f : Ctl → Ctl) : (s.modCtl f).host = s.host := rfl
@[simp] theorem State.modCtl_ctl (f : Ctl → Ctl) : (s.modCtl f).ctl = f s.ctl := rfl
@[simp] theorem State.modCtl_cipher (f : Ctl → Ctl) : (s.modCtl f).cipher = s.cipher := rfl
@[simp] theorem State.modCtl_power (f : Ctl → Ctl) : (s.modCtl f).power = s.power := rfl
@[simp] theorem State.modCtl_prime (f : Ctl → Ctl) : (s.modCtl f).prime = s.prime := rfl
@[simp] theorem State.modCtl_dram (f : Ctl → Ctl) : (s.modCtl f).dram = s.dram := rfl
@[simp] theorem State.modCtl_flash (f : Ctl → Ctl) : (s.modCtl f).flash = s.flash := rfl
@[simp] theorem State.modCtl_test (f : Ctl → Ctl) : (s.modCtl f).test = s.test := rfl
@[simp] theorem State.modCtl_ev (f : Ctl → Ctl) : (s.modCtl f).ev = s.ev := rfl
@[simp] theorem State.modCtl_plat (f : Ctl → Ctl) : (s.modCtl f).plat = s.plat := rfl

/-! `State.modCipher` changes `cipher` alone. -/
@[simp] theorem State.modCipher_pending (f : Cipher → Cipher) : (s.modCipher f).pending = s.pending := rfl
@[simp] theorem State.modCipher_now (f : Cipher → Cipher) : (s.modCipher f).now = s.now := rfl
@[simp] theorem State.modCipher_draws (f : Cipher → Cipher) : (s.modCipher f).draws = s.draws := rfl
@[simp] theorem State.modCipher_nextId (f : Cipher → Cipher) : (s.modCipher f).nextId = s.nextId := rfl
@[simp] theorem State.modCipher_out (f : Cipher → Cipher) : (s.modCipher f).out = s.out := rfl
@[simp] theorem State.modCipher_dura (f : Cipher → Cipher) : (s.modCipher f).dura = s.dura := rfl
@[simp] theorem State.modCipher_sump (f : Cipher → Cipher) : (s.modCipher f).sump = s.sump := rfl
@[simp] theorem State.modCipher_chans (f : Cipher → Cipher) : (s.modCipher f).chans = s.chans := rfl
@[simp] theorem State.modCipher_groups (f : Cipher → Cipher) : (s.modCipher f).groups = s.groups := rfl
@[simp] theorem State.modCipher_easels (f : Cipher → Cipher) : (s.modCipher f).easels = s.easels := rfl
@[simp] theorem State.modCipher_gnv (f : Cipher → Cipher) : (s.modCipher f).gnv = s.gnv := rfl
@[simp] theorem State.modCipher_ops (f : Cipher → Cipher) : (s.modCipher f).ops = s.ops := rfl
@[simp] theorem State.modCipher_misses (f : Cipher → Cipher) : (s.modCipher f).misses = s.misses := rfl
@[simp] theorem State.modCipher_drawers (f : Cipher → Cipher) : (s.modCipher f).drawers = s.drawers := rfl
@[simp] theorem State.modCipher_twin (f : Cipher → Cipher) : (s.modCipher f).twin = s.twin := rfl
@[simp] theorem State.modCipher_tports (f : Cipher → Cipher) : (s.modCipher f).tports = s.tports := rfl
@[simp] theorem State.modCipher_nports (f : Cipher → Cipher) : (s.modCipher f).nports = s.nports := rfl
@[simp] theorem State.modCipher_xport (f : Cipher → Cipher) : (s.modCipher f).xport = s.xport := rfl
@[simp] theorem State.modCipher_host (f : Cipher → Cipher) : (s.modCipher f).host = s.host := rfl
@[simp] theorem State.modCipher_ctl (f : Cipher → Cipher) : (s.modCipher f).ctl = s.ctl := rfl
@[simp] theorem State.modCipher_cipher (f : Cipher → Cipher) : (s.modCipher f).cipher = f s.cipher := rfl
@[simp] theorem State.modCipher_power (f : Cipher → Cipher) : (s.modCipher f).power = s.power := rfl
@[simp] theorem State.modCipher_prime (f : Cipher → Cipher) : (s.modCipher f).prime = s.prime := rfl
@[simp] theorem State.modCipher_dram (f : Cipher → Cipher) : (s.modCipher f).dram = s.dram := rfl
@[simp] theorem State.modCipher_flash (f : Cipher → Cipher) : (s.modCipher f).flash = s.flash := rfl
@[simp] theorem State.modCipher_test (f : Cipher → Cipher) : (s.modCipher f).test = s.test := rfl
@[simp] theorem State.modCipher_ev (f : Cipher → Cipher) : (s.modCipher f).ev = s.ev := rfl
@[simp] theorem State.modCipher_plat (f : Cipher → Cipher) : (s.modCipher f).plat = s.plat := rfl

/-! `State.modPrime` changes `prime` alone. -/
@[simp] theorem State.modPrime_pending (f : Prime → Prime) : (s.modPrime f).pending = s.pending := rfl
@[simp] theorem State.modPrime_now (f : Prime → Prime) : (s.modPrime f).now = s.now := rfl
@[simp] theorem State.modPrime_draws (f : Prime → Prime) : (s.modPrime f).draws = s.draws := rfl
@[simp] theorem State.modPrime_nextId (f : Prime → Prime) : (s.modPrime f).nextId = s.nextId := rfl
@[simp] theorem State.modPrime_out (f : Prime → Prime) : (s.modPrime f).out = s.out := rfl
@[simp] theorem State.modPrime_dura (f : Prime → Prime) : (s.modPrime f).dura = s.dura := rfl
@[simp] theorem State.modPrime_sump (f : Prime → Prime) : (s.modPrime f).sump = s.sump := rfl
@[simp] theorem State.modPrime_chans (f : Prime → Prime) : (s.modPrime f).chans = s.chans := rfl
@[simp] theorem State.modPrime_groups (f : Prime → Prime) : (s.modPrime f).groups = s.groups := rfl
@[simp] theorem State.modPrime_easels (f : Prime → Prime) : (s.modPrime f).easels = s.easels := rfl
@[simp] theorem State.modPrime_gnv (f : Prime → Prime) : (s.modPrime f).gnv = s.gnv := rfl
@[simp] theorem State.modPrime_ops (f : Prime → Prime) : (s.modPrime f).ops = s.ops := rfl
@[simp] theorem State.modPrime_misses (f : Prime → Prime) : (s.modPrime f).misses = s.misses := rfl
@[simp] theorem State.modPrime_drawers (f : Prime → Prime) : (s.modPrime f).drawers = s.drawers := rfl
@[simp] theorem State.modPrime_twin (f : Prime → Prime) : (s.modPrime f).twin = s.twin := rfl
@[simp] theorem State.modPrime_tports (f : Prime → Prime) : (s.modPrime f).tports = s.tports := rfl
@[simp] theorem State.modPrime_nports (f : Prime → Prime) : (s.modPrime f).nports = s.nports := rfl
@[simp] theorem State.modPrime_xport (f : Prime → Prime) : (s.modPrime f).xport = s.xport := rfl
@[simp] theorem State.modPrime_host (f : Prime → Prime) : (s.modPrime f).host = s.host := rfl
@[simp] theorem State.modPrime_ctl (f : Prime → Prime) : (s.modPrime f).ctl = s.ctl := rfl
@[simp] theorem State.modPrime_cipher (f : Prime → Prime) : (s.modPrime f).cipher = s.cipher := rfl
@[simp] theorem State.modPrime_power (f : Prime → Prime) : (s.modPrime f).power = s.power := rfl
@[simp] theorem State.modPrime_prime (f : Prime → Prime) : (s.modPrime f).prime = f s.prime := rfl
@[simp] theorem State.modPrime_dram (f : Prime → Prime) : (s.modPrime f).dram = s.dram := rfl
@[simp] theorem State.modPrime_flash (f : Prime → Prime) : (s.modPrime f).flash = s.flash := rfl
@[simp] theorem State.modPrime_test (f : Prime → Prime) : (s.modPrime f).test = s.test := rfl
@[simp] theorem State.modPrime_ev (f : Prime → Prime) : (s.modPrime f).ev = s.ev := rfl
@[simp] theorem State.modPrime_plat (f : Prime → Prime) : (s.modPrime f).plat = s.plat := rfl

/-! `State.modDram` changes `dram` alone. -/
@[simp] theorem State.modDram_pending (f : Dram → Dram) : (s.modDram f).pending = s.pending := rfl
@[simp] theorem State.modDram_now (f : Dram → Dram) : (s.modDram f).now = s.now := rfl
@[simp] theorem State.modDram_draws (f : Dram → Dram) : (s.modDram f).draws = s.draws := rfl
@[simp] theorem State.modDram_nextId (f : Dram → Dram) : (s.modDram f).nextId = s.nextId := rfl
@[simp] theorem State.modDram_out (f : Dram → Dram) : (s.modDram f).out = s.out := rfl
@[simp] theorem State.modDram_dura (f : Dram → Dram) : (s.modDram f).dura = s.dura := rfl
@[simp] theorem State.modDram_sump (f : Dram → Dram) : (s.modDram f).sump = s.sump := rfl
@[simp] theorem State.modDram_chans (f : Dram → Dram) : (s.modDram f).chans = s.chans := rfl
@[simp] theorem State.modDram_groups (f : Dram → Dram) : (s.modDram f).groups = s.groups := rfl
@[simp] theorem State.modDram_easels (f : Dram → Dram) : (s.modDram f).easels = s.easels := rfl
@[simp] theorem State.modDram_gnv (f : Dram → Dram) : (s.modDram f).gnv = s.gnv := rfl
@[simp] theorem State.modDram_ops (f : Dram → Dram) : (s.modDram f).ops = s.ops := rfl
@[simp] theorem State.modDram_misses (f : Dram → Dram) : (s.modDram f).misses = s.misses := rfl
@[simp] theorem State.modDram_drawers (f : Dram → Dram) : (s.modDram f).drawers = s.drawers := rfl
@[simp] theorem State.modDram_twin (f : Dram → Dram) : (s.modDram f).twin = s.twin := rfl
@[simp] theorem State.modDram_tports (f : Dram → Dram) : (s.modDram f).tports = s.tports := rfl
@[simp] theorem State.modDram_nports (f : Dram → Dram) : (s.modDram f).nports = s.nports := rfl
@[simp] theorem State.modDram_xport (f : Dram → Dram) : (s.modDram f).xport = s.xport := rfl
@[simp] theorem State.modDram_host (f : Dram → Dram) : (s.modDram f).host = s.host := rfl
@[simp] theorem State.modDram_ctl (f : Dram → Dram) : (s.modDram f).ctl = s.ctl := rfl
@[simp] theorem State.modDram_cipher (f : Dram → Dram) : (s.modDram f).cipher = s.cipher := rfl
@[simp] theorem State.modDram_power (f : Dram → Dram) : (s.modDram f).power = s.power := rfl
@[simp] theorem State.modDram_prime (f : Dram → Dram) : (s.modDram f).prime = s.prime := rfl
@[simp] theorem State.modDram_dram (f : Dram → Dram) : (s.modDram f).dram = f s.dram := rfl
@[simp] theorem State.modDram_flash (f : Dram → Dram) : (s.modDram f).flash = s.flash := rfl
@[simp] theorem State.modDram_test (f : Dram → Dram) : (s.modDram f).test = s.test := rfl
@[simp] theorem State.modDram_ev (f : Dram → Dram) : (s.modDram f).ev = s.ev := rfl
@[simp] theorem State.modDram_plat (f : Dram → Dram) : (s.modDram f).plat = s.plat := rfl

/-! `State.modFlash` changes `flash` alone. -/
@[simp] theorem State.modFlash_pending (f : Flash → Flash) : (s.modFlash f).pending = s.pending := rfl
@[simp] theorem State.modFlash_now (f : Flash → Flash) : (s.modFlash f).now = s.now := rfl
@[simp] theorem State.modFlash_draws (f : Flash → Flash) : (s.modFlash f).draws = s.draws := rfl
@[simp] theorem State.modFlash_nextId (f : Flash → Flash) : (s.modFlash f).nextId = s.nextId := rfl
@[simp] theorem State.modFlash_out (f : Flash → Flash) : (s.modFlash f).out = s.out := rfl
@[simp] theorem State.modFlash_dura (f : Flash → Flash) : (s.modFlash f).dura = s.dura := rfl
@[simp] theorem State.modFlash_sump (f : Flash → Flash) : (s.modFlash f).sump = s.sump := rfl
@[simp] theorem State.modFlash_chans (f : Flash → Flash) : (s.modFlash f).chans = s.chans := rfl
@[simp] theorem State.modFlash_groups (f : Flash → Flash) : (s.modFlash f).groups = s.groups := rfl
@[simp] theorem State.modFlash_easels (f : Flash → Flash) : (s.modFlash f).easels = s.easels := rfl
@[simp] theorem State.modFlash_gnv (f : Flash → Flash) : (s.modFlash f).gnv = s.gnv := rfl
@[simp] theorem State.modFlash_ops (f : Flash → Flash) : (s.modFlash f).ops = s.ops := rfl
@[simp] theorem State.modFlash_misses (f : Flash → Flash) : (s.modFlash f).misses = s.misses := rfl
@[simp] theorem State.modFlash_drawers (f : Flash → Flash) : (s.modFlash f).drawers = s.drawers := rfl
@[simp] theorem State.modFlash_twin (f : Flash → Flash) : (s.modFlash f).twin = s.twin := rfl
@[simp] theorem State.modFlash_tports (f : Flash → Flash) : (s.modFlash f).tports = s.tports := rfl
@[simp] theorem State.modFlash_nports (f : Flash → Flash) : (s.modFlash f).nports = s.nports := rfl
@[simp] theorem State.modFlash_xport (f : Flash → Flash) : (s.modFlash f).xport = s.xport := rfl
@[simp] theorem State.modFlash_host (f : Flash → Flash) : (s.modFlash f).host = s.host := rfl
@[simp] theorem State.modFlash_ctl (f : Flash → Flash) : (s.modFlash f).ctl = s.ctl := rfl
@[simp] theorem State.modFlash_cipher (f : Flash → Flash) : (s.modFlash f).cipher = s.cipher := rfl
@[simp] theorem State.modFlash_power (f : Flash → Flash) : (s.modFlash f).power = s.power := rfl
@[simp] theorem State.modFlash_prime (f : Flash → Flash) : (s.modFlash f).prime = s.prime := rfl
@[simp] theorem State.modFlash_dram (f : Flash → Flash) : (s.modFlash f).dram = s.dram := rfl
@[simp] theorem State.modFlash_flash (f : Flash → Flash) : (s.modFlash f).flash = f s.flash := rfl
@[simp] theorem State.modFlash_test (f : Flash → Flash) : (s.modFlash f).test = s.test := rfl
@[simp] theorem State.modFlash_ev (f : Flash → Flash) : (s.modFlash f).ev = s.ev := rfl
@[simp] theorem State.modFlash_plat (f : Flash → Flash) : (s.modFlash f).plat = s.plat := rfl

/-! `State.modTest` changes `test` alone. -/
@[simp] theorem State.modTest_pending (f : Test → Test) : (s.modTest f).pending = s.pending := rfl
@[simp] theorem State.modTest_now (f : Test → Test) : (s.modTest f).now = s.now := rfl
@[simp] theorem State.modTest_draws (f : Test → Test) : (s.modTest f).draws = s.draws := rfl
@[simp] theorem State.modTest_nextId (f : Test → Test) : (s.modTest f).nextId = s.nextId := rfl
@[simp] theorem State.modTest_out (f : Test → Test) : (s.modTest f).out = s.out := rfl
@[simp] theorem State.modTest_dura (f : Test → Test) : (s.modTest f).dura = s.dura := rfl
@[simp] theorem State.modTest_sump (f : Test → Test) : (s.modTest f).sump = s.sump := rfl
@[simp] theorem State.modTest_chans (f : Test → Test) : (s.modTest f).chans = s.chans := rfl
@[simp] theorem State.modTest_groups (f : Test → Test) : (s.modTest f).groups = s.groups := rfl
@[simp] theorem State.modTest_easels (f : Test → Test) : (s.modTest f).easels = s.easels := rfl
@[simp] theorem State.modTest_gnv (f : Test → Test) : (s.modTest f).gnv = s.gnv := rfl
@[simp] theorem State.modTest_ops (f : Test → Test) : (s.modTest f).ops = s.ops := rfl
@[simp] theorem State.modTest_misses (f : Test → Test) : (s.modTest f).misses = s.misses := rfl
@[simp] theorem State.modTest_drawers (f : Test → Test) : (s.modTest f).drawers = s.drawers := rfl
@[simp] theorem State.modTest_twin (f : Test → Test) : (s.modTest f).twin = s.twin := rfl
@[simp] theorem State.modTest_tports (f : Test → Test) : (s.modTest f).tports = s.tports := rfl
@[simp] theorem State.modTest_nports (f : Test → Test) : (s.modTest f).nports = s.nports := rfl
@[simp] theorem State.modTest_xport (f : Test → Test) : (s.modTest f).xport = s.xport := rfl
@[simp] theorem State.modTest_host (f : Test → Test) : (s.modTest f).host = s.host := rfl
@[simp] theorem State.modTest_ctl (f : Test → Test) : (s.modTest f).ctl = s.ctl := rfl
@[simp] theorem State.modTest_cipher (f : Test → Test) : (s.modTest f).cipher = s.cipher := rfl
@[simp] theorem State.modTest_power (f : Test → Test) : (s.modTest f).power = s.power := rfl
@[simp] theorem State.modTest_prime (f : Test → Test) : (s.modTest f).prime = s.prime := rfl
@[simp] theorem State.modTest_dram (f : Test → Test) : (s.modTest f).dram = s.dram := rfl
@[simp] theorem State.modTest_flash (f : Test → Test) : (s.modTest f).flash = s.flash := rfl
@[simp] theorem State.modTest_test (f : Test → Test) : (s.modTest f).test = f s.test := rfl
@[simp] theorem State.modTest_ev (f : Test → Test) : (s.modTest f).ev = s.ev := rfl
@[simp] theorem State.modTest_plat (f : Test → Test) : (s.modTest f).plat = s.plat := rfl

/-! `State.modEv` changes `ev` alone. -/
@[simp] theorem State.modEv_pending (f : Events → Events) : (s.modEv f).pending = s.pending := rfl
@[simp] theorem State.modEv_now (f : Events → Events) : (s.modEv f).now = s.now := rfl
@[simp] theorem State.modEv_draws (f : Events → Events) : (s.modEv f).draws = s.draws := rfl
@[simp] theorem State.modEv_nextId (f : Events → Events) : (s.modEv f).nextId = s.nextId := rfl
@[simp] theorem State.modEv_out (f : Events → Events) : (s.modEv f).out = s.out := rfl
@[simp] theorem State.modEv_dura (f : Events → Events) : (s.modEv f).dura = s.dura := rfl
@[simp] theorem State.modEv_sump (f : Events → Events) : (s.modEv f).sump = s.sump := rfl
@[simp] theorem State.modEv_chans (f : Events → Events) : (s.modEv f).chans = s.chans := rfl
@[simp] theorem State.modEv_groups (f : Events → Events) : (s.modEv f).groups = s.groups := rfl
@[simp] theorem State.modEv_easels (f : Events → Events) : (s.modEv f).easels = s.easels := rfl
@[simp] theorem State.modEv_gnv (f : Events → Events) : (s.modEv f).gnv = s.gnv := rfl
@[simp] theorem State.modEv_ops (f : Events → Events) : (s.modEv f).ops = s.ops := rfl
@[simp] theorem State.modEv_misses (f : Events → Events) : (s.modEv f).misses = s.misses := rfl
@[simp] theorem State.modEv_drawers (f : Events → Events) : (s.modEv f).drawers = s.drawers := rfl
@[simp] theorem State.modEv_twin (f : Events → Events) : (s.modEv f).twin = s.twin := rfl
@[simp] theorem State.modEv_tports (f : Events → Events) : (s.modEv f).tports = s.tports := rfl
@[simp] theorem State.modEv_nports (f : Events → Events) : (s.modEv f).nports = s.nports := rfl
@[simp] theorem State.modEv_xport (f : Events → Events) : (s.modEv f).xport = s.xport := rfl
@[simp] theorem State.modEv_host (f : Events → Events) : (s.modEv f).host = s.host := rfl
@[simp] theorem State.modEv_ctl (f : Events → Events) : (s.modEv f).ctl = s.ctl := rfl
@[simp] theorem State.modEv_cipher (f : Events → Events) : (s.modEv f).cipher = s.cipher := rfl
@[simp] theorem State.modEv_power (f : Events → Events) : (s.modEv f).power = s.power := rfl
@[simp] theorem State.modEv_prime (f : Events → Events) : (s.modEv f).prime = s.prime := rfl
@[simp] theorem State.modEv_dram (f : Events → Events) : (s.modEv f).dram = s.dram := rfl
@[simp] theorem State.modEv_flash (f : Events → Events) : (s.modEv f).flash = s.flash := rfl
@[simp] theorem State.modEv_test (f : Events → Events) : (s.modEv f).test = s.test := rfl
@[simp] theorem State.modEv_ev (f : Events → Events) : (s.modEv f).ev = f s.ev := rfl
@[simp] theorem State.modEv_plat (f : Events → Events) : (s.modEv f).plat = s.plat := rfl

/-! `State.modDrch` changes `dram` alone. -/
@[simp] theorem State.modDrch_pending (n : Nat) (f : DrChan → DrChan) : (s.modDrch n f).pending = s.pending := rfl
@[simp] theorem State.modDrch_now (n : Nat) (f : DrChan → DrChan) : (s.modDrch n f).now = s.now := rfl
@[simp] theorem State.modDrch_draws (n : Nat) (f : DrChan → DrChan) : (s.modDrch n f).draws = s.draws := rfl
@[simp] theorem State.modDrch_nextId (n : Nat) (f : DrChan → DrChan) : (s.modDrch n f).nextId = s.nextId := rfl
@[simp] theorem State.modDrch_out (n : Nat) (f : DrChan → DrChan) : (s.modDrch n f).out = s.out := rfl
@[simp] theorem State.modDrch_dura (n : Nat) (f : DrChan → DrChan) : (s.modDrch n f).dura = s.dura := rfl
@[simp] theorem State.modDrch_sump (n : Nat) (f : DrChan → DrChan) : (s.modDrch n f).sump = s.sump := rfl
@[simp] theorem State.modDrch_chans (n : Nat) (f : DrChan → DrChan) : (s.modDrch n f).chans = s.chans := rfl
@[simp] theorem State.modDrch_groups (n : Nat) (f : DrChan → DrChan) : (s.modDrch n f).groups = s.groups := rfl
@[simp] theorem State.modDrch_easels (n : Nat) (f : DrChan → DrChan) : (s.modDrch n f).easels = s.easels := rfl
@[simp] theorem State.modDrch_gnv (n : Nat) (f : DrChan → DrChan) : (s.modDrch n f).gnv = s.gnv := rfl
@[simp] theorem State.modDrch_ops (n : Nat) (f : DrChan → DrChan) : (s.modDrch n f).ops = s.ops := rfl
@[simp] theorem State.modDrch_misses (n : Nat) (f : DrChan → DrChan) : (s.modDrch n f).misses = s.misses := rfl
@[simp] theorem State.modDrch_drawers (n : Nat) (f : DrChan → DrChan) : (s.modDrch n f).drawers = s.drawers := rfl
@[simp] theorem State.modDrch_twin (n : Nat) (f : DrChan → DrChan) : (s.modDrch n f).twin = s.twin := rfl
@[simp] theorem State.modDrch_tports (n : Nat) (f : DrChan → DrChan) : (s.modDrch n f).tports = s.tports := rfl
@[simp] theorem State.modDrch_nports (n : Nat) (f : DrChan → DrChan) : (s.modDrch n f).nports = s.nports := rfl
@[simp] theorem State.modDrch_xport (n : Nat) (f : DrChan → DrChan) : (s.modDrch n f).xport = s.xport := rfl
@[simp] theorem State.modDrch_host (n : Nat) (f : DrChan → DrChan) : (s.modDrch n f).host = s.host := rfl
@[simp] theorem State.modDrch_ctl (n : Nat) (f : DrChan → DrChan) : (s.modDrch n f).ctl = s.ctl := rfl
@[simp] theorem State.modDrch_cipher (n : Nat) (f : DrChan → DrChan) : (s.modDrch n f).cipher = s.cipher := rfl
@[simp] theorem State.modDrch_power (n : Nat) (f : DrChan → DrChan) : (s.modDrch n f).power = s.power := rfl
@[simp] theorem State.modDrch_prime (n : Nat) (f : DrChan → DrChan) : (s.modDrch n f).prime = s.prime := rfl
@[simp] theorem State.modDrch_flash (n : Nat) (f : DrChan → DrChan) : (s.modDrch n f).flash = s.flash := rfl
@[simp] theorem State.modDrch_test (n : Nat) (f : DrChan → DrChan) : (s.modDrch n f).test = s.test := rfl
@[simp] theorem State.modDrch_ev (n : Nat) (f : DrChan → DrChan) : (s.modDrch n f).ev = s.ev := rfl
@[simp] theorem State.modDrch_plat (n : Nat) (f : DrChan → DrChan) : (s.modDrch n f).plat = s.plat := rfl

/-! `State.modIsland` changes `ev` alone. -/
@[simp] theorem State.modIsland_pending (i : Nat) (f : Island → Island) : (s.modIsland i f).pending = s.pending := rfl
@[simp] theorem State.modIsland_now (i : Nat) (f : Island → Island) : (s.modIsland i f).now = s.now := rfl
@[simp] theorem State.modIsland_draws (i : Nat) (f : Island → Island) : (s.modIsland i f).draws = s.draws := rfl
@[simp] theorem State.modIsland_nextId (i : Nat) (f : Island → Island) : (s.modIsland i f).nextId = s.nextId := rfl
@[simp] theorem State.modIsland_out (i : Nat) (f : Island → Island) : (s.modIsland i f).out = s.out := rfl
@[simp] theorem State.modIsland_dura (i : Nat) (f : Island → Island) : (s.modIsland i f).dura = s.dura := rfl
@[simp] theorem State.modIsland_sump (i : Nat) (f : Island → Island) : (s.modIsland i f).sump = s.sump := rfl
@[simp] theorem State.modIsland_chans (i : Nat) (f : Island → Island) : (s.modIsland i f).chans = s.chans := rfl
@[simp] theorem State.modIsland_groups (i : Nat) (f : Island → Island) : (s.modIsland i f).groups = s.groups := rfl
@[simp] theorem State.modIsland_easels (i : Nat) (f : Island → Island) : (s.modIsland i f).easels = s.easels := rfl
@[simp] theorem State.modIsland_gnv (i : Nat) (f : Island → Island) : (s.modIsland i f).gnv = s.gnv := rfl
@[simp] theorem State.modIsland_ops (i : Nat) (f : Island → Island) : (s.modIsland i f).ops = s.ops := rfl
@[simp] theorem State.modIsland_misses (i : Nat) (f : Island → Island) : (s.modIsland i f).misses = s.misses := rfl
@[simp] theorem State.modIsland_drawers (i : Nat) (f : Island → Island) : (s.modIsland i f).drawers = s.drawers := rfl
@[simp] theorem State.modIsland_twin (i : Nat) (f : Island → Island) : (s.modIsland i f).twin = s.twin := rfl
@[simp] theorem State.modIsland_tports (i : Nat) (f : Island → Island) : (s.modIsland i f).tports = s.tports := rfl
@[simp] theorem State.modIsland_nports (i : Nat) (f : Island → Island) : (s.modIsland i f).nports = s.nports := rfl
@[simp] theorem State.modIsland_xport (i : Nat) (f : Island → Island) : (s.modIsland i f).xport = s.xport := rfl
@[simp] theorem State.modIsland_host (i : Nat) (f : Island → Island) : (s.modIsland i f).host = s.host := rfl
@[simp] theorem State.modIsland_ctl (i : Nat) (f : Island → Island) : (s.modIsland i f).ctl = s.ctl := rfl
@[simp] theorem State.modIsland_cipher (i : Nat) (f : Island → Island) : (s.modIsland i f).cipher = s.cipher := rfl
@[simp] theorem State.modIsland_power (i : Nat) (f : Island → Island) : (s.modIsland i f).power = s.power := rfl
@[simp] theorem State.modIsland_prime (i : Nat) (f : Island → Island) : (s.modIsland i f).prime = s.prime := rfl
@[simp] theorem State.modIsland_dram (i : Nat) (f : Island → Island) : (s.modIsland i f).dram = s.dram := rfl
@[simp] theorem State.modIsland_flash (i : Nat) (f : Island → Island) : (s.modIsland i f).flash = s.flash := rfl
@[simp] theorem State.modIsland_test (i : Nat) (f : Island → Island) : (s.modIsland i f).test = s.test := rfl
@[simp] theorem State.modIsland_plat (i : Nat) (f : Island → Island) : (s.modIsland i f).plat = s.plat := rfl

/-! `State.modMbx` changes `ctl` alone. -/
@[simp] theorem State.modMbx_pending (m : Nat) (f : Mbx → Mbx) : (s.modMbx m f).pending = s.pending := rfl
@[simp] theorem State.modMbx_now (m : Nat) (f : Mbx → Mbx) : (s.modMbx m f).now = s.now := rfl
@[simp] theorem State.modMbx_draws (m : Nat) (f : Mbx → Mbx) : (s.modMbx m f).draws = s.draws := rfl
@[simp] theorem State.modMbx_nextId (m : Nat) (f : Mbx → Mbx) : (s.modMbx m f).nextId = s.nextId := rfl
@[simp] theorem State.modMbx_out (m : Nat) (f : Mbx → Mbx) : (s.modMbx m f).out = s.out := rfl
@[simp] theorem State.modMbx_dura (m : Nat) (f : Mbx → Mbx) : (s.modMbx m f).dura = s.dura := rfl
@[simp] theorem State.modMbx_sump (m : Nat) (f : Mbx → Mbx) : (s.modMbx m f).sump = s.sump := rfl
@[simp] theorem State.modMbx_chans (m : Nat) (f : Mbx → Mbx) : (s.modMbx m f).chans = s.chans := rfl
@[simp] theorem State.modMbx_groups (m : Nat) (f : Mbx → Mbx) : (s.modMbx m f).groups = s.groups := rfl
@[simp] theorem State.modMbx_easels (m : Nat) (f : Mbx → Mbx) : (s.modMbx m f).easels = s.easels := rfl
@[simp] theorem State.modMbx_gnv (m : Nat) (f : Mbx → Mbx) : (s.modMbx m f).gnv = s.gnv := rfl
@[simp] theorem State.modMbx_ops (m : Nat) (f : Mbx → Mbx) : (s.modMbx m f).ops = s.ops := rfl
@[simp] theorem State.modMbx_misses (m : Nat) (f : Mbx → Mbx) : (s.modMbx m f).misses = s.misses := rfl
@[simp] theorem State.modMbx_drawers (m : Nat) (f : Mbx → Mbx) : (s.modMbx m f).drawers = s.drawers := rfl
@[simp] theorem State.modMbx_twin (m : Nat) (f : Mbx → Mbx) : (s.modMbx m f).twin = s.twin := rfl
@[simp] theorem State.modMbx_tports (m : Nat) (f : Mbx → Mbx) : (s.modMbx m f).tports = s.tports := rfl
@[simp] theorem State.modMbx_nports (m : Nat) (f : Mbx → Mbx) : (s.modMbx m f).nports = s.nports := rfl
@[simp] theorem State.modMbx_xport (m : Nat) (f : Mbx → Mbx) : (s.modMbx m f).xport = s.xport := rfl
@[simp] theorem State.modMbx_host (m : Nat) (f : Mbx → Mbx) : (s.modMbx m f).host = s.host := rfl
@[simp] theorem State.modMbx_cipher (m : Nat) (f : Mbx → Mbx) : (s.modMbx m f).cipher = s.cipher := rfl
@[simp] theorem State.modMbx_power (m : Nat) (f : Mbx → Mbx) : (s.modMbx m f).power = s.power := rfl
@[simp] theorem State.modMbx_prime (m : Nat) (f : Mbx → Mbx) : (s.modMbx m f).prime = s.prime := rfl
@[simp] theorem State.modMbx_dram (m : Nat) (f : Mbx → Mbx) : (s.modMbx m f).dram = s.dram := rfl
@[simp] theorem State.modMbx_flash (m : Nat) (f : Mbx → Mbx) : (s.modMbx m f).flash = s.flash := rfl
@[simp] theorem State.modMbx_test (m : Nat) (f : Mbx → Mbx) : (s.modMbx m f).test = s.test := rfl
@[simp] theorem State.modMbx_ev (m : Nat) (f : Mbx → Mbx) : (s.modMbx m f).ev = s.ev := rfl
@[simp] theorem State.modMbx_plat (m : Nat) (f : Mbx → Mbx) : (s.modMbx m f).plat = s.plat := rfl

/-! `State.modEngine` changes `cipher` alone. -/
@[simp] theorem State.modEngine_pending (e : Nat) (f : Engine → Engine) : (s.modEngine e f).pending = s.pending := rfl
@[simp] theorem State.modEngine_now (e : Nat) (f : Engine → Engine) : (s.modEngine e f).now = s.now := rfl
@[simp] theorem State.modEngine_draws (e : Nat) (f : Engine → Engine) : (s.modEngine e f).draws = s.draws := rfl
@[simp] theorem State.modEngine_nextId (e : Nat) (f : Engine → Engine) : (s.modEngine e f).nextId = s.nextId := rfl
@[simp] theorem State.modEngine_out (e : Nat) (f : Engine → Engine) : (s.modEngine e f).out = s.out := rfl
@[simp] theorem State.modEngine_dura (e : Nat) (f : Engine → Engine) : (s.modEngine e f).dura = s.dura := rfl
@[simp] theorem State.modEngine_sump (e : Nat) (f : Engine → Engine) : (s.modEngine e f).sump = s.sump := rfl
@[simp] theorem State.modEngine_chans (e : Nat) (f : Engine → Engine) : (s.modEngine e f).chans = s.chans := rfl
@[simp] theorem State.modEngine_groups (e : Nat) (f : Engine → Engine) : (s.modEngine e f).groups = s.groups := rfl
@[simp] theorem State.modEngine_easels (e : Nat) (f : Engine → Engine) : (s.modEngine e f).easels = s.easels := rfl
@[simp] theorem State.modEngine_gnv (e : Nat) (f : Engine → Engine) : (s.modEngine e f).gnv = s.gnv := rfl
@[simp] theorem State.modEngine_ops (e : Nat) (f : Engine → Engine) : (s.modEngine e f).ops = s.ops := rfl
@[simp] theorem State.modEngine_misses (e : Nat) (f : Engine → Engine) : (s.modEngine e f).misses = s.misses := rfl
@[simp] theorem State.modEngine_drawers (e : Nat) (f : Engine → Engine) : (s.modEngine e f).drawers = s.drawers := rfl
@[simp] theorem State.modEngine_twin (e : Nat) (f : Engine → Engine) : (s.modEngine e f).twin = s.twin := rfl
@[simp] theorem State.modEngine_tports (e : Nat) (f : Engine → Engine) : (s.modEngine e f).tports = s.tports := rfl
@[simp] theorem State.modEngine_nports (e : Nat) (f : Engine → Engine) : (s.modEngine e f).nports = s.nports := rfl
@[simp] theorem State.modEngine_xport (e : Nat) (f : Engine → Engine) : (s.modEngine e f).xport = s.xport := rfl
@[simp] theorem State.modEngine_host (e : Nat) (f : Engine → Engine) : (s.modEngine e f).host = s.host := rfl
@[simp] theorem State.modEngine_ctl (e : Nat) (f : Engine → Engine) : (s.modEngine e f).ctl = s.ctl := rfl
@[simp] theorem State.modEngine_power (e : Nat) (f : Engine → Engine) : (s.modEngine e f).power = s.power := rfl
@[simp] theorem State.modEngine_prime (e : Nat) (f : Engine → Engine) : (s.modEngine e f).prime = s.prime := rfl
@[simp] theorem State.modEngine_dram (e : Nat) (f : Engine → Engine) : (s.modEngine e f).dram = s.dram := rfl
@[simp] theorem State.modEngine_flash (e : Nat) (f : Engine → Engine) : (s.modEngine e f).flash = s.flash := rfl
@[simp] theorem State.modEngine_test (e : Nat) (f : Engine → Engine) : (s.modEngine e f).test = s.test := rfl
@[simp] theorem State.modEngine_ev (e : Nat) (f : Engine → Engine) : (s.modEngine e f).ev = s.ev := rfl
@[simp] theorem State.modEngine_plat (e : Nat) (f : Engine → Engine) : (s.modEngine e f).plat = s.plat := rfl

/-! `State.modFbank` changes `flash` alone. -/
@[simp] theorem State.modFbank_pending (b : Nat) (f : FBank → FBank) : (s.modFbank b f).pending = s.pending := rfl
@[simp] theorem State.modFbank_now (b : Nat) (f : FBank → FBank) : (s.modFbank b f).now = s.now := rfl
@[simp] theorem State.modFbank_draws (b : Nat) (f : FBank → FBank) : (s.modFbank b f).draws = s.draws := rfl
@[simp] theorem State.modFbank_nextId (b : Nat) (f : FBank → FBank) : (s.modFbank b f).nextId = s.nextId := rfl
@[simp] theorem State.modFbank_out (b : Nat) (f : FBank → FBank) : (s.modFbank b f).out = s.out := rfl
@[simp] theorem State.modFbank_dura (b : Nat) (f : FBank → FBank) : (s.modFbank b f).dura = s.dura := rfl
@[simp] theorem State.modFbank_sump (b : Nat) (f : FBank → FBank) : (s.modFbank b f).sump = s.sump := rfl
@[simp] theorem State.modFbank_chans (b : Nat) (f : FBank → FBank) : (s.modFbank b f).chans = s.chans := rfl
@[simp] theorem State.modFbank_groups (b : Nat) (f : FBank → FBank) : (s.modFbank b f).groups = s.groups := rfl
@[simp] theorem State.modFbank_easels (b : Nat) (f : FBank → FBank) : (s.modFbank b f).easels = s.easels := rfl
@[simp] theorem State.modFbank_gnv (b : Nat) (f : FBank → FBank) : (s.modFbank b f).gnv = s.gnv := rfl
@[simp] theorem State.modFbank_ops (b : Nat) (f : FBank → FBank) : (s.modFbank b f).ops = s.ops := rfl
@[simp] theorem State.modFbank_misses (b : Nat) (f : FBank → FBank) : (s.modFbank b f).misses = s.misses := rfl
@[simp] theorem State.modFbank_drawers (b : Nat) (f : FBank → FBank) : (s.modFbank b f).drawers = s.drawers := rfl
@[simp] theorem State.modFbank_twin (b : Nat) (f : FBank → FBank) : (s.modFbank b f).twin = s.twin := rfl
@[simp] theorem State.modFbank_tports (b : Nat) (f : FBank → FBank) : (s.modFbank b f).tports = s.tports := rfl
@[simp] theorem State.modFbank_nports (b : Nat) (f : FBank → FBank) : (s.modFbank b f).nports = s.nports := rfl
@[simp] theorem State.modFbank_xport (b : Nat) (f : FBank → FBank) : (s.modFbank b f).xport = s.xport := rfl
@[simp] theorem State.modFbank_host (b : Nat) (f : FBank → FBank) : (s.modFbank b f).host = s.host := rfl
@[simp] theorem State.modFbank_ctl (b : Nat) (f : FBank → FBank) : (s.modFbank b f).ctl = s.ctl := rfl
@[simp] theorem State.modFbank_cipher (b : Nat) (f : FBank → FBank) : (s.modFbank b f).cipher = s.cipher := rfl
@[simp] theorem State.modFbank_power (b : Nat) (f : FBank → FBank) : (s.modFbank b f).power = s.power := rfl
@[simp] theorem State.modFbank_prime (b : Nat) (f : FBank → FBank) : (s.modFbank b f).prime = s.prime := rfl
@[simp] theorem State.modFbank_dram (b : Nat) (f : FBank → FBank) : (s.modFbank b f).dram = s.dram := rfl
@[simp] theorem State.modFbank_test (b : Nat) (f : FBank → FBank) : (s.modFbank b f).test = s.test := rfl
@[simp] theorem State.modFbank_ev (b : Nat) (f : FBank → FBank) : (s.modFbank b f).ev = s.ev := rfl
@[simp] theorem State.modFbank_plat (b : Nat) (f : FBank → FBank) : (s.modFbank b f).plat = s.plat := rfl

/-! `State.modSched` changes `ctl` alone. -/
@[simp] theorem State.modSched_pending (h : Nat) (f : Sched → Sched) : (s.modSched h f).pending = s.pending := rfl
@[simp] theorem State.modSched_now (h : Nat) (f : Sched → Sched) : (s.modSched h f).now = s.now := rfl
@[simp] theorem State.modSched_draws (h : Nat) (f : Sched → Sched) : (s.modSched h f).draws = s.draws := rfl
@[simp] theorem State.modSched_nextId (h : Nat) (f : Sched → Sched) : (s.modSched h f).nextId = s.nextId := rfl
@[simp] theorem State.modSched_out (h : Nat) (f : Sched → Sched) : (s.modSched h f).out = s.out := rfl
@[simp] theorem State.modSched_dura (h : Nat) (f : Sched → Sched) : (s.modSched h f).dura = s.dura := rfl
@[simp] theorem State.modSched_sump (h : Nat) (f : Sched → Sched) : (s.modSched h f).sump = s.sump := rfl
@[simp] theorem State.modSched_chans (h : Nat) (f : Sched → Sched) : (s.modSched h f).chans = s.chans := rfl
@[simp] theorem State.modSched_groups (h : Nat) (f : Sched → Sched) : (s.modSched h f).groups = s.groups := rfl
@[simp] theorem State.modSched_easels (h : Nat) (f : Sched → Sched) : (s.modSched h f).easels = s.easels := rfl
@[simp] theorem State.modSched_gnv (h : Nat) (f : Sched → Sched) : (s.modSched h f).gnv = s.gnv := rfl
@[simp] theorem State.modSched_ops (h : Nat) (f : Sched → Sched) : (s.modSched h f).ops = s.ops := rfl
@[simp] theorem State.modSched_misses (h : Nat) (f : Sched → Sched) : (s.modSched h f).misses = s.misses := rfl
@[simp] theorem State.modSched_drawers (h : Nat) (f : Sched → Sched) : (s.modSched h f).drawers = s.drawers := rfl
@[simp] theorem State.modSched_twin (h : Nat) (f : Sched → Sched) : (s.modSched h f).twin = s.twin := rfl
@[simp] theorem State.modSched_tports (h : Nat) (f : Sched → Sched) : (s.modSched h f).tports = s.tports := rfl
@[simp] theorem State.modSched_nports (h : Nat) (f : Sched → Sched) : (s.modSched h f).nports = s.nports := rfl
@[simp] theorem State.modSched_xport (h : Nat) (f : Sched → Sched) : (s.modSched h f).xport = s.xport := rfl
@[simp] theorem State.modSched_host (h : Nat) (f : Sched → Sched) : (s.modSched h f).host = s.host := rfl
@[simp] theorem State.modSched_cipher (h : Nat) (f : Sched → Sched) : (s.modSched h f).cipher = s.cipher := rfl
@[simp] theorem State.modSched_power (h : Nat) (f : Sched → Sched) : (s.modSched h f).power = s.power := rfl
@[simp] theorem State.modSched_prime (h : Nat) (f : Sched → Sched) : (s.modSched h f).prime = s.prime := rfl
@[simp] theorem State.modSched_dram (h : Nat) (f : Sched → Sched) : (s.modSched h f).dram = s.dram := rfl
@[simp] theorem State.modSched_flash (h : Nat) (f : Sched → Sched) : (s.modSched h f).flash = s.flash := rfl
@[simp] theorem State.modSched_test (h : Nat) (f : Sched → Sched) : (s.modSched h f).test = s.test := rfl
@[simp] theorem State.modSched_ev (h : Nat) (f : Sched → Sched) : (s.modSched h f).ev = s.ev := rfl
@[simp] theorem State.modSched_plat (h : Nat) (f : Sched → Sched) : (s.modSched h f).plat = s.plat := rfl

/-! `State.send` changes `out` alone. -/
@[simp] theorem State.send_pending (o : Out) : (s.send o).pending = s.pending := rfl
@[simp] theorem State.send_now (o : Out) : (s.send o).now = s.now := rfl
@[simp] theorem State.send_draws (o : Out) : (s.send o).draws = s.draws := rfl
@[simp] theorem State.send_nextId (o : Out) : (s.send o).nextId = s.nextId := rfl
@[simp] theorem State.send_out (o : Out) : (s.send o).out = s.out ++ [o] := rfl
@[simp] theorem State.send_dura (o : Out) : (s.send o).dura = s.dura := rfl
@[simp] theorem State.send_sump (o : Out) : (s.send o).sump = s.sump := rfl
@[simp] theorem State.send_chans (o : Out) : (s.send o).chans = s.chans := rfl
@[simp] theorem State.send_groups (o : Out) : (s.send o).groups = s.groups := rfl
@[simp] theorem State.send_easels (o : Out) : (s.send o).easels = s.easels := rfl
@[simp] theorem State.send_gnv (o : Out) : (s.send o).gnv = s.gnv := rfl
@[simp] theorem State.send_ops (o : Out) : (s.send o).ops = s.ops := rfl
@[simp] theorem State.send_misses (o : Out) : (s.send o).misses = s.misses := rfl
@[simp] theorem State.send_drawers (o : Out) : (s.send o).drawers = s.drawers := rfl
@[simp] theorem State.send_twin (o : Out) : (s.send o).twin = s.twin := rfl
@[simp] theorem State.send_tports (o : Out) : (s.send o).tports = s.tports := rfl
@[simp] theorem State.send_nports (o : Out) : (s.send o).nports = s.nports := rfl
@[simp] theorem State.send_xport (o : Out) : (s.send o).xport = s.xport := rfl
@[simp] theorem State.send_host (o : Out) : (s.send o).host = s.host := rfl
@[simp] theorem State.send_ctl (o : Out) : (s.send o).ctl = s.ctl := rfl
@[simp] theorem State.send_cipher (o : Out) : (s.send o).cipher = s.cipher := rfl
@[simp] theorem State.send_power (o : Out) : (s.send o).power = s.power := rfl
@[simp] theorem State.send_prime (o : Out) : (s.send o).prime = s.prime := rfl
@[simp] theorem State.send_dram (o : Out) : (s.send o).dram = s.dram := rfl
@[simp] theorem State.send_flash (o : Out) : (s.send o).flash = s.flash := rfl
@[simp] theorem State.send_test (o : Out) : (s.send o).test = s.test := rfl
@[simp] theorem State.send_ev (o : Out) : (s.send o).ev = s.ev := rfl
@[simp] theorem State.send_plat (o : Out) : (s.send o).plat = s.plat := rfl

/-! A numbered unit after an update of one. -/
@[simp] theorem State.chan_modChan (i j : Nat) (f : Chan → Chan) :
    (s.modChan i f).chan j = if j = i then f (s.chan i) else s.chan j := tabGet_tabMod _ _ _ _ _
@[simp] theorem State.grp_modGrp (i j : Nat) (f : Group → Group) :
    (s.modGrp i f).grp j = if j = i then f (s.grp i) else s.grp j := tabGet_tabMod _ _ _ _ _
@[simp] theorem State.easel_modEasel (i j : Nat) (f : Easel → Easel) :
    (s.modEasel i f).easel j = if j = i then f (s.easel i) else s.easel j := tabGet_tabMod _ _ _ _ _
@[simp] theorem State.nv_modNv (i j : Nat) (f : GroupNv → GroupNv) :
    (s.modNv i f).nv j = if j = i then f (s.nv i) else s.nv j := tabGet_tabMod _ _ _ _ _
@[simp] theorem State.drw_modDrw (i j : Nat) (f : Drawer → Drawer) :
    (s.modDrw i f).drw j = if j = i then f (s.drw i) else s.drw j := tabGet_tabMod _ _ _ _ _
@[simp] theorem State.tport_modTport (i j : Nat) (f : TwinPort → TwinPort) :
    (s.modTport i f).tport j = if j = i then f (s.tport i) else s.tport j := tabGet_tabMod _ _ _ _ _
@[simp] theorem State.nport_modNport (i j : Nat) (f : NetPort → NetPort) :
    (s.modNport i f).nport j = if j = i then f (s.nport i) else s.nport j := tabGet_tabMod _ _ _ _ _
@[simp] theorem State.conn_modConn (i j : Nat) (f : Conn → Conn) :
    (s.modConn i f).conn j = if j = i then f (s.conn i) else s.conn j := tabGet_tabMod _ _ _ _ _
@[simp] theorem State.grant_modGrant (i j : Nat) (f : Grant → Grant) :
    (s.modGrant i f).grant j = if j = i then f (s.grant i) else s.grant j := tabGet_tabMod _ _ _ _ _
@[simp] theorem State.rail_modRail (i j : Nat) (f : Rail → Rail) :
    (s.modRail i f).rail j = if j = i then f (s.rail i) else s.rail j := tabGet_tabMod _ _ _ _ _
@[simp] theorem State.drch_modDrch (i j : Nat) (f : DrChan → DrChan) :
    (s.modDrch i f).drch j = if j = i then f (s.drch i) else s.drch j := tabGet_tabMod _ _ _ _ _
@[simp] theorem State.island_modIsland (i j : Nat) (f : Island → Island) :
    (s.modIsland i f).island j = if j = i then f (s.island i) else s.island j := tabGet_tabMod _ _ _ _ _

/-! A numbered unit after an update of something else. -/
@[simp] theorem State.grp_modChan (c : Nat) (f : Chan → Chan) (j : Nat) : (s.modChan c f).grp j = s.grp j := rfl
@[simp] theorem State.easel_modChan (c : Nat) (f : Chan → Chan) (j : Nat) : (s.modChan c f).easel j = s.easel j := rfl
@[simp] theorem State.nv_modChan (c : Nat) (f : Chan → Chan) (j : Nat) : (s.modChan c f).nv j = s.nv j := rfl
@[simp] theorem State.drw_modChan (c : Nat) (f : Chan → Chan) (j : Nat) : (s.modChan c f).drw j = s.drw j := rfl
@[simp] theorem State.tport_modChan (c : Nat) (f : Chan → Chan) (j : Nat) : (s.modChan c f).tport j = s.tport j := rfl
@[simp] theorem State.nport_modChan (c : Nat) (f : Chan → Chan) (j : Nat) : (s.modChan c f).nport j = s.nport j := rfl
@[simp] theorem State.conn_modChan (c : Nat) (f : Chan → Chan) (j : Nat) : (s.modChan c f).conn j = s.conn j := rfl
@[simp] theorem State.grant_modChan (c : Nat) (f : Chan → Chan) (j : Nat) : (s.modChan c f).grant j = s.grant j := rfl
@[simp] theorem State.rail_modChan (c : Nat) (f : Chan → Chan) (j : Nat) : (s.modChan c f).rail j = s.rail j := rfl
@[simp] theorem State.drch_modChan (c : Nat) (f : Chan → Chan) (j : Nat) : (s.modChan c f).drch j = s.drch j := rfl
@[simp] theorem State.island_modChan (c : Nat) (f : Chan → Chan) (j : Nat) : (s.modChan c f).island j = s.island j := rfl
@[simp] theorem State.mbx_modChan (c : Nat) (f : Chan → Chan) (j : Nat) : (s.modChan c f).mbx j = s.mbx j := rfl
@[simp] theorem State.engine_modChan (c : Nat) (f : Chan → Chan) (j : Nat) : (s.modChan c f).engine j = s.engine j := rfl
@[simp] theorem State.fbank_modChan (c : Nat) (f : Chan → Chan) (j : Nat) : (s.modChan c f).fbank j = s.fbank j := rfl
@[simp] theorem State.sched_modChan (c : Nat) (f : Chan → Chan) (j : Nat) : (s.modChan c f).sched j = s.sched j := rfl
@[simp] theorem State.ns_modChan (c : Nat) (f : Chan → Chan) (j : Nat) : (s.modChan c f).ns j = s.ns j := rfl
@[simp] theorem State.chan_modGrp (g : Nat) (f : Group → Group) (j : Nat) : (s.modGrp g f).chan j = s.chan j := rfl
@[simp] theorem State.easel_modGrp (g : Nat) (f : Group → Group) (j : Nat) : (s.modGrp g f).easel j = s.easel j := rfl
@[simp] theorem State.nv_modGrp (g : Nat) (f : Group → Group) (j : Nat) : (s.modGrp g f).nv j = s.nv j := rfl
@[simp] theorem State.drw_modGrp (g : Nat) (f : Group → Group) (j : Nat) : (s.modGrp g f).drw j = s.drw j := rfl
@[simp] theorem State.tport_modGrp (g : Nat) (f : Group → Group) (j : Nat) : (s.modGrp g f).tport j = s.tport j := rfl
@[simp] theorem State.nport_modGrp (g : Nat) (f : Group → Group) (j : Nat) : (s.modGrp g f).nport j = s.nport j := rfl
@[simp] theorem State.conn_modGrp (g : Nat) (f : Group → Group) (j : Nat) : (s.modGrp g f).conn j = s.conn j := rfl
@[simp] theorem State.grant_modGrp (g : Nat) (f : Group → Group) (j : Nat) : (s.modGrp g f).grant j = s.grant j := rfl
@[simp] theorem State.rail_modGrp (g : Nat) (f : Group → Group) (j : Nat) : (s.modGrp g f).rail j = s.rail j := rfl
@[simp] theorem State.drch_modGrp (g : Nat) (f : Group → Group) (j : Nat) : (s.modGrp g f).drch j = s.drch j := rfl
@[simp] theorem State.island_modGrp (g : Nat) (f : Group → Group) (j : Nat) : (s.modGrp g f).island j = s.island j := rfl
@[simp] theorem State.mbx_modGrp (g : Nat) (f : Group → Group) (j : Nat) : (s.modGrp g f).mbx j = s.mbx j := rfl
@[simp] theorem State.engine_modGrp (g : Nat) (f : Group → Group) (j : Nat) : (s.modGrp g f).engine j = s.engine j := rfl
@[simp] theorem State.fbank_modGrp (g : Nat) (f : Group → Group) (j : Nat) : (s.modGrp g f).fbank j = s.fbank j := rfl
@[simp] theorem State.sched_modGrp (g : Nat) (f : Group → Group) (j : Nat) : (s.modGrp g f).sched j = s.sched j := rfl
@[simp] theorem State.ns_modGrp (g : Nat) (f : Group → Group) (j : Nat) : (s.modGrp g f).ns j = s.ns j := rfl
@[simp] theorem State.chan_modEasel (k : Nat) (f : Easel → Easel) (j : Nat) : (s.modEasel k f).chan j = s.chan j := rfl
@[simp] theorem State.grp_modEasel (k : Nat) (f : Easel → Easel) (j : Nat) : (s.modEasel k f).grp j = s.grp j := rfl
@[simp] theorem State.nv_modEasel (k : Nat) (f : Easel → Easel) (j : Nat) : (s.modEasel k f).nv j = s.nv j := rfl
@[simp] theorem State.drw_modEasel (k : Nat) (f : Easel → Easel) (j : Nat) : (s.modEasel k f).drw j = s.drw j := rfl
@[simp] theorem State.tport_modEasel (k : Nat) (f : Easel → Easel) (j : Nat) : (s.modEasel k f).tport j = s.tport j := rfl
@[simp] theorem State.nport_modEasel (k : Nat) (f : Easel → Easel) (j : Nat) : (s.modEasel k f).nport j = s.nport j := rfl
@[simp] theorem State.conn_modEasel (k : Nat) (f : Easel → Easel) (j : Nat) : (s.modEasel k f).conn j = s.conn j := rfl
@[simp] theorem State.grant_modEasel (k : Nat) (f : Easel → Easel) (j : Nat) : (s.modEasel k f).grant j = s.grant j := rfl
@[simp] theorem State.rail_modEasel (k : Nat) (f : Easel → Easel) (j : Nat) : (s.modEasel k f).rail j = s.rail j := rfl
@[simp] theorem State.drch_modEasel (k : Nat) (f : Easel → Easel) (j : Nat) : (s.modEasel k f).drch j = s.drch j := rfl
@[simp] theorem State.island_modEasel (k : Nat) (f : Easel → Easel) (j : Nat) : (s.modEasel k f).island j = s.island j := rfl
@[simp] theorem State.mbx_modEasel (k : Nat) (f : Easel → Easel) (j : Nat) : (s.modEasel k f).mbx j = s.mbx j := rfl
@[simp] theorem State.engine_modEasel (k : Nat) (f : Easel → Easel) (j : Nat) : (s.modEasel k f).engine j = s.engine j := rfl
@[simp] theorem State.fbank_modEasel (k : Nat) (f : Easel → Easel) (j : Nat) : (s.modEasel k f).fbank j = s.fbank j := rfl
@[simp] theorem State.sched_modEasel (k : Nat) (f : Easel → Easel) (j : Nat) : (s.modEasel k f).sched j = s.sched j := rfl
@[simp] theorem State.ns_modEasel (k : Nat) (f : Easel → Easel) (j : Nat) : (s.modEasel k f).ns j = s.ns j := rfl
@[simp] theorem State.chan_modNv (g : Nat) (f : GroupNv → GroupNv) (j : Nat) : (s.modNv g f).chan j = s.chan j := rfl
@[simp] theorem State.grp_modNv (g : Nat) (f : GroupNv → GroupNv) (j : Nat) : (s.modNv g f).grp j = s.grp j := rfl
@[simp] theorem State.easel_modNv (g : Nat) (f : GroupNv → GroupNv) (j : Nat) : (s.modNv g f).easel j = s.easel j := rfl
@[simp] theorem State.drw_modNv (g : Nat) (f : GroupNv → GroupNv) (j : Nat) : (s.modNv g f).drw j = s.drw j := rfl
@[simp] theorem State.tport_modNv (g : Nat) (f : GroupNv → GroupNv) (j : Nat) : (s.modNv g f).tport j = s.tport j := rfl
@[simp] theorem State.nport_modNv (g : Nat) (f : GroupNv → GroupNv) (j : Nat) : (s.modNv g f).nport j = s.nport j := rfl
@[simp] theorem State.conn_modNv (g : Nat) (f : GroupNv → GroupNv) (j : Nat) : (s.modNv g f).conn j = s.conn j := rfl
@[simp] theorem State.grant_modNv (g : Nat) (f : GroupNv → GroupNv) (j : Nat) : (s.modNv g f).grant j = s.grant j := rfl
@[simp] theorem State.rail_modNv (g : Nat) (f : GroupNv → GroupNv) (j : Nat) : (s.modNv g f).rail j = s.rail j := rfl
@[simp] theorem State.drch_modNv (g : Nat) (f : GroupNv → GroupNv) (j : Nat) : (s.modNv g f).drch j = s.drch j := rfl
@[simp] theorem State.island_modNv (g : Nat) (f : GroupNv → GroupNv) (j : Nat) : (s.modNv g f).island j = s.island j := rfl
@[simp] theorem State.mbx_modNv (g : Nat) (f : GroupNv → GroupNv) (j : Nat) : (s.modNv g f).mbx j = s.mbx j := rfl
@[simp] theorem State.engine_modNv (g : Nat) (f : GroupNv → GroupNv) (j : Nat) : (s.modNv g f).engine j = s.engine j := rfl
@[simp] theorem State.fbank_modNv (g : Nat) (f : GroupNv → GroupNv) (j : Nat) : (s.modNv g f).fbank j = s.fbank j := rfl
@[simp] theorem State.sched_modNv (g : Nat) (f : GroupNv → GroupNv) (j : Nat) : (s.modNv g f).sched j = s.sched j := rfl
@[simp] theorem State.ns_modNv (g : Nat) (f : GroupNv → GroupNv) (j : Nat) : (s.modNv g f).ns j = s.ns j := rfl
@[simp] theorem State.chan_modDrw (d : Nat) (f : Drawer → Drawer) (j : Nat) : (s.modDrw d f).chan j = s.chan j := rfl
@[simp] theorem State.grp_modDrw (d : Nat) (f : Drawer → Drawer) (j : Nat) : (s.modDrw d f).grp j = s.grp j := rfl
@[simp] theorem State.easel_modDrw (d : Nat) (f : Drawer → Drawer) (j : Nat) : (s.modDrw d f).easel j = s.easel j := rfl
@[simp] theorem State.nv_modDrw (d : Nat) (f : Drawer → Drawer) (j : Nat) : (s.modDrw d f).nv j = s.nv j := rfl
@[simp] theorem State.tport_modDrw (d : Nat) (f : Drawer → Drawer) (j : Nat) : (s.modDrw d f).tport j = s.tport j := rfl
@[simp] theorem State.nport_modDrw (d : Nat) (f : Drawer → Drawer) (j : Nat) : (s.modDrw d f).nport j = s.nport j := rfl
@[simp] theorem State.conn_modDrw (d : Nat) (f : Drawer → Drawer) (j : Nat) : (s.modDrw d f).conn j = s.conn j := rfl
@[simp] theorem State.grant_modDrw (d : Nat) (f : Drawer → Drawer) (j : Nat) : (s.modDrw d f).grant j = s.grant j := rfl
@[simp] theorem State.rail_modDrw (d : Nat) (f : Drawer → Drawer) (j : Nat) : (s.modDrw d f).rail j = s.rail j := rfl
@[simp] theorem State.drch_modDrw (d : Nat) (f : Drawer → Drawer) (j : Nat) : (s.modDrw d f).drch j = s.drch j := rfl
@[simp] theorem State.island_modDrw (d : Nat) (f : Drawer → Drawer) (j : Nat) : (s.modDrw d f).island j = s.island j := rfl
@[simp] theorem State.mbx_modDrw (d : Nat) (f : Drawer → Drawer) (j : Nat) : (s.modDrw d f).mbx j = s.mbx j := rfl
@[simp] theorem State.engine_modDrw (d : Nat) (f : Drawer → Drawer) (j : Nat) : (s.modDrw d f).engine j = s.engine j := rfl
@[simp] theorem State.fbank_modDrw (d : Nat) (f : Drawer → Drawer) (j : Nat) : (s.modDrw d f).fbank j = s.fbank j := rfl
@[simp] theorem State.sched_modDrw (d : Nat) (f : Drawer → Drawer) (j : Nat) : (s.modDrw d f).sched j = s.sched j := rfl
@[simp] theorem State.ns_modDrw (d : Nat) (f : Drawer → Drawer) (j : Nat) : (s.modDrw d f).ns j = s.ns j := rfl
@[simp] theorem State.chan_modTport (t : Nat) (f : TwinPort → TwinPort) (j : Nat) : (s.modTport t f).chan j = s.chan j := rfl
@[simp] theorem State.grp_modTport (t : Nat) (f : TwinPort → TwinPort) (j : Nat) : (s.modTport t f).grp j = s.grp j := rfl
@[simp] theorem State.easel_modTport (t : Nat) (f : TwinPort → TwinPort) (j : Nat) : (s.modTport t f).easel j = s.easel j := rfl
@[simp] theorem State.nv_modTport (t : Nat) (f : TwinPort → TwinPort) (j : Nat) : (s.modTport t f).nv j = s.nv j := rfl
@[simp] theorem State.drw_modTport (t : Nat) (f : TwinPort → TwinPort) (j : Nat) : (s.modTport t f).drw j = s.drw j := rfl
@[simp] theorem State.nport_modTport (t : Nat) (f : TwinPort → TwinPort) (j : Nat) : (s.modTport t f).nport j = s.nport j := rfl
@[simp] theorem State.conn_modTport (t : Nat) (f : TwinPort → TwinPort) (j : Nat) : (s.modTport t f).conn j = s.conn j := rfl
@[simp] theorem State.grant_modTport (t : Nat) (f : TwinPort → TwinPort) (j : Nat) : (s.modTport t f).grant j = s.grant j := rfl
@[simp] theorem State.rail_modTport (t : Nat) (f : TwinPort → TwinPort) (j : Nat) : (s.modTport t f).rail j = s.rail j := rfl
@[simp] theorem State.drch_modTport (t : Nat) (f : TwinPort → TwinPort) (j : Nat) : (s.modTport t f).drch j = s.drch j := rfl
@[simp] theorem State.island_modTport (t : Nat) (f : TwinPort → TwinPort) (j : Nat) : (s.modTport t f).island j = s.island j := rfl
@[simp] theorem State.mbx_modTport (t : Nat) (f : TwinPort → TwinPort) (j : Nat) : (s.modTport t f).mbx j = s.mbx j := rfl
@[simp] theorem State.engine_modTport (t : Nat) (f : TwinPort → TwinPort) (j : Nat) : (s.modTport t f).engine j = s.engine j := rfl
@[simp] theorem State.fbank_modTport (t : Nat) (f : TwinPort → TwinPort) (j : Nat) : (s.modTport t f).fbank j = s.fbank j := rfl
@[simp] theorem State.sched_modTport (t : Nat) (f : TwinPort → TwinPort) (j : Nat) : (s.modTport t f).sched j = s.sched j := rfl
@[simp] theorem State.ns_modTport (t : Nat) (f : TwinPort → TwinPort) (j : Nat) : (s.modTport t f).ns j = s.ns j := rfl
@[simp] theorem State.chan_modNport (p : Nat) (f : NetPort → NetPort) (j : Nat) : (s.modNport p f).chan j = s.chan j := rfl
@[simp] theorem State.grp_modNport (p : Nat) (f : NetPort → NetPort) (j : Nat) : (s.modNport p f).grp j = s.grp j := rfl
@[simp] theorem State.easel_modNport (p : Nat) (f : NetPort → NetPort) (j : Nat) : (s.modNport p f).easel j = s.easel j := rfl
@[simp] theorem State.nv_modNport (p : Nat) (f : NetPort → NetPort) (j : Nat) : (s.modNport p f).nv j = s.nv j := rfl
@[simp] theorem State.drw_modNport (p : Nat) (f : NetPort → NetPort) (j : Nat) : (s.modNport p f).drw j = s.drw j := rfl
@[simp] theorem State.tport_modNport (p : Nat) (f : NetPort → NetPort) (j : Nat) : (s.modNport p f).tport j = s.tport j := rfl
@[simp] theorem State.conn_modNport (p : Nat) (f : NetPort → NetPort) (j : Nat) : (s.modNport p f).conn j = s.conn j := rfl
@[simp] theorem State.grant_modNport (p : Nat) (f : NetPort → NetPort) (j : Nat) : (s.modNport p f).grant j = s.grant j := rfl
@[simp] theorem State.rail_modNport (p : Nat) (f : NetPort → NetPort) (j : Nat) : (s.modNport p f).rail j = s.rail j := rfl
@[simp] theorem State.drch_modNport (p : Nat) (f : NetPort → NetPort) (j : Nat) : (s.modNport p f).drch j = s.drch j := rfl
@[simp] theorem State.island_modNport (p : Nat) (f : NetPort → NetPort) (j : Nat) : (s.modNport p f).island j = s.island j := rfl
@[simp] theorem State.mbx_modNport (p : Nat) (f : NetPort → NetPort) (j : Nat) : (s.modNport p f).mbx j = s.mbx j := rfl
@[simp] theorem State.engine_modNport (p : Nat) (f : NetPort → NetPort) (j : Nat) : (s.modNport p f).engine j = s.engine j := rfl
@[simp] theorem State.fbank_modNport (p : Nat) (f : NetPort → NetPort) (j : Nat) : (s.modNport p f).fbank j = s.fbank j := rfl
@[simp] theorem State.sched_modNport (p : Nat) (f : NetPort → NetPort) (j : Nat) : (s.modNport p f).sched j = s.sched j := rfl
@[simp] theorem State.ns_modNport (p : Nat) (f : NetPort → NetPort) (j : Nat) : (s.modNport p f).ns j = s.ns j := rfl
@[simp] theorem State.chan_modSub (p q : Nat) (f : SubPort → SubPort) (j : Nat) : (s.modSub p q f).chan j = s.chan j := rfl
@[simp] theorem State.grp_modSub (p q : Nat) (f : SubPort → SubPort) (j : Nat) : (s.modSub p q f).grp j = s.grp j := rfl
@[simp] theorem State.easel_modSub (p q : Nat) (f : SubPort → SubPort) (j : Nat) : (s.modSub p q f).easel j = s.easel j := rfl
@[simp] theorem State.nv_modSub (p q : Nat) (f : SubPort → SubPort) (j : Nat) : (s.modSub p q f).nv j = s.nv j := rfl
@[simp] theorem State.drw_modSub (p q : Nat) (f : SubPort → SubPort) (j : Nat) : (s.modSub p q f).drw j = s.drw j := rfl
@[simp] theorem State.tport_modSub (p q : Nat) (f : SubPort → SubPort) (j : Nat) : (s.modSub p q f).tport j = s.tport j := rfl
@[simp] theorem State.conn_modSub (p q : Nat) (f : SubPort → SubPort) (j : Nat) : (s.modSub p q f).conn j = s.conn j := rfl
@[simp] theorem State.grant_modSub (p q : Nat) (f : SubPort → SubPort) (j : Nat) : (s.modSub p q f).grant j = s.grant j := rfl
@[simp] theorem State.rail_modSub (p q : Nat) (f : SubPort → SubPort) (j : Nat) : (s.modSub p q f).rail j = s.rail j := rfl
@[simp] theorem State.drch_modSub (p q : Nat) (f : SubPort → SubPort) (j : Nat) : (s.modSub p q f).drch j = s.drch j := rfl
@[simp] theorem State.island_modSub (p q : Nat) (f : SubPort → SubPort) (j : Nat) : (s.modSub p q f).island j = s.island j := rfl
@[simp] theorem State.mbx_modSub (p q : Nat) (f : SubPort → SubPort) (j : Nat) : (s.modSub p q f).mbx j = s.mbx j := rfl
@[simp] theorem State.engine_modSub (p q : Nat) (f : SubPort → SubPort) (j : Nat) : (s.modSub p q f).engine j = s.engine j := rfl
@[simp] theorem State.fbank_modSub (p q : Nat) (f : SubPort → SubPort) (j : Nat) : (s.modSub p q f).fbank j = s.fbank j := rfl
@[simp] theorem State.sched_modSub (p q : Nat) (f : SubPort → SubPort) (j : Nat) : (s.modSub p q f).sched j = s.sched j := rfl
@[simp] theorem State.ns_modSub (p q : Nat) (f : SubPort → SubPort) (j : Nat) : (s.modSub p q f).ns j = s.ns j := rfl
@[simp] theorem State.chan_modXport (f : Xport → Xport) (j : Nat) : (s.modXport f).chan j = s.chan j := rfl
@[simp] theorem State.grp_modXport (f : Xport → Xport) (j : Nat) : (s.modXport f).grp j = s.grp j := rfl
@[simp] theorem State.easel_modXport (f : Xport → Xport) (j : Nat) : (s.modXport f).easel j = s.easel j := rfl
@[simp] theorem State.nv_modXport (f : Xport → Xport) (j : Nat) : (s.modXport f).nv j = s.nv j := rfl
@[simp] theorem State.drw_modXport (f : Xport → Xport) (j : Nat) : (s.modXport f).drw j = s.drw j := rfl
@[simp] theorem State.tport_modXport (f : Xport → Xport) (j : Nat) : (s.modXport f).tport j = s.tport j := rfl
@[simp] theorem State.nport_modXport (f : Xport → Xport) (j : Nat) : (s.modXport f).nport j = s.nport j := rfl
@[simp] theorem State.rail_modXport (f : Xport → Xport) (j : Nat) : (s.modXport f).rail j = s.rail j := rfl
@[simp] theorem State.drch_modXport (f : Xport → Xport) (j : Nat) : (s.modXport f).drch j = s.drch j := rfl
@[simp] theorem State.island_modXport (f : Xport → Xport) (j : Nat) : (s.modXport f).island j = s.island j := rfl
@[simp] theorem State.mbx_modXport (f : Xport → Xport) (j : Nat) : (s.modXport f).mbx j = s.mbx j := rfl
@[simp] theorem State.engine_modXport (f : Xport → Xport) (j : Nat) : (s.modXport f).engine j = s.engine j := rfl
@[simp] theorem State.fbank_modXport (f : Xport → Xport) (j : Nat) : (s.modXport f).fbank j = s.fbank j := rfl
@[simp] theorem State.sched_modXport (f : Xport → Xport) (j : Nat) : (s.modXport f).sched j = s.sched j := rfl
@[simp] theorem State.ns_modXport (f : Xport → Xport) (j : Nat) : (s.modXport f).ns j = s.ns j := rfl
@[simp] theorem State.chan_modConn (c : Nat) (f : Conn → Conn) (j : Nat) : (s.modConn c f).chan j = s.chan j := rfl
@[simp] theorem State.grp_modConn (c : Nat) (f : Conn → Conn) (j : Nat) : (s.modConn c f).grp j = s.grp j := rfl
@[simp] theorem State.easel_modConn (c : Nat) (f : Conn → Conn) (j : Nat) : (s.modConn c f).easel j = s.easel j := rfl
@[simp] theorem State.nv_modConn (c : Nat) (f : Conn → Conn) (j : Nat) : (s.modConn c f).nv j = s.nv j := rfl
@[simp] theorem State.drw_modConn (c : Nat) (f : Conn → Conn) (j : Nat) : (s.modConn c f).drw j = s.drw j := rfl
@[simp] theorem State.tport_modConn (c : Nat) (f : Conn → Conn) (j : Nat) : (s.modConn c f).tport j = s.tport j := rfl
@[simp] theorem State.nport_modConn (c : Nat) (f : Conn → Conn) (j : Nat) : (s.modConn c f).nport j = s.nport j := rfl
@[simp] theorem State.rail_modConn (c : Nat) (f : Conn → Conn) (j : Nat) : (s.modConn c f).rail j = s.rail j := rfl
@[simp] theorem State.drch_modConn (c : Nat) (f : Conn → Conn) (j : Nat) : (s.modConn c f).drch j = s.drch j := rfl
@[simp] theorem State.island_modConn (c : Nat) (f : Conn → Conn) (j : Nat) : (s.modConn c f).island j = s.island j := rfl
@[simp] theorem State.mbx_modConn (c : Nat) (f : Conn → Conn) (j : Nat) : (s.modConn c f).mbx j = s.mbx j := rfl
@[simp] theorem State.engine_modConn (c : Nat) (f : Conn → Conn) (j : Nat) : (s.modConn c f).engine j = s.engine j := rfl
@[simp] theorem State.fbank_modConn (c : Nat) (f : Conn → Conn) (j : Nat) : (s.modConn c f).fbank j = s.fbank j := rfl
@[simp] theorem State.sched_modConn (c : Nat) (f : Conn → Conn) (j : Nat) : (s.modConn c f).sched j = s.sched j := rfl
@[simp] theorem State.ns_modConn (c : Nat) (f : Conn → Conn) (j : Nat) : (s.modConn c f).ns j = s.ns j := rfl
@[simp] theorem State.chan_modGrant (g : Nat) (f : Grant → Grant) (j : Nat) : (s.modGrant g f).chan j = s.chan j := rfl
@[simp] theorem State.grp_modGrant (g : Nat) (f : Grant → Grant) (j : Nat) : (s.modGrant g f).grp j = s.grp j := rfl
@[simp] theorem State.easel_modGrant (g : Nat) (f : Grant → Grant) (j : Nat) : (s.modGrant g f).easel j = s.easel j := rfl
@[simp] theorem State.nv_modGrant (g : Nat) (f : Grant → Grant) (j : Nat) : (s.modGrant g f).nv j = s.nv j := rfl
@[simp] theorem State.drw_modGrant (g : Nat) (f : Grant → Grant) (j : Nat) : (s.modGrant g f).drw j = s.drw j := rfl
@[simp] theorem State.tport_modGrant (g : Nat) (f : Grant → Grant) (j : Nat) : (s.modGrant g f).tport j = s.tport j := rfl
@[simp] theorem State.nport_modGrant (g : Nat) (f : Grant → Grant) (j : Nat) : (s.modGrant g f).nport j = s.nport j := rfl
@[simp] theorem State.rail_modGrant (g : Nat) (f : Grant → Grant) (j : Nat) : (s.modGrant g f).rail j = s.rail j := rfl
@[simp] theorem State.drch_modGrant (g : Nat) (f : Grant → Grant) (j : Nat) : (s.modGrant g f).drch j = s.drch j := rfl
@[simp] theorem State.island_modGrant (g : Nat) (f : Grant → Grant) (j : Nat) : (s.modGrant g f).island j = s.island j := rfl
@[simp] theorem State.mbx_modGrant (g : Nat) (f : Grant → Grant) (j : Nat) : (s.modGrant g f).mbx j = s.mbx j := rfl
@[simp] theorem State.engine_modGrant (g : Nat) (f : Grant → Grant) (j : Nat) : (s.modGrant g f).engine j = s.engine j := rfl
@[simp] theorem State.fbank_modGrant (g : Nat) (f : Grant → Grant) (j : Nat) : (s.modGrant g f).fbank j = s.fbank j := rfl
@[simp] theorem State.sched_modGrant (g : Nat) (f : Grant → Grant) (j : Nat) : (s.modGrant g f).sched j = s.sched j := rfl
@[simp] theorem State.ns_modGrant (g : Nat) (f : Grant → Grant) (j : Nat) : (s.modGrant g f).ns j = s.ns j := rfl
@[simp] theorem State.chan_modPower (f : Power → Power) (j : Nat) : (s.modPower f).chan j = s.chan j := rfl
@[simp] theorem State.grp_modPower (f : Power → Power) (j : Nat) : (s.modPower f).grp j = s.grp j := rfl
@[simp] theorem State.easel_modPower (f : Power → Power) (j : Nat) : (s.modPower f).easel j = s.easel j := rfl
@[simp] theorem State.nv_modPower (f : Power → Power) (j : Nat) : (s.modPower f).nv j = s.nv j := rfl
@[simp] theorem State.drw_modPower (f : Power → Power) (j : Nat) : (s.modPower f).drw j = s.drw j := rfl
@[simp] theorem State.tport_modPower (f : Power → Power) (j : Nat) : (s.modPower f).tport j = s.tport j := rfl
@[simp] theorem State.nport_modPower (f : Power → Power) (j : Nat) : (s.modPower f).nport j = s.nport j := rfl
@[simp] theorem State.conn_modPower (f : Power → Power) (j : Nat) : (s.modPower f).conn j = s.conn j := rfl
@[simp] theorem State.grant_modPower (f : Power → Power) (j : Nat) : (s.modPower f).grant j = s.grant j := rfl
@[simp] theorem State.drch_modPower (f : Power → Power) (j : Nat) : (s.modPower f).drch j = s.drch j := rfl
@[simp] theorem State.island_modPower (f : Power → Power) (j : Nat) : (s.modPower f).island j = s.island j := rfl
@[simp] theorem State.mbx_modPower (f : Power → Power) (j : Nat) : (s.modPower f).mbx j = s.mbx j := rfl
@[simp] theorem State.engine_modPower (f : Power → Power) (j : Nat) : (s.modPower f).engine j = s.engine j := rfl
@[simp] theorem State.fbank_modPower (f : Power → Power) (j : Nat) : (s.modPower f).fbank j = s.fbank j := rfl
@[simp] theorem State.sched_modPower (f : Power → Power) (j : Nat) : (s.modPower f).sched j = s.sched j := rfl
@[simp] theorem State.ns_modPower (f : Power → Power) (j : Nat) : (s.modPower f).ns j = s.ns j := rfl
@[simp] theorem State.chan_modRail (i : Nat) (f : Rail → Rail) (j : Nat) : (s.modRail i f).chan j = s.chan j := rfl
@[simp] theorem State.grp_modRail (i : Nat) (f : Rail → Rail) (j : Nat) : (s.modRail i f).grp j = s.grp j := rfl
@[simp] theorem State.easel_modRail (i : Nat) (f : Rail → Rail) (j : Nat) : (s.modRail i f).easel j = s.easel j := rfl
@[simp] theorem State.nv_modRail (i : Nat) (f : Rail → Rail) (j : Nat) : (s.modRail i f).nv j = s.nv j := rfl
@[simp] theorem State.drw_modRail (i : Nat) (f : Rail → Rail) (j : Nat) : (s.modRail i f).drw j = s.drw j := rfl
@[simp] theorem State.tport_modRail (i : Nat) (f : Rail → Rail) (j : Nat) : (s.modRail i f).tport j = s.tport j := rfl
@[simp] theorem State.nport_modRail (i : Nat) (f : Rail → Rail) (j : Nat) : (s.modRail i f).nport j = s.nport j := rfl
@[simp] theorem State.conn_modRail (i : Nat) (f : Rail → Rail) (j : Nat) : (s.modRail i f).conn j = s.conn j := rfl
@[simp] theorem State.grant_modRail (i : Nat) (f : Rail → Rail) (j : Nat) : (s.modRail i f).grant j = s.grant j := rfl
@[simp] theorem State.drch_modRail (i : Nat) (f : Rail → Rail) (j : Nat) : (s.modRail i f).drch j = s.drch j := rfl
@[simp] theorem State.island_modRail (i : Nat) (f : Rail → Rail) (j : Nat) : (s.modRail i f).island j = s.island j := rfl
@[simp] theorem State.mbx_modRail (i : Nat) (f : Rail → Rail) (j : Nat) : (s.modRail i f).mbx j = s.mbx j := rfl
@[simp] theorem State.engine_modRail (i : Nat) (f : Rail → Rail) (j : Nat) : (s.modRail i f).engine j = s.engine j := rfl
@[simp] theorem State.fbank_modRail (i : Nat) (f : Rail → Rail) (j : Nat) : (s.modRail i f).fbank j = s.fbank j := rfl
@[simp] theorem State.sched_modRail (i : Nat) (f : Rail → Rail) (j : Nat) : (s.modRail i f).sched j = s.sched j := rfl
@[simp] theorem State.ns_modRail (i : Nat) (f : Rail → Rail) (j : Nat) : (s.modRail i f).ns j = s.ns j := rfl
@[simp] theorem State.chan_modTwin (f : Twin → Twin) (j : Nat) : (s.modTwin f).chan j = s.chan j := rfl
@[simp] theorem State.grp_modTwin (f : Twin → Twin) (j : Nat) : (s.modTwin f).grp j = s.grp j := rfl
@[simp] theorem State.easel_modTwin (f : Twin → Twin) (j : Nat) : (s.modTwin f).easel j = s.easel j := rfl
@[simp] theorem State.nv_modTwin (f : Twin → Twin) (j : Nat) : (s.modTwin f).nv j = s.nv j := rfl
@[simp] theorem State.drw_modTwin (f : Twin → Twin) (j : Nat) : (s.modTwin f).drw j = s.drw j := rfl
@[simp] theorem State.tport_modTwin (f : Twin → Twin) (j : Nat) : (s.modTwin f).tport j = s.tport j := rfl
@[simp] theorem State.nport_modTwin (f : Twin → Twin) (j : Nat) : (s.modTwin f).nport j = s.nport j := rfl
@[simp] theorem State.conn_modTwin (f : Twin → Twin) (j : Nat) : (s.modTwin f).conn j = s.conn j := rfl
@[simp] theorem State.grant_modTwin (f : Twin → Twin) (j : Nat) : (s.modTwin f).grant j = s.grant j := rfl
@[simp] theorem State.rail_modTwin (f : Twin → Twin) (j : Nat) : (s.modTwin f).rail j = s.rail j := rfl
@[simp] theorem State.drch_modTwin (f : Twin → Twin) (j : Nat) : (s.modTwin f).drch j = s.drch j := rfl
@[simp] theorem State.island_modTwin (f : Twin → Twin) (j : Nat) : (s.modTwin f).island j = s.island j := rfl
@[simp] theorem State.mbx_modTwin (f : Twin → Twin) (j : Nat) : (s.modTwin f).mbx j = s.mbx j := rfl
@[simp] theorem State.engine_modTwin (f : Twin → Twin) (j : Nat) : (s.modTwin f).engine j = s.engine j := rfl
@[simp] theorem State.fbank_modTwin (f : Twin → Twin) (j : Nat) : (s.modTwin f).fbank j = s.fbank j := rfl
@[simp] theorem State.sched_modTwin (f : Twin → Twin) (j : Nat) : (s.modTwin f).sched j = s.sched j := rfl
@[simp] theorem State.ns_modTwin (f : Twin → Twin) (j : Nat) : (s.modTwin f).ns j = s.ns j := rfl
@[simp] theorem State.chan_modSump (f : Sump → Sump) (j : Nat) : (s.modSump f).chan j = s.chan j := rfl
@[simp] theorem State.grp_modSump (f : Sump → Sump) (j : Nat) : (s.modSump f).grp j = s.grp j := rfl
@[simp] theorem State.easel_modSump (f : Sump → Sump) (j : Nat) : (s.modSump f).easel j = s.easel j := rfl
@[simp] theorem State.nv_modSump (f : Sump → Sump) (j : Nat) : (s.modSump f).nv j = s.nv j := rfl
@[simp] theorem State.drw_modSump (f : Sump → Sump) (j : Nat) : (s.modSump f).drw j = s.drw j := rfl
@[simp] theorem State.tport_modSump (f : Sump → Sump) (j : Nat) : (s.modSump f).tport j = s.tport j := rfl
@[simp] theorem State.nport_modSump (f : Sump → Sump) (j : Nat) : (s.modSump f).nport j = s.nport j := rfl
@[simp] theorem State.conn_modSump (f : Sump → Sump) (j : Nat) : (s.modSump f).conn j = s.conn j := rfl
@[simp] theorem State.grant_modSump (f : Sump → Sump) (j : Nat) : (s.modSump f).grant j = s.grant j := rfl
@[simp] theorem State.rail_modSump (f : Sump → Sump) (j : Nat) : (s.modSump f).rail j = s.rail j := rfl
@[simp] theorem State.drch_modSump (f : Sump → Sump) (j : Nat) : (s.modSump f).drch j = s.drch j := rfl
@[simp] theorem State.island_modSump (f : Sump → Sump) (j : Nat) : (s.modSump f).island j = s.island j := rfl
@[simp] theorem State.mbx_modSump (f : Sump → Sump) (j : Nat) : (s.modSump f).mbx j = s.mbx j := rfl
@[simp] theorem State.engine_modSump (f : Sump → Sump) (j : Nat) : (s.modSump f).engine j = s.engine j := rfl
@[simp] theorem State.fbank_modSump (f : Sump → Sump) (j : Nat) : (s.modSump f).fbank j = s.fbank j := rfl
@[simp] theorem State.sched_modSump (f : Sump → Sump) (j : Nat) : (s.modSump f).sched j = s.sched j := rfl
@[simp] theorem State.ns_modSump (f : Sump → Sump) (j : Nat) : (s.modSump f).ns j = s.ns j := rfl
@[simp] theorem State.chan_modDura (f : Dura → Dura) (j : Nat) : (s.modDura f).chan j = s.chan j := rfl
@[simp] theorem State.grp_modDura (f : Dura → Dura) (j : Nat) : (s.modDura f).grp j = s.grp j := rfl
@[simp] theorem State.easel_modDura (f : Dura → Dura) (j : Nat) : (s.modDura f).easel j = s.easel j := rfl
@[simp] theorem State.nv_modDura (f : Dura → Dura) (j : Nat) : (s.modDura f).nv j = s.nv j := rfl
@[simp] theorem State.drw_modDura (f : Dura → Dura) (j : Nat) : (s.modDura f).drw j = s.drw j := rfl
@[simp] theorem State.tport_modDura (f : Dura → Dura) (j : Nat) : (s.modDura f).tport j = s.tport j := rfl
@[simp] theorem State.nport_modDura (f : Dura → Dura) (j : Nat) : (s.modDura f).nport j = s.nport j := rfl
@[simp] theorem State.conn_modDura (f : Dura → Dura) (j : Nat) : (s.modDura f).conn j = s.conn j := rfl
@[simp] theorem State.grant_modDura (f : Dura → Dura) (j : Nat) : (s.modDura f).grant j = s.grant j := rfl
@[simp] theorem State.rail_modDura (f : Dura → Dura) (j : Nat) : (s.modDura f).rail j = s.rail j := rfl
@[simp] theorem State.drch_modDura (f : Dura → Dura) (j : Nat) : (s.modDura f).drch j = s.drch j := rfl
@[simp] theorem State.island_modDura (f : Dura → Dura) (j : Nat) : (s.modDura f).island j = s.island j := rfl
@[simp] theorem State.mbx_modDura (f : Dura → Dura) (j : Nat) : (s.modDura f).mbx j = s.mbx j := rfl
@[simp] theorem State.engine_modDura (f : Dura → Dura) (j : Nat) : (s.modDura f).engine j = s.engine j := rfl
@[simp] theorem State.fbank_modDura (f : Dura → Dura) (j : Nat) : (s.modDura f).fbank j = s.fbank j := rfl
@[simp] theorem State.sched_modDura (f : Dura → Dura) (j : Nat) : (s.modDura f).sched j = s.sched j := rfl
@[simp] theorem State.ns_modDura (f : Dura → Dura) (j : Nat) : (s.modDura f).ns j = s.ns j := rfl
@[simp] theorem State.chan_modHost (f : HostPort → HostPort) (j : Nat) : (s.modHost f).chan j = s.chan j := rfl
@[simp] theorem State.grp_modHost (f : HostPort → HostPort) (j : Nat) : (s.modHost f).grp j = s.grp j := rfl
@[simp] theorem State.easel_modHost (f : HostPort → HostPort) (j : Nat) : (s.modHost f).easel j = s.easel j := rfl
@[simp] theorem State.nv_modHost (f : HostPort → HostPort) (j : Nat) : (s.modHost f).nv j = s.nv j := rfl
@[simp] theorem State.drw_modHost (f : HostPort → HostPort) (j : Nat) : (s.modHost f).drw j = s.drw j := rfl
@[simp] theorem State.tport_modHost (f : HostPort → HostPort) (j : Nat) : (s.modHost f).tport j = s.tport j := rfl
@[simp] theorem State.nport_modHost (f : HostPort → HostPort) (j : Nat) : (s.modHost f).nport j = s.nport j := rfl
@[simp] theorem State.conn_modHost (f : HostPort → HostPort) (j : Nat) : (s.modHost f).conn j = s.conn j := rfl
@[simp] theorem State.grant_modHost (f : HostPort → HostPort) (j : Nat) : (s.modHost f).grant j = s.grant j := rfl
@[simp] theorem State.rail_modHost (f : HostPort → HostPort) (j : Nat) : (s.modHost f).rail j = s.rail j := rfl
@[simp] theorem State.drch_modHost (f : HostPort → HostPort) (j : Nat) : (s.modHost f).drch j = s.drch j := rfl
@[simp] theorem State.island_modHost (f : HostPort → HostPort) (j : Nat) : (s.modHost f).island j = s.island j := rfl
@[simp] theorem State.mbx_modHost (f : HostPort → HostPort) (j : Nat) : (s.modHost f).mbx j = s.mbx j := rfl
@[simp] theorem State.engine_modHost (f : HostPort → HostPort) (j : Nat) : (s.modHost f).engine j = s.engine j := rfl
@[simp] theorem State.fbank_modHost (f : HostPort → HostPort) (j : Nat) : (s.modHost f).fbank j = s.fbank j := rfl
@[simp] theorem State.sched_modHost (f : HostPort → HostPort) (j : Nat) : (s.modHost f).sched j = s.sched j := rfl
@[simp] theorem State.ns_modHost (f : HostPort → HostPort) (j : Nat) : (s.modHost f).ns j = s.ns j := rfl
@[simp] theorem State.chan_modCtl (f : Ctl → Ctl) (j : Nat) : (s.modCtl f).chan j = s.chan j := rfl
@[simp] theorem State.grp_modCtl (f : Ctl → Ctl) (j : Nat) : (s.modCtl f).grp j = s.grp j := rfl
@[simp] theorem State.easel_modCtl (f : Ctl → Ctl) (j : Nat) : (s.modCtl f).easel j = s.easel j := rfl
@[simp] theorem State.nv_modCtl (f : Ctl → Ctl) (j : Nat) : (s.modCtl f).nv j = s.nv j := rfl
@[simp] theorem State.drw_modCtl (f : Ctl → Ctl) (j : Nat) : (s.modCtl f).drw j = s.drw j := rfl
@[simp] theorem State.tport_modCtl (f : Ctl → Ctl) (j : Nat) : (s.modCtl f).tport j = s.tport j := rfl
@[simp] theorem State.nport_modCtl (f : Ctl → Ctl) (j : Nat) : (s.modCtl f).nport j = s.nport j := rfl
@[simp] theorem State.conn_modCtl (f : Ctl → Ctl) (j : Nat) : (s.modCtl f).conn j = s.conn j := rfl
@[simp] theorem State.grant_modCtl (f : Ctl → Ctl) (j : Nat) : (s.modCtl f).grant j = s.grant j := rfl
@[simp] theorem State.rail_modCtl (f : Ctl → Ctl) (j : Nat) : (s.modCtl f).rail j = s.rail j := rfl
@[simp] theorem State.drch_modCtl (f : Ctl → Ctl) (j : Nat) : (s.modCtl f).drch j = s.drch j := rfl
@[simp] theorem State.island_modCtl (f : Ctl → Ctl) (j : Nat) : (s.modCtl f).island j = s.island j := rfl
@[simp] theorem State.engine_modCtl (f : Ctl → Ctl) (j : Nat) : (s.modCtl f).engine j = s.engine j := rfl
@[simp] theorem State.fbank_modCtl (f : Ctl → Ctl) (j : Nat) : (s.modCtl f).fbank j = s.fbank j := rfl
@[simp] theorem State.chan_modCipher (f : Cipher → Cipher) (j : Nat) : (s.modCipher f).chan j = s.chan j := rfl
@[simp] theorem State.grp_modCipher (f : Cipher → Cipher) (j : Nat) : (s.modCipher f).grp j = s.grp j := rfl
@[simp] theorem State.easel_modCipher (f : Cipher → Cipher) (j : Nat) : (s.modCipher f).easel j = s.easel j := rfl
@[simp] theorem State.nv_modCipher (f : Cipher → Cipher) (j : Nat) : (s.modCipher f).nv j = s.nv j := rfl
@[simp] theorem State.drw_modCipher (f : Cipher → Cipher) (j : Nat) : (s.modCipher f).drw j = s.drw j := rfl
@[simp] theorem State.tport_modCipher (f : Cipher → Cipher) (j : Nat) : (s.modCipher f).tport j = s.tport j := rfl
@[simp] theorem State.nport_modCipher (f : Cipher → Cipher) (j : Nat) : (s.modCipher f).nport j = s.nport j := rfl
@[simp] theorem State.conn_modCipher (f : Cipher → Cipher) (j : Nat) : (s.modCipher f).conn j = s.conn j := rfl
@[simp] theorem State.grant_modCipher (f : Cipher → Cipher) (j : Nat) : (s.modCipher f).grant j = s.grant j := rfl
@[simp] theorem State.rail_modCipher (f : Cipher → Cipher) (j : Nat) : (s.modCipher f).rail j = s.rail j := rfl
@[simp] theorem State.drch_modCipher (f : Cipher → Cipher) (j : Nat) : (s.modCipher f).drch j = s.drch j := rfl
@[simp] theorem State.island_modCipher (f : Cipher → Cipher) (j : Nat) : (s.modCipher f).island j = s.island j := rfl
@[simp] theorem State.mbx_modCipher (f : Cipher → Cipher) (j : Nat) : (s.modCipher f).mbx j = s.mbx j := rfl
@[simp] theorem State.fbank_modCipher (f : Cipher → Cipher) (j : Nat) : (s.modCipher f).fbank j = s.fbank j := rfl
@[simp] theorem State.sched_modCipher (f : Cipher → Cipher) (j : Nat) : (s.modCipher f).sched j = s.sched j := rfl
@[simp] theorem State.ns_modCipher (f : Cipher → Cipher) (j : Nat) : (s.modCipher f).ns j = s.ns j := rfl
@[simp] theorem State.chan_modPrime (f : Prime → Prime) (j : Nat) : (s.modPrime f).chan j = s.chan j := rfl
@[simp] theorem State.grp_modPrime (f : Prime → Prime) (j : Nat) : (s.modPrime f).grp j = s.grp j := rfl
@[simp] theorem State.easel_modPrime (f : Prime → Prime) (j : Nat) : (s.modPrime f).easel j = s.easel j := rfl
@[simp] theorem State.nv_modPrime (f : Prime → Prime) (j : Nat) : (s.modPrime f).nv j = s.nv j := rfl
@[simp] theorem State.drw_modPrime (f : Prime → Prime) (j : Nat) : (s.modPrime f).drw j = s.drw j := rfl
@[simp] theorem State.tport_modPrime (f : Prime → Prime) (j : Nat) : (s.modPrime f).tport j = s.tport j := rfl
@[simp] theorem State.nport_modPrime (f : Prime → Prime) (j : Nat) : (s.modPrime f).nport j = s.nport j := rfl
@[simp] theorem State.conn_modPrime (f : Prime → Prime) (j : Nat) : (s.modPrime f).conn j = s.conn j := rfl
@[simp] theorem State.grant_modPrime (f : Prime → Prime) (j : Nat) : (s.modPrime f).grant j = s.grant j := rfl
@[simp] theorem State.rail_modPrime (f : Prime → Prime) (j : Nat) : (s.modPrime f).rail j = s.rail j := rfl
@[simp] theorem State.drch_modPrime (f : Prime → Prime) (j : Nat) : (s.modPrime f).drch j = s.drch j := rfl
@[simp] theorem State.island_modPrime (f : Prime → Prime) (j : Nat) : (s.modPrime f).island j = s.island j := rfl
@[simp] theorem State.mbx_modPrime (f : Prime → Prime) (j : Nat) : (s.modPrime f).mbx j = s.mbx j := rfl
@[simp] theorem State.engine_modPrime (f : Prime → Prime) (j : Nat) : (s.modPrime f).engine j = s.engine j := rfl
@[simp] theorem State.fbank_modPrime (f : Prime → Prime) (j : Nat) : (s.modPrime f).fbank j = s.fbank j := rfl
@[simp] theorem State.sched_modPrime (f : Prime → Prime) (j : Nat) : (s.modPrime f).sched j = s.sched j := rfl
@[simp] theorem State.ns_modPrime (f : Prime → Prime) (j : Nat) : (s.modPrime f).ns j = s.ns j := rfl
@[simp] theorem State.chan_modDram (f : Dram → Dram) (j : Nat) : (s.modDram f).chan j = s.chan j := rfl
@[simp] theorem State.grp_modDram (f : Dram → Dram) (j : Nat) : (s.modDram f).grp j = s.grp j := rfl
@[simp] theorem State.easel_modDram (f : Dram → Dram) (j : Nat) : (s.modDram f).easel j = s.easel j := rfl
@[simp] theorem State.nv_modDram (f : Dram → Dram) (j : Nat) : (s.modDram f).nv j = s.nv j := rfl
@[simp] theorem State.drw_modDram (f : Dram → Dram) (j : Nat) : (s.modDram f).drw j = s.drw j := rfl
@[simp] theorem State.tport_modDram (f : Dram → Dram) (j : Nat) : (s.modDram f).tport j = s.tport j := rfl
@[simp] theorem State.nport_modDram (f : Dram → Dram) (j : Nat) : (s.modDram f).nport j = s.nport j := rfl
@[simp] theorem State.conn_modDram (f : Dram → Dram) (j : Nat) : (s.modDram f).conn j = s.conn j := rfl
@[simp] theorem State.grant_modDram (f : Dram → Dram) (j : Nat) : (s.modDram f).grant j = s.grant j := rfl
@[simp] theorem State.rail_modDram (f : Dram → Dram) (j : Nat) : (s.modDram f).rail j = s.rail j := rfl
@[simp] theorem State.island_modDram (f : Dram → Dram) (j : Nat) : (s.modDram f).island j = s.island j := rfl
@[simp] theorem State.mbx_modDram (f : Dram → Dram) (j : Nat) : (s.modDram f).mbx j = s.mbx j := rfl
@[simp] theorem State.engine_modDram (f : Dram → Dram) (j : Nat) : (s.modDram f).engine j = s.engine j := rfl
@[simp] theorem State.fbank_modDram (f : Dram → Dram) (j : Nat) : (s.modDram f).fbank j = s.fbank j := rfl
@[simp] theorem State.sched_modDram (f : Dram → Dram) (j : Nat) : (s.modDram f).sched j = s.sched j := rfl
@[simp] theorem State.ns_modDram (f : Dram → Dram) (j : Nat) : (s.modDram f).ns j = s.ns j := rfl
@[simp] theorem State.chan_modFlash (f : Flash → Flash) (j : Nat) : (s.modFlash f).chan j = s.chan j := rfl
@[simp] theorem State.grp_modFlash (f : Flash → Flash) (j : Nat) : (s.modFlash f).grp j = s.grp j := rfl
@[simp] theorem State.easel_modFlash (f : Flash → Flash) (j : Nat) : (s.modFlash f).easel j = s.easel j := rfl
@[simp] theorem State.nv_modFlash (f : Flash → Flash) (j : Nat) : (s.modFlash f).nv j = s.nv j := rfl
@[simp] theorem State.drw_modFlash (f : Flash → Flash) (j : Nat) : (s.modFlash f).drw j = s.drw j := rfl
@[simp] theorem State.tport_modFlash (f : Flash → Flash) (j : Nat) : (s.modFlash f).tport j = s.tport j := rfl
@[simp] theorem State.nport_modFlash (f : Flash → Flash) (j : Nat) : (s.modFlash f).nport j = s.nport j := rfl
@[simp] theorem State.conn_modFlash (f : Flash → Flash) (j : Nat) : (s.modFlash f).conn j = s.conn j := rfl
@[simp] theorem State.grant_modFlash (f : Flash → Flash) (j : Nat) : (s.modFlash f).grant j = s.grant j := rfl
@[simp] theorem State.rail_modFlash (f : Flash → Flash) (j : Nat) : (s.modFlash f).rail j = s.rail j := rfl
@[simp] theorem State.drch_modFlash (f : Flash → Flash) (j : Nat) : (s.modFlash f).drch j = s.drch j := rfl
@[simp] theorem State.island_modFlash (f : Flash → Flash) (j : Nat) : (s.modFlash f).island j = s.island j := rfl
@[simp] theorem State.mbx_modFlash (f : Flash → Flash) (j : Nat) : (s.modFlash f).mbx j = s.mbx j := rfl
@[simp] theorem State.engine_modFlash (f : Flash → Flash) (j : Nat) : (s.modFlash f).engine j = s.engine j := rfl
@[simp] theorem State.sched_modFlash (f : Flash → Flash) (j : Nat) : (s.modFlash f).sched j = s.sched j := rfl
@[simp] theorem State.ns_modFlash (f : Flash → Flash) (j : Nat) : (s.modFlash f).ns j = s.ns j := rfl
@[simp] theorem State.chan_modTest (f : Test → Test) (j : Nat) : (s.modTest f).chan j = s.chan j := rfl
@[simp] theorem State.grp_modTest (f : Test → Test) (j : Nat) : (s.modTest f).grp j = s.grp j := rfl
@[simp] theorem State.easel_modTest (f : Test → Test) (j : Nat) : (s.modTest f).easel j = s.easel j := rfl
@[simp] theorem State.nv_modTest (f : Test → Test) (j : Nat) : (s.modTest f).nv j = s.nv j := rfl
@[simp] theorem State.drw_modTest (f : Test → Test) (j : Nat) : (s.modTest f).drw j = s.drw j := rfl
@[simp] theorem State.tport_modTest (f : Test → Test) (j : Nat) : (s.modTest f).tport j = s.tport j := rfl
@[simp] theorem State.nport_modTest (f : Test → Test) (j : Nat) : (s.modTest f).nport j = s.nport j := rfl
@[simp] theorem State.conn_modTest (f : Test → Test) (j : Nat) : (s.modTest f).conn j = s.conn j := rfl
@[simp] theorem State.grant_modTest (f : Test → Test) (j : Nat) : (s.modTest f).grant j = s.grant j := rfl
@[simp] theorem State.rail_modTest (f : Test → Test) (j : Nat) : (s.modTest f).rail j = s.rail j := rfl
@[simp] theorem State.drch_modTest (f : Test → Test) (j : Nat) : (s.modTest f).drch j = s.drch j := rfl
@[simp] theorem State.island_modTest (f : Test → Test) (j : Nat) : (s.modTest f).island j = s.island j := rfl
@[simp] theorem State.mbx_modTest (f : Test → Test) (j : Nat) : (s.modTest f).mbx j = s.mbx j := rfl
@[simp] theorem State.engine_modTest (f : Test → Test) (j : Nat) : (s.modTest f).engine j = s.engine j := rfl
@[simp] theorem State.fbank_modTest (f : Test → Test) (j : Nat) : (s.modTest f).fbank j = s.fbank j := rfl
@[simp] theorem State.sched_modTest (f : Test → Test) (j : Nat) : (s.modTest f).sched j = s.sched j := rfl
@[simp] theorem State.ns_modTest (f : Test → Test) (j : Nat) : (s.modTest f).ns j = s.ns j := rfl
@[simp] theorem State.chan_modEv (f : Events → Events) (j : Nat) : (s.modEv f).chan j = s.chan j := rfl
@[simp] theorem State.grp_modEv (f : Events → Events) (j : Nat) : (s.modEv f).grp j = s.grp j := rfl
@[simp] theorem State.easel_modEv (f : Events → Events) (j : Nat) : (s.modEv f).easel j = s.easel j := rfl
@[simp] theorem State.nv_modEv (f : Events → Events) (j : Nat) : (s.modEv f).nv j = s.nv j := rfl
@[simp] theorem State.drw_modEv (f : Events → Events) (j : Nat) : (s.modEv f).drw j = s.drw j := rfl
@[simp] theorem State.tport_modEv (f : Events → Events) (j : Nat) : (s.modEv f).tport j = s.tport j := rfl
@[simp] theorem State.nport_modEv (f : Events → Events) (j : Nat) : (s.modEv f).nport j = s.nport j := rfl
@[simp] theorem State.conn_modEv (f : Events → Events) (j : Nat) : (s.modEv f).conn j = s.conn j := rfl
@[simp] theorem State.grant_modEv (f : Events → Events) (j : Nat) : (s.modEv f).grant j = s.grant j := rfl
@[simp] theorem State.rail_modEv (f : Events → Events) (j : Nat) : (s.modEv f).rail j = s.rail j := rfl
@[simp] theorem State.drch_modEv (f : Events → Events) (j : Nat) : (s.modEv f).drch j = s.drch j := rfl
@[simp] theorem State.mbx_modEv (f : Events → Events) (j : Nat) : (s.modEv f).mbx j = s.mbx j := rfl
@[simp] theorem State.engine_modEv (f : Events → Events) (j : Nat) : (s.modEv f).engine j = s.engine j := rfl
@[simp] theorem State.fbank_modEv (f : Events → Events) (j : Nat) : (s.modEv f).fbank j = s.fbank j := rfl
@[simp] theorem State.sched_modEv (f : Events → Events) (j : Nat) : (s.modEv f).sched j = s.sched j := rfl
@[simp] theorem State.ns_modEv (f : Events → Events) (j : Nat) : (s.modEv f).ns j = s.ns j := rfl
@[simp] theorem State.chan_modDrch (n : Nat) (f : DrChan → DrChan) (j : Nat) : (s.modDrch n f).chan j = s.chan j := rfl
@[simp] theorem State.grp_modDrch (n : Nat) (f : DrChan → DrChan) (j : Nat) : (s.modDrch n f).grp j = s.grp j := rfl
@[simp] theorem State.easel_modDrch (n : Nat) (f : DrChan → DrChan) (j : Nat) : (s.modDrch n f).easel j = s.easel j := rfl
@[simp] theorem State.nv_modDrch (n : Nat) (f : DrChan → DrChan) (j : Nat) : (s.modDrch n f).nv j = s.nv j := rfl
@[simp] theorem State.drw_modDrch (n : Nat) (f : DrChan → DrChan) (j : Nat) : (s.modDrch n f).drw j = s.drw j := rfl
@[simp] theorem State.tport_modDrch (n : Nat) (f : DrChan → DrChan) (j : Nat) : (s.modDrch n f).tport j = s.tport j := rfl
@[simp] theorem State.nport_modDrch (n : Nat) (f : DrChan → DrChan) (j : Nat) : (s.modDrch n f).nport j = s.nport j := rfl
@[simp] theorem State.conn_modDrch (n : Nat) (f : DrChan → DrChan) (j : Nat) : (s.modDrch n f).conn j = s.conn j := rfl
@[simp] theorem State.grant_modDrch (n : Nat) (f : DrChan → DrChan) (j : Nat) : (s.modDrch n f).grant j = s.grant j := rfl
@[simp] theorem State.rail_modDrch (n : Nat) (f : DrChan → DrChan) (j : Nat) : (s.modDrch n f).rail j = s.rail j := rfl
@[simp] theorem State.island_modDrch (n : Nat) (f : DrChan → DrChan) (j : Nat) : (s.modDrch n f).island j = s.island j := rfl
@[simp] theorem State.mbx_modDrch (n : Nat) (f : DrChan → DrChan) (j : Nat) : (s.modDrch n f).mbx j = s.mbx j := rfl
@[simp] theorem State.engine_modDrch (n : Nat) (f : DrChan → DrChan) (j : Nat) : (s.modDrch n f).engine j = s.engine j := rfl
@[simp] theorem State.fbank_modDrch (n : Nat) (f : DrChan → DrChan) (j : Nat) : (s.modDrch n f).fbank j = s.fbank j := rfl
@[simp] theorem State.sched_modDrch (n : Nat) (f : DrChan → DrChan) (j : Nat) : (s.modDrch n f).sched j = s.sched j := rfl
@[simp] theorem State.ns_modDrch (n : Nat) (f : DrChan → DrChan) (j : Nat) : (s.modDrch n f).ns j = s.ns j := rfl
@[simp] theorem State.chan_modIsland (i : Nat) (f : Island → Island) (j : Nat) : (s.modIsland i f).chan j = s.chan j := rfl
@[simp] theorem State.grp_modIsland (i : Nat) (f : Island → Island) (j : Nat) : (s.modIsland i f).grp j = s.grp j := rfl
@[simp] theorem State.easel_modIsland (i : Nat) (f : Island → Island) (j : Nat) : (s.modIsland i f).easel j = s.easel j := rfl
@[simp] theorem State.nv_modIsland (i : Nat) (f : Island → Island) (j : Nat) : (s.modIsland i f).nv j = s.nv j := rfl
@[simp] theorem State.drw_modIsland (i : Nat) (f : Island → Island) (j : Nat) : (s.modIsland i f).drw j = s.drw j := rfl
@[simp] theorem State.tport_modIsland (i : Nat) (f : Island → Island) (j : Nat) : (s.modIsland i f).tport j = s.tport j := rfl
@[simp] theorem State.nport_modIsland (i : Nat) (f : Island → Island) (j : Nat) : (s.modIsland i f).nport j = s.nport j := rfl
@[simp] theorem State.conn_modIsland (i : Nat) (f : Island → Island) (j : Nat) : (s.modIsland i f).conn j = s.conn j := rfl
@[simp] theorem State.grant_modIsland (i : Nat) (f : Island → Island) (j : Nat) : (s.modIsland i f).grant j = s.grant j := rfl
@[simp] theorem State.rail_modIsland (i : Nat) (f : Island → Island) (j : Nat) : (s.modIsland i f).rail j = s.rail j := rfl
@[simp] theorem State.drch_modIsland (i : Nat) (f : Island → Island) (j : Nat) : (s.modIsland i f).drch j = s.drch j := rfl
@[simp] theorem State.mbx_modIsland (i : Nat) (f : Island → Island) (j : Nat) : (s.modIsland i f).mbx j = s.mbx j := rfl
@[simp] theorem State.engine_modIsland (i : Nat) (f : Island → Island) (j : Nat) : (s.modIsland i f).engine j = s.engine j := rfl
@[simp] theorem State.fbank_modIsland (i : Nat) (f : Island → Island) (j : Nat) : (s.modIsland i f).fbank j = s.fbank j := rfl
@[simp] theorem State.sched_modIsland (i : Nat) (f : Island → Island) (j : Nat) : (s.modIsland i f).sched j = s.sched j := rfl
@[simp] theorem State.ns_modIsland (i : Nat) (f : Island → Island) (j : Nat) : (s.modIsland i f).ns j = s.ns j := rfl
@[simp] theorem State.chan_modMbx (m : Nat) (f : Mbx → Mbx) (j : Nat) : (s.modMbx m f).chan j = s.chan j := rfl
@[simp] theorem State.grp_modMbx (m : Nat) (f : Mbx → Mbx) (j : Nat) : (s.modMbx m f).grp j = s.grp j := rfl
@[simp] theorem State.easel_modMbx (m : Nat) (f : Mbx → Mbx) (j : Nat) : (s.modMbx m f).easel j = s.easel j := rfl
@[simp] theorem State.nv_modMbx (m : Nat) (f : Mbx → Mbx) (j : Nat) : (s.modMbx m f).nv j = s.nv j := rfl
@[simp] theorem State.drw_modMbx (m : Nat) (f : Mbx → Mbx) (j : Nat) : (s.modMbx m f).drw j = s.drw j := rfl
@[simp] theorem State.tport_modMbx (m : Nat) (f : Mbx → Mbx) (j : Nat) : (s.modMbx m f).tport j = s.tport j := rfl
@[simp] theorem State.nport_modMbx (m : Nat) (f : Mbx → Mbx) (j : Nat) : (s.modMbx m f).nport j = s.nport j := rfl
@[simp] theorem State.conn_modMbx (m : Nat) (f : Mbx → Mbx) (j : Nat) : (s.modMbx m f).conn j = s.conn j := rfl
@[simp] theorem State.grant_modMbx (m : Nat) (f : Mbx → Mbx) (j : Nat) : (s.modMbx m f).grant j = s.grant j := rfl
@[simp] theorem State.rail_modMbx (m : Nat) (f : Mbx → Mbx) (j : Nat) : (s.modMbx m f).rail j = s.rail j := rfl
@[simp] theorem State.drch_modMbx (m : Nat) (f : Mbx → Mbx) (j : Nat) : (s.modMbx m f).drch j = s.drch j := rfl
@[simp] theorem State.island_modMbx (m : Nat) (f : Mbx → Mbx) (j : Nat) : (s.modMbx m f).island j = s.island j := rfl
@[simp] theorem State.engine_modMbx (m : Nat) (f : Mbx → Mbx) (j : Nat) : (s.modMbx m f).engine j = s.engine j := rfl
@[simp] theorem State.fbank_modMbx (m : Nat) (f : Mbx → Mbx) (j : Nat) : (s.modMbx m f).fbank j = s.fbank j := rfl
@[simp] theorem State.chan_modEngine (e : Nat) (f : Engine → Engine) (j : Nat) : (s.modEngine e f).chan j = s.chan j := rfl
@[simp] theorem State.grp_modEngine (e : Nat) (f : Engine → Engine) (j : Nat) : (s.modEngine e f).grp j = s.grp j := rfl
@[simp] theorem State.easel_modEngine (e : Nat) (f : Engine → Engine) (j : Nat) : (s.modEngine e f).easel j = s.easel j := rfl
@[simp] theorem State.nv_modEngine (e : Nat) (f : Engine → Engine) (j : Nat) : (s.modEngine e f).nv j = s.nv j := rfl
@[simp] theorem State.drw_modEngine (e : Nat) (f : Engine → Engine) (j : Nat) : (s.modEngine e f).drw j = s.drw j := rfl
@[simp] theorem State.tport_modEngine (e : Nat) (f : Engine → Engine) (j : Nat) : (s.modEngine e f).tport j = s.tport j := rfl
@[simp] theorem State.nport_modEngine (e : Nat) (f : Engine → Engine) (j : Nat) : (s.modEngine e f).nport j = s.nport j := rfl
@[simp] theorem State.conn_modEngine (e : Nat) (f : Engine → Engine) (j : Nat) : (s.modEngine e f).conn j = s.conn j := rfl
@[simp] theorem State.grant_modEngine (e : Nat) (f : Engine → Engine) (j : Nat) : (s.modEngine e f).grant j = s.grant j := rfl
@[simp] theorem State.rail_modEngine (e : Nat) (f : Engine → Engine) (j : Nat) : (s.modEngine e f).rail j = s.rail j := rfl
@[simp] theorem State.drch_modEngine (e : Nat) (f : Engine → Engine) (j : Nat) : (s.modEngine e f).drch j = s.drch j := rfl
@[simp] theorem State.island_modEngine (e : Nat) (f : Engine → Engine) (j : Nat) : (s.modEngine e f).island j = s.island j := rfl
@[simp] theorem State.mbx_modEngine (e : Nat) (f : Engine → Engine) (j : Nat) : (s.modEngine e f).mbx j = s.mbx j := rfl
@[simp] theorem State.fbank_modEngine (e : Nat) (f : Engine → Engine) (j : Nat) : (s.modEngine e f).fbank j = s.fbank j := rfl
@[simp] theorem State.sched_modEngine (e : Nat) (f : Engine → Engine) (j : Nat) : (s.modEngine e f).sched j = s.sched j := rfl
@[simp] theorem State.ns_modEngine (e : Nat) (f : Engine → Engine) (j : Nat) : (s.modEngine e f).ns j = s.ns j := rfl
@[simp] theorem State.chan_modFbank (b : Nat) (f : FBank → FBank) (j : Nat) : (s.modFbank b f).chan j = s.chan j := rfl
@[simp] theorem State.grp_modFbank (b : Nat) (f : FBank → FBank) (j : Nat) : (s.modFbank b f).grp j = s.grp j := rfl
@[simp] theorem State.easel_modFbank (b : Nat) (f : FBank → FBank) (j : Nat) : (s.modFbank b f).easel j = s.easel j := rfl
@[simp] theorem State.nv_modFbank (b : Nat) (f : FBank → FBank) (j : Nat) : (s.modFbank b f).nv j = s.nv j := rfl
@[simp] theorem State.drw_modFbank (b : Nat) (f : FBank → FBank) (j : Nat) : (s.modFbank b f).drw j = s.drw j := rfl
@[simp] theorem State.tport_modFbank (b : Nat) (f : FBank → FBank) (j : Nat) : (s.modFbank b f).tport j = s.tport j := rfl
@[simp] theorem State.nport_modFbank (b : Nat) (f : FBank → FBank) (j : Nat) : (s.modFbank b f).nport j = s.nport j := rfl
@[simp] theorem State.conn_modFbank (b : Nat) (f : FBank → FBank) (j : Nat) : (s.modFbank b f).conn j = s.conn j := rfl
@[simp] theorem State.grant_modFbank (b : Nat) (f : FBank → FBank) (j : Nat) : (s.modFbank b f).grant j = s.grant j := rfl
@[simp] theorem State.rail_modFbank (b : Nat) (f : FBank → FBank) (j : Nat) : (s.modFbank b f).rail j = s.rail j := rfl
@[simp] theorem State.drch_modFbank (b : Nat) (f : FBank → FBank) (j : Nat) : (s.modFbank b f).drch j = s.drch j := rfl
@[simp] theorem State.island_modFbank (b : Nat) (f : FBank → FBank) (j : Nat) : (s.modFbank b f).island j = s.island j := rfl
@[simp] theorem State.mbx_modFbank (b : Nat) (f : FBank → FBank) (j : Nat) : (s.modFbank b f).mbx j = s.mbx j := rfl
@[simp] theorem State.engine_modFbank (b : Nat) (f : FBank → FBank) (j : Nat) : (s.modFbank b f).engine j = s.engine j := rfl
@[simp] theorem State.sched_modFbank (b : Nat) (f : FBank → FBank) (j : Nat) : (s.modFbank b f).sched j = s.sched j := rfl
@[simp] theorem State.ns_modFbank (b : Nat) (f : FBank → FBank) (j : Nat) : (s.modFbank b f).ns j = s.ns j := rfl
@[simp] theorem State.chan_modSched (h : Nat) (f : Sched → Sched) (j : Nat) : (s.modSched h f).chan j = s.chan j := rfl
@[simp] theorem State.grp_modSched (h : Nat) (f : Sched → Sched) (j : Nat) : (s.modSched h f).grp j = s.grp j := rfl
@[simp] theorem State.easel_modSched (h : Nat) (f : Sched → Sched) (j : Nat) : (s.modSched h f).easel j = s.easel j := rfl
@[simp] theorem State.nv_modSched (h : Nat) (f : Sched → Sched) (j : Nat) : (s.modSched h f).nv j = s.nv j := rfl
@[simp] theorem State.drw_modSched (h : Nat) (f : Sched → Sched) (j : Nat) : (s.modSched h f).drw j = s.drw j := rfl
@[simp] theorem State.tport_modSched (h : Nat) (f : Sched → Sched) (j : Nat) : (s.modSched h f).tport j = s.tport j := rfl
@[simp] theorem State.nport_modSched (h : Nat) (f : Sched → Sched) (j : Nat) : (s.modSched h f).nport j = s.nport j := rfl
@[simp] theorem State.conn_modSched (h : Nat) (f : Sched → Sched) (j : Nat) : (s.modSched h f).conn j = s.conn j := rfl
@[simp] theorem State.grant_modSched (h : Nat) (f : Sched → Sched) (j : Nat) : (s.modSched h f).grant j = s.grant j := rfl
@[simp] theorem State.rail_modSched (h : Nat) (f : Sched → Sched) (j : Nat) : (s.modSched h f).rail j = s.rail j := rfl
@[simp] theorem State.drch_modSched (h : Nat) (f : Sched → Sched) (j : Nat) : (s.modSched h f).drch j = s.drch j := rfl
@[simp] theorem State.island_modSched (h : Nat) (f : Sched → Sched) (j : Nat) : (s.modSched h f).island j = s.island j := rfl
@[simp] theorem State.engine_modSched (h : Nat) (f : Sched → Sched) (j : Nat) : (s.modSched h f).engine j = s.engine j := rfl
@[simp] theorem State.fbank_modSched (h : Nat) (f : Sched → Sched) (j : Nat) : (s.modSched h f).fbank j = s.fbank j := rfl
@[simp] theorem State.chan_send (o : Out) (j : Nat) : (s.send o).chan j = s.chan j := rfl
@[simp] theorem State.grp_send (o : Out) (j : Nat) : (s.send o).grp j = s.grp j := rfl
@[simp] theorem State.easel_send (o : Out) (j : Nat) : (s.send o).easel j = s.easel j := rfl
@[simp] theorem State.nv_send (o : Out) (j : Nat) : (s.send o).nv j = s.nv j := rfl
@[simp] theorem State.drw_send (o : Out) (j : Nat) : (s.send o).drw j = s.drw j := rfl
@[simp] theorem State.tport_send (o : Out) (j : Nat) : (s.send o).tport j = s.tport j := rfl
@[simp] theorem State.nport_send (o : Out) (j : Nat) : (s.send o).nport j = s.nport j := rfl
@[simp] theorem State.conn_send (o : Out) (j : Nat) : (s.send o).conn j = s.conn j := rfl
@[simp] theorem State.grant_send (o : Out) (j : Nat) : (s.send o).grant j = s.grant j := rfl
@[simp] theorem State.rail_send (o : Out) (j : Nat) : (s.send o).rail j = s.rail j := rfl
@[simp] theorem State.drch_send (o : Out) (j : Nat) : (s.send o).drch j = s.drch j := rfl
@[simp] theorem State.island_send (o : Out) (j : Nat) : (s.send o).island j = s.island j := rfl
@[simp] theorem State.mbx_send (o : Out) (j : Nat) : (s.send o).mbx j = s.mbx j := rfl
@[simp] theorem State.engine_send (o : Out) (j : Nat) : (s.send o).engine j = s.engine j := rfl
@[simp] theorem State.fbank_send (o : Out) (j : Nat) : (s.send o).fbank j = s.fbank j := rfl
@[simp] theorem State.sched_send (o : Out) (j : Nat) : (s.send o).sched j = s.sched j := rfl
@[simp] theorem State.ns_send (o : Out) (j : Nat) : (s.send o).ns j = s.ns j := rfl

end Sys2Proof.Machine
end

