-- ==== Sys2Proof/Laws/Ops.lean ====
section
/-! SUPPORT. What the shared operations can do: each lemma says all that an operation changes. -/

namespace Sys2Proof.Machine

open Sys2Proof

/-! Loops. -/

@[simp] theorem forEach_nil {σ α : Type} (f : α → σ → σ) (s : σ) : forEach [] f s = s := rfl
@[simp] theorem forEach_cons {σ α : Type} (a : α) (l : List α) (f : α → σ → σ) (s : σ) :
    forEach (a :: l) f s = forEach l f (f a s) := rfl

/-- What every turn of a loop keeps, the loop keeps. -/
theorem forEach_keeps {σ α : Type} {P : σ → Prop} {f : α → σ → σ} (l : List α) (hf : ∀ a s, P s → P (f a s)) {s : σ} (h : P s) :
    P (forEach l f s) := by
  induction l generalizing s with
  | nil => exact h
  | cons a l ih => exact ih (hf a s h)

/-! Events and records. -/

theorem Reports.refl (s : State) : Reports s s := rfl

theorem Reports.trans {s t u : State} (h : Reports s t) (k : Reports t u) : Reports s u := by
  unfold Reports at *; rw [k, h]

theorem Reports.ite {s a b : State} {c : Prop} [Decidable c] (h : Reports s a) (k : Reports s b) : Reports s (if c then a else b) := by
  split <;> assumption

/-- A loop whose turns report at most reports at most. -/
theorem forEach_reports {α : Type} {f : α → State → State} (l : List α) (hf : ∀ a s, Reports s (f a s)) (s : State) :
    Reports s (forEach l f s) :=
  forEach_keeps (P := Reports s) l (fun a t h => h.trans (hf a t)) (Reports.refl s)

theorem send_reports (o : Out) (s : State) : Reports s (s.send o) := rfl
theorem modEv_reports (f : Events → Events) (s : State) : Reports s (s.modEv f) := rfl
theorem modTest_reports (f : Test → Test) (s : State) : Reports s (s.modTest f) := rfl
theorem modFlash_reports (f : Flash → Flash) (s : State) : Reports s (s.modFlash f) := rfl

theorem sendVector_reports (v : Nat) (s : State) : Reports s (sendVector v s) := by
  unfold sendVector; split <;> rfl

theorem raiseBits_reports (x : Nat) (s : State) : Reports s (raiseBits x s) := by
  unfold raiseBits
  have h (t : State) (l : List Nat) : Reports t (forEach l (fun n s => s.send (.core n x)) t) := forEach_reports l (fun n u => send_reports (.core n x) u) t
  exact Reports.ite ((Reports.trans (modEv_reports _ s) (h _ _)).trans (sendVector_reports _ _)) (Reports.trans (modEv_reports _ s) (h _ _))

theorem flashStart_reports (b : Nat) (s : State) : Reports s (flashStart b s) := by
  unfold flashStart State.modFbank
  exact modFlash_reports _ s

theorem flashQueue_reports (b : Nat) (o : FOp) (s : State) : Reports s (flashQueue b o s) :=
  (modFlash_reports _ s).trans (flashStart_reports b _)

theorem critPut_reports (r : Rec) (s : State) : Reports s (critPut r s).1 := by
  unfold critPut
  exact (Reports.ite ((modTest_reports _ s).trans (flashQueue_reports _ _ _)) (modTest_reports _ s)).trans (flashQueue_reports _ _ _)

theorem recPut_reports (ty src : Nat) (crit : Bool) (body : Bytes) (s : State) : Reports s (recPut ty src crit body s).1 := by
  have key (r : Rec) (p : State × Nat) (h : Reports s p.1) : Reports s
      (if crit then ((critPut r p.1).1, p.2, (critPut r p.1).2) else (p.1, p.2, false)).1 := by
    split
    · exact h.trans (critPut_reports r p.1)
    · exact h
  unfold recPut
  split
  · rfl
  · have pick (c : Prop) [Decidable c] (a b : State × Nat) (h : Reports s a.1) (k : Reports s b.1) :
        Reports s (if c then a else b).1 := by split <;> assumption
    exact key _ _ (pick _ _ _ rfl rfl)

theorem record_reports (ty src : Nat) (crit : Bool) (body : Bytes) (s : State) : Reports s (record ty src crit body s) := by
  have h := recPut_reports ty src crit body s
  unfold record
  simp only []
  generalize recPut ty src crit body s = p at h
  have k : Reports s (if p.2.1 = 0 then p.1 else
      (recPut 1 985 false (eventBody 985 0 p.2.1) (raiseBits 985 (recPut 2 0xFFFF false (dropBody p.2.1
        (match s.test.ring with | r :: _ => r.seq | [] => 0)
        ((match s.test.ring with | r :: _ => r.seq | [] => 0) + BitVec.ofNat 64 (p.2.1 - 1))) p.1).1)).1) := by
    split
    · exact h
    · exact ((h.trans (recPut_reports _ _ _ _ _)).trans (raiseBits_reports _ _)).trans (recPut_reports _ _ _ _ _)
  split
  · exact (k.trans (raiseBits_reports _ _)).trans (recPut_reports _ _ _ _ _)
  · exact k

theorem raiseWith_reports (x unit detail : Nat) (s : State) : Reports s (raiseWith x unit detail s) := by
  unfold raiseWith
  split
  · rfl
  · exact (raiseBits_reports x s).trans (record_reports _ _ _ _ _)

theorem raise_reports (x : Nat) (s : State) : Reports s (raise x s) := raiseWith_reports x 0 0 s

/-! What a report keeps. -/

theorem Reports.pending {s t : State} (h : Reports s t) : t.pending = s.pending := by unfold Reports at h; rw [h]
theorem Reports.now {s t : State} (h : Reports s t) : t.now = s.now := by unfold Reports at h; rw [h]
theorem Reports.draws {s t : State} (h : Reports s t) : t.draws = s.draws := by unfold Reports at h; rw [h]
theorem Reports.nextId {s t : State} (h : Reports s t) : t.nextId = s.nextId := by unfold Reports at h; rw [h]
theorem Reports.dura {s t : State} (h : Reports s t) : t.dura = s.dura := by unfold Reports at h; rw [h]
theorem Reports.sump {s t : State} (h : Reports s t) : t.sump = s.sump := by unfold Reports at h; rw [h]
theorem Reports.chans {s t : State} (h : Reports s t) : t.chans = s.chans := by unfold Reports at h; rw [h]
theorem Reports.groups {s t : State} (h : Reports s t) : t.groups = s.groups := by unfold Reports at h; rw [h]
theorem Reports.easels {s t : State} (h : Reports s t) : t.easels = s.easels := by unfold Reports at h; rw [h]
theorem Reports.gnv {s t : State} (h : Reports s t) : t.gnv = s.gnv := by unfold Reports at h; rw [h]
theorem Reports.ops {s t : State} (h : Reports s t) : t.ops = s.ops := by unfold Reports at h; rw [h]
theorem Reports.misses {s t : State} (h : Reports s t) : t.misses = s.misses := by unfold Reports at h; rw [h]
theorem Reports.drawers {s t : State} (h : Reports s t) : t.drawers = s.drawers := by unfold Reports at h; rw [h]
theorem Reports.twin {s t : State} (h : Reports s t) : t.twin = s.twin := by unfold Reports at h; rw [h]
theorem Reports.tports {s t : State} (h : Reports s t) : t.tports = s.tports := by unfold Reports at h; rw [h]
theorem Reports.nports {s t : State} (h : Reports s t) : t.nports = s.nports := by unfold Reports at h; rw [h]
theorem Reports.xport {s t : State} (h : Reports s t) : t.xport = s.xport := by unfold Reports at h; rw [h]
theorem Reports.host {s t : State} (h : Reports s t) : t.host = s.host := by unfold Reports at h; rw [h]
theorem Reports.ctl {s t : State} (h : Reports s t) : t.ctl = s.ctl := by unfold Reports at h; rw [h]
theorem Reports.cipher {s t : State} (h : Reports s t) : t.cipher = s.cipher := by unfold Reports at h; rw [h]
theorem Reports.power {s t : State} (h : Reports s t) : t.power = s.power := by unfold Reports at h; rw [h]
theorem Reports.prime {s t : State} (h : Reports s t) : t.prime = s.prime := by unfold Reports at h; rw [h]
theorem Reports.dram {s t : State} (h : Reports s t) : t.dram = s.dram := by unfold Reports at h; rw [h]
theorem Reports.plat {s t : State} (h : Reports s t) : t.plat = s.plat := by unfold Reports at h; rw [h]
theorem Reports.chan {s t : State} (h : Reports s t) (j : Nat) : t.chan j = s.chan j := by unfold Reports at h; rw [h]; rfl
theorem Reports.grp {s t : State} (h : Reports s t) (j : Nat) : t.grp j = s.grp j := by unfold Reports at h; rw [h]; rfl
theorem Reports.easel {s t : State} (h : Reports s t) (j : Nat) : t.easel j = s.easel j := by unfold Reports at h; rw [h]; rfl
theorem Reports.nv {s t : State} (h : Reports s t) (j : Nat) : t.nv j = s.nv j := by unfold Reports at h; rw [h]; rfl
theorem Reports.drw {s t : State} (h : Reports s t) (j : Nat) : t.drw j = s.drw j := by unfold Reports at h; rw [h]; rfl
theorem Reports.tport {s t : State} (h : Reports s t) (j : Nat) : t.tport j = s.tport j := by unfold Reports at h; rw [h]; rfl
theorem Reports.nport {s t : State} (h : Reports s t) (j : Nat) : t.nport j = s.nport j := by unfold Reports at h; rw [h]; rfl
theorem Reports.conn {s t : State} (h : Reports s t) (j : Nat) : t.conn j = s.conn j := by unfold Reports at h; rw [h]; rfl
theorem Reports.grant {s t : State} (h : Reports s t) (j : Nat) : t.grant j = s.grant j := by unfold Reports at h; rw [h]; rfl
theorem Reports.rail {s t : State} (h : Reports s t) (j : Nat) : t.rail j = s.rail j := by unfold Reports at h; rw [h]; rfl
theorem Reports.drch {s t : State} (h : Reports s t) (j : Nat) : t.drch j = s.drch j := by unfold Reports at h; rw [h]; rfl
theorem Reports.mbx {s t : State} (h : Reports s t) (j : Nat) : t.mbx j = s.mbx j := by unfold Reports at h; rw [h]; rfl
theorem Reports.engine {s t : State} (h : Reports s t) (j : Nat) : t.engine j = s.engine j := by unfold Reports at h; rw [h]; rfl
theorem Reports.ns {s t : State} (h : Reports s t) (j : Nat) : t.ns j = s.ns j := by unfold Reports at h; rw [h]; rfl
theorem Reports.sched {s t : State} (h : Reports s t) (j : Nat) : t.sched j = s.sched j := by unfold Reports at h; rw [h]; rfl

/-! Fields that `raiseBits` keeps. -/

@[simp] theorem raiseBits_pending (x : Nat) (s : State) : (raiseBits x s).pending = s.pending := (raiseBits_reports x s).pending
@[simp] theorem raiseBits_now (x : Nat) (s : State) : (raiseBits x s).now = s.now := (raiseBits_reports x s).now
@[simp] theorem raiseBits_draws (x : Nat) (s : State) : (raiseBits x s).draws = s.draws := (raiseBits_reports x s).draws
@[simp] theorem raiseBits_nextId (x : Nat) (s : State) : (raiseBits x s).nextId = s.nextId := (raiseBits_reports x s).nextId
@[simp] theorem raiseBits_dura (x : Nat) (s : State) : (raiseBits x s).dura = s.dura := (raiseBits_reports x s).dura
@[simp] theorem raiseBits_sump (x : Nat) (s : State) : (raiseBits x s).sump = s.sump := (raiseBits_reports x s).sump
@[simp] theorem raiseBits_chans (x : Nat) (s : State) : (raiseBits x s).chans = s.chans := (raiseBits_reports x s).chans
@[simp] theorem raiseBits_groups (x : Nat) (s : State) : (raiseBits x s).groups = s.groups := (raiseBits_reports x s).groups
@[simp] theorem raiseBits_easels (x : Nat) (s : State) : (raiseBits x s).easels = s.easels := (raiseBits_reports x s).easels
@[simp] theorem raiseBits_gnv (x : Nat) (s : State) : (raiseBits x s).gnv = s.gnv := (raiseBits_reports x s).gnv
@[simp] theorem raiseBits_ops (x : Nat) (s : State) : (raiseBits x s).ops = s.ops := (raiseBits_reports x s).ops
@[simp] theorem raiseBits_misses (x : Nat) (s : State) : (raiseBits x s).misses = s.misses := (raiseBits_reports x s).misses
@[simp] theorem raiseBits_drawers (x : Nat) (s : State) : (raiseBits x s).drawers = s.drawers := (raiseBits_reports x s).drawers
@[simp] theorem raiseBits_twin (x : Nat) (s : State) : (raiseBits x s).twin = s.twin := (raiseBits_reports x s).twin
@[simp] theorem raiseBits_tports (x : Nat) (s : State) : (raiseBits x s).tports = s.tports := (raiseBits_reports x s).tports
@[simp] theorem raiseBits_nports (x : Nat) (s : State) : (raiseBits x s).nports = s.nports := (raiseBits_reports x s).nports
@[simp] theorem raiseBits_xport (x : Nat) (s : State) : (raiseBits x s).xport = s.xport := (raiseBits_reports x s).xport
@[simp] theorem raiseBits_host (x : Nat) (s : State) : (raiseBits x s).host = s.host := (raiseBits_reports x s).host
@[simp] theorem raiseBits_ctl (x : Nat) (s : State) : (raiseBits x s).ctl = s.ctl := (raiseBits_reports x s).ctl
@[simp] theorem raiseBits_cipher (x : Nat) (s : State) : (raiseBits x s).cipher = s.cipher := (raiseBits_reports x s).cipher
@[simp] theorem raiseBits_power (x : Nat) (s : State) : (raiseBits x s).power = s.power := (raiseBits_reports x s).power
@[simp] theorem raiseBits_prime (x : Nat) (s : State) : (raiseBits x s).prime = s.prime := (raiseBits_reports x s).prime
@[simp] theorem raiseBits_dram (x : Nat) (s : State) : (raiseBits x s).dram = s.dram := (raiseBits_reports x s).dram
@[simp] theorem raiseBits_plat (x : Nat) (s : State) : (raiseBits x s).plat = s.plat := (raiseBits_reports x s).plat

/-! Fields that `record` keeps. -/

@[simp] theorem record_pending (ty src : Nat) (crit : Bool) (body : Bytes) (s : State) : (record ty src crit body s).pending = s.pending := (record_reports ty src crit body s).pending
@[simp] theorem record_now (ty src : Nat) (crit : Bool) (body : Bytes) (s : State) : (record ty src crit body s).now = s.now := (record_reports ty src crit body s).now
@[simp] theorem record_draws (ty src : Nat) (crit : Bool) (body : Bytes) (s : State) : (record ty src crit body s).draws = s.draws := (record_reports ty src crit body s).draws
@[simp] theorem record_nextId (ty src : Nat) (crit : Bool) (body : Bytes) (s : State) : (record ty src crit body s).nextId = s.nextId := (record_reports ty src crit body s).nextId
@[simp] theorem record_dura (ty src : Nat) (crit : Bool) (body : Bytes) (s : State) : (record ty src crit body s).dura = s.dura := (record_reports ty src crit body s).dura
@[simp] theorem record_sump (ty src : Nat) (crit : Bool) (body : Bytes) (s : State) : (record ty src crit body s).sump = s.sump := (record_reports ty src crit body s).sump
@[simp] theorem record_chans (ty src : Nat) (crit : Bool) (body : Bytes) (s : State) : (record ty src crit body s).chans = s.chans := (record_reports ty src crit body s).chans
@[simp] theorem record_groups (ty src : Nat) (crit : Bool) (body : Bytes) (s : State) : (record ty src crit body s).groups = s.groups := (record_reports ty src crit body s).groups
@[simp] theorem record_easels (ty src : Nat) (crit : Bool) (body : Bytes) (s : State) : (record ty src crit body s).easels = s.easels := (record_reports ty src crit body s).easels
@[simp] theorem record_gnv (ty src : Nat) (crit : Bool) (body : Bytes) (s : State) : (record ty src crit body s).gnv = s.gnv := (record_reports ty src crit body s).gnv
@[simp] theorem record_ops (ty src : Nat) (crit : Bool) (body : Bytes) (s : State) : (record ty src crit body s).ops = s.ops := (record_reports ty src crit body s).ops
@[simp] theorem record_misses (ty src : Nat) (crit : Bool) (body : Bytes) (s : State) : (record ty src crit body s).misses = s.misses := (record_reports ty src crit body s).misses
@[simp] theorem record_drawers (ty src : Nat) (crit : Bool) (body : Bytes) (s : State) : (record ty src crit body s).drawers = s.drawers := (record_reports ty src crit body s).drawers
@[simp] theorem record_twin (ty src : Nat) (crit : Bool) (body : Bytes) (s : State) : (record ty src crit body s).twin = s.twin := (record_reports ty src crit body s).twin
@[simp] theorem record_tports (ty src : Nat) (crit : Bool) (body : Bytes) (s : State) : (record ty src crit body s).tports = s.tports := (record_reports ty src crit body s).tports
@[simp] theorem record_nports (ty src : Nat) (crit : Bool) (body : Bytes) (s : State) : (record ty src crit body s).nports = s.nports := (record_reports ty src crit body s).nports
@[simp] theorem record_xport (ty src : Nat) (crit : Bool) (body : Bytes) (s : State) : (record ty src crit body s).xport = s.xport := (record_reports ty src crit body s).xport
@[simp] theorem record_host (ty src : Nat) (crit : Bool) (body : Bytes) (s : State) : (record ty src crit body s).host = s.host := (record_reports ty src crit body s).host
@[simp] theorem record_ctl (ty src : Nat) (crit : Bool) (body : Bytes) (s : State) : (record ty src crit body s).ctl = s.ctl := (record_reports ty src crit body s).ctl
@[simp] theorem record_cipher (ty src : Nat) (crit : Bool) (body : Bytes) (s : State) : (record ty src crit body s).cipher = s.cipher := (record_reports ty src crit body s).cipher
@[simp] theorem record_power (ty src : Nat) (crit : Bool) (body : Bytes) (s : State) : (record ty src crit body s).power = s.power := (record_reports ty src crit body s).power
@[simp] theorem record_prime (ty src : Nat) (crit : Bool) (body : Bytes) (s : State) : (record ty src crit body s).prime = s.prime := (record_reports ty src crit body s).prime
@[simp] theorem record_dram (ty src : Nat) (crit : Bool) (body : Bytes) (s : State) : (record ty src crit body s).dram = s.dram := (record_reports ty src crit body s).dram
@[simp] theorem record_plat (ty src : Nat) (crit : Bool) (body : Bytes) (s : State) : (record ty src crit body s).plat = s.plat := (record_reports ty src crit body s).plat

/-! Fields that `raiseWith` keeps. -/

@[simp] theorem raiseWith_pending (x unit detail : Nat) (s : State) : (raiseWith x unit detail s).pending = s.pending := (raiseWith_reports x unit detail s).pending
@[simp] theorem raiseWith_now (x unit detail : Nat) (s : State) : (raiseWith x unit detail s).now = s.now := (raiseWith_reports x unit detail s).now
@[simp] theorem raiseWith_draws (x unit detail : Nat) (s : State) : (raiseWith x unit detail s).draws = s.draws := (raiseWith_reports x unit detail s).draws
@[simp] theorem raiseWith_nextId (x unit detail : Nat) (s : State) : (raiseWith x unit detail s).nextId = s.nextId := (raiseWith_reports x unit detail s).nextId
@[simp] theorem raiseWith_dura (x unit detail : Nat) (s : State) : (raiseWith x unit detail s).dura = s.dura := (raiseWith_reports x unit detail s).dura
@[simp] theorem raiseWith_sump (x unit detail : Nat) (s : State) : (raiseWith x unit detail s).sump = s.sump := (raiseWith_reports x unit detail s).sump
@[simp] theorem raiseWith_chans (x unit detail : Nat) (s : State) : (raiseWith x unit detail s).chans = s.chans := (raiseWith_reports x unit detail s).chans
@[simp] theorem raiseWith_groups (x unit detail : Nat) (s : State) : (raiseWith x unit detail s).groups = s.groups := (raiseWith_reports x unit detail s).groups
@[simp] theorem raiseWith_easels (x unit detail : Nat) (s : State) : (raiseWith x unit detail s).easels = s.easels := (raiseWith_reports x unit detail s).easels
@[simp] theorem raiseWith_gnv (x unit detail : Nat) (s : State) : (raiseWith x unit detail s).gnv = s.gnv := (raiseWith_reports x unit detail s).gnv
@[simp] theorem raiseWith_ops (x unit detail : Nat) (s : State) : (raiseWith x unit detail s).ops = s.ops := (raiseWith_reports x unit detail s).ops
@[simp] theorem raiseWith_misses (x unit detail : Nat) (s : State) : (raiseWith x unit detail s).misses = s.misses := (raiseWith_reports x unit detail s).misses
@[simp] theorem raiseWith_drawers (x unit detail : Nat) (s : State) : (raiseWith x unit detail s).drawers = s.drawers := (raiseWith_reports x unit detail s).drawers
@[simp] theorem raiseWith_twin (x unit detail : Nat) (s : State) : (raiseWith x unit detail s).twin = s.twin := (raiseWith_reports x unit detail s).twin
@[simp] theorem raiseWith_tports (x unit detail : Nat) (s : State) : (raiseWith x unit detail s).tports = s.tports := (raiseWith_reports x unit detail s).tports
@[simp] theorem raiseWith_nports (x unit detail : Nat) (s : State) : (raiseWith x unit detail s).nports = s.nports := (raiseWith_reports x unit detail s).nports
@[simp] theorem raiseWith_xport (x unit detail : Nat) (s : State) : (raiseWith x unit detail s).xport = s.xport := (raiseWith_reports x unit detail s).xport
@[simp] theorem raiseWith_host (x unit detail : Nat) (s : State) : (raiseWith x unit detail s).host = s.host := (raiseWith_reports x unit detail s).host
@[simp] theorem raiseWith_ctl (x unit detail : Nat) (s : State) : (raiseWith x unit detail s).ctl = s.ctl := (raiseWith_reports x unit detail s).ctl
@[simp] theorem raiseWith_cipher (x unit detail : Nat) (s : State) : (raiseWith x unit detail s).cipher = s.cipher := (raiseWith_reports x unit detail s).cipher
@[simp] theorem raiseWith_power (x unit detail : Nat) (s : State) : (raiseWith x unit detail s).power = s.power := (raiseWith_reports x unit detail s).power
@[simp] theorem raiseWith_prime (x unit detail : Nat) (s : State) : (raiseWith x unit detail s).prime = s.prime := (raiseWith_reports x unit detail s).prime
@[simp] theorem raiseWith_dram (x unit detail : Nat) (s : State) : (raiseWith x unit detail s).dram = s.dram := (raiseWith_reports x unit detail s).dram
@[simp] theorem raiseWith_plat (x unit detail : Nat) (s : State) : (raiseWith x unit detail s).plat = s.plat := (raiseWith_reports x unit detail s).plat

/-! Fields that `raise` keeps. -/

@[simp] theorem raise_pending (x : Nat) (s : State) : (raise x s).pending = s.pending := (raise_reports x s).pending
@[simp] theorem raise_now (x : Nat) (s : State) : (raise x s).now = s.now := (raise_reports x s).now
@[simp] theorem raise_draws (x : Nat) (s : State) : (raise x s).draws = s.draws := (raise_reports x s).draws
@[simp] theorem raise_nextId (x : Nat) (s : State) : (raise x s).nextId = s.nextId := (raise_reports x s).nextId
@[simp] theorem raise_dura (x : Nat) (s : State) : (raise x s).dura = s.dura := (raise_reports x s).dura
@[simp] theorem raise_sump (x : Nat) (s : State) : (raise x s).sump = s.sump := (raise_reports x s).sump
@[simp] theorem raise_chans (x : Nat) (s : State) : (raise x s).chans = s.chans := (raise_reports x s).chans
@[simp] theorem raise_groups (x : Nat) (s : State) : (raise x s).groups = s.groups := (raise_reports x s).groups
@[simp] theorem raise_easels (x : Nat) (s : State) : (raise x s).easels = s.easels := (raise_reports x s).easels
@[simp] theorem raise_gnv (x : Nat) (s : State) : (raise x s).gnv = s.gnv := (raise_reports x s).gnv
@[simp] theorem raise_ops (x : Nat) (s : State) : (raise x s).ops = s.ops := (raise_reports x s).ops
@[simp] theorem raise_misses (x : Nat) (s : State) : (raise x s).misses = s.misses := (raise_reports x s).misses
@[simp] theorem raise_drawers (x : Nat) (s : State) : (raise x s).drawers = s.drawers := (raise_reports x s).drawers
@[simp] theorem raise_twin (x : Nat) (s : State) : (raise x s).twin = s.twin := (raise_reports x s).twin
@[simp] theorem raise_tports (x : Nat) (s : State) : (raise x s).tports = s.tports := (raise_reports x s).tports
@[simp] theorem raise_nports (x : Nat) (s : State) : (raise x s).nports = s.nports := (raise_reports x s).nports
@[simp] theorem raise_xport (x : Nat) (s : State) : (raise x s).xport = s.xport := (raise_reports x s).xport
@[simp] theorem raise_host (x : Nat) (s : State) : (raise x s).host = s.host := (raise_reports x s).host
@[simp] theorem raise_ctl (x : Nat) (s : State) : (raise x s).ctl = s.ctl := (raise_reports x s).ctl
@[simp] theorem raise_cipher (x : Nat) (s : State) : (raise x s).cipher = s.cipher := (raise_reports x s).cipher
@[simp] theorem raise_power (x : Nat) (s : State) : (raise x s).power = s.power := (raise_reports x s).power
@[simp] theorem raise_prime (x : Nat) (s : State) : (raise x s).prime = s.prime := (raise_reports x s).prime
@[simp] theorem raise_dram (x : Nat) (s : State) : (raise x s).dram = s.dram := (raise_reports x s).dram
@[simp] theorem raise_plat (x : Nat) (s : State) : (raise x s).plat = s.plat := (raise_reports x s).plat

/-! Fields that `sendVector` keeps. -/

@[simp] theorem sendVector_pending (v : Nat) (s : State) : (sendVector v s).pending = s.pending := (sendVector_reports v s).pending
@[simp] theorem sendVector_now (v : Nat) (s : State) : (sendVector v s).now = s.now := (sendVector_reports v s).now
@[simp] theorem sendVector_draws (v : Nat) (s : State) : (sendVector v s).draws = s.draws := (sendVector_reports v s).draws
@[simp] theorem sendVector_nextId (v : Nat) (s : State) : (sendVector v s).nextId = s.nextId := (sendVector_reports v s).nextId
@[simp] theorem sendVector_dura (v : Nat) (s : State) : (sendVector v s).dura = s.dura := (sendVector_reports v s).dura
@[simp] theorem sendVector_sump (v : Nat) (s : State) : (sendVector v s).sump = s.sump := (sendVector_reports v s).sump
@[simp] theorem sendVector_chans (v : Nat) (s : State) : (sendVector v s).chans = s.chans := (sendVector_reports v s).chans
@[simp] theorem sendVector_groups (v : Nat) (s : State) : (sendVector v s).groups = s.groups := (sendVector_reports v s).groups
@[simp] theorem sendVector_easels (v : Nat) (s : State) : (sendVector v s).easels = s.easels := (sendVector_reports v s).easels
@[simp] theorem sendVector_gnv (v : Nat) (s : State) : (sendVector v s).gnv = s.gnv := (sendVector_reports v s).gnv
@[simp] theorem sendVector_ops (v : Nat) (s : State) : (sendVector v s).ops = s.ops := (sendVector_reports v s).ops
@[simp] theorem sendVector_misses (v : Nat) (s : State) : (sendVector v s).misses = s.misses := (sendVector_reports v s).misses
@[simp] theorem sendVector_drawers (v : Nat) (s : State) : (sendVector v s).drawers = s.drawers := (sendVector_reports v s).drawers
@[simp] theorem sendVector_twin (v : Nat) (s : State) : (sendVector v s).twin = s.twin := (sendVector_reports v s).twin
@[simp] theorem sendVector_tports (v : Nat) (s : State) : (sendVector v s).tports = s.tports := (sendVector_reports v s).tports
@[simp] theorem sendVector_nports (v : Nat) (s : State) : (sendVector v s).nports = s.nports := (sendVector_reports v s).nports
@[simp] theorem sendVector_xport (v : Nat) (s : State) : (sendVector v s).xport = s.xport := (sendVector_reports v s).xport
@[simp] theorem sendVector_host (v : Nat) (s : State) : (sendVector v s).host = s.host := (sendVector_reports v s).host
@[simp] theorem sendVector_ctl (v : Nat) (s : State) : (sendVector v s).ctl = s.ctl := (sendVector_reports v s).ctl
@[simp] theorem sendVector_cipher (v : Nat) (s : State) : (sendVector v s).cipher = s.cipher := (sendVector_reports v s).cipher
@[simp] theorem sendVector_power (v : Nat) (s : State) : (sendVector v s).power = s.power := (sendVector_reports v s).power
@[simp] theorem sendVector_prime (v : Nat) (s : State) : (sendVector v s).prime = s.prime := (sendVector_reports v s).prime
@[simp] theorem sendVector_dram (v : Nat) (s : State) : (sendVector v s).dram = s.dram := (sendVector_reports v s).dram
@[simp] theorem sendVector_plat (v : Nat) (s : State) : (sendVector v s).plat = s.plat := (sendVector_reports v s).plat

/-! Fields that `flashQueue` keeps. -/

@[simp] theorem flashQueue_pending (b : Nat) (o : FOp) (s : State) : (flashQueue b o s).pending = s.pending := (flashQueue_reports b o s).pending
@[simp] theorem flashQueue_now (b : Nat) (o : FOp) (s : State) : (flashQueue b o s).now = s.now := (flashQueue_reports b o s).now
@[simp] theorem flashQueue_draws (b : Nat) (o : FOp) (s : State) : (flashQueue b o s).draws = s.draws := (flashQueue_reports b o s).draws
@[simp] theorem flashQueue_nextId (b : Nat) (o : FOp) (s : State) : (flashQueue b o s).nextId = s.nextId := (flashQueue_reports b o s).nextId
@[simp] theorem flashQueue_dura (b : Nat) (o : FOp) (s : State) : (flashQueue b o s).dura = s.dura := (flashQueue_reports b o s).dura
@[simp] theorem flashQueue_sump (b : Nat) (o : FOp) (s : State) : (flashQueue b o s).sump = s.sump := (flashQueue_reports b o s).sump
@[simp] theorem flashQueue_chans (b : Nat) (o : FOp) (s : State) : (flashQueue b o s).chans = s.chans := (flashQueue_reports b o s).chans
@[simp] theorem flashQueue_groups (b : Nat) (o : FOp) (s : State) : (flashQueue b o s).groups = s.groups := (flashQueue_reports b o s).groups
@[simp] theorem flashQueue_easels (b : Nat) (o : FOp) (s : State) : (flashQueue b o s).easels = s.easels := (flashQueue_reports b o s).easels
@[simp] theorem flashQueue_gnv (b : Nat) (o : FOp) (s : State) : (flashQueue b o s).gnv = s.gnv := (flashQueue_reports b o s).gnv
@[simp] theorem flashQueue_ops (b : Nat) (o : FOp) (s : State) : (flashQueue b o s).ops = s.ops := (flashQueue_reports b o s).ops
@[simp] theorem flashQueue_misses (b : Nat) (o : FOp) (s : State) : (flashQueue b o s).misses = s.misses := (flashQueue_reports b o s).misses
@[simp] theorem flashQueue_drawers (b : Nat) (o : FOp) (s : State) : (flashQueue b o s).drawers = s.drawers := (flashQueue_reports b o s).drawers
@[simp] theorem flashQueue_twin (b : Nat) (o : FOp) (s : State) : (flashQueue b o s).twin = s.twin := (flashQueue_reports b o s).twin
@[simp] theorem flashQueue_tports (b : Nat) (o : FOp) (s : State) : (flashQueue b o s).tports = s.tports := (flashQueue_reports b o s).tports
@[simp] theorem flashQueue_nports (b : Nat) (o : FOp) (s : State) : (flashQueue b o s).nports = s.nports := (flashQueue_reports b o s).nports
@[simp] theorem flashQueue_xport (b : Nat) (o : FOp) (s : State) : (flashQueue b o s).xport = s.xport := (flashQueue_reports b o s).xport
@[simp] theorem flashQueue_host (b : Nat) (o : FOp) (s : State) : (flashQueue b o s).host = s.host := (flashQueue_reports b o s).host
@[simp] theorem flashQueue_ctl (b : Nat) (o : FOp) (s : State) : (flashQueue b o s).ctl = s.ctl := (flashQueue_reports b o s).ctl
@[simp] theorem flashQueue_cipher (b : Nat) (o : FOp) (s : State) : (flashQueue b o s).cipher = s.cipher := (flashQueue_reports b o s).cipher
@[simp] theorem flashQueue_power (b : Nat) (o : FOp) (s : State) : (flashQueue b o s).power = s.power := (flashQueue_reports b o s).power
@[simp] theorem flashQueue_prime (b : Nat) (o : FOp) (s : State) : (flashQueue b o s).prime = s.prime := (flashQueue_reports b o s).prime
@[simp] theorem flashQueue_dram (b : Nat) (o : FOp) (s : State) : (flashQueue b o s).dram = s.dram := (flashQueue_reports b o s).dram
@[simp] theorem flashQueue_plat (b : Nat) (o : FOp) (s : State) : (flashQueue b o s).plat = s.plat := (flashQueue_reports b o s).plat

/-! Units that `raiseBits` keeps. -/

@[simp] theorem raiseBits_chan (x : Nat) (s : State) (j : Nat) : (raiseBits x s).chan j = s.chan j := (raiseBits_reports x s).chan j
@[simp] theorem raiseBits_grp (x : Nat) (s : State) (j : Nat) : (raiseBits x s).grp j = s.grp j := (raiseBits_reports x s).grp j
@[simp] theorem raiseBits_easel (x : Nat) (s : State) (j : Nat) : (raiseBits x s).easel j = s.easel j := (raiseBits_reports x s).easel j
@[simp] theorem raiseBits_nv (x : Nat) (s : State) (j : Nat) : (raiseBits x s).nv j = s.nv j := (raiseBits_reports x s).nv j
@[simp] theorem raiseBits_drw (x : Nat) (s : State) (j : Nat) : (raiseBits x s).drw j = s.drw j := (raiseBits_reports x s).drw j
@[simp] theorem raiseBits_tport (x : Nat) (s : State) (j : Nat) : (raiseBits x s).tport j = s.tport j := (raiseBits_reports x s).tport j
@[simp] theorem raiseBits_nport (x : Nat) (s : State) (j : Nat) : (raiseBits x s).nport j = s.nport j := (raiseBits_reports x s).nport j
@[simp] theorem raiseBits_conn (x : Nat) (s : State) (j : Nat) : (raiseBits x s).conn j = s.conn j := (raiseBits_reports x s).conn j
@[simp] theorem raiseBits_grant (x : Nat) (s : State) (j : Nat) : (raiseBits x s).grant j = s.grant j := (raiseBits_reports x s).grant j
@[simp] theorem raiseBits_rail (x : Nat) (s : State) (j : Nat) : (raiseBits x s).rail j = s.rail j := (raiseBits_reports x s).rail j
@[simp] theorem raiseBits_drch (x : Nat) (s : State) (j : Nat) : (raiseBits x s).drch j = s.drch j := (raiseBits_reports x s).drch j
@[simp] theorem raiseBits_mbx (x : Nat) (s : State) (j : Nat) : (raiseBits x s).mbx j = s.mbx j := (raiseBits_reports x s).mbx j
@[simp] theorem raiseBits_engine (x : Nat) (s : State) (j : Nat) : (raiseBits x s).engine j = s.engine j := (raiseBits_reports x s).engine j
@[simp] theorem raiseBits_ns (x : Nat) (s : State) (j : Nat) : (raiseBits x s).ns j = s.ns j := (raiseBits_reports x s).ns j
@[simp] theorem raiseBits_sched (x : Nat) (s : State) (j : Nat) : (raiseBits x s).sched j = s.sched j := (raiseBits_reports x s).sched j

/-! Units that `record` keeps. -/

@[simp] theorem record_chan (ty src : Nat) (crit : Bool) (body : Bytes) (s : State) (j : Nat) : (record ty src crit body s).chan j = s.chan j := (record_reports ty src crit body s).chan j
@[simp] theorem record_grp (ty src : Nat) (crit : Bool) (body : Bytes) (s : State) (j : Nat) : (record ty src crit body s).grp j = s.grp j := (record_reports ty src crit body s).grp j
@[simp] theorem record_easel (ty src : Nat) (crit : Bool) (body : Bytes) (s : State) (j : Nat) : (record ty src crit body s).easel j = s.easel j := (record_reports ty src crit body s).easel j
@[simp] theorem record_nv (ty src : Nat) (crit : Bool) (body : Bytes) (s : State) (j : Nat) : (record ty src crit body s).nv j = s.nv j := (record_reports ty src crit body s).nv j
@[simp] theorem record_drw (ty src : Nat) (crit : Bool) (body : Bytes) (s : State) (j : Nat) : (record ty src crit body s).drw j = s.drw j := (record_reports ty src crit body s).drw j
@[simp] theorem record_tport (ty src : Nat) (crit : Bool) (body : Bytes) (s : State) (j : Nat) : (record ty src crit body s).tport j = s.tport j := (record_reports ty src crit body s).tport j
@[simp] theorem record_nport (ty src : Nat) (crit : Bool) (body : Bytes) (s : State) (j : Nat) : (record ty src crit body s).nport j = s.nport j := (record_reports ty src crit body s).nport j
@[simp] theorem record_conn (ty src : Nat) (crit : Bool) (body : Bytes) (s : State) (j : Nat) : (record ty src crit body s).conn j = s.conn j := (record_reports ty src crit body s).conn j
@[simp] theorem record_grant (ty src : Nat) (crit : Bool) (body : Bytes) (s : State) (j : Nat) : (record ty src crit body s).grant j = s.grant j := (record_reports ty src crit body s).grant j
@[simp] theorem record_rail (ty src : Nat) (crit : Bool) (body : Bytes) (s : State) (j : Nat) : (record ty src crit body s).rail j = s.rail j := (record_reports ty src crit body s).rail j
@[simp] theorem record_drch (ty src : Nat) (crit : Bool) (body : Bytes) (s : State) (j : Nat) : (record ty src crit body s).drch j = s.drch j := (record_reports ty src crit body s).drch j
@[simp] theorem record_mbx (ty src : Nat) (crit : Bool) (body : Bytes) (s : State) (j : Nat) : (record ty src crit body s).mbx j = s.mbx j := (record_reports ty src crit body s).mbx j
@[simp] theorem record_engine (ty src : Nat) (crit : Bool) (body : Bytes) (s : State) (j : Nat) : (record ty src crit body s).engine j = s.engine j := (record_reports ty src crit body s).engine j
@[simp] theorem record_ns (ty src : Nat) (crit : Bool) (body : Bytes) (s : State) (j : Nat) : (record ty src crit body s).ns j = s.ns j := (record_reports ty src crit body s).ns j
@[simp] theorem record_sched (ty src : Nat) (crit : Bool) (body : Bytes) (s : State) (j : Nat) : (record ty src crit body s).sched j = s.sched j := (record_reports ty src crit body s).sched j

/-! Units that `raiseWith` keeps. -/

@[simp] theorem raiseWith_chan (x unit detail : Nat) (s : State) (j : Nat) : (raiseWith x unit detail s).chan j = s.chan j := (raiseWith_reports x unit detail s).chan j
@[simp] theorem raiseWith_grp (x unit detail : Nat) (s : State) (j : Nat) : (raiseWith x unit detail s).grp j = s.grp j := (raiseWith_reports x unit detail s).grp j
@[simp] theorem raiseWith_easel (x unit detail : Nat) (s : State) (j : Nat) : (raiseWith x unit detail s).easel j = s.easel j := (raiseWith_reports x unit detail s).easel j
@[simp] theorem raiseWith_nv (x unit detail : Nat) (s : State) (j : Nat) : (raiseWith x unit detail s).nv j = s.nv j := (raiseWith_reports x unit detail s).nv j
@[simp] theorem raiseWith_drw (x unit detail : Nat) (s : State) (j : Nat) : (raiseWith x unit detail s).drw j = s.drw j := (raiseWith_reports x unit detail s).drw j
@[simp] theorem raiseWith_tport (x unit detail : Nat) (s : State) (j : Nat) : (raiseWith x unit detail s).tport j = s.tport j := (raiseWith_reports x unit detail s).tport j
@[simp] theorem raiseWith_nport (x unit detail : Nat) (s : State) (j : Nat) : (raiseWith x unit detail s).nport j = s.nport j := (raiseWith_reports x unit detail s).nport j
@[simp] theorem raiseWith_conn (x unit detail : Nat) (s : State) (j : Nat) : (raiseWith x unit detail s).conn j = s.conn j := (raiseWith_reports x unit detail s).conn j
@[simp] theorem raiseWith_grant (x unit detail : Nat) (s : State) (j : Nat) : (raiseWith x unit detail s).grant j = s.grant j := (raiseWith_reports x unit detail s).grant j
@[simp] theorem raiseWith_rail (x unit detail : Nat) (s : State) (j : Nat) : (raiseWith x unit detail s).rail j = s.rail j := (raiseWith_reports x unit detail s).rail j
@[simp] theorem raiseWith_drch (x unit detail : Nat) (s : State) (j : Nat) : (raiseWith x unit detail s).drch j = s.drch j := (raiseWith_reports x unit detail s).drch j
@[simp] theorem raiseWith_mbx (x unit detail : Nat) (s : State) (j : Nat) : (raiseWith x unit detail s).mbx j = s.mbx j := (raiseWith_reports x unit detail s).mbx j
@[simp] theorem raiseWith_engine (x unit detail : Nat) (s : State) (j : Nat) : (raiseWith x unit detail s).engine j = s.engine j := (raiseWith_reports x unit detail s).engine j
@[simp] theorem raiseWith_ns (x unit detail : Nat) (s : State) (j : Nat) : (raiseWith x unit detail s).ns j = s.ns j := (raiseWith_reports x unit detail s).ns j
@[simp] theorem raiseWith_sched (x unit detail : Nat) (s : State) (j : Nat) : (raiseWith x unit detail s).sched j = s.sched j := (raiseWith_reports x unit detail s).sched j

/-! Units that `raise` keeps. -/

@[simp] theorem raise_chan (x : Nat) (s : State) (j : Nat) : (raise x s).chan j = s.chan j := (raise_reports x s).chan j
@[simp] theorem raise_grp (x : Nat) (s : State) (j : Nat) : (raise x s).grp j = s.grp j := (raise_reports x s).grp j
@[simp] theorem raise_easel (x : Nat) (s : State) (j : Nat) : (raise x s).easel j = s.easel j := (raise_reports x s).easel j
@[simp] theorem raise_nv (x : Nat) (s : State) (j : Nat) : (raise x s).nv j = s.nv j := (raise_reports x s).nv j
@[simp] theorem raise_drw (x : Nat) (s : State) (j : Nat) : (raise x s).drw j = s.drw j := (raise_reports x s).drw j
@[simp] theorem raise_tport (x : Nat) (s : State) (j : Nat) : (raise x s).tport j = s.tport j := (raise_reports x s).tport j
@[simp] theorem raise_nport (x : Nat) (s : State) (j : Nat) : (raise x s).nport j = s.nport j := (raise_reports x s).nport j
@[simp] theorem raise_conn (x : Nat) (s : State) (j : Nat) : (raise x s).conn j = s.conn j := (raise_reports x s).conn j
@[simp] theorem raise_grant (x : Nat) (s : State) (j : Nat) : (raise x s).grant j = s.grant j := (raise_reports x s).grant j
@[simp] theorem raise_rail (x : Nat) (s : State) (j : Nat) : (raise x s).rail j = s.rail j := (raise_reports x s).rail j
@[simp] theorem raise_drch (x : Nat) (s : State) (j : Nat) : (raise x s).drch j = s.drch j := (raise_reports x s).drch j
@[simp] theorem raise_mbx (x : Nat) (s : State) (j : Nat) : (raise x s).mbx j = s.mbx j := (raise_reports x s).mbx j
@[simp] theorem raise_engine (x : Nat) (s : State) (j : Nat) : (raise x s).engine j = s.engine j := (raise_reports x s).engine j
@[simp] theorem raise_ns (x : Nat) (s : State) (j : Nat) : (raise x s).ns j = s.ns j := (raise_reports x s).ns j
@[simp] theorem raise_sched (x : Nat) (s : State) (j : Nat) : (raise x s).sched j = s.sched j := (raise_reports x s).sched j

end Sys2Proof.Machine
end

