-- ==== Sys2Proof/Laws/Keeps.lean ====
section
/-! SUPPORT. Everything the shared operations can do to the queue, the clock, the draws, what was sent, the life-cycle fuses and
the invariant: one lemma per operation, named after it. `Keeps s0 s` goes in, and `Keeps s0` of the result comes out. -/

namespace Sys2Proof.Machine

open Sys2Proof











theorem Keeps.refl (s : State) : Keeps s s := ⟨rfl, rfl, Nat.le_refl _, List.prefix_refl _, Nat.le_refl _, id⟩
theorem Keeps.trans {a b c : State} (h : Keeps a b) (k : Keeps b c) : Keeps a c :=
  ⟨k.1.trans h.1, k.2.trans h.2, h.3.trans k.3, h.4.trans k.4, h.5.trans k.5, fun i => k.6 (h.6 i)⟩
theorem Keeps.ite {c : Prop} [Decidable c] {s0 a b : State} (ha : Keeps s0 a) (hb : Keeps s0 b) :
    Keeps s0 (if c then a else b) := by split <;> assumption
theorem Keeps.ofEq {β : Type} {s0 a : State} {b : β} {p : State × β} (e : p = (a, b)) (h : Keeps s0 p.1) : Keeps s0 a := by
  rw [e] at h; exact h
theorem Keeps.ofEq2 {β : Type} {s0 a : State} {b : β} {p : β × State} (e : p = (b, a)) (h : Keeps s0 p.2) : Keeps s0 a := by
  rw [e] at h; exact h

/-- `Keeps` for an outcome: whatever next state it gives. -/
def KeepsR (s0 : State) (r : Res) : Prop := ∀ t, r = .next t → Keeps s0 t
theorem KeepsR.next {s0 s : State} (h : Keeps s0 s) : KeepsR s0 (.next s) := fun _ e => by injection e with e; exact e ▸ h
theorem KeepsR.ite {c : Prop} [Decidable c] {s0 : State} {a b : Res} (ha : KeepsR s0 a) (hb : KeepsR s0 b) :
    KeepsR s0 (if c then a else b) := by split <;> assumption
/-- `Keeps` for an operation that may have nothing to do. -/
def KeepsO (s0 : State) (r : Option State) : Prop := ∀ t, r = some t → Keeps s0 t
theorem KeepsO.none {s0 : State} : KeepsO s0 none := fun _ e => by cases e
theorem KeepsO.some {s0 s : State} (h : Keeps s0 s) : KeepsO s0 (some s) := fun _ e => by injection e with e; exact e ▸ h
theorem KeepsO.get {s0 t : State} {r : Option State} (e : r = .some t) (h : KeepsO s0 r) : Keeps s0 t := h t e
theorem KeepsO.getD {s0 s : State} {r : Option State} (h : KeepsO s0 r) (k : Keeps s0 s) : Keeps s0 (r.getD s) := by
  cases r with
  | none => exact k
  | some t => exact h t rfl
theorem KeepsO.ite {c : Prop} [Decidable c] {s0 : State} {a b : Option State} (ha : KeepsO s0 a) (hb : KeepsO s0 b) :
    KeepsO s0 (if c then a else b) := by split <;> assumption
theorem Keeps.fst_ite {β : Type} {c : Prop} [Decidable c] {s0 : State} {a b : State × β} (ha : Keeps s0 a.1) (hb : Keeps s0 b.1) :
    Keeps s0 (if c then a else b).1 := by split <;> assumption
theorem Keeps.snd_ite {β : Type} {c : Prop} [Decidable c] {s0 : State} {a b : β × State} (ha : Keeps s0 a.2) (hb : Keeps s0 b.2) :
    Keeps s0 (if c then a else b).2 := by split <;> assumption
theorem Keeps.withTest {s0 s : State} (t : Test) (h : Keeps s0 s) (hl : s.test.lcFuses ≤ t.lcFuses) : Keeps s0 { s with test := t } :=
  ⟨h.1, h.2, h.3, h.4, h.5.trans hl, fun i => ⟨(h.6 i).1, (h.6 i).2, (h.6 i).3, (h.6 i).4, (h.6 i).5⟩⟩
theorem Keeps.withOps {s0 s : State} (t : List RowOp) (h : Keeps s0 s) : Keeps s0 { s with ops := t } :=
  ⟨h.1, h.2, h.3, h.4, h.5, fun i => ⟨(h.6 i).1, (h.6 i).2, (h.6 i).3, (h.6 i).4, (h.6 i).5⟩⟩
theorem Keeps.withMisses {s0 s : State} (t : List Miss) (h : Keeps s0 s) : Keeps s0 { s with misses := t } :=
  ⟨h.1, h.2, h.3, h.4, h.5, fun i => ⟨(h.6 i).1, (h.6 i).2, (h.6 i).3, (h.6 i).4, (h.6 i).5⟩⟩
theorem Keeps.withPlat {s0 s : State} (t : Platform) (h : Keeps s0 s) : Keeps s0 { s with plat := t } :=
  ⟨h.1, h.2, h.3, h.4, h.5, fun i => ⟨(h.6 i).1, (h.6 i).2, (h.6 i).3, (h.6 i).4, (h.6 i).5⟩⟩
theorem modHostFour_keeps {s0 s : State} (f) (h : Keeps s0 s) (hl : (f s.host).hdm.length = 4) : Keeps s0 (s.modHost f) :=
  ⟨h.1, h.2, h.3, h.4, h.5, fun i => ⟨(h.6 i).1, (h.6 i).2, (h.6 i).3, hl, (h.6 i).5⟩⟩
theorem Keeps.withFormat {s0 s : State} (a : List (Nat × GroupNv)) (b : List (Nat × Easel)) (h : Keeps s0 s) :
    Keeps s0 { s with gnv := a, easels := b } :=
  ⟨h.1, h.2, h.3, h.4, h.5, fun i => ⟨(h.6 i).1, (h.6 i).2, (h.6 i).3, (h.6 i).4, (h.6 i).5⟩⟩
theorem foldl_keeps {α β : Type} {P : β → Prop} {f : β → α → β} (hf : ∀ b a, P b → P (f b a)) :
    ∀ (l : List α) {b : β}, P b → P (l.foldl f b)
  | [], _, h => h
  | a :: l, _, h => foldl_keeps hf l (hf _ a h)
theorem untilNone_keeps {s0 : State} {f : State → Option State} (hf : ∀ t, Keeps s0 t → KeepsO s0 (f t)) :
    ∀ (n : Nat) {s : State}, Keeps s0 s → Keeps s0 (untilNone f n s)
  | 0, _, h => h
  | n + 1, s, h => by
    unfold untilNone
    split
    · exact untilNone_keeps hf n (hf _ h _ ‹_›)
    · exact h

theorem Keeps.cut {s0 v : State} {P : Prop} (hv : Keeps s0 v) (k : Keeps s0 v → P) : P := k hv

theorem State.modChan_keeps {s0 s : State} (k : Nat) (f) (h : Keeps s0 s) : Keeps s0 (s.modChan k f) :=
  ⟨h.1, h.2, h.3, h.4, h.5, fun i => ⟨(h.6 i).1, (h.6 i).2, (h.6 i).3, (h.6 i).4, (h.6 i).5⟩⟩

theorem State.modGrp_keeps {s0 s : State} (k : Nat) (f) (h : Keeps s0 s) : Keeps s0 (s.modGrp k f) :=
  ⟨h.1, h.2, h.3, h.4, h.5, fun i => ⟨(h.6 i).1, (h.6 i).2, (h.6 i).3, (h.6 i).4, (h.6 i).5⟩⟩

theorem State.modEasel_keeps {s0 s : State} (k : Nat) (f) (h : Keeps s0 s) : Keeps s0 (s.modEasel k f) :=
  ⟨h.1, h.2, h.3, h.4, h.5, fun i => ⟨(h.6 i).1, (h.6 i).2, (h.6 i).3, (h.6 i).4, (h.6 i).5⟩⟩

theorem State.modNv_keeps {s0 s : State} (k : Nat) (f) (h : Keeps s0 s) : Keeps s0 (s.modNv k f) :=
  ⟨h.1, h.2, h.3, h.4, h.5, fun i => ⟨(h.6 i).1, (h.6 i).2, (h.6 i).3, (h.6 i).4, (h.6 i).5⟩⟩

theorem State.modDrw_keeps {s0 s : State} (k : Nat) (f) (h : Keeps s0 s) : Keeps s0 (s.modDrw k f) :=
  ⟨h.1, h.2, h.3, h.4, h.5, fun i => ⟨(h.6 i).1, (h.6 i).2, (h.6 i).3, (h.6 i).4, (h.6 i).5⟩⟩

theorem State.modTport_keeps {s0 s : State} (k : Nat) (f) (h : Keeps s0 s) : Keeps s0 (s.modTport k f) :=
  ⟨h.1, h.2, h.3, h.4, h.5, fun i => ⟨(h.6 i).1, (h.6 i).2, (h.6 i).3, (h.6 i).4, (h.6 i).5⟩⟩

theorem State.modNport_keeps {s0 s : State} (k : Nat) (f) (h : Keeps s0 s) : Keeps s0 (s.modNport k f) :=
  ⟨h.1, h.2, h.3, h.4, h.5, fun i => ⟨(h.6 i).1, (h.6 i).2, (h.6 i).3, (h.6 i).4, (h.6 i).5⟩⟩

theorem State.modSub_keeps {s0 s : State} (p : Nat) (q : Nat) (f : SubPort → SubPort) (h : Keeps s0 s) :
    Keeps s0 (State.modSub s p q f) := by
  unfold State.modSub
  repeat' first
    | with_reducible assumption | with_reducible apply State.modNport_keeps

theorem State.modXport_keeps {s0 s : State} (f) (h : Keeps s0 s) : Keeps s0 (s.modXport f) :=
  ⟨h.1, h.2, h.3, h.4, h.5, fun i => ⟨(h.6 i).1, (h.6 i).2, (h.6 i).3, (h.6 i).4, (h.6 i).5⟩⟩

theorem State.modConn_keeps {s0 s : State} (c : Nat) (f : Conn → Conn) (h : Keeps s0 s) : Keeps s0 (State.modConn s c f) := by
  unfold State.modConn
  repeat' first
    | with_reducible assumption | with_reducible apply State.modXport_keeps

theorem State.modGrant_keeps {s0 s : State} (g : Nat) (f : Grant → Grant) (h : Keeps s0 s) :
    Keeps s0 (State.modGrant s g f) := by
  unfold State.modGrant
  repeat' first
    | with_reducible assumption | with_reducible apply State.modXport_keeps

theorem State.modPower_keeps {s0 s : State} (f) (h : Keeps s0 s) : Keeps s0 (s.modPower f) :=
  ⟨h.1, h.2, h.3, h.4, h.5, fun i => ⟨(h.6 i).1, (h.6 i).2, (h.6 i).3, (h.6 i).4, (h.6 i).5⟩⟩

theorem State.modRail_keeps {s0 s : State} (i : Nat) (f : Rail → Rail) (h : Keeps s0 s) : Keeps s0 (State.modRail s i f) := by
  unfold State.modRail
  repeat' first
    | with_reducible assumption | with_reducible apply State.modPower_keeps

theorem State.modTwin_keeps {s0 s : State} (f) (h : Keeps s0 s) : Keeps s0 (s.modTwin f) :=
  ⟨h.1, h.2, h.3, h.4, h.5, fun i => ⟨(h.6 i).1, (h.6 i).2, (h.6 i).3, (h.6 i).4, (h.6 i).5⟩⟩

theorem State.modSump_keeps {s0 s : State} (f) (h : Keeps s0 s) : Keeps s0 (s.modSump f) :=
  ⟨h.1, h.2, h.3, h.4, h.5, fun i => ⟨(h.6 i).1, (h.6 i).2, (h.6 i).3, (h.6 i).4, (h.6 i).5⟩⟩

theorem State.modDura_keeps {s0 s : State} (f) (h : Keeps s0 s) : Keeps s0 (s.modDura f) :=
  ⟨h.1, h.2, h.3, h.4, h.5, fun i => ⟨(h.6 i).1, (h.6 i).2, (h.6 i).3, (h.6 i).4, (h.6 i).5⟩⟩

theorem State.modHost_keeps {s0 s : State} (f) (h : Keeps s0 s) (hl : (f s.host).hdm.length = s.host.hdm.length) :
    Keeps s0 (s.modHost f) :=
  ⟨h.1, h.2, h.3, h.4, h.5, fun i => ⟨(h.6 i).1, (h.6 i).2, (h.6 i).3, hl.trans (h.6 i).4, (h.6 i).5⟩⟩

theorem State.modCtl_keeps {s0 s : State} (f) (h : Keeps s0 s) (hl : (f s.ctl).mbx.length = s.ctl.mbx.length) :
    Keeps s0 (s.modCtl f) :=
  ⟨h.1, h.2, h.3, h.4, h.5, fun i => ⟨hl.trans (h.6 i).1, (h.6 i).2, (h.6 i).3, (h.6 i).4, (h.6 i).5⟩⟩

theorem State.modCipher_keeps {s0 s : State} (f) (h : Keeps s0 s) (hl : (f s.cipher).engines.length = s.cipher.engines.length) :
    Keeps s0 (s.modCipher f) :=
  ⟨h.1, h.2, h.3, h.4, h.5, fun i => ⟨(h.6 i).1, hl.trans (h.6 i).2, (h.6 i).3, (h.6 i).4, (h.6 i).5⟩⟩

theorem State.modPrime_keeps {s0 s : State} (f) (h : Keeps s0 s) : Keeps s0 (s.modPrime f) :=
  ⟨h.1, h.2, h.3, h.4, h.5, fun i => ⟨(h.6 i).1, (h.6 i).2, (h.6 i).3, (h.6 i).4, (h.6 i).5⟩⟩

theorem State.modDram_keeps {s0 s : State} (f) (h : Keeps s0 s) : Keeps s0 (s.modDram f) :=
  ⟨h.1, h.2, h.3, h.4, h.5, fun i => ⟨(h.6 i).1, (h.6 i).2, (h.6 i).3, (h.6 i).4, (h.6 i).5⟩⟩

theorem State.modFlash_keeps {s0 s : State} (f) (h : Keeps s0 s) (hl : (f s.flash).banks.length = s.flash.banks.length) :
    Keeps s0 (s.modFlash f) :=
  ⟨h.1, h.2, h.3, h.4, h.5, fun i => ⟨(h.6 i).1, (h.6 i).2, hl.trans (h.6 i).3, (h.6 i).4, (h.6 i).5⟩⟩

theorem State.modTest_keeps {s0 s : State} (f) (h : Keeps s0 s) (hl : s.test.lcFuses ≤ (f s.test).lcFuses) : Keeps s0
    (s.modTest f) :=
  ⟨h.1, h.2, h.3, h.4, h.5.trans hl, fun i => ⟨(h.6 i).1, (h.6 i).2, (h.6 i).3, (h.6 i).4, (h.6 i).5⟩⟩

theorem State.modEv_keeps {s0 s : State} (f) (h : Keeps s0 s) (hl : ∀ x, s.ev.quiet x → (f s.ev).quiet x) : Keeps s0
    (s.modEv f) :=
  ⟨h.1, h.2, h.3, h.4, h.5, fun i => ⟨(h.6 i).1, (h.6 i).2, (h.6 i).3, (h.6 i).4, fun x hx => hl x ((h.6 i).5 x hx)⟩⟩

theorem State.modDrch_keeps {s0 s : State} (n : Nat) (f : DrChan → DrChan) (h : Keeps s0 s) :
    Keeps s0 (State.modDrch s n f) := by
  unfold State.modDrch
  repeat' first
    | with_reducible assumption | with_reducible apply State.modDram_keeps

theorem State.modIsland_keeps {s0 s : State} (i : Nat) (f : Island → Island) (h : Keeps s0 s) :
    Keeps s0 (State.modIsland s i f) := by
  unfold State.modIsland
  repeat' first
    | with_reducible assumption | with_reducible intro _ | with_reducible apply State.modEv_keeps
    | refine Keeps.ofEq (by assumption) ?_ | refine Keeps.ofEq2 (by assumption) ?_ | exact Nat.le_refl _
    | exact Nat.le_max_left _ _ | dsimp only | split | rfl | decide | trivial

theorem State.modMbx_keeps {s0 s : State} (m : Nat) (f : Mbx → Mbx) (h : Keeps s0 s) : Keeps s0 (State.modMbx s m f) := by
  unfold State.modMbx
  repeat' first
    | with_reducible assumption | with_reducible intro _ | with_reducible apply State.modCtl_keeps
    | refine Keeps.ofEq (by assumption) ?_ | refine Keeps.ofEq2 (by assumption) ?_ | exact Nat.le_refl _
    | exact Nat.le_max_left _ _ | dsimp only | split | rfl | decide | trivial | assumption | simp

theorem State.modEngine_keeps {s0 s : State} (e : Nat) (f : Engine → Engine) (h : Keeps s0 s) :
    Keeps s0 (State.modEngine s e f) := by
  unfold State.modEngine
  repeat' first
    | with_reducible assumption | with_reducible intro _ | with_reducible apply State.modCipher_keeps
    | refine Keeps.ofEq (by assumption) ?_ | refine Keeps.ofEq2 (by assumption) ?_ | exact Nat.le_refl _
    | exact Nat.le_max_left _ _ | dsimp only | split | rfl | decide | trivial | assumption | simp

theorem State.modFbank_keeps {s0 s : State} (b : Nat) (f : FBank → FBank) (h : Keeps s0 s) :
    Keeps s0 (State.modFbank s b f) := by
  unfold State.modFbank
  repeat' first
    | with_reducible assumption | with_reducible intro _ | with_reducible apply State.modFlash_keeps
    | refine Keeps.ofEq (by assumption) ?_ | refine Keeps.ofEq2 (by assumption) ?_ | exact Nat.le_refl _
    | exact Nat.le_max_left _ _ | dsimp only | split | rfl | decide | trivial | assumption | simp

theorem State.modSched_keeps {s0 s : State} (a1_ : Nat) (f : Sched → Sched) (h : Keeps s0 s) :
    Keeps s0 (State.modSched s a1_ f) := by
  unfold State.modSched
  repeat' first
    | with_reducible assumption | with_reducible apply State.modCtl_keeps | with_reducible apply Keeps.ite | split
    | rfl

theorem State.send_keeps {s0 s : State} (o : Out) (h : Keeps s0 s) : Keeps s0 (s.send o) :=
  ⟨h.1, h.2, h.3, h.4.trans (List.prefix_append _ _), h.5, fun i => ⟨(h.6 i).1, (h.6 i).2, (h.6 i).3, (h.6 i).4, (h.6 i).5⟩⟩

theorem State.draw_keeps {s0 s : State} (h : Keeps s0 s) : Keeps s0 s.draw.2 :=
  ⟨h.1, h.2, h.3.trans (Nat.le_succ _), h.4, h.5, fun i => ⟨(h.6 i).1, (h.6 i).2, (h.6 i).3, (h.6 i).4, (h.6 i).5⟩⟩

theorem State.freeVal_keeps {s0 s : State} (h : Keeps s0 s) : Keeps s0 s.freeVal.2 :=
  ⟨h.1, h.2, h.3.trans (Nat.le_succ _), h.4, h.5, fun i => ⟨(h.6 i).1, (h.6 i).2, (h.6 i).3, (h.6 i).4, (h.6 i).5⟩⟩

theorem State.fresh_keeps {s0 s : State} (h : Keeps s0 s) : Keeps s0 s.fresh.2 :=
  ⟨h.1, h.2, h.3, h.4, h.5, fun i => ⟨(h.6 i).1, (h.6 i).2, (h.6 i).3, (h.6 i).4, (h.6 i).5⟩⟩

theorem sendVector_keeps {s0 s : State} (v : Nat) (h : Keeps s0 s) : Keeps s0 (sendVector v s) := by
  unfold sendVector
  repeat' first
    | with_reducible assumption | with_reducible intro _ | with_reducible apply State.modEv_keeps
    | with_reducible apply State.send_keeps | with_reducible apply Keeps.ite | refine Keeps.ofEq (by assumption) ?_
    | refine Keeps.ofEq2 (by assumption) ?_ | exact Nat.le_refl _ | exact Nat.le_max_left _ _ | dsimp only | split
    | rfl | decide | trivial

theorem raiseBits_keeps {s0 s : State} (x : Nat) (hx : eventReserved x = false) (h : Keeps s0 s) : Keeps s0
    (raiseBits x s) := by
  have hm : Keeps s0 (s.modEv (fun e => { e with
      status := e.status ||| (1#1024 <<< x), counts := tabMod 0 e.counts x sat32, last := x, total := e.total + 1
      drop := if s.ev.status.getLsbD x then sat32 e.drop else e.drop })) :=
    ⟨h.1, h.2, h.3, h.4, h.5, fun i => ⟨(h.6 i).1, (h.6 i).2, (h.6 i).3, (h.6 i).4, fun y hy => by
      have ne : y ≠ x := fun e => by rw [e, hx] at hy; cases hy
      obtain ⟨hs, hc⟩ := (h.6 i).5 y hy
      constructor
      · show (s.ev.status ||| (1#1024 <<< x)).getLsbD y = false
        simp only [BitVec.getLsbD_or, hs, BitVec.getLsbD_shiftLeft, BitVec.getLsbD_one, Bool.false_or]
        simp only [Bool.and_eq_false_iff, decide_eq_false_iff_not, Bool.not_eq_false', decide_eq_true_eq]
        omega
      · exact (tabGet_tabMod_other 0 _ x y sat32 ne).trans hc⟩⟩
  unfold raiseBits
  have hf : ∀ l : List Nat, ∀ t, Keeps s0 t → Keeps s0 (forEach l (fun n s => s.send (.core n x)) t) := fun l t ht =>
    forEach_keeps l (fun _ _ k => State.send_keeps _ k) ht
  exact Keeps.ite (sendVector_keeps _ (hf _ _ hm)) (hf _ _ hm)

theorem flashStart_keeps {s0 s : State} (b : Nat) (h : Keeps s0 s) : Keeps s0 (flashStart b s) := by
  unfold flashStart
  repeat' first
    | with_reducible assumption | with_reducible intro _ | with_reducible refine forEach_keeps _ ?_ ?_
    | with_reducible apply State.modFbank_keeps

theorem flashQueue_keeps {s0 s : State} (b : Nat) (o : FOp) (h : Keeps s0 s) : Keeps s0 (flashQueue b o s) := by
  unfold flashQueue
  repeat' first
    | with_reducible assumption | with_reducible intro _ | with_reducible refine forEach_keeps _ ?_ ?_
    | with_reducible apply State.modFbank_keeps | with_reducible apply flashStart_keeps

theorem flashMarks_keeps {s0 s : State} (b : Nat) (sector : Nat) (w : Nat) (p : FPurpose) (l : List (BitVec 64)) (h
    : Keeps s0 s) : Keeps s0 (flashMarks b sector w p l s) := by
  unfold flashMarks
  repeat' first
    | with_reducible assumption | with_reducible intro _ | with_reducible refine forEach_keeps _ ?_ ?_
    | with_reducible apply flashQueue_keeps

theorem flashRing_keeps {s0 s : State} (sector : Nat) (size : Nat) (n : Nat) (p : FPurpose) (e : FPurpose) (l :
    List (BitVec 64)) (h : Keeps s0 s) : Keeps s0 (flashRing sector size n p e l s) := by
  unfold flashRing
  repeat' first
    | with_reducible assumption | with_reducible intro _ | with_reducible refine forEach_keeps _ ?_ ?_
    | with_reducible apply flashMarks_keeps | with_reducible apply flashQueue_keeps | with_reducible apply Keeps.ite

theorem critPut_keeps {s0 s : State} (r : Rec) (h : Keeps s0 s) : Keeps s0 (critPut r s).1 := by
  unfold critPut
  repeat' first
    | with_reducible assumption | with_reducible apply State.modTest_keeps | with_reducible apply flashQueue_keeps
    | with_reducible apply Keeps.ite | with_reducible apply Keeps.fst_ite | split | rfl

theorem ringPut_lc (r : Rec) (t : Test) : (ringPut r t).1.lcFuses = t.lcFuses := by
  unfold ringPut
  dsimp only
  split
  · rfl
  · split <;> rfl

theorem recPut_keeps {s0 s : State} (ty src : Nat) (crit : Bool) (body : Bytes) (h : Keeps s0 s) :
    Keeps s0 (recPut ty src crit body s).1 := by
  have key (r : Rec) (p : State × Nat) (h : Keeps s0 p.1) : Keeps s0
      (if crit then ((critPut r p.1).1, p.2, (critPut r p.1).2) else (p.1, p.2, false)).1 := by
    split
    · exact critPut_keeps r h
    · exact h
  have ht := State.modTest_keeps (fun t => { t with seq := t.seq + 1 }) h (Nat.le_refl _)
  have pick (c : Prop) [Decidable c] (a b : State × Nat) (h : Keeps s0 a.1) (k : Keeps s0 b.1) :
        Keeps s0 (if c then a else b).1 := by split <;> assumption
  unfold recPut
  split
  · exact h
  · exact key _ _ (pick _ _ _ (Keeps.withTest _ ht (Nat.le_refl _)) (Keeps.withTest _ ht (Nat.le_of_eq (ringPut_lc _ _).symm)))

theorem record_keeps {s0 s : State} (ty : Nat) (src : Nat) (crit : Bool) (body : Bytes) (h : Keeps s0 s) :
    Keeps s0 (record ty src crit body s) := by
  unfold record
  repeat' first
    | with_reducible assumption | with_reducible apply recPut_keeps | with_reducible apply raiseBits_keeps
    | with_reducible apply Keeps.ite | split | rfl

theorem raiseWith_keeps {s0 s : State} (x unit detail : Nat) (h : Keeps s0 s) : Keeps s0 (raiseWith x unit detail s) := by
  unfold raiseWith
  split
  · exact h
  · exact record_keeps _ _ _ _ (raiseBits_keeps x (by simpa using ‹¬ eventReserved x = true›) h)

theorem raise_keeps {s0 s : State} (x : Nat) (h : Keeps s0 s) : Keeps s0 (raise x s) := by
  unfold raise
  repeat' first
    | with_reducible assumption | with_reducible apply raiseWith_keeps

theorem powerLogF_keeps {s0 s : State} (kind : Nat) (flags : Nat) (h : Keeps s0 s) : Keeps s0 (powerLogF kind flags
    s) := by
  unfold powerLogF
  repeat' first
    | with_reducible assumption | with_reducible intro _ | with_reducible refine forEach_keeps _ ?_ ?_
    | with_reducible apply State.modPower_keeps | with_reducible apply flashRing_keeps

theorem powerLog_keeps {s0 s : State} (kind : Nat) (h : Keeps s0 s) : Keeps s0 (powerLog kind s) := by
  unfold powerLog
  repeat' first
    | with_reducible assumption | with_reducible apply powerLogF_keeps

theorem cutPieces_keeps {s0 : State} : ∀ (n t : Nat) {s : State}, Keeps s0 s → Keeps s0 (cutPieces n t s)
  | 0, _, _, h => h
  | n + 1, t, s, h => by
    unfold cutPieces
    refine Keeps.ite h (cutPieces_keeps n t (State.modTport_keeps _ _ (State.send_keeps _ ?_)))
    exact Keeps.ite (State.send_keeps _ h) h

theorem laneBytes_keeps {s0 s : State} (t : Nat) (b : Bytes) (h : Keeps s0 s) : Keeps s0 (laneBytes t b s) := by
  unfold laneBytes
  repeat' first
    | with_reducible assumption | with_reducible intro _ | with_reducible refine forEach_keeps _ ?_ ?_
    | with_reducible apply State.modTport_keeps | with_reducible apply cutPieces_keeps

theorem sendFrame_keeps {s0 s : State} (t : Nat) (hd : TwinHead) (b : TwinBody) (h : Keeps s0 s) : Keeps s0
    (sendFrame t hd b s) := by
  unfold sendFrame
  repeat' first
    | with_reducible assumption | with_reducible intro _ | with_reducible refine forEach_keeps _ ?_ ?_
    | with_reducible apply laneBytes_keeps | with_reducible apply State.send_keeps

theorem fillLanes_keeps {s0 s : State} (h : Keeps s0 s) : Keeps s0 (fillLanes s) := by
  unfold fillLanes
  repeat' first
    | with_reducible assumption | with_reducible intro _ | with_reducible refine forEach_keeps _ ?_ ?_
    | with_reducible apply laneBytes_keeps

theorem ctlOn_keeps {s0 s : State} (t : Nat) (b : TwinBody) (h : Keeps s0 s) : Keeps s0 (ctlOn t b s) := by
  unfold ctlOn
  repeat' first
    | with_reducible assumption | with_reducible intro _ | with_reducible refine forEach_keeps _ ?_ ?_
    | with_reducible apply sendFrame_keeps

theorem respond_keeps {s0 s : State} (m : Nat) (r : Rsp) (h : Keeps s0 s) : Keeps s0 (respond m r s) := by
  unfold respond
  repeat' first
    | with_reducible assumption | with_reducible intro _ | with_reducible refine forEach_keeps _ ?_ ?_
    | with_reducible apply State.send_keeps | with_reducible apply ctlOn_keeps
    | with_reducible apply State.modMbx_keeps | with_reducible apply raiseWith_keeps | with_reducible apply Keeps.ite
    | with_reducible apply KeepsO.ite | with_reducible apply KeepsO.some | with_reducible apply KeepsO.none
    | with_reducible apply Keeps.fst_ite | with_reducible apply Keeps.snd_ite | refine Keeps.ofEq (by assumption) ?_
    | refine Keeps.ofEq2 (by assumption) ?_ | refine KeepsO.get (by assumption) ?_ | refine KeepsO.getD ?_ ?_
    | exact Nat.le_refl _ | exact Nat.le_max_left _ _ | dsimp only | split

theorem statusEnd_keeps {s0 s : State} (r : Running) (status : Nat) (rflags : Nat) (reason : Nat) (h : Keeps s0 s) :
    Keeps s0 (statusEnd r status rflags reason s) := by
  unfold statusEnd
  repeat' first
    | with_reducible assumption | with_reducible apply State.modCtl_keeps | with_reducible apply Keeps.ite | split
    | rfl

theorem finishWith_keeps {s0 s : State} (r : Running) (status : Nat) (block : Bytes) (h : Keeps s0 s) :
    Keeps s0 (finishWith r status block s) := by
  unfold finishWith
  repeat' first
    | with_reducible assumption | with_reducible apply State.modCtl_keeps | with_reducible apply State.modMbx_keeps
    | with_reducible apply statusEnd_keeps | with_reducible apply respond_keeps | with_reducible apply Keeps.ite
    | split | rfl

theorem finish_keeps {s0 s : State} (id : Nat) (status : Nat) (block : Bytes) (h : Keeps s0 s) :
    Keeps s0 (finish id status block s) := by
  unfold finish
  repeat' first
    | with_reducible assumption | with_reducible apply finishWith_keeps | split

theorem finishAll_keeps {s0 s : State} (ids : List Nat) (status : Nat) (block : Bytes) (h : Keeps s0 s) :
    Keeps s0 (finishAll ids status block s) := by
  unfold finishAll
  repeat' first
    | with_reducible assumption | with_reducible intro _ | with_reducible refine forEach_keeps _ ?_ ?_
    | with_reducible apply finish_keeps

theorem setPast_keeps {s0 s : State} (id : Nat) (h : Keeps s0 s) : Keeps s0 (setPast id s) := by
  unfold setPast
  repeat' first
    | with_reducible assumption | with_reducible apply State.modCtl_keeps | with_reducible apply Keeps.ite | split
    | rfl

end Sys2Proof.Machine
end

