-- ==== Sys2Proof/Laws/KeepsSump.lean ====
section
/-! SUPPORT. `Keeps` through the operations of keys, media links, rails, the sump and the log. -/

namespace Sys2Proof.Machine

open Sys2Proof











theorem saveContext_keeps {s0 s : State} (e : Nat) (susp : Bool) (j : Job) (h : Keeps s0 s) : Keeps s0 (saveContext
    e susp j s) := by
  unfold saveContext
  repeat' first
    | with_reducible assumption | with_reducible intro _ | with_reducible refine forEach_keeps _ ?_ ?_
    | with_reducible apply State.modCipher_keeps | with_reducible apply Keeps.ite | with_reducible apply KeepsO.ite
    | with_reducible apply KeepsO.some | with_reducible apply KeepsO.none | with_reducible apply Keeps.fst_ite
    | with_reducible apply Keeps.snd_ite | refine Keeps.ofEq (by assumption) ?_
    | refine Keeps.ofEq2 (by assumption) ?_ | refine KeepsO.get (by assumption) ?_ | refine KeepsO.getD ?_ ?_
    | exact Nat.le_refl _ | exact Nat.le_max_left _ _ | dsimp only

theorem failContext_keeps {s0 s : State} (x : Saved) (h : Keeps s0 s) : Keeps s0 (failContext x s) := by
  unfold failContext
  repeat' first
    | with_reducible assumption | with_reducible intro _ | with_reducible refine forEach_keeps _ ?_ ?_
    | with_reducible apply State.modNport_keeps | with_reducible apply dropAuth_keeps
    | with_reducible apply raise_keeps | with_reducible apply Keeps.ite

theorem restoreContext_keeps {s0 s : State} (e : Nat) (x : Saved) (h : Keeps s0 s) : Keeps s0 (restoreContext e x
    s) := by
  unfold restoreContext
  repeat' first
    | with_reducible assumption | with_reducible intro _ | with_reducible refine forEach_keeps _ ?_ ?_
    | with_reducible apply State.modCipher_keeps | with_reducible apply failContext_keeps
    | with_reducible apply State.modEngine_keeps | with_reducible apply Keeps.ite | with_reducible apply KeepsO.ite
    | with_reducible apply KeepsO.some | with_reducible apply KeepsO.none | with_reducible apply Keeps.fst_ite
    | with_reducible apply Keeps.snd_ite | refine Keeps.ofEq (by assumption) ?_
    | refine Keeps.ofEq2 (by assumption) ?_ | refine KeepsO.get (by assumption) ?_ | refine KeepsO.getD ?_ ?_
    | exact Nat.le_refl _ | exact Nat.le_max_left _ _ | dsimp only

theorem resumeJobs_keeps {s0 s : State} (e : Nat) (h : Keeps s0 s) : Keeps s0 (resumeJobs e s) := by
  unfold resumeJobs
  repeat' first
    | with_reducible assumption | with_reducible intro _ | with_reducible refine forEach_keeps _ ?_ ?_
    | with_reducible apply restoreContext_keeps | with_reducible apply Keeps.ite

theorem suspendFor_keeps {s0 s : State} (e : Nat) (h : Keeps s0 s) : Keeps s0 (suspendFor e s) := by
  unfold suspendFor
  repeat' first
    | with_reducible assumption | with_reducible intro _ | with_reducible refine forEach_keeps _ ?_ ?_
    | with_reducible apply saveContext_keeps | with_reducible apply State.modEngine_keeps
    | with_reducible apply Keeps.ite | with_reducible apply KeepsO.ite | with_reducible apply KeepsO.some
    | with_reducible apply KeepsO.none | with_reducible apply Keeps.fst_ite | with_reducible apply Keeps.snd_ite
    | refine Keeps.ofEq (by assumption) ?_ | refine Keeps.ofEq2 (by assumption) ?_
    | refine KeepsO.get (by assumption) ?_ | refine KeepsO.getD ?_ ?_ | exact Nat.le_refl _
    | exact Nat.le_max_left _ _ | dsimp only | split

theorem beginJob_keeps {s0 s : State} (e : Nat) (j : Job) (h : Keeps s0 s) : Keeps s0 (beginJob e j s) := by
  unfold beginJob
  repeat' first
    | with_reducible assumption | with_reducible intro _ | with_reducible refine forEach_keeps _ ?_ ?_
    | with_reducible apply resumeJobs_keeps | with_reducible apply suspendFor_keeps
    | with_reducible apply State.modEngine_keeps | with_reducible apply State.modCipher_keeps
    | with_reducible apply Keeps.ite | with_reducible apply KeepsO.ite | with_reducible apply KeepsO.some
    | with_reducible apply KeepsO.none | with_reducible apply Keeps.fst_ite | with_reducible apply Keeps.snd_ite
    | refine Keeps.ofEq (by assumption) ?_ | refine Keeps.ofEq2 (by assumption) ?_
    | refine KeepsO.get (by assumption) ?_ | refine KeepsO.getD ?_ ?_ | exact Nat.le_refl _
    | exact Nat.le_max_left _ _ | dsimp only

theorem dropJobs_keeps {s0 s : State} (tag : KeyTag) (h : Keeps s0 s) : Keeps s0 (dropJobs tag s) := by
  unfold dropJobs
  repeat' first
    | with_reducible assumption | with_reducible intro _ | with_reducible refine forEach_keeps _ ?_ ?_
    | with_reducible apply resumeJobs_keeps | with_reducible apply State.modEngine_keeps
    | with_reducible apply Keeps.ite

theorem eraseKeys_keeps {s0 s : State} (h : Keeps s0 s) : Keeps s0 (eraseKeys s) := by
  unfold eraseKeys
  exact State.modCipher_keeps _ h (by simp)

theorem moveJobs_keeps {s0 s : State} (h : Keeps s0 s) : Keeps s0 (moveJobs s) := by
  unfold moveJobs
  repeat' first
    | with_reducible assumption | with_reducible intro _ | with_reducible refine forEach_keeps _ ?_ ?_
    | with_reducible apply saveContext_keeps | with_reducible apply State.modEngine_keeps
    | with_reducible apply restoreContext_keeps | with_reducible apply Keeps.ite | with_reducible apply KeepsO.ite
    | with_reducible apply KeepsO.some | with_reducible apply KeepsO.none | with_reducible apply Keeps.fst_ite
    | with_reducible apply Keeps.snd_ite | refine Keeps.ofEq (by assumption) ?_
    | refine Keeps.ofEq2 (by assumption) ?_ | refine KeepsO.get (by assumption) ?_ | refine KeepsO.getD ?_ ?_
    | exact Nat.le_refl _ | exact Nat.le_max_left _ _ | dsimp only | split

theorem handOver_keeps {s0 s : State} (h : Keeps s0 s) : Keeps s0 (handOver s) := by
  unfold handOver
  repeat' first
    | with_reducible assumption | with_reducible intro _ | with_reducible refine forEach_keeps _ ?_ ?_
    | with_reducible apply moveJobs_keeps | with_reducible apply State.modEngine_keeps
    | with_reducible apply raise_keeps | with_reducible apply Keeps.ite

theorem engineOut_keeps {s0 s : State} (e : Nat) (h : Keeps s0 s) : Keeps s0 (engineOut e s) := by
  unfold engineOut
  repeat' first
    | with_reducible assumption | with_reducible apply handOver_keeps | with_reducible apply raiseWith_keeps
    | with_reducible apply State.modEngine_keeps | with_reducible apply Keeps.ite

theorem keyMiss_keeps {s0 s : State} (tag : KeyTag) (h : Keeps s0 s) : Keeps s0 (keyMiss tag s) := by
  unfold keyMiss
  repeat' first
    | with_reducible assumption | with_reducible apply State.modCipher_keeps | with_reducible apply raise_keeps
    | with_reducible apply Keeps.ite | with_reducible refine Keeps.withMisses _ ?_ | split | rfl

theorem keyUse_keeps {s0 s : State} (e : Nat) (j : Job) (h : Keeps s0 s) : Keeps s0 (keyUse e j s) := by
  unfold keyUse
  repeat' first
    | with_reducible assumption | with_reducible intro _ | with_reducible refine forEach_keeps _ ?_ ?_
    | with_reducible apply beginJob_keeps | with_reducible apply State.modCipher_keeps
    | with_reducible apply keyMiss_keeps | with_reducible apply Keeps.ite | with_reducible apply KeepsO.ite
    | with_reducible apply KeepsO.some | with_reducible apply KeepsO.none | with_reducible apply Keeps.fst_ite
    | with_reducible apply Keeps.snd_ite | refine Keeps.ofEq (by assumption) ?_
    | refine Keeps.ofEq2 (by assumption) ?_ | refine KeepsO.get (by assumption) ?_ | refine KeepsO.getD ?_ ?_
    | exact Nat.le_refl _ | exact Nat.le_max_left _ _ | dsimp only

theorem gcmJob_keeps {s0 s : State} (decrypt : Bool) (port : Nat) (c : Nat) (gen : Nat) (nonce : BitVec 96) (len :
    Nat) (h : Keeps s0 s) : Keeps s0 (gcmJob decrypt port c gen nonce len s) := by
  unfold gcmJob
  repeat' first
    | with_reducible assumption | with_reducible intro _ | with_reducible refine forEach_keeps _ ?_ ?_
    | with_reducible apply keyUse_keeps

theorem xtsJob_keeps {s0 s : State} (decrypt : Bool) (g : Nat) (ns : Nat) (off : Nat) (key : Bytes) (h : Keeps s0
    s) : Keeps s0 (xtsJob decrypt g ns off key s) := by
  unfold xtsJob
  repeat' first
    | with_reducible assumption | with_reducible intro _ | with_reducible refine forEach_keeps _ ?_ ?_
    | with_reducible apply keyUse_keeps

theorem keyLoad_keeps {s0 s : State} (tag : KeyTag) (h : Keeps s0 s) : Keeps s0 (keyLoad tag s) := by
  unfold keyLoad
  repeat' first
    | with_reducible assumption | with_reducible intro _ | with_reducible refine forEach_keeps _ ?_ ?_
    | with_reducible apply dropJobs_keeps | with_reducible apply State.modCipher_keeps
    | with_reducible apply Keeps.ite | with_reducible apply KeepsO.ite | with_reducible apply KeepsO.some
    | with_reducible apply KeepsO.none | with_reducible apply Keeps.fst_ite | with_reducible apply Keeps.snd_ite
    | refine Keeps.ofEq (by assumption) ?_ | refine Keeps.ofEq2 (by assumption) ?_
    | refine KeepsO.get (by assumption) ?_ | refine KeepsO.getD ?_ ?_ | exact Nat.le_refl _
    | exact Nat.le_max_left _ _ | dsimp only

theorem keyKeep_keeps {s0 s : State} (tag : KeyTag) (h : Keeps s0 s) : Keeps s0 (keyKeep tag s) := by
  unfold keyKeep
  repeat' first
    | with_reducible assumption | with_reducible apply State.modCipher_keeps | with_reducible apply Keeps.ite | split
    | rfl

theorem sendBlocks_keeps {s0 s : State} (c : Nat) (f : Bytes) (h : Keeps s0 s) : Keeps s0 (sendBlocks c f s) := by
  unfold sendBlocks
  repeat' first
    | with_reducible assumption | with_reducible intro _ | with_reducible refine forEach_keeps _ ?_ ?_
    | with_reducible apply State.modChan_keeps | with_reducible apply State.send_keeps

theorem sendFlit_keeps {s0 s : State} (c : Nat) (ftype : Nat) (body : Bytes) (h : Keeps s0 s) : Keeps s0 (sendFlit
    c ftype body s) := by
  unfold sendFlit
  repeat' first
    | with_reducible assumption | with_reducible intro _ | with_reducible refine forEach_keeps _ ?_ ?_
    | with_reducible apply sendBlocks_keeps | with_reducible apply State.modChan_keeps

theorem sendIdle_keeps {s0 s : State} (c : Nat) (h : Keeps s0 s) : Keeps s0 (sendIdle c s) := by
  unfold sendIdle
  repeat' first
    | with_reducible assumption | with_reducible intro _ | with_reducible refine forEach_keeps _ ?_ ?_
    | with_reducible apply sendBlocks_keeps

theorem sendCommandFlits_keeps {s0 s : State} (c : Nat) (m : MCmd) (tag : Nat) (h : Keeps s0 s) :
    Keeps s0 (sendCommandFlits c m tag s) := by
  unfold sendCommandFlits
  repeat' first
    | with_reducible assumption | with_reducible intro _ | with_reducible refine forEach_keeps _ ?_ ?_
    | with_reducible apply sendFlit_keeps | exact Nat.le_refl _ | dsimp only | split

theorem issue_keeps {s0 s : State} (c : Nat) (tag : Nat) (m : MCmd) (h : Keeps s0 s) : Keeps s0 (issue c tag m s) := by
  unfold issue
  repeat' first
    | with_reducible assumption | with_reducible apply State.modChan_keeps
    | with_reducible apply sendCommandFlits_keeps | with_reducible apply State.send_keeps

theorem issueWalk_keeps {s0 : State} (c : Nat) : ∀ (l held : List MCmd) {s : State}, Keeps s0 s → Keeps s0
    (issueWalk c l held s).1
  | [], _, _, h => h
  | m :: t, held, s, h => by
    unfold issueWalk
    split
    · split
      · exact issueWalk_keeps c t held (issue_keeps _ _ _ h)
      · exact issueWalk_keeps c t _ h
    · exact h

theorem pumpChan_keeps {s0 s : State} (c : Nat) (h : Keeps s0 s) : Keeps s0 (pumpChan c s) := by
  unfold pumpChan
  repeat' first
    | with_reducible assumption | with_reducible apply issueWalk_keeps | with_reducible apply State.modChan_keeps

theorem submit_keeps {s0 s : State} (c : Nat) (m : MCmd) (h : Keeps s0 s) : Keeps s0 (submit c m s) := by
  unfold submit
  repeat' first
    | with_reducible assumption | with_reducible apply pumpChan_keeps | with_reducible apply State.modChan_keeps

theorem takeTag_keeps {s0 s u : State} {c tag : Nat} {op : MOp} {r : TagRec} (e : takeTag c tag op s = some (r, u))
    (h : Keeps s0 s) :
    Keeps s0 u := by
  unfold takeTag at e
  split at e
  · split at e
    · injection e with e
      injection e with _ e
      exact e ▸ State.modChan_keeps _ _ h
    · cases e
  · cases e

theorem sendLctl_keeps {s0 s : State} (c : Nat) (ack : Option (BitVec 12)) (nak : Option (BitVec 12)) (retrain :
    Bool) (quiesce : Bool) (h : Keeps s0 s) : Keeps s0 (sendLctl c ack nak retrain quiesce s) := by
  unfold sendLctl
  repeat' first
    | with_reducible assumption | with_reducible intro _ | with_reducible refine forEach_keeps _ ?_ ?_
    | with_reducible apply sendBlocks_keeps

theorem startRetrain_keeps {s0 s : State} (c : Nat) (h : Keeps s0 s) : Keeps s0 (startRetrain c s) := by
  unfold startRetrain
  repeat' first
    | with_reducible assumption | with_reducible apply State.modChan_keeps | with_reducible apply State.send_keeps
    | with_reducible apply Keeps.ite

theorem startTraining_keeps {s0 s : State} (c : Nat) (h : Keeps s0 s) : Keeps s0 (startTraining c s) := by
  unfold startTraining
  repeat' first
    | with_reducible assumption | with_reducible apply State.modChan_keeps | with_reducible apply State.send_keeps

theorem flitFail_keeps {s0 s : State} (c : Nat) (crc : Bool) (h : Keeps s0 s) : Keeps s0 (flitFail c crc s) := by
  unfold flitFail
  repeat' first
    | with_reducible assumption | with_reducible apply State.modChan_keeps | with_reducible apply sendLctl_keeps
    | with_reducible apply startRetrain_keeps | with_reducible apply Keeps.ite

theorem flitAccept_keeps {s0 s : State} (c : Nat) (data : Nat) (h : Keeps s0 s) : Keeps s0 (flitAccept c data s) := by
  unfold flitAccept
  repeat' first
    | with_reducible assumption | with_reducible apply State.modChan_keeps | with_reducible apply sendLctl_keeps
    | with_reducible apply Keeps.ite

theorem replayFrom_keeps {s0 s : State} (c : Nat) (seq : BitVec 12) (h : Keeps s0 s) : Keeps s0 (replayFrom c seq
    s) := by
  unfold replayFrom
  repeat' first
    | with_reducible assumption | with_reducible intro _ | with_reducible refine forEach_keeps _ ?_ ?_
    | with_reducible apply sendBlocks_keeps | with_reducible apply State.modChan_keeps
    | with_reducible apply startRetrain_keeps | with_reducible apply Keeps.ite

theorem ackTo_keeps {s0 s : State} (c : Nat) (seq : BitVec 12) (h : Keeps s0 s) : Keeps s0 (ackTo c seq s) := by
  unfold ackTo
  repeat' first
    | with_reducible assumption | with_reducible apply pumpChan_keeps | with_reducible apply State.modChan_keeps
    | with_reducible apply Keeps.ite

theorem lctlRx_keeps {s0 s : State} (c : Nat) (f : Bytes) (h : Keeps s0 s) : Keeps s0 (lctlRx c f s) := by
  unfold lctlRx
  repeat' first
    | with_reducible assumption | with_reducible intro _ | with_reducible refine forEach_keeps _ ?_ ?_
    | with_reducible apply ackTo_keeps | with_reducible apply replayFrom_keeps
    | with_reducible apply startRetrain_keeps | with_reducible apply pumpChan_keeps | with_reducible apply Keeps.ite

theorem flitRx_keeps {s0 s : State} (c : Nat) (f : Bytes) (h : Keeps s0 s) : Keeps s0 (flitRx c f s) := by
  unfold flitRx
  repeat' first
    | with_reducible assumption | with_reducible apply flitFail_keeps | with_reducible apply lctlRx_keeps
    | with_reducible apply flitAccept_keeps | with_reducible apply Keeps.ite

theorem resumeStream_keeps {s0 s : State} (c : Nat) (h : Keeps s0 s) : Keeps s0 (resumeStream c s) := by
  unfold resumeStream
  repeat' first
    | with_reducible assumption | with_reducible intro _ | with_reducible refine forEach_keeps _ ?_ ?_
    | with_reducible apply sendBlocks_keeps | with_reducible apply pumpChan_keeps
    | with_reducible apply State.modChan_keeps | with_reducible apply Keeps.ite

theorem idleFlits_keeps {s0 s : State} (h : Keeps s0 s) : Keeps s0 (idleFlits s) := by
  unfold idleFlits
  repeat' first
    | with_reducible assumption | with_reducible intro _ | with_reducible refine forEach_keeps _ ?_ ?_
    | with_reducible apply sendIdle_keeps | with_reducible apply Keeps.ite

theorem readDescriptor_keeps {s0 s : State} (c : Nat) (h : Keeps s0 s) : Keeps s0 (readDescriptor c s) := by
  unfold readDescriptor
  repeat' first
    | with_reducible assumption | with_reducible apply submit_keeps

theorem enableRail_keeps {s0 s : State} (i : Nat) (h : Keeps s0 s) : Keeps s0 (enableRail i s) := by
  unfold enableRail
  repeat' first
    | with_reducible assumption | with_reducible apply State.modRail_keeps

theorem disableRail_keeps {s0 s : State} (i : Nat) (h : Keeps s0 s) : Keeps s0 (disableRail i s) := by
  unfold disableRail
  repeat' first
    | with_reducible assumption | with_reducible apply State.modRail_keeps

theorem railFault_keeps {s0 s : State} (i : Nat) (h : Keeps s0 s) : Keeps s0 (railFault i s) := by
  unfold railFault
  repeat' first
    | with_reducible assumption | with_reducible apply raiseWith_keeps | with_reducible apply State.modRail_keeps

theorem railWarn_keeps {s0 s : State} (i : Nat) (h : Keeps s0 s) : Keeps s0 (railWarn i s) := by
  unfold railWarn
  repeat' first
    | with_reducible assumption | with_reducible apply raiseWith_keeps | with_reducible apply State.modRail_keeps

theorem firstFailure_keeps {s0 s : State} (rail : Nat) (cause : Nat) (h : Keeps s0 s) :
    Keeps s0 (firstFailure rail cause s) := by
  unfold firstFailure
  repeat' first
    | with_reducible assumption | with_reducible apply State.modPower_keeps | with_reducible apply Keeps.ite

theorem patchRecord_keeps {s0 s : State} (rail : Nat) (cause : Nat) (h : Keeps s0 s) : Keeps s0 (patchRecord rail
    cause s) := by
  unfold patchRecord
  repeat' first
    | with_reducible assumption | with_reducible intro _ | with_reducible refine forEach_keeps _ ?_ ?_
    | with_reducible apply flashMarks_keeps | with_reducible apply State.modPower_keeps
    | with_reducible apply Keeps.ite | with_reducible apply KeepsO.ite | with_reducible apply KeepsO.some
    | with_reducible apply KeepsO.none | with_reducible apply Keeps.fst_ite | with_reducible apply Keeps.snd_ite
    | refine Keeps.ofEq (by assumption) ?_ | refine Keeps.ofEq2 (by assumption) ?_
    | refine KeepsO.get (by assumption) ?_ | refine KeepsO.getD ?_ ?_ | exact Nat.le_refl _
    | exact Nat.le_max_left _ _ | dsimp only | split

theorem noteFailure_keeps {s0 s : State} (rail : Nat) (cause : Nat) (h : Keeps s0 s) : Keeps s0 (noteFailure rail cause s) := by
  unfold noteFailure
  repeat' first
    | with_reducible assumption | with_reducible apply patchRecord_keeps | with_reducible apply firstFailure_keeps
    | with_reducible apply Keeps.ite

theorem makeRoom_keeps {s0 s : State} (b : Nat) (h : Keeps s0 s) : KeepsO s0 (makeRoom b s) := by
  unfold makeRoom
  repeat' first
    | with_reducible assumption | with_reducible apply State.modSump_keeps | exact KeepsO.none
    | with_reducible apply KeepsO.some | with_reducible apply KeepsO.ite | with_reducible apply Keeps.ite | split

theorem placeLine_keeps {s0 s : State} (ns : Nat) (line : Nat) (st : LineState) (img : Img) (poison : Bool) (tag : Option (Nat × MsgId))
    (lsn : Lsn) (conns : List (Nat × MsgId)) (h : Keeps s0 s) :
    KeepsO s0 (placeLine ns line st img poison tag lsn conns s) := by
  unfold placeLine
  repeat' first
    | with_reducible assumption | with_reducible apply makeRoom_keeps | with_reducible apply State.modSump_keeps
    | exact KeepsO.none | with_reducible apply KeepsO.some | with_reducible apply KeepsO.ite
    | refine KeepsO.get (by assumption) ?_ | split

theorem dropPage_keeps {s0 s : State} (x : PoolPage) (h : Keeps s0 s) : Keeps s0 (dropPage x s) := by
  unfold dropPage
  repeat' first
    | with_reducible assumption | with_reducible apply State.modSump_keeps

theorem takePage_keeps {s0 s t : State} {f : Nat} (o : Option Nat) (v : Option PoolPage) (h : Keeps s0 s)
    (e : takePage o v s = some (f, t)) : Keeps s0 t := by
  match o, v, e with
  | some _, _, e => cases e; exact h
  | none, some x, e => cases e; exact dropPage_keeps x h

theorem poolNeed_keeps {s0 s t : State} {c f : Nat} (h : Keeps s0 s) (e : poolNeed c s = some (f, t)) : Keeps s0 t := by
  unfold poolNeed at e
  exact takePage_keeps _ _ h e

theorem poolWrite_keeps {s0 s : State} (client : Nat) (ns : Nat) (cw : Nat) (old : Img) (new : Img) (h : Keeps s0
    s) : Keeps s0 (poolWrite client ns cw old new s) := by
  unfold poolWrite
  repeat' first
    | with_reducible assumption | with_reducible intro _ | with_reducible refine forEach_keeps _ ?_ ?_
    | with_reducible apply State.freeVal_keeps | with_reducible apply State.send_keeps

theorem cacheCw_keeps {s0 s : State} (client : Nat) (sched : Nat) (ns : Nat) (cw : Nat) (d : Bytes) (m : BitVec 4)
    (h : Keeps s0 s) : Keeps s0 (cacheCw client sched ns cw d m s) := by
  unfold cacheCw
  dsimp only
  split
  · exact poolWrite_keeps _ _ _ _ _ (State.modSump_keeps _ h)
  · split
    · exact poolWrite_keeps _ _ _ _ _ (State.modSump_keeps _ (poolNeed_keeps h ‹_›))
    · exact h

theorem touchPage_keeps {s0 s : State} (ns : Nat) (cw : Nat) (h : Keeps s0 s) : Keeps s0 (touchPage ns cw s) := by
  unfold touchPage
  repeat' first
    | with_reducible assumption | with_reducible apply State.modSump_keeps

theorem discardCopies_keeps {s0 s : State} (ns : Nat) (cw : Nat) (h : Keeps s0 s) : Keeps s0 (discardCopies ns cw s) := by
  unfold discardCopies
  repeat' first
    | with_reducible assumption | with_reducible apply State.modSump_keeps

theorem setTile_keeps {s0 s : State} (ns : Nat) (off : Nat) (h : Keeps s0 s) : Keeps s0 (setTile ns off s) := by
  unfold setTile
  repeat' first
    | with_reducible assumption | with_reducible apply State.modTwin_keeps | with_reducible apply Keeps.ite | split

theorem markGathers_keeps {s0 s : State} (ns : Nat) (line : Nat) (h : Keeps s0 s) : Keeps s0 (markGathers ns line s) := by
  unfold markGathers
  repeat' first
    | with_reducible assumption | with_reducible apply State.modXport_keeps

theorem notePoison_keeps {s0 s : State} (ws : List (Nat × MsgId)) (h : Keeps s0 s) : Keeps s0 (notePoison ws s) := by
  unfold notePoison
  repeat' first
    | with_reducible assumption | with_reducible intro _ | with_reducible refine forEach_keeps _ ?_ ?_
    | with_reducible apply State.modConn_keeps

theorem mergePrev_keeps {s0 s : State} (ns line : Nat) (img : Img) (poison : Bool) (h : Keeps s0 s) :
    Keeps s0 (mergePrev ns line img poison s).2.2.2 := by
  unfold mergePrev
  split
  · exact h
  · exact Keeps.ite h (State.modSump_keeps _ h)

theorem showLine_keeps {s0 s : State} (id : Option Nat) (ns : Nat) (line : Nat) (img : Img) (poison : Bool) (lsn : Lsn)
    (conns : List (Nat × MsgId)) (h : Keeps s0 s) :
    KeepsO s0 (showLine id ns line img poison lsn conns s) := by
  unfold showLine
  repeat' first
    | with_reducible assumption | with_reducible intro _ | with_reducible apply markGathers_keeps
    | with_reducible apply setTile_keeps | with_reducible apply State.modSump_keeps
    | with_reducible apply notePoison_keeps | with_reducible apply mergePrev_keeps
    | with_reducible apply discardCopies_keeps | with_reducible apply placeLine_keeps | exact KeepsO.none
    | with_reducible apply KeepsO.some | with_reducible apply KeepsO.ite | refine KeepsO.get (by assumption) ?_
    | with_reducible apply Keeps.ite | exact Nat.le_refl _ | dsimp only | split

theorem nextStamp_keeps {s0 s : State} (h : Keeps s0 s) : Keeps s0 (nextStamp s) := by
  unfold nextStamp
  repeat' first
    | with_reducible assumption | with_reducible apply State.modSump_keeps

theorem placePending_keeps {s0 s : State} (ns off : Nat) (d : Bytes) (tag : Nat × MsgId) (lsn : Lsn) (h : Keeps s0 s) :
    KeepsO s0 (placePending ns off d tag lsn s) := by
  unfold placePending
  refine foldl_keeps (P := KeepsO s0) (fun acc a k => ?_) _ (KeepsO.some h)
  cases acc with
  | none => exact KeepsO.none
  | some t => exact KeepsO.ite (KeepsO.some (State.modSump_keeps _ (k t rfl))) (placeLine_keeps _ _ _ _ _ _ _ _ (k t rfl))

theorem freePending_keeps {s0 s : State} (tag : Nat × MsgId) (h : Keeps s0 s) : Keeps s0 (freePending tag s) := by
  unfold freePending
  repeat' first
    | with_reducible assumption | with_reducible apply State.modSump_keeps

theorem showMessage_keeps {s0 s : State} (tag : Nat × MsgId) (lsn : Lsn) (h : Keeps s0 s) :
    Keeps s0 (showMessage tag lsn s).1 := by
  unfold showMessage
  refine foldl_keeps (P := fun b : State × List (Nat × Nat) => Keeps s0 b.1) (fun acc l k => ?_) _ (nextStamp_keeps h)
  exact (showLine_keeps _ _ _ _ _ _ _ k).getD k

theorem ovMerge_keeps {s0 s : State} (e : OvEntry) (h : Keeps s0 s) : Keeps s0 (ovMerge e s) := by
  unfold ovMerge
  repeat' first
    | with_reducible assumption | with_reducible intro _ | with_reducible refine forEach_keeps _ ?_ ?_
    | with_reducible apply State.modSump_keeps | with_reducible apply poolWrite_keeps
    | with_reducible apply State.send_keeps

theorem ctlOne_keeps {s0 s : State} (b : TwinBody) (h : Keeps s0 s) : Keeps s0 (ctlOne b s) := by
  unfold ctlOne
  repeat' first
    | with_reducible assumption | with_reducible apply ctlOn_keeps | split

theorem ctlAll_keeps {s0 s : State} (b : TwinBody) (h : Keeps s0 s) : Keeps s0 (ctlAll b s) := by
  unfold ctlAll
  repeat' first
    | with_reducible assumption | with_reducible intro _ | with_reducible refine forEach_keeps _ ?_ ?_
    | with_reducible apply ctlOn_keeps

theorem dataOn_keeps {s0 s : State} (t : Nat) (d : TwinData) (h : Keeps s0 s) : Keeps s0 (dataOn t d s) := by
  unfold dataOn
  repeat' first
    | with_reducible assumption | with_reducible intro _ | with_reducible refine forEach_keeps _ ?_ ?_
    | with_reducible apply State.modTport_keeps | with_reducible apply sendFrame_keeps

theorem pumpData_keeps {s0 : State} : ∀ (n : Nat) {s : State}, Keeps s0 s → Keeps s0 (pumpData n s)
  | 0, _, h => h
  | n + 1, s, h => by
    unfold pumpData
    split
    · exact h
    · split
      · exact h
      · exact pumpData_keeps n (dataOn_keeps _ _ (State.modTwin_keeps _ h))

theorem sendAll_keeps {s0 s : State} (l : List TwinData) (h : Keeps s0 s) : Keeps s0 (sendAll l s) := by
  unfold sendAll
  repeat' first
    | with_reducible assumption | with_reducible intro _ | with_reducible refine forEach_keeps _ ?_ ?_
    | with_reducible apply State.modTwin_keeps | with_reducible apply pumpData_keeps | with_reducible apply Keeps.ite

theorem sendData_keeps {s0 s : State} (d : TwinData) (h : Keeps s0 s) : Keeps s0 (sendData d s) := by
  unfold sendData
  repeat' first
    | with_reducible assumption | with_reducible intro _ | with_reducible refine forEach_keeps _ ?_ ?_
    | with_reducible apply sendAll_keeps

theorem pumpLogAux_keeps {s0 : State} : ∀ (n : Nat) {s : State}, Keeps s0 s → Keeps s0 (pumpLogAux n s)
  | 0, _, h => h
  | n + 1, s, h => by
    unfold pumpLogAux
    split
    · exact h
    · dsimp only
      refine Keeps.ite h (Keeps.ite h ?_)
      split
      · exact h
      · exact pumpLogAux_keeps n (dataOn_keeps _ _ (State.modTwin_keeps _ h))

theorem pumpLog_keeps {s0 s : State} (h : Keeps s0 s) : Keeps s0 (pumpLog s) := by
  unfold pumpLog
  repeat' first
    | with_reducible assumption | with_reducible intro _ | with_reducible refine forEach_keeps _ ?_ ?_
    | with_reducible apply sendAll_keeps | with_reducible apply pumpLogAux_keeps

theorem foldDigest_keeps {s0 s : State} (b : Bytes) (h : Keeps s0 s) : Keeps s0 (foldDigest b s) := by
  unfold foldDigest
  repeat' first
    | with_reducible assumption | with_reducible apply State.modTwin_keeps

theorem foldEntry_keeps {s0 s : State} (lsn : Lsn) (kind : Nat) (h : Keeps s0 s) : Keeps s0 (foldEntry lsn kind s) := by
  unfold foldEntry
  repeat' first
    | with_reducible assumption | with_reducible apply foldDigest_keeps

theorem foldLine_keeps {s0 s : State} (ns : Nat) (line : Nat) (h : Keeps s0 s) : Keeps s0 (foldLine ns line s) := by
  unfold foldLine
  repeat' first
    | with_reducible assumption | with_reducible apply foldDigest_keeps

theorem foldLines_keeps {s0 s : State} (l : List (Nat × Nat)) (h : Keeps s0 s) : Keeps s0 (foldLines l s) := by
  unfold foldLines
  repeat' first
    | with_reducible assumption | with_reducible intro _ | with_reducible refine forEach_keeps _ ?_ ?_
    | with_reducible apply foldLine_keeps

theorem noteTiles_keeps {s0 s : State} (lsn : Lsn) (e : LogEntry) (h : Keeps s0 s) : Keeps s0 (noteTiles lsn e s) := by
  unfold noteTiles
  repeat' first
    | with_reducible assumption | with_reducible apply State.modTwin_keeps | split

theorem logEntry_keeps {s0 s : State} (e : LogEntry) (h : Keeps s0 s) : Keeps s0 (logEntry e s).1 := by
  unfold logEntry
  repeat' first
    | with_reducible assumption | with_reducible apply State.modTwin_keeps | with_reducible apply pumpLog_keeps
    | with_reducible apply noteTiles_keeps | with_reducible apply foldEntry_keeps | with_reducible apply Keeps.fst_ite

theorem foldResult_keeps {s0 s : State} (result : Nat) (h : Keeps s0 s) : Keeps s0 (foldResult result s) := by
  unfold foldResult
  repeat' first
    | with_reducible assumption | with_reducible apply foldDigest_keeps | with_reducible apply Keeps.ite

theorem logControl_keeps {s0 s : State} (code : Nat) (tag : BitVec 16) (result : Nat) (cfg : Cfg) (h : Keeps s0 s) :
    Keeps s0 (logControl code tag result cfg s).1 := by
  unfold logControl
  repeat' first
    | with_reducible assumption | with_reducible apply logEntry_keeps | with_reducible apply foldResult_keeps

theorem twinAckTo_keeps {s0 s : State} (t : Nat) (seq : BitVec 16) (h : Keeps s0 s) : Keeps s0 (twinAckTo t seq s) := by
  unfold twinAckTo
  repeat' first
    | with_reducible assumption | with_reducible apply pumpLog_keeps | with_reducible apply State.modTport_keeps
    | with_reducible apply Keeps.ite

theorem twinReplay_keeps {s0 s : State} (t : Nat) (seq : BitVec 16) (h : Keeps s0 s) : Keeps s0 (twinReplay t seq
    s) := by
  unfold twinReplay
  repeat' first
    | with_reducible assumption | with_reducible intro _ | with_reducible refine forEach_keeps _ ?_ ?_
    | with_reducible apply State.modTport_keeps | with_reducible apply sendFrame_keeps
    | with_reducible apply Keeps.ite

theorem twinAcks_keeps {s0 s : State} (a0_ : TwinHdr) (h : Keeps s0 s) : Keeps s0 (twinAcks a0_ s) := by
  unfold twinAcks
  repeat' first
    | with_reducible assumption | with_reducible apply twinAckTo_keeps | with_reducible apply twinReplay_keeps
    | with_reducible apply Keeps.ite

theorem sendLink_keeps {s0 s : State} (t : Nat) (nak : Bool) (h : Keeps s0 s) : Keeps s0 (sendLink t nak s) := by
  unfold sendLink
  repeat' first
    | with_reducible assumption | with_reducible intro _ | with_reducible refine forEach_keeps _ ?_ ?_
    | with_reducible apply sendFrame_keeps

theorem twinAccept_keeps {s0 s : State} (a0_ : TwinHdr) (h : Keeps s0 s) : Keeps s0 (twinAccept a0_ s).1 := by
  unfold twinAccept
  repeat' first
    | with_reducible assumption | with_reducible apply State.modTport_keeps | with_reducible apply sendLink_keeps
    | with_reducible apply Keeps.fst_ite

theorem twinPortOut_keeps {s0 s : State} (t : Nat) (h : Keeps s0 s) : Keeps s0 (twinPortOut t s) := by
  unfold twinPortOut
  repeat' first
    | with_reducible assumption | with_reducible intro _ | with_reducible refine forEach_keeps _ ?_ ?_
    | with_reducible apply State.modTport_keeps | with_reducible apply raiseWith_keeps
    | with_reducible apply sendAll_keeps | with_reducible apply State.modTwin_keeps | with_reducible apply Keeps.ite

end Sys2Proof.Machine
end

