-- ==== Sys2Proof/Laws/KeepsNet.lean ====
section
/-! SUPPORT. `Keeps` through the operations of the transport, mailboxes, roles and the stripe engines. -/

namespace Sys2Proof.Machine

open Sys2Proof











theorem grantDead_keeps {s0 s : State} (g : Nat) (h : Keeps s0 s) : Keeps s0 (grantDead g s) := by
  unfold grantDead
  repeat' first
    | with_reducible assumption | with_reducible intro _ | with_reducible refine forEach_keeps _ ?_ ?_
    | with_reducible apply State.modGrant_keeps | with_reducible apply finish_keeps | with_reducible apply Keeps.ite

theorem releaseRefs_keeps {s0 s : State} (m : Msg) (h : Keeps s0 s) : Keeps s0 (releaseRefs m s) := by
  have h1 := forEach_keeps (P := Keeps s0) m.span (f := fun d s => s.modDrw d (fun k => { k with refs := k.refs - 1 }))
    (fun _ _ k => State.modDrw_keeps _ _ k) h
  unfold releaseRefs
  generalize forEach m.span _ s = t at h1 ⊢
  cases m.grant with
  | none => exact h1
  | some x => exact Keeps.ite (grantDead_keeps _ (State.modGrant_keeps _ _ h1)) (State.modGrant_keeps _ _ h1)

theorem dropMsg_keeps {s0 s : State} (c : Nat) (id : MsgId) (reason : Nat) (h : Keeps s0 s) :
    Keeps s0 (dropMsg c id reason s).1 := by
  unfold dropMsg
  repeat' first
    | with_reducible assumption | with_reducible apply releaseRefs_keeps | with_reducible apply freePending_keeps
    | with_reducible apply logEntry_keeps | with_reducible apply State.modConn_keeps | split

theorem portEvent_keeps {s0 s : State} (p : Nat) (k : Nat) (gap : Nat) (h : Keeps s0 s) : Keeps s0 (portEvent p k gap s) := by
  unfold portEvent
  repeat' first
    | with_reducible assumption | with_reducible apply raiseWith_keeps | with_reducible apply State.modNport_keeps
    | with_reducible apply Keeps.ite

theorem logXport_keeps {s0 s : State} (c : Nat) (h : Keeps s0 s) : Keeps s0 (logXport c s) := by
  unfold logXport
  repeat' first
    | with_reducible assumption | with_reducible apply logEntry_keeps | with_reducible apply State.modConn_keeps

theorem connError_keeps {s0 s : State} (c : Nat) (h : Keeps s0 s) : Keeps s0 (connError c s) := by
  unfold connError
  repeat' first
    | with_reducible assumption | with_reducible intro _ | with_reducible refine forEach_keeps _ ?_ ?_
    | with_reducible apply State.modConn_keeps | with_reducible apply dropMsg_keeps
    | with_reducible apply State.modNport_keeps | with_reducible apply portEvent_keeps
    | with_reducible apply logXport_keeps | with_reducible apply Keeps.ite

theorem sendNet_keeps {s0 s : State} (k : Conn) (path : Path) (ctl : Bool) (hd : Hdr) (body : NetBody) (payload :
    Bytes) (h : Keeps s0 s) : Keeps s0 (sendNet k path ctl hd body payload s) := by
  unfold sendNet
  repeat' first
    | with_reducible assumption | with_reducible intro _ | with_reducible refine forEach_keeps _ ?_ ?_
    | with_reducible apply State.send_keeps

theorem emit_keeps {s0 s : State} (c : Nat) (k : Conn) (path : Path) (ctl : Bool) (psn : Psn) (msg : MsgId) (body :
    NetBody) (h : Keeps s0 s) : Keeps s0 (emit c k path ctl psn msg body s) := by
  unfold emit
  repeat' first
    | with_reducible assumption | with_reducible intro _ | with_reducible refine forEach_keeps _ ?_ ?_
    | with_reducible apply sendNet_keeps | with_reducible apply gcmJob_keeps | with_reducible apply Keeps.ite
    | with_reducible apply KeepsO.ite | with_reducible apply KeepsO.some | with_reducible apply KeepsO.none
    | with_reducible apply Keeps.fst_ite | with_reducible apply Keeps.snd_ite
    | with_reducible refine Keeps.ofEq (by assumption) ?_ | with_reducible refine Keeps.ofEq2 (by assumption) ?_
    | with_reducible refine KeepsO.get (by assumption) ?_ | with_reducible refine KeepsO.getD ?_ ?_
    | exact Nat.le_refl _ | exact List.length_map _ | exact Nat.le_max_left _ _ | dsimp only | split

theorem sendCtl_keeps {s0 s : State} (c : Nat) (msg : MsgId) (body : NetBody) (h : Keeps s0 s) : Keeps s0 (sendCtl
    c msg body s) := by
  unfold sendCtl
  repeat' first
    | with_reducible assumption | with_reducible intro _ | with_reducible refine forEach_keeps _ ?_ ?_
    | with_reducible apply connError_keeps | with_reducible apply emit_keeps
    | with_reducible apply State.modConn_keeps | with_reducible apply Keeps.ite

theorem sendAck_keeps {s0 s : State} (c : Nat) (durable : Bool) (msg : MsgId) (h : Keeps s0 s) : Keeps s0 (sendAck
    c durable msg s) := by
  unfold sendAck
  repeat' first
    | with_reducible assumption | with_reducible intro _ | with_reducible refine forEach_keeps _ ?_ ?_
    | with_reducible apply State.modNport_keeps | with_reducible apply sendCtl_keeps
    | with_reducible apply State.modConn_keeps | with_reducible apply Keeps.ite | with_reducible apply KeepsO.ite
    | with_reducible apply KeepsO.some | with_reducible apply KeepsO.none | with_reducible apply Keeps.fst_ite
    | with_reducible apply Keeps.snd_ite | refine Keeps.ofEq (by assumption) ?_
    | refine Keeps.ofEq2 (by assumption) ?_ | refine KeepsO.get (by assumption) ?_ | refine KeepsO.getD ?_ ?_
    | exact Nat.le_refl _ | exact Nat.le_max_left _ _ | dsimp only | split

theorem sendNak_keeps {s0 s : State} (c : Nat) (r : NakRec) (npsn : Psn) (h : Keeps s0 s) : Keeps s0 (sendNak c r npsn s) := by
  unfold sendNak
  repeat' first
    | with_reducible assumption | with_reducible apply State.modConn_keeps | with_reducible apply State.modNport_keeps
    | with_reducible apply State.modXport_keeps | with_reducible apply sendCtl_keeps | with_reducible apply Keeps.ite

theorem nakDrop_keeps {s0 s : State} (c : Nat) (id : MsgId) (code : Nat) (sub : Nat) (detail : BitVec 32) (hint : Nat)
    (reason : Nat) (npsn : Psn) (h : Keeps s0 s) :
    Keeps s0 (nakDrop c id code sub detail hint reason npsn s).1 := by
  unfold nakDrop
  repeat' first
    | with_reducible assumption | with_reducible apply dropMsg_keeps | with_reducible apply sendNak_keeps
    | with_reducible apply State.modConn_keeps

theorem pumpTxAux_keeps {s0 : State} : ∀ (n c : Nat) {s : State}, Keeps s0 s → Keeps s0 (pumpTxAux n c s)
  | 0, _, _, h => h
  | n + 1, c, s, h => by
    unfold pumpTxAux
    dsimp only
    split
    · exact h
    · refine Keeps.ite h (Keeps.ite ?_ (Keeps.ite (connError_keeps _ h) ?_))
      · split
        · exact h
        · exact sendCtl_keeps _ _ _ (State.modConn_keeps _ _ h)
      · split
        · exact h
        · exact pumpTxAux_keeps n c (emit_keeps _ _ _ _ _ _ _ (State.modConn_keeps _ _ h))

theorem pumpTx_keeps {s0 s : State} (c : Nat) (h : Keeps s0 s) : Keeps s0 (pumpTx c s) := by
  unfold pumpTx
  repeat' first
    | with_reducible assumption | with_reducible apply pumpTxAux_keeps

theorem queueTx_keeps {s0 s : State} (c : Nat) (l : List TxPkt) (h : Keeps s0 s) : Keeps s0 (queueTx c l s) := by
  unfold queueTx
  repeat' first
    | with_reducible assumption | with_reducible apply pumpTx_keeps | with_reducible apply State.modConn_keeps

theorem setReserve_keeps {s0 s : State} (c : Nat) (units : Nat) (h : Keeps s0 s) : Keeps s0 (setReserve c units s) := by
  unfold setReserve
  repeat' first
    | with_reducible assumption | with_reducible apply State.modConn_keeps | with_reducible apply State.modSump_keeps

theorem renewCredit_keeps {s0 s : State} (c : Nat) (h : Keeps s0 s) : Keeps s0 (renewCredit c s) := by
  unfold renewCredit
  repeat' first
    | with_reducible assumption | with_reducible apply State.modSump_keeps | with_reducible apply setReserve_keeps
    | with_reducible apply State.modConn_keeps | with_reducible apply Keeps.ite

theorem consumeUnit_keeps {s0 s : State} (c : Nat) (psn : Psn) (h : Keeps s0 s) : Keeps s0 (consumeUnit c psn s) := by
  unfold consumeUnit
  repeat' first
    | with_reducible assumption | with_reducible apply setReserve_keeps | with_reducible apply State.modConn_keeps
    | with_reducible apply renewCredit_keeps

theorem newEpochConn_keeps {s0 s : State} (c : Nat) (h : Keeps s0 s) : Keeps s0 (newEpochConn c s) := by
  unfold newEpochConn
  repeat' first
    | with_reducible assumption | with_reducible apply setReserve_keeps | with_reducible apply State.modConn_keeps

theorem newEpochAll_keeps {s0 s : State} (h : Keeps s0 s) : Keeps s0 (newEpochAll s) := by
  unfold newEpochAll
  repeat' first
    | with_reducible assumption | with_reducible intro _ | with_reducible refine forEach_keeps _ ?_ ?_
    | with_reducible apply newEpochConn_keeps

theorem lowerCredit_keeps {s0 s : State} (c : Nat) (h : Keeps s0 s) : Keeps s0 (lowerCredit c s) := by
  unfold lowerCredit
  repeat' first
    | with_reducible assumption | with_reducible apply sendAck_keeps | with_reducible apply State.modConn_keeps

theorem grantTwin_keeps {s0 s : State} (h : Keeps s0 s) : Keeps s0 (grantTwin s) := by
  unfold grantTwin
  repeat' first
    | with_reducible assumption | with_reducible apply State.modTwin_keeps | with_reducible apply State.modSump_keeps

theorem sendApplyAck_keeps {s0 s : State} (h : Keeps s0 s) : Keeps s0 (sendApplyAck s) := by
  unfold sendApplyAck
  repeat' first
    | with_reducible assumption | with_reducible intro _ | with_reducible refine forEach_keeps _ ?_ ?_
    | with_reducible apply grantTwin_keeps | with_reducible apply State.modTwin_keeps
    | with_reducible apply ctlAll_keeps | with_reducible apply State.modTport_keeps

theorem mbxEmpty_keeps {s0 s : State} (m : Nat) (h : Keeps s0 s) : Keeps s0 (mbxEmpty m s) := by
  unfold mbxEmpty
  repeat' first
    | with_reducible assumption | with_reducible apply State.modMbx_keeps | with_reducible apply State.modCtl_keeps
    | with_reducible apply Keeps.ite | split | rfl

theorem mbxRelease_keeps {s0 s : State} (m : Nat) (h : Keeps s0 s) : Keeps s0 (mbxRelease m s) := by
  unfold mbxRelease
  repeat' first
    | with_reducible assumption | with_reducible apply mbxEmpty_keeps | with_reducible apply State.modMbx_keeps

theorem ptrCheck_keeps {s0 s : State} (m : Nat) (h : Keeps s0 s) : Keeps s0 (ptrCheck m s) := by
  unfold ptrCheck
  repeat' first
    | with_reducible assumption | with_reducible apply raiseWith_keeps | with_reducible apply State.modMbx_keeps
    | with_reducible apply Keeps.ite

theorem setOverrun_keeps {s0 s : State} (m : Nat) (h : Keeps s0 s) : Keeps s0 (setOverrun m s) := by
  unfold setOverrun
  repeat' first
    | with_reducible assumption | with_reducible apply raiseWith_keeps | with_reducible apply State.modMbx_keeps
    | with_reducible apply Keeps.ite

theorem framingAux_keeps {s0 : State} : ∀ (n m : Nat) {s : State}, Keeps s0 s → Keeps s0 (framingAux n m s)
  | 0, _, _, h => h
  | n + 1, m, s, h => by
    unfold framingAux
    dsimp only
    split
    · exact Keeps.ite h (framingAux_keeps n m (respond_keeps _ _ (State.modMbx_keeps _ _ h)))
    · exact h

theorem framing_keeps {s0 s : State} (m : Nat) (h : Keeps s0 s) : Keeps s0 (framing m s) := by
  unfold framing
  repeat' first
    | with_reducible assumption | with_reducible apply framingAux_keeps

theorem mbxPush_keeps {s0 s : State} (m : Nat) (e : FEntry) (h : Keeps s0 s) : Keeps s0 (mbxPush m e s).1 := by
  unfold mbxPush
  repeat' first
    | with_reducible assumption | with_reducible apply ptrCheck_keeps | with_reducible apply setOverrun_keeps
    | with_reducible apply framing_keeps | with_reducible apply State.modMbx_keeps
    | with_reducible apply Keeps.fst_ite

theorem mbxTake_keeps {s0 s : State} (m : Nat) (code : Nat) (tag : Nat) (nent : Nat) (h : Keeps s0 s) :
    Keeps s0 (mbxTake m code tag nent s) := by
  unfold mbxTake
  repeat' first
    | with_reducible assumption | with_reducible apply framing_keeps | with_reducible apply State.modMbx_keeps
    | with_reducible apply Keeps.ite | split

theorem writeRole_keeps {s0 s : State} (h : Keeps s0 s) : Keeps s0 (writeRole s) := by
  unfold writeRole
  repeat' first
    | with_reducible assumption | with_reducible intro _ | with_reducible refine forEach_keeps _ ?_ ?_
    | with_reducible apply flashRing_keeps | with_reducible apply State.modPrime_keeps

theorem releaseOps_keeps {s0 s : State} (p : RowOp → Bool) (h : Keeps s0 s) : Keeps s0 (releaseOps p s) := by
  unfold releaseOps
  exact Keeps.ite h (State.modSump_keeps _ (Keeps.withOps _ h))

theorem supersede_keeps {s0 s : State} (h : Keeps s0 s) : Keeps s0 (supersede s) := by
  unfold supersede
  repeat' first
    | with_reducible assumption | with_reducible intro _ | with_reducible refine forEach_keeps _ ?_ ?_
    | with_reducible apply releaseOps_keeps | with_reducible apply Keeps.withOps

theorem changeRole_keeps {s0 s : State} (r : Role) (e : Epoch) (h : Keeps s0 s) : Keeps s0 (changeRole r e s) := by
  unfold changeRole
  repeat' first
    | with_reducible assumption | with_reducible intro _ | with_reducible refine forEach_keeps _ ?_ ?_
    | with_reducible apply supersede_keeps | with_reducible apply mbxRelease_keeps
    | with_reducible apply newEpochAll_keeps | with_reducible apply State.modTwin_keeps
    | with_reducible apply writeRole_keeps | with_reducible apply raiseWith_keeps | with_reducible apply Keeps.ite

theorem startMargin_keeps {s0 s : State} (rail : Nat) (step : Int) (cmd : Option Nat) (h : Keeps s0 s) :
    Keeps s0 (startMargin rail step cmd s) := by
  unfold startMargin
  repeat' first
    | with_reducible assumption | with_reducible apply State.modPower_keeps | with_reducible apply State.send_keeps

theorem marginsToZero_keeps {s0 s : State} (h : Keeps s0 s) : Keeps s0 (marginsToZero s) := by
  unfold marginsToZero
  repeat' first
    | with_reducible assumption | with_reducible intro _ | with_reducible refine forEach_keeps _ ?_ ?_
    | with_reducible apply startMargin_keeps | with_reducible apply record_keeps | with_reducible apply Keeps.ite

theorem enterFenced_keeps {s0 s : State} (cause : Nat) (h : Keeps s0 s) : Keeps s0 (enterFenced cause s) := by
  unfold enterFenced
  repeat' first
    | with_reducible assumption | with_reducible apply State.modTwin_keeps | with_reducible apply changeRole_keeps
    | with_reducible apply finishAll_keeps

theorem sendRelinquish_keeps {s0 s : State} (cause : Nat) (h : Keeps s0 s) : Keeps s0 (sendRelinquish cause s) := by
  unfold sendRelinquish
  repeat' first
    | with_reducible assumption | with_reducible apply State.modTwin_keeps | with_reducible apply ctlAll_keeps

theorem startBitmap_keeps {s0 s : State} (h : Keeps s0 s) : Keeps s0 (startBitmap s) := by
  unfold startBitmap
  repeat' first
    | with_reducible assumption | with_reducible apply State.modTwin_keeps

theorem enterSolo_keeps {s0 s : State} (e : Epoch) (h : Keeps s0 s) : Keeps s0 (enterSolo e s) := by
  unfold enterSolo
  repeat' first
    | with_reducible assumption | with_reducible apply startBitmap_keeps | with_reducible apply State.modTwin_keeps
    | with_reducible apply State.modPrime_keeps | with_reducible apply marginsToZero_keeps
    | with_reducible apply changeRole_keeps | with_reducible apply finishAll_keeps

theorem forgetBitmap_keeps {s0 s : State} (h : Keeps s0 s) : Keeps s0 (forgetBitmap s) := by
  unfold forgetBitmap
  repeat' first
    | with_reducible assumption | with_reducible apply State.modPrime_keeps

theorem enterActive_keeps {s0 s : State} (e : Epoch) (h : Keeps s0 s) : Keeps s0 (enterActive e s) := by
  unfold enterActive
  repeat' first
    | with_reducible assumption | with_reducible apply marginsToZero_keeps | with_reducible apply changeRole_keeps
    | with_reducible apply forgetBitmap_keeps | with_reducible apply State.modTwin_keeps

theorem enterStandby_keeps {s0 s : State} (e : Epoch) (h : Keeps s0 s) : Keeps s0 (enterStandby e s) := by
  unfold enterStandby
  repeat' first
    | with_reducible assumption | with_reducible apply changeRole_keeps | with_reducible apply forgetBitmap_keeps
    | with_reducible apply State.modTwin_keeps

theorem relinquishCause_keeps {s0 s : State} (h : Keeps s0 s) : Keeps s0 (relinquishCause s) := by
  unfold relinquishCause
  repeat' first
    | with_reducible assumption | with_reducible apply enterFenced_keeps | with_reducible apply sendRelinquish_keeps
    | with_reducible apply State.modTwin_keeps | with_reducible apply Keeps.ite | split

theorem modMiss_keeps {s0 s : State} (g : Nat) (grow : Nat) (pos : Nat) (f : Miss → Miss) (h : Keeps s0 s) :
    Keeps s0 (modMiss g grow pos f s) := by
  unfold modMiss
  repeat' first
    | with_reducible assumption | with_reducible refine Keeps.withMisses _ ?_

theorem dropMiss_keeps {s0 s : State} (g : Nat) (grow : Nat) (pos : Nat) (h : Keeps s0 s) :
    Keeps s0 (dropMiss g grow pos s) := by
  unfold dropMiss
  repeat' first
    | with_reducible assumption | with_reducible refine Keeps.withMisses _ ?_

theorem modOp_keeps {s0 s : State} (id : Nat) (f : RowOp → RowOp) (h : Keeps s0 s) : Keeps s0 (modOp id f s) := by
  unfold modOp
  repeat' first
    | with_reducible assumption | with_reducible refine Keeps.withOps _ ?_

theorem openOp_keeps {s0 s : State} (o : RowOp) (h : Keeps s0 s) : Keeps s0 (openOp o s) := by
  unfold openOp
  repeat' first
    | with_reducible assumption | with_reducible apply State.fresh_keeps | with_reducible refine Keeps.withOps _ ?_

theorem releaseLocks_keeps {s0 s : State} (m : Miss) (h : Keeps s0 s) : Keeps s0 (releaseLocks m s) := by
  unfold releaseLocks
  repeat' first
    | with_reducible assumption | with_reducible intro _ | with_reducible refine forEach_keeps _ ?_ ?_
    | with_reducible apply releaseOps_keeps

theorem hurryRead_keeps {s0 s : State} (c : Nat) (grow : Nat) (fg : Bool) (h : Keeps s0 s) : Keeps s0 (hurryRead c
    grow fg s) := by
  unfold hurryRead
  repeat' first
    | with_reducible assumption | with_reducible intro _ | with_reducible refine forEach_keeps _ ?_ ?_
    | with_reducible apply pumpChan_keeps | with_reducible apply State.modChan_keeps

theorem readRaw_keeps {s0 s : State} (g grow pos : Nat) (w : Option Waiter) (fg yields forPeer : Bool) (h : Keeps s0 s) :
    Keeps s0 (readRaw g grow pos w fg yields forPeer s) := by
  unfold readRaw
  split
  · have hm := fun f => modMiss_keeps g grow pos f h
    dsimp only
    split
    · exact submit_keeps _ _ (hm _)
    · exact Keeps.ite (hm _) (hurryRead_keeps _ _ _ (hm _))
    · exact releaseLocks_keeps _ (hm _)
    · exact hm _
  · exact Keeps.ite (submit_keeps _ _ (Keeps.withMisses _ h)) (Keeps.withMisses _ h)

theorem rereadSector_keeps {s0 s : State} (g : Nat) (grow : Nat) (pos : Nat) (h : Keeps s0 s) : Keeps s0
    (rereadSector g grow pos s) := by
  unfold rereadSector
  repeat' first
    | with_reducible assumption | with_reducible intro _ | with_reducible refine forEach_keeps _ ?_ ?_
    | with_reducible apply modMiss_keeps | with_reducible apply readRaw_keeps | with_reducible apply Keeps.ite
    | with_reducible apply KeepsO.ite | with_reducible apply KeepsO.some | with_reducible apply KeepsO.none
    | with_reducible apply Keeps.fst_ite | with_reducible apply Keeps.snd_ite | refine Keeps.ofEq (by assumption) ?_
    | refine Keeps.ofEq2 (by assumption) ?_ | refine KeepsO.get (by assumption) ?_ | refine KeepsO.getD ?_ ?_
    | exact Nat.le_refl _ | exact Nat.le_max_left _ _ | dsimp only | split

theorem openSettle_keeps {s0 s : State} (g : Nat) (grow : Nat) (h : Keeps s0 s) : Keeps s0 (openSettle g grow s) := by
  unfold openSettle
  repeat' first
    | with_reducible assumption | with_reducible apply openOp_keeps | with_reducible apply Keeps.ite

theorem readSector_keeps {s0 s : State} (g : Nat) (grow : Nat) (pos : Nat) (w : Waiter) (fg : Bool) (forPeer : Bool)
    (h : Keeps s0 s) :
    Keeps s0 (readSector g grow pos w fg forPeer s) := by
  unfold readSector
  repeat' first
    | with_reducible assumption | with_reducible apply openSettle_keeps | with_reducible apply readRaw_keeps
    | with_reducible apply Keeps.ite | with_reducible refine Keeps.withMisses _ ?_

theorem readCodeword_keeps {s0 s : State} (ns : Nat) (cw : Nat) (w : Waiter) (fg : Bool) (forPeer : Bool) (h : Keeps s0 s) :
    Keeps s0 (readCodeword ns cw w fg forPeer s) := by
  unfold readCodeword
  repeat' first
    | with_reducible assumption | with_reducible apply readSector_keeps | split

theorem issueReads_keeps {s0 s : State} (id : Nat) (h : Keeps s0 s) : Keeps s0 (issueReads id s) := by
  unfold issueReads
  repeat' first
    | with_reducible assumption | with_reducible intro _ | with_reducible refine forEach_keeps _ ?_ ?_
    | with_reducible apply readRaw_keeps | with_reducible apply modOp_keeps | exact Nat.le_refl _ | dsimp only | split

theorem openMeta_keeps {s0 s : State} (g : Nat) (k : MetaKind) (grow : Nat) (data : Bytes) (h : Keeps s0 s) : Keeps
    s0 (openMeta g k grow data s) := by
  unfold openMeta
  repeat' first
    | with_reducible assumption | with_reducible intro _ | with_reducible refine forEach_keeps _ ?_ ?_
    | with_reducible apply openOp_keeps

theorem headerRow_keeps {s0 s : State} (g : Nat) (k : MetaKind) (h : Keeps s0 s) : Keeps s0 (headerRow g k s) := by
  unfold headerRow
  repeat' first
    | with_reducible assumption | with_reducible intro _ | with_reducible refine forEach_keeps _ ?_ ?_
    | with_reducible apply State.freeVal_keeps | with_reducible apply openMeta_keeps

theorem spillRow_keeps {s0 s : State} (g : Nat) (data : Bytes) (h : Keeps s0 s) : Keeps s0 (spillRow g data s) := by
  unfold spillRow
  repeat' first
    | with_reducible assumption | with_reducible intro _ | with_reducible refine forEach_keeps _ ?_ ?_
    | with_reducible apply openMeta_keeps | with_reducible apply State.modGrp_keeps

theorem awakeRecord_keeps {s0 s : State} (g : Nat) (h : Keeps s0 s) : Keeps s0 (awakeRecord g s) := by
  unfold awakeRecord
  repeat' first
    | with_reducible assumption | with_reducible intro _ | with_reducible refine forEach_keeps _ ?_ ?_
    | with_reducible apply headerRow_keeps | with_reducible apply State.modGrp_keeps
    | with_reducible apply State.modNv_keeps | with_reducible apply Keeps.ite

theorem tableCopies_keeps {s0 s : State} (h : Keeps s0 s) : Keeps s0 (tableCopies s) := by
  unfold tableCopies
  repeat' first
    | with_reducible assumption | with_reducible intro _ | with_reducible refine forEach_keeps _ ?_ ?_
    | with_reducible apply headerRow_keeps | with_reducible apply awakeRecord_keeps

theorem journal_keeps {s0 s : State} (g : Nat) (r : JRec) (h : Keeps s0 s) : Keeps s0 (journal g r s) := by
  unfold journal
  repeat' first
    | with_reducible assumption | with_reducible intro _ | with_reducible refine forEach_keeps _ ?_ ?_
    | with_reducible apply openMeta_keeps | with_reducible apply State.modNv_keeps

theorem regionRecord_keeps {s0 s : State} (g : Nat) (drop : List Nat) (h : Keeps s0 s) : Keeps s0 (regionRecord g drop s) := by
  unfold regionRecord
  repeat' first
    | with_reducible assumption | with_reducible apply journal_keeps | with_reducible apply State.modNv_keeps

theorem askRegion_keeps {s0 s : State} (g : Nat) (grow : Nat) (h : Keeps s0 s) : KeepsO s0 (askRegion g grow s) := by
  unfold askRegion
  repeat' first
    | with_reducible assumption | with_reducible intro _ | with_reducible refine forEach_keeps _ ?_ ?_
    | with_reducible apply State.modNv_keeps | with_reducible apply regionRecord_keeps
    | with_reducible apply Keeps.ite | with_reducible apply KeepsO.ite | with_reducible apply KeepsO.some
    | with_reducible apply KeepsO.none

theorem issueWrites_keeps {s0 s : State} (id : Nat) (ws : List (Nat × Bytes)) (h : Keeps s0 s) : Keeps s0
    (issueWrites id ws s) := by
  unfold issueWrites
  repeat' first
    | with_reducible assumption | with_reducible intro _ | with_reducible refine forEach_keeps _ ?_ ?_
    | with_reducible apply State.modNv_keeps | with_reducible apply modOp_keeps | with_reducible apply submit_keeps
    | with_reducible apply Keeps.ite | with_reducible apply KeepsO.ite | with_reducible apply KeepsO.some
    | with_reducible apply KeepsO.none | with_reducible apply Keeps.fst_ite | with_reducible apply Keeps.snd_ite
    | refine Keeps.ofEq (by assumption) ?_ | refine Keeps.ofEq2 (by assumption) ?_
    | refine KeepsO.get (by assumption) ?_ | refine KeepsO.getD ?_ ?_ | exact Nat.le_refl _
    | exact Nat.le_max_left _ _ | dsimp only | split

theorem newCodeword_keeps {s0 s : State} (o : RowOp) (ns : Nat) (cw : Nat) (old : Option Bytes) (h : Keeps s0 s) :
    Keeps s0 (newCodeword o ns cw old s).2 := by
  unfold newCodeword
  repeat' first
    | with_reducible assumption | with_reducible intro _ | with_reducible refine forEach_keeps _ ?_ ?_
    | with_reducible apply notePoison_keeps | with_reducible apply State.modSump_keeps

theorem hostWrites_keeps {s0 s : State} (o : RowOp) (ns off : Nat) (cws : List Nat) (h : Keeps s0 s) :
    Keeps s0 (hostWrites o ns off cws s).2 := by
  unfold hostWrites
  dsimp only
  have hp :=
    foldl_keeps (P := fun b : List (Nat × Bytes) × State => Keeps s0 b.2) (f := fun acc c => (acc.1 ++ [(dataPos o.grow c, (newCodeword o ns (off / 256 + c) (lookupNat (dataPos o.grow c) o.got) acc.2).1)], (newCodeword o ns (off / 256 + c) (lookupNat (dataPos o.grow c) o.got) acc.2).2)) (fun b a k => newCodeword_keeps o ns (off / 256 + a) (lookupNat (dataPos o.grow a) o.got) k) cws (b := ([], s)) h
  exact Keeps.snd_ite hp (Keeps.snd_ite hp hp)

theorem sendFetch_keeps {s0 s : State} (g : Nat) (grow : Nat) (pos : Nat) (rowOp : Nat) (ns : Nat) (off : Nat)
    (h : Keeps s0 s) :
    Keeps s0 (sendFetch g grow pos rowOp ns off s) := by
  unfold sendFetch
  repeat' first
    | with_reducible assumption | with_reducible apply State.modTwin_keeps | with_reducible apply sendData_keeps

theorem sendRepair_keeps {s0 s : State} (r : Bool × Nat) (ns : Nat) (off : Nat) (h : Keeps s0 s) :
    Keeps s0 (sendRepair r ns off s) := by
  unfold sendRepair
  repeat' first
    | with_reducible assumption | with_reducible apply sendFetch_keeps | with_reducible apply State.modTwin_keeps

theorem startFix_keeps {s0 s : State} (id : Nat) (orig : FixFrom) (h : Keeps s0 s) : Keeps s0 (startFix id orig s)
    := by
  unfold startFix
  repeat' first
    | with_reducible assumption | with_reducible intro _ | with_reducible refine forEach_keeps _ ?_ ?_
    | with_reducible apply record_keeps | with_reducible apply settle_keeps | with_reducible apply modOp_keeps
    | with_reducible apply sendFetch_keeps | with_reducible apply Keeps.ite | with_reducible apply KeepsO.ite
    | with_reducible apply KeepsO.some | with_reducible apply KeepsO.none | with_reducible apply Keeps.fst_ite
    | with_reducible apply Keeps.snd_ite | refine Keeps.ofEq (by assumption) ?_
    | refine Keeps.ofEq2 (by assumption) ?_ | refine KeepsO.get (by assumption) ?_ | refine KeepsO.getD ?_ ?_
    | exact Nat.le_refl _ | exact Nat.le_max_left _ _ | dsimp only | split

theorem trySpare_keeps {s0 s : State} (g : Nat) (grow : Nat) (h : Keeps s0 s) : Keeps s0 (trySpare g grow s) := by
  unfold trySpare
  repeat' first
    | with_reducible assumption | with_reducible intro _ | with_reducible refine forEach_keeps _ ?_ ?_
    | with_reducible apply State.modEasel_keeps | with_reducible apply State.modChan_keeps
    | with_reducible apply openOp_keeps | with_reducible apply Keeps.ite | exact Nat.le_refl _ | dsimp only | split

theorem failForGood_keeps {s0 s : State} (c : Nat) (grow : Nat) (h : Keeps s0 s) : Keeps s0 (failForGood c grow s)
    := by
  unfold failForGood
  repeat' first
    | with_reducible assumption | with_reducible intro _ | with_reducible refine forEach_keeps _ ?_ ?_
    | with_reducible apply headerRow_keeps | with_reducible apply State.modGrp_keeps
    | with_reducible apply trySpare_keeps | with_reducible apply State.modChan_keeps | with_reducible apply Keeps.ite

theorem trySpares_keeps {s0 s : State} (g : Nat) (h : Keeps s0 s) : Keeps s0 (trySpares g s) := by
  unfold trySpares
  repeat' first
    | with_reducible assumption | with_reducible intro _ | with_reducible refine forEach_keeps _ ?_ ?_
    | with_reducible apply trySpare_keeps

theorem countWrites_keeps {s0 s : State} (g : Nat) (grow : Nat) (n : Nat) (h : Keeps s0 s) :
    Keeps s0 (countWrites g grow n s) := by
  unfold countWrites
  repeat' first
    | with_reducible assumption | with_reducible apply State.modEasel_keeps | with_reducible apply Keeps.ite

theorem releaseLines_keeps {s0 s : State} (o : RowOp) (ns : Nat) (h : Keeps s0 s) : Keeps s0 (releaseLines o ns s) := by
  unfold releaseLines
  repeat' first
    | with_reducible assumption | with_reducible apply State.modSump_keeps

theorem openFill_keeps {s0 s : State} (ek : Nat) (slot : Nat) (h : Keeps s0 s) : Keeps s0 (openFill ek slot s) := by
  unfold openFill
  repeat' first
    | with_reducible assumption | with_reducible apply openOp_keeps

theorem startFill_keeps {s0 s : State} (ek : Nat) (h : Keeps s0 s) : Keeps s0 (startFill ek s) := by
  unfold startFill
  repeat' first
    | with_reducible assumption | with_reducible apply openFill_keeps | with_reducible apply State.modEasel_keeps

theorem formatEasel_keeps {s0 s : State} (ek : Nat) (h : Keeps s0 s) : Keeps s0 (formatEasel ek s) := by
  unfold formatEasel
  repeat' first
    | with_reducible assumption | with_reducible apply State.draw_keeps | with_reducible apply State.modEasel_keeps

theorem formatMark_keeps {s0 s : State} (g : Nat) (h : Keeps s0 s) : Keeps s0 (formatMark g s) := by
  unfold formatMark
  exact forEach_keeps _ (fun _ _ k => formatEasel_keeps _ k) (State.modGrp_keeps _ _ (Keeps.withFormat _ _
    (forEach_keeps _ (fun _ _ k => State.modChan_keeps _ _ k) h)))

theorem finishUnit_keeps {s0 s : State} (code : Nat) (unit : Nat) (status : Nat) (block : Bytes) (h : Keeps s0 s) :
    Keeps s0 (finishUnit code unit status block s) := by
  unfold finishUnit
  repeat' first
    | with_reducible assumption | with_reducible apply finishAll_keeps

theorem fillDone_keeps {s0 s : State} (ek : Nat) (h : Keeps s0 s) : Keeps s0 (fillDone ek s) := by
  unfold fillDone
  repeat' first
    | with_reducible assumption | with_reducible intro _ | with_reducible refine forEach_keeps _ ?_ ?_
    | with_reducible apply headerRow_keeps | with_reducible apply State.modEasel_keeps
    | with_reducible apply startFill_keeps | with_reducible apply finishUnit_keeps
    | with_reducible apply State.modGrp_keeps | with_reducible apply Keeps.ite | with_reducible apply KeepsO.ite
    | with_reducible apply KeepsO.some | with_reducible apply KeepsO.none | with_reducible apply Keeps.fst_ite
    | with_reducible apply Keeps.snd_ite | refine Keeps.ofEq (by assumption) ?_
    | refine Keeps.ofEq2 (by assumption) ?_ | refine KeepsO.get (by assumption) ?_ | refine KeepsO.getD ?_ ?_
    | exact Nat.le_refl _ | exact Nat.le_max_left _ _ | dsimp only | split

theorem rebuildNext_keeps {s0 s : State} (g : Nat) (grow : Nat) (h : Keeps s0 s) : Keeps s0 (rebuildNext g grow s) := by
  unfold rebuildNext
  repeat' first
    | with_reducible assumption | with_reducible intro _ | with_reducible refine forEach_keeps _ ?_ ?_
    | with_reducible apply State.modGrp_keeps | with_reducible apply State.modChan_keeps
    | with_reducible apply finishUnit_keeps | with_reducible apply record_keeps | with_reducible apply Keeps.ite

theorem showRetiring_keeps {s0 s : State} (g : Nat) (h : Keeps s0 s) : Keeps s0 (showRetiring g s) := by
  unfold showRetiring
  repeat' first
    | with_reducible assumption | with_reducible intro _ | with_reducible refine forEach_keeps _ ?_ ?_
    | with_reducible apply State.modChan_keeps

theorem staleRow_keeps {s0 s : State} (ns : Nat) (off : Nat) (h : Keeps s0 s) : Keeps s0 (staleRow ns off s) := by
  unfold staleRow
  repeat' first
    | with_reducible assumption | with_reducible intro _ | with_reducible refine forEach_keeps _ ?_ ?_
    | with_reducible apply State.modXport_keeps

theorem settleEffect_keeps {s0 s : State} (o : RowOp) (h : Keeps s0 s) : Keeps s0 (settleEffect o s) := by
  unfold settleEffect
  repeat' first
    | with_reducible assumption | with_reducible intro _ | with_reducible refine forEach_keeps _ ?_ ?_
    | with_reducible apply State.modNv_keeps | with_reducible apply countWrites_keeps
    | with_reducible apply staleRow_keeps | with_reducible apply releaseLines_keeps
    | with_reducible apply State.modEasel_keeps | with_reducible apply showRetiring_keeps
    | with_reducible apply State.modChan_keeps | with_reducible apply chain_keeps | with_reducible apply modMiss_keeps
    | with_reducible apply rereadSector_keeps | with_reducible apply rebuildNext_keeps
    | with_reducible apply settle_keeps | with_reducible apply openFill_keeps | with_reducible apply fillDone_keeps
    | with_reducible apply startFill_keeps | with_reducible apply Keeps.ite | with_reducible apply KeepsO.ite
    | with_reducible apply KeepsO.some | with_reducible apply KeepsO.none | with_reducible apply Keeps.fst_ite
    | with_reducible apply Keeps.snd_ite | refine Keeps.ofEq (by assumption) ?_
    | refine Keeps.ofEq2 (by assumption) ?_ | refine KeepsO.get (by assumption) ?_ | refine KeepsO.getD ?_ ?_
    | exact Nat.le_refl _ | exact Nat.le_max_left _ _ | dsimp only | split

theorem renewMiss_keeps {s0 s : State} (o : RowOp) (m : Miss) (h : Keeps s0 s) : Keeps s0 (renewMiss o m s) := by
  unfold renewMiss
  repeat' first
    | with_reducible assumption | with_reducible intro _ | with_reducible refine forEach_keeps _ ?_ ?_
    | with_reducible apply modMiss_keeps | with_reducible apply State.modTwin_keeps
    | with_reducible apply submit_keeps | with_reducible apply Keeps.ite

theorem renewMisses_keeps {s0 s : State} (o : RowOp) (h : Keeps s0 s) : Keeps s0 (renewMisses o s) := by
  unfold renewMisses
  repeat' first
    | with_reducible assumption | with_reducible intro _ | with_reducible refine forEach_keeps _ ?_ ?_
    | with_reducible apply renewMiss_keeps | with_reducible apply Keeps.ite

theorem restartReads_keeps {s0 s : State} (o : RowOp) (h : Keeps s0 s) : Keeps s0 (restartReads o s) := by
  unfold restartReads
  exact Keeps.ite h (State.modTwin_keeps _ (Keeps.withOps _ h))

theorem settleOne_keeps {s0 s : State} (o : RowOp) (h : Keeps s0 s) : Keeps s0 (settleOne o s) := by
  unfold settleOne
  repeat' first
    | with_reducible assumption | with_reducible intro _ | with_reducible refine forEach_keeps _ ?_ ?_
    | with_reducible apply State.modNv_keeps | with_reducible apply trySpares_keeps
    | with_reducible apply restartReads_keeps | with_reducible apply renewMisses_keeps
    | with_reducible apply settleEffect_keeps | with_reducible apply Keeps.withOps

theorem settleOp_keeps {s0 s : State} (o : RowOp) (h : Keeps s0 s) : Keeps s0 (settleOp o s) := by
  unfold settleOp
  repeat' first
    | with_reducible assumption | with_reducible intro _ | with_reducible refine forEach_keeps _ ?_ ?_
    | with_reducible apply settleOne_keeps | with_reducible apply Keeps.ite | with_reducible apply KeepsO.ite
    | with_reducible apply KeepsO.some | with_reducible apply KeepsO.none | with_reducible apply Keeps.fst_ite
    | with_reducible apply Keeps.snd_ite | with_reducible refine Keeps.ofEq (by assumption) ?_
    | with_reducible refine Keeps.ofEq2 (by assumption) ?_ | with_reducible refine KeepsO.get (by assumption) ?_
    | with_reducible refine KeepsO.getD ?_ ?_ | exact Nat.le_refl _ | exact Nat.le_max_left _ _ | dsimp only | split

theorem appendRecord_keeps {s0 s : State} (o : RowOp) (h : Keeps s0 s) : Keeps s0 (appendRecord o s) := by
  unfold appendRecord
  repeat' first
    | with_reducible assumption | with_reducible intro _ | with_reducible refine forEach_keeps _ ?_ ?_
    | with_reducible apply modOp_keeps | with_reducible apply record_keeps | with_reducible apply headerRow_keeps
    | with_reducible apply Keeps.ite | with_reducible apply KeepsO.ite | with_reducible apply KeepsO.some
    | with_reducible apply KeepsO.none | with_reducible apply Keeps.fst_ite | with_reducible apply Keeps.snd_ite
    | refine Keeps.ofEq (by assumption) ?_ | refine Keeps.ofEq2 (by assumption) ?_
    | refine KeepsO.get (by assumption) ?_ | refine KeepsO.getD ?_ ?_ | exact Nat.le_refl _
    | exact Nat.le_max_left _ _ | dsimp only | split

theorem abandonMoves_keeps {s0 s : State} (h : Keeps s0 s) : Keeps s0 (abandonMoves s) := by
  unfold abandonMoves
  refine forEach_keeps _ (fun o t k => ?_) (Keeps.withOps _ h)
  split
  · exact State.modEasel_keeps _ _ k
  · exact showRetiring_keeps _ (State.modEasel_keeps _ _ k)
  · exact k

theorem decideOutcome_keeps {s0 s : State} (m : Miss) (sec : Bytes) (fresh : BitVec 4) (chained : Bool) (h : Keeps
    s0 s) : Keeps s0 (decideOutcome m sec fresh chained s) := by
  unfold decideOutcome
  repeat' first
    | with_reducible assumption | with_reducible intro _ | with_reducible refine forEach_keeps _ ?_ ?_
    | with_reducible apply State.modGrp_keeps | with_reducible apply modMiss_keeps | with_reducible apply record_keeps
    | with_reducible apply Keeps.ite

theorem chainNext_keeps {s0 s : State} (m : Miss) (h : Keeps s0 s) : Keeps s0 (chainNext m s) := by
  unfold chainNext
  repeat' first
    | with_reducible assumption | with_reducible intro _ | with_reducible refine forEach_keeps _ ?_ ?_
    | with_reducible apply releaseLocks_keeps | with_reducible apply sendFetch_keeps
    | with_reducible apply modMiss_keeps | with_reducible apply decideOutcome_keeps | with_reducible apply Keeps.ite
    | with_reducible apply KeepsO.ite | with_reducible apply KeepsO.some | with_reducible apply KeepsO.none
    | with_reducible apply Keeps.fst_ite | with_reducible apply Keeps.snd_ite | refine Keeps.ofEq (by assumption) ?_
    | refine Keeps.ofEq2 (by assumption) ?_ | refine KeepsO.get (by assumption) ?_ | refine KeepsO.getD ?_ ?_
    | exact Nat.le_refl _ | exact Nat.le_max_left _ _ | dsimp only | split

theorem failRebuild_keeps {s0 s : State} (g : Nat) (grow : Nat) (pos : Nat) (h : Keeps s0 s) :
    Keeps s0 (failRebuild g grow pos s) := by
  unfold failRebuild
  repeat' first
    | with_reducible assumption | with_reducible apply chainNext_keeps | with_reducible apply Keeps.ite | split

theorem startRebuild_keeps {s0 s : State} (m : Miss) (h : Keeps s0 s) : Keeps s0 (startRebuild m s) := by
  unfold startRebuild
  repeat' first
    | with_reducible assumption | with_reducible intro _ | with_reducible refine forEach_keeps _ ?_ ?_
    | with_reducible apply chainNext_keeps | with_reducible apply modMiss_keeps | with_reducible apply readRaw_keeps
    | with_reducible apply Keeps.ite

theorem sectorUncor_keeps {s0 s : State} (c : Nat) (m : Miss) (h : Keeps s0 s) : Keeps s0 (sectorUncor c m s) := by
  unfold sectorUncor
  repeat' first
    | with_reducible assumption | with_reducible intro _ | with_reducible refine forEach_keeps _ ?_ ?_
    | with_reducible apply State.modChan_keeps | with_reducible apply State.modTwin_keeps
    | with_reducible apply raiseWith_keeps | with_reducible apply modMiss_keeps
    | with_reducible apply failRebuild_keeps | with_reducible apply relinquishCause_keeps
    | with_reducible apply Keeps.ite

theorem fillCache_keeps {s0 s : State} (ns : Nat) (cw : Nat) (d : Bytes) (m : BitVec 4) (h : Keeps s0 s) :
    Keeps s0 (fillCache ns cw d m s) := by
  unfold fillCache
  repeat' first
    | with_reducible assumption | with_reducible apply cacheCw_keeps | with_reducible apply Keeps.ite | split

theorem answerFetch_keeps {s0 s : State} (hd : HeldFetch) (media : Option (Bytes × BitVec 4)) (h : Keeps s0 s) :
    Keeps s0 (answerFetch hd media s) := by
  unfold answerFetch
  repeat' first
    | with_reducible assumption | with_reducible intro _ | with_reducible refine forEach_keeps _ ?_ ?_
    | with_reducible apply sendData_keeps | with_reducible apply touchPage_keeps
    | with_reducible apply State.modTwin_keeps

theorem deliver_keeps {s0 s : State} (m : Miss) (w : Waiter) (h : Keeps s0 s) : Keeps s0 (deliver m w s) := by
  unfold deliver
  repeat' first
    | with_reducible assumption | with_reducible intro _ | with_reducible apply modOp_keeps
    | with_reducible apply modMiss_keeps | with_reducible apply State.modXport_keeps
    | with_reducible apply fillCache_keeps | with_reducible apply answerFetch_keeps
    | with_reducible apply cacheCw_keeps | with_reducible apply State.modConn_keeps | with_reducible apply Keeps.ite
    | exact Nat.le_refl _ | dsimp only | split

theorem openChain_keeps {s0 s : State} (m : Miss) (h : Keeps s0 s) : Keeps s0 (openChain m s) := by
  unfold openChain
  repeat' first
    | with_reducible assumption | with_reducible apply openOp_keeps

theorem nsKeyUse_keeps {s0 s : State} (decrypt : Bool) (g : Nat) (ns : Nat) (off : Nat) (h : Keeps s0 s) : Keeps s0
    (nsKeyUse decrypt g ns off s) := by
  unfold nsKeyUse
  repeat' first
    | with_reducible assumption | with_reducible intro _ | with_reducible refine forEach_keeps _ ?_ ?_
    | with_reducible apply xtsJob_keeps | with_reducible apply Keeps.ite | with_reducible apply KeepsO.ite
    | with_reducible apply KeepsO.some | with_reducible apply KeepsO.none | with_reducible apply Keeps.fst_ite
    | with_reducible apply Keeps.snd_ite | refine Keeps.ofEq (by assumption) ?_
    | refine Keeps.ofEq2 (by assumption) ?_ | refine KeepsO.get (by assumption) ?_ | refine KeepsO.getD ?_ ?_
    | exact Nat.le_refl _ | exact Nat.le_max_left _ _ | dsimp only | split

theorem decryptFor_keeps {s0 s : State} (m : Miss) (h : Keeps s0 s) : Keeps s0 (decryptFor m s) := by
  unfold decryptFor
  repeat' first
    | with_reducible assumption | with_reducible intro _ | with_reducible refine forEach_keeps _ ?_ ?_
    | with_reducible apply nsKeyUse_keeps | with_reducible apply Keeps.ite | with_reducible apply KeepsO.ite
    | with_reducible apply KeepsO.some | with_reducible apply KeepsO.none | with_reducible apply Keeps.fst_ite
    | with_reducible apply Keeps.snd_ite | refine Keeps.ofEq (by assumption) ?_
    | refine Keeps.ofEq2 (by assumption) ?_ | refine KeepsO.get (by assumption) ?_ | refine KeepsO.getD ?_ ?_
    | exact Nat.le_refl _ | exact Nat.le_max_left _ _ | dsimp only | split

theorem missTick_keeps {s0 s : State} (m : Miss) (h : Keeps s0 s) : KeepsO s0 (missTick s m) := by
  unfold missTick
  repeat' first
    | with_reducible assumption | with_reducible intro _ | with_reducible refine forEach_keeps _ ?_ ?_
    | with_reducible apply submit_keeps | with_reducible apply modMiss_keeps | with_reducible apply startRebuild_keeps
    | with_reducible apply decideOutcome_keeps | with_reducible apply deliver_keeps
    | with_reducible apply decryptFor_keeps | with_reducible apply dropMiss_keeps | with_reducible apply chain_keeps
    | with_reducible apply openChain_keeps | with_reducible apply Keeps.ite | with_reducible apply KeepsO.ite
    | with_reducible apply KeepsO.some | with_reducible apply KeepsO.none | with_reducible apply Keeps.fst_ite
    | with_reducible apply Keeps.snd_ite | refine Keeps.ofEq (by assumption) ?_
    | refine Keeps.ofEq2 (by assumption) ?_ | refine KeepsO.get (by assumption) ?_ | refine KeepsO.getD ?_ ?_
    | exact Nat.le_refl _ | exact Nat.le_max_left _ _ | dsimp only | split

theorem writeTiles_keeps {s0 s : State} (g : Nat) (ts : List Nat) (h : Keeps s0 s) : Keeps s0 (writeTiles g ts s) := by
  unfold writeTiles
  repeat' first
    | with_reducible assumption | with_reducible apply State.fresh_keeps | with_reducible apply journal_keeps
    | with_reducible apply State.modTwin_keeps | with_reducible apply Keeps.ite

theorem gatherRow_keeps {s0 s : State} (o : RowOp) (ns : Nat) (off : Nat) (h : Keeps s0 s) :
    Keeps s0 (gatherRow o ns off s) := by
  unfold gatherRow
  repeat' first
    | with_reducible assumption | with_reducible apply writeTiles_keeps | with_reducible apply nsKeyUse_keeps
    | with_reducible apply State.modSump_keeps | with_reducible apply modOp_keeps

theorem proceed_keeps {s0 s : State} (o : RowOp) (h : Keeps s0 s) : Keeps s0 (proceed o s) := by
  unfold proceed
  repeat' first
    | with_reducible assumption | with_reducible intro _ | with_reducible refine forEach_keeps _ ?_ ?_
    | with_reducible apply hostWrites_keeps | with_reducible apply issueWrites_keeps
    | with_reducible apply chain_keeps | with_reducible apply State.modGrp_keeps | with_reducible apply settleOp_keeps
    | with_reducible apply startFix_keeps | with_reducible apply settle_keeps | with_reducible apply Keeps.ite
    | with_reducible apply KeepsO.ite | with_reducible apply KeepsO.some | with_reducible apply KeepsO.none
    | with_reducible apply Keeps.fst_ite | with_reducible apply Keeps.snd_ite | refine Keeps.ofEq (by assumption) ?_
    | refine Keeps.ofEq2 (by assumption) ?_ | refine KeepsO.get (by assumption) ?_ | refine KeepsO.getD ?_ ?_
    | exact Nat.le_refl _ | exact Nat.le_max_left _ _ | dsimp only | split

theorem beginUpdate_keeps {s0 s : State} (id : Nat) (h : Keeps s0 s) : Keeps s0 (beginUpdate id s) := by
  unfold beginUpdate
  exact Keeps.ite (Keeps.withOps _ h) (issueReads_keeps _ h)

theorem takeLock_keeps {s0 s : State} (o : RowOp) (h : Keeps s0 s) : Keeps s0 (takeLock o s) := by
  have hm := modOp_keeps o.id (fun o => { o with locked := true, epoch := s.twin.epoch }) h
  unfold takeLock
  dsimp only
  split
  · exact beginUpdate_keeps _ (Keeps.ite (gatherRow_keeps _ _ _ hm) hm)
  · exact hm
  · exact issueReads_keeps _ hm

theorem passFormat_keeps {s0 s : State} (o : RowOp) (h : Keeps s0 s) : Keeps s0 (passFormat o s) := by
  unfold passFormat
  repeat' first
    | with_reducible assumption | with_reducible intro _ | with_reducible refine forEach_keeps _ ?_ ?_
    | with_reducible apply setPast_keeps | with_reducible apply formatMark_keeps | with_reducible apply Keeps.ite

theorem lockedTick_keeps {s0 s : State} (o : RowOp) (h : Keeps s0 s) : KeepsO s0 (lockedTick s o) := by
  unfold lockedTick
  repeat' first
    | with_reducible assumption | with_reducible intro _ | with_reducible refine forEach_keeps _ ?_ ?_
    | with_reducible apply finishUnit_keeps | with_reducible apply proceed_keeps
    | with_reducible apply passFormat_keeps | with_reducible apply awakeRecord_keeps
    | with_reducible apply askRegion_keeps | with_reducible apply Keeps.withOps | with_reducible apply Keeps.ite
    | with_reducible apply KeepsO.ite | with_reducible apply KeepsO.some | with_reducible apply KeepsO.none

theorem endMerge_keeps {s0 s : State} (o : RowOp) (h : Keeps s0 s) : Keeps s0 (endMerge o s) := by
  unfold endMerge
  split
  · exact Keeps.ite (modOp_keeps _ _ h) (beginUpdate_keeps _ (nsKeyUse_keeps _ _ _ _ (gatherRow_keeps _ _ _ h)))
  · exact h

theorem opTick_keeps {s0 s : State} (o : RowOp) (h : Keeps s0 s) : KeepsO s0 (opTick s o) := by
  unfold opTick
  repeat' first
    | with_reducible assumption | with_reducible intro _ | with_reducible refine forEach_keeps _ ?_ ?_
    | with_reducible apply endMerge_keeps | with_reducible apply record_keeps | with_reducible apply takeLock_keeps
    | with_reducible apply lockedTick_keeps | with_reducible apply appendRecord_keeps
    | with_reducible apply settleOp_keeps | with_reducible apply Keeps.ite | with_reducible apply KeepsO.ite
    | with_reducible apply KeepsO.some | with_reducible apply KeepsO.none | with_reducible apply Keeps.fst_ite
    | with_reducible apply Keeps.snd_ite | refine Keeps.ofEq (by assumption) ?_
    | refine Keeps.ofEq2 (by assumption) ?_ | refine KeepsO.get (by assumption) ?_ | refine KeepsO.getD ?_ ?_
    | exact Nat.le_refl _ | exact Nat.le_max_left _ _ | dsimp only | split

theorem engineTick_keeps {s0 s : State} (h : Keeps s0 s) : KeepsO s0 (engineTick s) := by
  intro t e
  have key {α : Type} {f : α → Option State} (hf : ∀ a, KeepsO s0 (f a)) : ∀ l : List α, KeepsO s0 (l.findSome? f) := by
    intro l
    induction l with
    | nil => exact KeepsO.none
    | cons a l ih =>
      intro t e
      simp only [List.findSome?_cons] at e
      split at e
      · exact hf a t (by simpa [‹f a = _›] using e)
      · exact ih t e
  unfold engineTick at e
  cases hm : s.misses.findSome? (missTick s) with
  | some u =>
    rw [hm] at e
    exact key (fun m => missTick_keeps m h) _ t (hm.trans e)
  | none =>
    rw [hm] at e
    exact key (fun o => opTick_keeps o h) _ t e

theorem pumpEngines_keeps {s0 : State} : ∀ (n : Nat) {s : State}, Keeps s0 s → Keeps s0 (pumpEngines n s)
  | 0, _, h => h
  | n + 1, s, h => by
    unfold pumpEngines
    split
    · exact pumpEngines_keeps n (engineTick_keeps h _ ‹_›)
    · exact h

theorem runEngines_keeps {s0 s : State} (h : Keeps s0 s) : Keeps s0 (runEngines s) := by
  unfold runEngines
  repeat' first
    | with_reducible assumption | with_reducible apply pumpEngines_keeps

theorem loseCommand_keeps {s0 s : State} (c : Nat) (m : MCmd) (h : Keeps s0 s) : Keeps s0 (loseCommand c m s) := by
  unfold loseCommand
  repeat' first
    | with_reducible assumption | with_reducible apply modOp_keeps | with_reducible apply modMiss_keeps
    | with_reducible apply Keeps.ite | split

theorem loseCommands_keeps {s0 s : State} (c : Nat) (h : Keeps s0 s) : Keeps s0 (loseCommands c s) := by
  unfold loseCommands
  repeat' first
    | with_reducible assumption | with_reducible intro _ | with_reducible refine forEach_keeps _ ?_ ?_
    | with_reducible apply State.modChan_keeps | with_reducible apply loseCommand_keeps

theorem groupLoses_keeps {s0 s : State} (g pos : Nat) (target : Bool) (h : Keeps s0 s) : Keeps s0
    (groupLoses g pos target s) := by
  unfold groupLoses
  dsimp only
  split
  · exact State.modGrp_keeps _ _ h
  · exact Keeps.ite h (relinquishCause_keeps (State.modGrp_keeps _ _ h))
  · exact Keeps.ite (finishUnit_keeps _ _ _ _ (State.modGrp_keeps _ _ h))
      (finishUnit_keeps _ _ _ _ (relinquishCause_keeps (State.modGrp_keeps _ _ h)))
  · exact State.modGrp_keeps _ _ h
  · exact h

theorem moduleFailed_keeps {s0 s : State} (c : Nat) (h : Keeps s0 s) : Keeps s0 (moduleFailed c s) := by
  unfold moduleFailed
  repeat' first
    | with_reducible assumption | with_reducible apply loseCommands_keeps | with_reducible apply State.modChan_keeps
    | with_reducible apply raiseWith_keeps | with_reducible apply groupLoses_keeps | with_reducible apply Keeps.ite
    | with_reducible refine Keeps.withOps _ ?_

theorem checkUeRows_keeps {s0 s : State} (c : Nat) (h : Keeps s0 s) : Keeps s0 (checkUeRows c s) := by
  unfold checkUeRows
  repeat' first
    | with_reducible assumption | with_reducible apply moduleFailed_keeps | with_reducible apply Keeps.ite

end Sys2Proof.Machine
end

