-- ==== Sys2Proof/Laws/KeepsDrawers.lean ====
section
/-! SUPPORT. `Keeps` through the operations of drawers, schedules, visibility steps and acknowledgements. -/

namespace Sys2Proof.Machine

open Sys2Proof











theorem logDrawer_keeps {s0 s : State} (code : Nat) (d : Nat) (tag : BitVec 16) (h : Keeps s0 s) :
    Keeps s0 (logDrawer code d tag s).1 := by
  unfold logDrawer
  repeat' first
    | with_reducible assumption | with_reducible apply logControl_keeps | with_reducible apply State.modTwin_keeps
    | with_reducible apply Keeps.ite

theorem fallDone_keeps {s0 s : State} (d : Nat) (h : Keeps s0 s) : Keeps s0 (fallDone d s) := by
  unfold fallDone
  repeat' first
    | with_reducible assumption | with_reducible intro _ | with_reducible apply State.modDrw_keeps
    | with_reducible apply raiseWith_keeps | with_reducible apply finishAll_keeps | with_reducible apply Keeps.ite
    | exact Nat.le_refl _ | dsimp only | split

theorem fallFrom_keeps {s0 : State} (d : Nat) : ∀ (k : Nat) {s : State}, Keeps s0 s → Keeps s0 (fallFrom d k s)
  | 0, _, h => fallDone_keeps d h
  | k + 1, _, h => Keeps.ite (disableRail_keeps _ (State.modDrw_keeps _ _ h)) (fallFrom_keeps d k h)

theorem linksDown_keeps {s0 s : State} (d : Nat) (event : Bool) (h : Keeps s0 s) : Keeps s0 (linksDown d event s) := by
  unfold linksDown
  repeat' first
    | with_reducible assumption | with_reducible intro _ | with_reducible refine forEach_keeps _ ?_ ?_
    | with_reducible apply State.modChan_keeps | with_reducible apply raiseWith_keeps | with_reducible apply Keeps.ite

theorem startFall_keeps {s0 s : State} (d : Nat) (f : Fall) (h : Keeps s0 s) : Keeps s0 (startFall d f s) := by
  unfold startFall
  repeat' first
    | with_reducible assumption | with_reducible apply fallFrom_keeps | with_reducible apply linksDown_keeps
    | with_reducible apply State.modDrw_keeps

theorem startP4_keeps {s0 s : State} (d : Nat) (h : Keeps s0 s) : Keeps s0 (startP4 d s) := by
  unfold startP4
  repeat' first
    | with_reducible assumption | with_reducible intro _ | with_reducible refine forEach_keeps _ ?_ ?_
    | with_reducible apply State.modDrw_keeps | with_reducible apply startFall_keeps
    | with_reducible apply sendLctl_keeps | with_reducible apply State.send_keeps | with_reducible apply Keeps.ite

theorem checkP4_keeps {s0 s : State} (d : Nat) (h : Keeps s0 s) : Keeps s0 (checkP4 d s) := by
  unfold checkP4
  repeat' first
    | with_reducible assumption | with_reducible apply startFall_keeps | with_reducible apply Keeps.ite

theorem startP3_keeps {s0 s : State} (d : Nat) (h : Keeps s0 s) : Keeps s0 (startP3 d s) := by
  unfold startP3
  repeat' first
    | with_reducible assumption | with_reducible intro _ | with_reducible refine forEach_keeps _ ?_ ?_
    | with_reducible apply setPast_keeps | with_reducible apply journal_keeps | with_reducible apply headerRow_keeps
    | with_reducible apply State.modNv_keeps | with_reducible apply State.modDrw_keeps
    | with_reducible apply flashQueue_keeps | with_reducible apply State.modGrp_keeps

theorem parkAdvance_keeps {s0 s : State} (d : Nat) (h : Keeps s0 s) : Keeps s0 (parkAdvance d s) := by
  unfold parkAdvance
  repeat' first
    | with_reducible assumption | with_reducible intro _ | with_reducible refine forEach_keeps _ ?_ ?_
    | with_reducible apply journal_keeps | with_reducible apply State.modDrw_keeps
    | with_reducible apply startP3_keeps | with_reducible apply Keeps.ite

theorem parkAdvanceAll_keeps {s0 s : State} (h : Keeps s0 s) : Keeps s0 (parkAdvanceAll s) := by
  unfold parkAdvanceAll
  repeat' first
    | with_reducible assumption | with_reducible intro _ | with_reducible refine forEach_keeps _ ?_ ?_
    | with_reducible apply parkAdvance_keeps

theorem beginPark_keeps {s0 s : State} (d : Nat) (cmds : List Nat) (h : Keeps s0 s) : Keeps s0 (beginPark d cmds s) := by
  unfold beginPark
  repeat' first
    | with_reducible assumption | with_reducible apply logDrawer_keeps | with_reducible apply parkAdvance_keeps
    | with_reducible apply State.modDrw_keeps

theorem parkLite_keeps {s0 s : State} (d : Nat) (cmds : List Nat) (h : Keeps s0 s) : Keeps s0 (parkLite d cmds s) := by
  unfold parkLite
  repeat' first
    | with_reducible assumption | with_reducible apply logDrawer_keeps | with_reducible apply finishAll_keeps
    | with_reducible apply startFall_keeps | with_reducible apply State.modDrw_keeps

theorem parkBack_keeps {s0 s : State} (d : Nat) (h : Keeps s0 s) : Keeps s0 (parkBack d s) := by
  unfold parkBack
  repeat' first
    | with_reducible assumption | with_reducible intro _ | with_reducible apply State.modDrw_keeps
    | with_reducible apply finishAll_keeps | exact Nat.le_refl _ | dsimp only | split

theorem beginWake_keeps {s0 s : State} (d : Nat) (cmds : List Nat) (h : Keeps s0 s) : Keeps s0 (beginWake d cmds s) := by
  unfold beginWake
  repeat' first
    | with_reducible assumption | with_reducible apply logDrawer_keeps | with_reducible apply State.modDrw_keeps
    | with_reducible apply enableRail_keeps | with_reducible apply Keeps.ite

theorem requestWake_keeps {s0 s : State} (d : Nat) (cmd : Option Nat) (h : Keeps s0 s) : Keeps s0 (requestWake d cmd s) := by
  unfold requestWake
  repeat' first
    | with_reducible assumption | with_reducible intro _ | with_reducible apply finishAll_keeps
    | with_reducible apply State.modDrw_keeps | with_reducible apply beginWake_keeps | with_reducible apply Keeps.ite
    | exact Nat.le_refl _ | dsimp only | split

theorem wakeSpan_keeps {s0 s : State} (ds : List Nat) (h : Keeps s0 s) : Keeps s0 (wakeSpan ds s) := by
  unfold wakeSpan
  repeat' first
    | with_reducible assumption | with_reducible intro _ | with_reducible refine forEach_keeps _ ?_ ?_
    | with_reducible apply requestWake_keeps | with_reducible apply State.modDrw_keeps

theorem becomeAwake_keeps {s0 s : State} (d : Nat) (h : Keeps s0 s) : Keeps s0 (becomeAwake d s) := by
  unfold becomeAwake
  extract_lets k s1 s2 s3 s4
  have h1 : Keeps s0 s1 := State.modDrw_keeps _ _ h
  have h2 : Keeps s0 s2 := forEach_keeps _ (fun _ _ k => State.modGrp_keeps _ _ k) h1
  have h3 : Keeps s0 s3 := Keeps.ite (flashQueue_keeps _ _ h2) h2
  have h4 : Keeps s0 s4 := finishAll_keeps _ _ _ (raiseWith_keeps _ _ _ h3)
  clear_value s1 s2 s3 s4
  split
  · split
    · exact finishAll_keeps _ _ _ h4
    · exact beginPark_keeps _ _ h4
  · exact h4

theorem wakeFinish_keeps {s0 s : State} (d : Nat) (h : Keeps s0 s) : Keeps s0 (wakeFinish d s) := by
  unfold wakeFinish
  repeat' first
    | with_reducible assumption | with_reducible apply becomeAwake_keeps | with_reducible apply Keeps.ite

theorem wakeReplayed_keeps {s0 s : State} (d : Nat) (h : Keeps s0 s) : Keeps s0 (wakeReplayed d s) := by
  unfold wakeReplayed
  repeat' first
    | with_reducible assumption | with_reducible apply wakeFinish_keeps | with_reducible apply State.modDrw_keeps
    | with_reducible apply Keeps.ite

theorem wakeRail_keeps {s0 s : State} (d : Nat) (n : DrawerStep) (k : Nat) (h : Keeps s0 s) : Keeps s0 (wakeRail d
    n k s) := by
  unfold wakeRail
  repeat' first
    | with_reducible assumption | with_reducible intro _ | with_reducible refine forEach_keeps _ ?_ ?_
    | with_reducible apply State.modDrw_keeps | with_reducible apply enableRail_keeps | with_reducible apply Keeps.ite

theorem wakeStep_keeps {s0 s : State} (d : Nat) (h : Keeps s0 s) : Keeps s0 (wakeStep d s) := by
  unfold wakeStep
  repeat' first
    | with_reducible assumption | with_reducible intro _ | with_reducible refine forEach_keeps _ ?_ ?_
    | with_reducible apply wakeRail_keeps | with_reducible apply State.modDrw_keeps | with_reducible apply Keeps.ite
    | with_reducible apply KeepsO.ite | with_reducible apply KeepsO.some | with_reducible apply KeepsO.none
    | with_reducible apply Keeps.fst_ite | with_reducible apply Keeps.snd_ite
    | with_reducible refine Keeps.ofEq (by assumption) ?_ | with_reducible refine Keeps.ofEq2 (by assumption) ?_
    | with_reducible refine KeepsO.get (by assumption) ?_ | with_reducible refine KeepsO.getD ?_ ?_
    | exact Nat.le_refl _ | exact Nat.le_max_left _ _ | dsimp only | split

theorem wakeNext_keeps {s0 s : State} (d : Nat) (h : Keeps s0 s) : Keeps s0 (wakeNext d s) := by
  unfold wakeNext
  split
  · split
    · exact wakeStep_keeps _ (finishAll_keeps _ _ _ (State.modDrw_keeps _ _ h))
    · exact parkLite_keeps _ _ h
  · exact wakeStep_keeps _ h

theorem requeueCommands_keeps {s0 s : State} (d : Nat) (h : Keeps s0 s) : Keeps s0 (requeueCommands d s) := by
  unfold requeueCommands
  repeat' first
    | with_reducible assumption | with_reducible intro _ | with_reducible refine forEach_keeps _ ?_ ?_
    | with_reducible apply State.modChan_keeps

theorem drawerFault_keeps {s0 s : State} (d : Nat) (modules : Bool) (h : Keeps s0 s) : Keeps s0 (drawerFault d modules s) := by
  unfold drawerFault
  repeat' first
    | with_reducible assumption | with_reducible intro _ | with_reducible refine forEach_keeps _ ?_ ?_
    | with_reducible apply State.modDrw_keeps | with_reducible apply requeueCommands_keeps
    | with_reducible apply moduleFailed_keeps | with_reducible apply linksDown_keeps
    | with_reducible apply raiseWith_keeps | with_reducible apply finish_keeps | with_reducible apply startFall_keeps
    | with_reducible apply Keeps.ite | exact Nat.le_refl _ | dsimp only | split

theorem markerCheck_keeps {s0 s : State} (d : Nat) (h : Keeps s0 s) : Keeps s0 (markerCheck d s) := by
  unfold markerCheck
  repeat' first
    | with_reducible assumption | with_reducible apply drawerFault_keeps | with_reducible apply raiseWith_keeps
    | with_reducible apply State.modPrime_keeps | with_reducible apply wakeNext_keeps
    | with_reducible apply State.modDrw_keeps | with_reducible apply Keeps.ite

theorem wakeCheck_keeps {s0 s : State} (d : Nat) (h : Keeps s0 s) : Keeps s0 (wakeCheck d s) := by
  unfold wakeCheck
  repeat' first
    | with_reducible assumption | with_reducible apply wakeNext_keeps | with_reducible apply markerCheck_keeps
    | with_reducible apply Keeps.ite

theorem revoke_keeps {s0 s : State} (g : Nat) (h : Keeps s0 s) : Keeps s0 (revoke g s) := by
  unfold revoke
  repeat' first
    | with_reducible assumption | with_reducible apply State.modGrant_keeps | with_reducible apply grantDead_keeps
    | with_reducible apply Keeps.ite

theorem pinCheck_keeps {s0 s : State} (g : Nat) (h : Keeps s0 s) : Keeps s0 (pinCheck g s) := by
  unfold pinCheck
  repeat' first
    | with_reducible assumption | with_reducible intro _ | with_reducible apply logControl_keeps
    | with_reducible apply State.modGrant_keeps | with_reducible apply revoke_keeps
    | with_reducible apply finishAll_keeps | with_reducible apply Keeps.ite | exact Nat.le_refl _ | dsimp only | split

theorem pinCheckAll_keeps {s0 s : State} (h : Keeps s0 s) : Keeps s0 (pinCheckAll s) := by
  unfold pinCheckAll
  repeat' first
    | with_reducible assumption | with_reducible intro _ | with_reducible refine forEach_keeps _ ?_ ?_
    | with_reducible apply pinCheck_keeps

theorem schedSlip_keeps {s0 s : State} (a0_ : Nat) (ns : Nat) (off : Nat) (len : Nat) (h : Keeps s0 s) :
    Keeps s0 (schedSlip a0_ ns off len s) := by
  unfold schedSlip
  repeat' first
    | with_reducible assumption | with_reducible intro _ | with_reducible apply State.modSched_keeps
    | with_reducible apply State.modDrw_keeps | with_reducible apply raiseWith_keeps | with_reducible apply Keeps.ite
    | exact Nat.le_refl _ | dsimp only | split

theorem schedRelease_keeps {s0 s : State} (a0_ : Nat) (h : Keeps s0 s) : Keeps s0 (schedRelease a0_ s) := by
  unfold schedRelease
  repeat' first
    | with_reducible assumption | with_reducible apply State.modSump_keeps | with_reducible apply Keeps.ite | split

theorem schedWake_keeps {s0 s : State} (a0_ : Nat) (h : Keeps s0 s) : Keeps s0 (schedWake a0_ s) := by
  unfold schedWake
  repeat' first
    | with_reducible assumption | with_reducible apply wakeSpan_keeps | with_reducible apply Keeps.ite | split

theorem schedStageAux_keeps {s0 : State} : ∀ (n h : Nat) {s : State}, Keeps s0 s → Keeps s0 (schedStageAux n h s)
  | 0, _, _, k => k
  | n + 1, h, s, k => by
    unfold schedStageAux
    split
    · exact k
    · dsimp only
      refine Keeps.ite k ?_
      split
      · exact k
      · have hs := fun f => State.modSched_keeps h f k
        exact Keeps.ite k (schedStageAux_keeps n h (Keeps.ite (hs _) (Keeps.ite (cacheCw_keeps _ _ _ _ _ _ (hs _))
          (readCodeword_keeps _ _ _ _ _ (hs _)))))

theorem schedStage_keeps {s0 s : State} (a0_ : Nat) (h : Keeps s0 s) : Keeps s0 (schedStage a0_ s) := by
  unfold schedStage
  repeat' first
    | with_reducible assumption | with_reducible apply schedStageAux_keeps

theorem schedStageAll_keeps {s0 s : State} (h : Keeps s0 s) : Keeps s0 (schedStageAll s) := by
  unfold schedStageAll
  repeat' first
    | with_reducible assumption | with_reducible intro _ | with_reducible refine forEach_keeps _ ?_ ?_
    | with_reducible apply schedStage_keeps

theorem schedServed_keeps {s0 s : State} (c : Nat) (ns : Nat) (off : Nat) (len : Nat) (h : Keeps s0 s) :
    Keeps s0 (schedServed c ns off len s) := by
  unfold schedServed
  repeat' first
    | with_reducible assumption | with_reducible intro _ | with_reducible refine forEach_keeps _ ?_ ?_
    | with_reducible apply schedStage_keeps | with_reducible apply schedWake_keeps
    | with_reducible apply schedRelease_keeps | with_reducible apply State.modSched_keeps

theorem gatherRun_keeps {s0 s : State} (g : Gather) (h : Keeps s0 s) : Keeps s0 (gatherRun g s) := by
  unfold gatherRun
  repeat' first
    | with_reducible assumption | with_reducible intro _ | with_reducible refine forEach_keeps _ ?_ ?_
    | with_reducible apply State.modXport_keeps | with_reducible apply readCodeword_keeps
    | with_reducible apply touchPage_keeps

theorem regather_keeps {s0 s : State} (g : Gather) (h : Keeps s0 s) : Keeps s0 (regather g s) := by
  unfold regather
  repeat' first
    | with_reducible assumption | with_reducible apply gatherRun_keeps

theorem endGather_keeps {s0 s : State} (id : Nat) (h : Keeps s0 s) : Keeps s0 (endGather id s) := by
  unfold endGather
  repeat' first
    | with_reducible assumption | with_reducible apply State.modXport_keeps

theorem foldStep_keeps {s0 s : State} (l : List (Nat × Nat)) (h : Keeps s0 s) : Keeps s0 (foldStep l s) := by
  unfold foldStep
  repeat' first
    | with_reducible assumption | with_reducible apply foldLines_keeps | with_reducible apply Keeps.ite

theorem stepped_keeps {s0 s : State} (c : Nat) (m : Msg) (lsn : Lsn) (f : Msg → Msg) (h : Keeps s0 s) :
    Keeps s0 (stepped c m lsn f s) := by
  unfold stepped
  repeat' first
    | with_reducible assumption | with_reducible apply releaseRefs_keeps | with_reducible apply State.modConn_keeps

theorem atomicWrite_keeps {s0 s : State} (c : Nat) (m : Msg) (new : Bytes) (lsn : Lsn) (h : Keeps s0 s) :
    Keeps s0 (atomicWrite c m new lsn s).1 :=
  (showLine_keeps _ _ _ _ _ _ _ (nextStamp_keeps h)).getD (nextStamp_keeps h)

theorem runStep_keeps {s0 s : State} (c : Nat) (m : Msg) (lsn : Lsn) (h : Keeps s0 s) : Keeps s0 (runStep c m lsn s).1 := by
  unfold runStep
  repeat' first
    | with_reducible assumption | with_reducible apply atomicWrite_keeps | with_reducible apply stepped_keeps
    | with_reducible apply foldStep_keeps | with_reducible apply State.modConn_keeps
    | with_reducible apply showMessage_keeps | with_reducible apply Keeps.fst_ite

theorem chainAux_keeps {s0 : State} : ∀ (n c : Nat) (first : Bool) (lsn : Lsn) {s : State}, Keeps s0 s →
    Keeps s0 (chainAux n c first lsn s).1
  | 0, _, _, _, _, h => h
  | n + 1, c, first, lsn, s, h => by
    have h1 : Keeps s0 (s.modConn c Conn.passDropped) := State.modConn_keeps _ _ h
    unfold chainAux
    dsimp only
    split
    · exact h1
    · exact Keeps.fst_ite (chainAux_keeps n c false lsn (runStep_keeps c _ lsn h1)) h1

theorem logResults_keeps {s0 : State} (c : Nat) : ∀ (l : List LogEntry) {s : State}, Keeps s0 s → Keeps s0 (logResults c l s)
  | [], _, h => h
  | e :: t, _, h => logResults_keeps c t (State.modConn_keeps _ _ (logEntry_keeps e h))

theorem chain_keeps {s0 s : State} (c : Nat) (first : Bool) (lsn : Lsn) (h : Keeps s0 s) : Keeps s0 (chain c first lsn s) := by
  unfold chain
  repeat' first
    | with_reducible assumption | with_reducible apply chainAux_keeps | with_reducible apply logResults_keeps

theorem releaseStep_keeps {s0 s : State} (c : Nat) (m : Msg) (h : Keeps s0 s) : Keeps s0 (releaseStep c m s) := by
  unfold releaseStep
  repeat' first
    | with_reducible assumption | with_reducible apply logEntry_keeps | with_reducible apply chain_keeps

theorem askLine_keeps {s0 s : State} (c : Nat) (m : Msg) (h : Keeps s0 s) : Keeps s0 (askLine c m s) := by
  unfold askLine
  repeat' first
    | with_reducible assumption | with_reducible apply readCodeword_keeps | with_reducible apply Keeps.ite

theorem releaseRead_keeps {s0 s : State} (c : Nat) (m : Msg) (h : Keeps s0 s) : Keeps s0 (releaseRead c m s) := by
  unfold releaseRead
  repeat' first
    | with_reducible assumption | with_reducible intro _ | with_reducible refine forEach_keeps _ ?_ ?_
    | with_reducible apply State.fresh_keeps | with_reducible apply State.modConn_keeps
    | with_reducible apply schedSlip_keeps | with_reducible apply gatherRun_keeps

theorem connTick_keeps {s0 s : State} (c : Nat) (h : Keeps s0 s) : KeepsO s0 (connTick c s) := by
  have h1 : Keeps s0 (s.modConn c Conn.passDropped) := State.modConn_keeps _ _ h
  unfold connTick
  extract_lets s1 k
  change Keeps s0 s1 at h1
  clear_value s1
  split
  · exact KeepsO.none
  · refine KeepsO.ite KeepsO.none ?_
    split
    · exact KeepsO.some (releaseRead_keeps _ _ h1)
    · exact KeepsO.some (State.modConn_keeps _ _ h1)
    · exact KeepsO.none
    · split
      · exact KeepsO.some (releaseStep_keeps _ _ h1)
      · exact KeepsO.none

theorem advanceAux_keeps {s0 : State} : ∀ (n c : Nat) {s : State}, Keeps s0 s → Keeps s0 (advanceAux n c s)
  | 0, _, _, h => h
  | n + 1, c, s, h => by
    unfold advanceAux
    split
    · exact advanceAux_keeps n c (connTick_keeps c h _ ‹_›)
    · exact State.modConn_keeps _ _ h

theorem advanceConn_keeps {s0 s : State} (c : Nat) (h : Keeps s0 s) : Keeps s0 (advanceConn c s) := by
  unfold advanceConn
  repeat' first
    | with_reducible assumption | with_reducible intro _ | with_reducible apply advanceAux_keeps
    | with_reducible apply askLine_keeps | with_reducible apply Keeps.ite | exact Nat.le_refl _ | dsimp only | split

theorem advanceAll_keeps {s0 s : State} (h : Keeps s0 s) : Keeps s0 (advanceAll s) := by
  unfold advanceAll
  repeat' first
    | with_reducible assumption | with_reducible intro _ | with_reducible refine forEach_keeps _ ?_ ?_
    | with_reducible apply advanceConn_keeps

theorem dropAndRelease_keeps {s0 s : State} (c : Nat) (drop : State → State × Lsn) (hd : Keeps s0 (drop s).1) :
    Keeps s0 (dropAndRelease c drop s) := by
  unfold dropAndRelease
  dsimp only
  exact advanceConn_keeps c (chain_keeps c false _ hd)

theorem sendFlushAnswer_keeps {s0 s : State} (c : Nat) (id : MsgId) (poison : Option MsgId) (h : Keeps s0 s) :
    Keeps s0 (sendFlushAnswer c id poison s) := by
  unfold sendFlushAnswer
  repeat' first
    | with_reducible assumption | with_reducible apply sendNak_keeps | with_reducible apply sendCtl_keeps | split

theorem sendAtomicAnswer_keeps {s0 s : State} (c : Nat) (o : AtomicOut) (h : Keeps s0 s) :
    Keeps s0 (sendAtomicAnswer c o s) := by
  unfold sendAtomicAnswer
  repeat' first
    | with_reducible assumption | with_reducible apply sendNak_keeps | with_reducible apply sendCtl_keeps
    | with_reducible apply Keeps.ite

theorem varnishMsg_keeps {s0 s : State} (c : Nat) (m : Msg) (h : Keeps s0 s) : Keeps s0 (varnishMsg c m s) := by
  unfold varnishMsg
  repeat' first
    | with_reducible assumption | with_reducible apply State.modConn_keeps | with_reducible apply sendAck_keeps
    | with_reducible apply sendAtomicAnswer_keeps | with_reducible apply Keeps.ite | split

theorem dwmarkAux_keeps {s0 : State} : ∀ (n c : Nat) {s : State}, Keeps s0 s → Keeps s0 (dwmarkAux n c s)
  | 0, _, _, h => h
  | n + 1, c, s, h => by
    unfold dwmarkAux
    dsimp only
    refine Keeps.ite h ?_
    split
    · exact dwmarkAux_keeps n c (State.modConn_keeps _ _ h)
    · exact Keeps.ite (dwmarkAux_keeps n c (sendFlushAnswer_keeps _ _ _ (State.modConn_keeps _ _ h)))
        (Keeps.ite (dwmarkAux_keeps n c (State.modConn_keeps _ _ h)) h)

theorem varnishConn_keeps {s0 s : State} (c : Nat) (h : Keeps s0 s) : Keeps s0 (varnishConn c s) := by
  unfold varnishConn
  exact Keeps.ite h (dwmarkAux_keeps _ _ (forEach_keeps _ (fun _ _ k => varnishMsg_keeps _ _ k) h))

theorem varnishAll_keeps {s0 s : State} (h : Keeps s0 s) : Keeps s0 (varnishAll s) := by
  unfold varnishAll
  repeat' first
    | with_reducible assumption | with_reducible intro _ | with_reducible refine forEach_keeps _ ?_ ?_
    | with_reducible apply varnishConn_keeps

theorem answerRead_keeps {s0 s : State} (c : Nat) (m : Msg) (g : Gather) (h : Keeps s0 s) : Keeps s0 (answerRead c m g s) := by
  unfold answerRead
  repeat' first
    | with_reducible assumption | with_reducible apply releaseRefs_keeps | with_reducible apply endGather_keeps
    | with_reducible apply State.modConn_keeps | with_reducible apply queueTx_keeps
    | with_reducible apply sendNak_keeps | with_reducible apply schedServed_keeps | split

theorem rasError_keeps {s0 s : State} (h : Keeps s0 s) : Keeps s0 (rasError s) := by
  unfold rasError
  repeat' first
    | with_reducible assumption | with_reducible apply State.modHost_keeps | split | rfl

theorem cxlReadRefused_keeps {s0 s : State} (tag : Nat) (h : Keeps s0 s) : Keeps s0 (cxlReadRefused tag s) := by
  unfold cxlReadRefused
  repeat' first
    | with_reducible assumption | with_reducible apply State.modHost_keeps | with_reducible apply rasError_keeps
    | with_reducible apply State.send_keeps | split | rfl

theorem useMemCredit_keeps {s0 s : State} (h : Keeps s0 s) : Keeps s0 (useMemCredit s) := by
  unfold useMemCredit
  repeat' first
    | with_reducible assumption | with_reducible intro _ | with_reducible refine forEach_keeps _ ?_ ?_
    | with_reducible apply State.modSump_keeps

theorem cxlWriteRefused_keeps {s0 s : State} (tag : Nat) (h : Keeps s0 s) : Keeps s0 (cxlWriteRefused tag s) := by
  unfold cxlWriteRefused
  repeat' first
    | with_reducible assumption | with_reducible intro _ | with_reducible refine forEach_keeps _ ?_ ?_
    | with_reducible apply rasError_keeps | with_reducible apply useMemCredit_keeps
    | with_reducible apply State.modHost_keeps | with_reducible apply State.send_keeps
    | with_reducible apply Keeps.ite | with_reducible apply KeepsO.ite | with_reducible apply KeepsO.some
    | with_reducible apply KeepsO.none | with_reducible apply Keeps.fst_ite | with_reducible apply Keeps.snd_ite
    | with_reducible refine Keeps.ofEq (by assumption) ?_ | with_reducible refine Keeps.ofEq2 (by assumption) ?_
    | with_reducible refine KeepsO.get (by assumption) ?_ | with_reducible refine KeepsO.getD ?_ ?_
    | exact Nat.le_refl _ | exact Nat.le_max_left _ _ | dsimp only

theorem placeCxl_keeps {s0 s : State} (w : HeldWrite) (h : Keeps s0 s) : Keeps s0 (placeCxl w s) := by
  unfold placeCxl
  repeat' first
    | with_reducible assumption | with_reducible intro _ | with_reducible refine forEach_keeps _ ?_ ?_
    | with_reducible apply nextStamp_keeps | with_reducible apply useMemCredit_keeps
    | with_reducible apply logEntry_keeps | with_reducible apply cxlWrite_keeps | with_reducible apply showLine_keeps
    | with_reducible apply foldStep_keeps | with_reducible apply State.modDura_keeps
    | with_reducible apply State.send_keeps | with_reducible apply Keeps.ite | with_reducible apply KeepsO.ite
    | with_reducible apply KeepsO.some | with_reducible apply KeepsO.none | with_reducible apply Keeps.fst_ite
    | with_reducible apply Keeps.snd_ite | with_reducible refine Keeps.ofEq (by assumption) ?_
    | with_reducible refine Keeps.ofEq2 (by assumption) ?_ | with_reducible refine KeepsO.get (by assumption) ?_
    | with_reducible refine KeepsO.getD ?_ ?_

theorem releaseHeldAux_keeps {s0 : State} : ∀ (n : Nat) {s : State}, Keeps s0 s → Keeps s0 (releaseHeldAux n s)
  | 0, _, h => h
  | n + 1, s, h => by
    unfold releaseHeldAux
    split
    · exact h
    · exact Keeps.ite (releaseHeldAux_keeps n (cxlWriteRefused_keeps _ (State.modDura_keeps _ h)))
        (Keeps.ite (releaseHeldAux_keeps n (placeCxl_keeps _ (State.modDura_keeps _ h))) h)

theorem releaseHeld_keeps {s0 s : State} (h : Keeps s0 s) : Keeps s0 (releaseHeld s) := by
  unfold releaseHeld
  repeat' first
    | with_reducible assumption | with_reducible apply releaseHeldAux_keeps

theorem cxlWrite_keeps {s0 s : State} (w : HeldWrite) (h : Keeps s0 s) : Keeps s0 (cxlWrite w s) := by
  unfold cxlWrite
  repeat' first
    | with_reducible assumption | with_reducible apply placeCxl_keeps | with_reducible apply State.modHost_keeps
    | with_reducible apply State.modDura_keeps | with_reducible apply Keeps.ite | split | rfl

theorem lagAcked_keeps {s0 s : State} (h : Keeps s0 s) : Keeps s0 (lagAcked s) := by
  unfold lagAcked
  repeat' first
    | with_reducible assumption | with_reducible apply State.modDura_keeps | with_reducible apply Keeps.ite

theorem gpfAnswer_keeps {s0 s : State} (fail : Bool) (loc : Bool) (h : Keeps s0 s) : Keeps s0 (gpfAnswer fail loc s) := by
  unfold gpfAnswer
  repeat' first
    | with_reducible assumption | with_reducible intro _ | with_reducible refine forEach_keeps _ ?_ ?_
    | with_reducible apply State.modHost_keeps | with_reducible apply record_keeps
    | with_reducible apply State.send_keeps | with_reducible apply Keeps.ite | exact Nat.le_refl _ | dsimp only

theorem flushEnd_keeps {s0 s : State} (fail : Bool) (h : Keeps s0 s) : Keeps s0 (flushEnd fail s) := by
  unfold flushEnd
  repeat' first
    | with_reducible assumption | with_reducible apply gpfAnswer_keeps | with_reducible apply State.modDura_keeps

theorem flushCheck_keeps {s0 s : State} (h : Keeps s0 s) : Keeps s0 (flushCheck s) := by
  unfold flushCheck
  repeat' first
    | with_reducible assumption | with_reducible apply flushEnd_keeps | with_reducible apply State.modDura_keeps
    | with_reducible apply Keeps.ite

theorem flushStart_keeps {s0 s : State} (h : Keeps s0 s) : Keeps s0 (flushStart s) := by
  unfold flushStart
  repeat' first
    | with_reducible assumption | with_reducible apply flushCheck_keeps | with_reducible apply State.modDura_keeps

theorem budgetCheck_keeps {s0 s : State} (h : Keeps s0 s) : Keeps s0 (budgetCheck s) := by
  unfold budgetCheck
  repeat' first
    | with_reducible assumption | with_reducible apply State.modDura_keeps | with_reducible apply Keeps.ite

end Sys2Proof.Machine
end

