-- ==== Sys2Proof/Laws/KeepsSettle.lean ====
section
/-! SUPPORT. `Keeps` through the operations of priming, the windlass, drains and what becomes due after a command. -/

namespace Sys2Proof.Machine

open Sys2Proof











theorem clearVolatile_keeps {s0 s : State} (h : Keeps s0 s) : Keeps s0 (clearVolatile s) :=
  ⟨h.1, h.2, h.3, h.4, h.5, fun i => ⟨by
    show (s.ctl.cleared).mbx.length = 8
    simp [Ctl.cleared], by
    show (Cipher.engines { inputs := s.cipher.inputs }).length = 8
    rfl, by
    show (s.flash.banks.map _).length = 2
    rw [List.length_map]; exact (h.6 i).3, by
    show (s.host.hdm.map _).length = 4
    rw [List.length_map]; exact (h.6 i).4, fun x _ => by
    exact ⟨by show (0#1024).getLsbD x = false; simp, rfl⟩⟩⟩

theorem dropDrawers_keeps {s0 s : State} (h : Keeps s0 s) : Keeps s0 (dropDrawers s) := by
  unfold dropDrawers
  repeat' first
    | with_reducible assumption | with_reducible intro _ | with_reducible refine forEach_keeps _ ?_ ?_
    | with_reducible apply disableRail_keeps | with_reducible apply Keeps.ite

theorem beginPriming_keeps {s0 s : State} (warm : Bool) (h : Keeps s0 s) : Keeps s0 (beginPriming warm s) := by
  unfold beginPriming
  repeat' first
    | with_reducible assumption | with_reducible apply clearVolatile_keeps | with_reducible apply dropDrawers_keeps
    | with_reducible apply State.modPrime_keeps

theorem powerOff_keeps {s0 s : State} (h : Keeps s0 s) : Keeps s0 (powerOff s) := by
  unfold powerOff
  repeat' first
    | with_reducible assumption | with_reducible apply clearVolatile_keeps

theorem pullLine_keeps {s0 s : State} (n : Nat) (up : Bool) (h : Keeps s0 s) : Keeps s0 (pullLine n up s) := by
  unfold pullLine
  repeat' first
    | with_reducible assumption | with_reducible apply State.modPower_keeps

theorem releaseLine_keeps {s0 s : State} (h : Keeps s0 s) : Keeps s0 (releaseLine s) := by
  unfold releaseLine
  repeat' first
    | with_reducible assumption | with_reducible apply State.modPower_keeps

theorem fallAll_keeps {s0 s : State} (h : Keeps s0 s) : Keeps s0 (fallAll s) := by
  unfold fallAll
  repeat' first
    | with_reducible assumption | with_reducible intro _ | with_reducible refine forEach_keeps _ ?_ ?_
    | with_reducible apply startFall_keeps | with_reducible apply Keeps.ite

theorem chargeCheck_keeps {s0 s : State} (h : Keeps s0 s) : Keeps s0 (chargeCheck s) := by
  unfold chargeCheck
  repeat' first
    | with_reducible assumption | with_reducible apply State.modPower_keeps

theorem actStep_keeps {s0 s : State} (h : Keeps s0 s) : Keeps s0 (actStep s) := by
  unfold actStep
  repeat' first
    | with_reducible assumption | with_reducible intro _ | with_reducible refine forEach_keeps _ ?_ ?_
    | with_reducible apply State.modPower_keeps | with_reducible apply enableRail_keeps
    | with_reducible apply fallAll_keeps | with_reducible apply disableRail_keeps | with_reducible apply Keeps.ite
    | exact Nat.le_refl _ | dsimp only | split

theorem windCheck_keeps {s0 s : State} (h : Keeps s0 s) : Keeps s0 (windCheck s) := by
  unfold windCheck
  repeat' first
    | with_reducible assumption | with_reducible apply releaseLine_keeps | with_reducible apply powerLog_keeps
    | with_reducible apply State.modPower_keeps | with_reducible apply Keeps.ite | split

theorem goDown_keeps {s0 s : State} (h : Keeps s0 s) : Keeps s0 (goDown s) := by
  unfold goDown
  repeat' first
    | with_reducible assumption | with_reducible apply State.modPower_keeps
    | with_reducible apply State.modPrime_keeps | with_reducible apply pullLine_keeps | with_reducible apply Keeps.ite

theorem soloDown_keeps {s0 s : State} (n : Nat) (h : Keeps s0 s) : Keeps s0 (soloDown n s) := by
  unfold soloDown
  repeat' first
    | with_reducible assumption | with_reducible intro _ | with_reducible refine forEach_keeps _ ?_ ?_
    | with_reducible apply State.modPower_keeps | with_reducible apply fallAll_keeps
    | with_reducible apply disableRail_keeps | with_reducible apply Keeps.ite

theorem soloDownAll_keeps {s0 : State} : ∀ (n : Nat) {s : State}, Keeps s0 s → Keeps s0 (soloDownAll n s)
  | 0, _, h => State.modPower_keeps _ h
  | n + 1, _, h => Keeps.ite (soloDownAll_keeps n h) (soloDown_keeps _ h)

theorem abandon_keeps {s0 s : State} (h : Keeps s0 s) : Keeps s0 (abandon s) := by
  unfold abandon
  repeat' first
    | with_reducible assumption | with_reducible apply State.modPower_keeps | with_reducible apply State.send_keeps

theorem windFault_keeps {s0 s : State} (h : Keeps s0 s) : Keeps s0 (windFault s) := by
  unfold windFault
  repeat' first
    | with_reducible assumption | with_reducible apply abandon_keeps | with_reducible apply State.modPrime_keeps
    | with_reducible apply soloDown_keeps | with_reducible apply State.modPower_keeps

theorem soloUpAll_keeps {s0 : State} : ∀ (n : Nat) {s : State}, Keeps s0 s → Keeps s0 (soloUpAll n s)
  | 0, _, h => h
  | n + 1, _, h => Keeps.ite h (Keeps.ite (soloDown_keeps _ (powerLog_keeps _ (State.modPower_keeps _ h)))
      (Keeps.ite (Keeps.ite (State.modPrime_keeps _ h) h)
        (soloUpAll_keeps n (forEach_keeps _ (fun i _ k => enableRail_keeps i k) (State.modPower_keeps _ h)))))

theorem railsChanged_keeps {s0 s : State} (h : Keeps s0 s) : Keeps s0 (railsChanged s) := by
  unfold railsChanged
  repeat' first
    | with_reducible assumption | with_reducible apply soloUpAll_keeps | with_reducible apply soloDownAll_keeps
    | with_reducible apply windCheck_keeps | with_reducible apply Keeps.ite

theorem rekeyDrain_keeps {s0 s : State} (h : Keeps s0 s) : Keeps s0 (rekeyDrain s) := by
  unfold rekeyDrain
  repeat' first
    | with_reducible assumption | with_reducible apply raise_keeps | with_reducible apply State.modCipher_keeps
    | with_reducible apply Keeps.ite | split | rfl

theorem startDrain_keeps {s0 s : State} (kind : DrainKind) (cmd : Option Nat) (h : Keeps s0 s) : Keeps s0
    (startDrain kind cmd s) := by
  unfold startDrain
  repeat' first
    | with_reducible assumption | with_reducible intro _ | with_reducible refine forEach_keeps _ ?_ ?_
    | with_reducible apply rekeyDrain_keeps | with_reducible apply State.modPrime_keeps
    | with_reducible apply State.modSump_keeps | with_reducible apply abandonMoves_keeps
    | with_reducible apply issueWrites_keeps | with_reducible apply journal_keeps

theorem journalIntents_keeps {s0 s : State} (g : Nat) (h : Keeps s0 s) : Keeps s0 (journalIntents g s) := by
  unfold journalIntents
  repeat' first
    | with_reducible assumption | with_reducible intro _ | with_reducible refine forEach_keeps _ ?_ ?_
    | with_reducible apply journal_keeps

theorem shutMarker_keeps {s0 s : State} (g : Nat) (h : Keeps s0 s) : Keeps s0 (shutMarker g s) := by
  unfold shutMarker
  repeat' first
    | with_reducible assumption | with_reducible intro _ | with_reducible refine forEach_keeps _ ?_ ?_
    | with_reducible apply journalIntents_keeps | with_reducible apply regionRecord_keeps
    | with_reducible apply State.modNv_keeps | with_reducible apply journal_keeps
    | with_reducible apply headerRow_keeps | with_reducible apply State.modGrp_keeps

theorem bitmapRecord_keeps {s0 s : State} (g : Nat) (h : Keeps s0 s) : Keeps s0 (bitmapRecord g s) := by
  unfold bitmapRecord
  repeat' first
    | with_reducible assumption | with_reducible intro _ | with_reducible refine forEach_keeps _ ?_ ?_
    | with_reducible apply journal_keeps

theorem saveBitmap_keeps {s0 s : State} (h : Keeps s0 s) : Keeps s0 (saveBitmap s) := by
  unfold saveBitmap
  repeat' first
    | with_reducible assumption | with_reducible intro _ | with_reducible refine forEach_keeps _ ?_ ?_
    | with_reducible apply bitmapRecord_keeps | with_reducible apply State.modPrime_keeps
    | with_reducible apply Keeps.ite

theorem sealDrain_keeps {s0 s : State} (d : Drain) (h : Keeps s0 s) : Keeps s0 (sealDrain d s) := by
  unfold sealDrain
  repeat' first
    | with_reducible assumption | with_reducible intro _ | with_reducible refine forEach_keeps _ ?_ ?_
    | with_reducible apply saveBitmap_keeps | with_reducible apply journal_keeps
    | with_reducible apply State.modTwin_keeps | with_reducible apply shutMarker_keeps
    | with_reducible apply writeRole_keeps | with_reducible apply State.modPower_keeps
    | with_reducible apply raiseWith_keeps | with_reducible apply Keeps.ite | exact Nat.le_refl _ | dsimp only | split

theorem startReset_keeps {s0 s : State} (cause : ResetCause) (h : Keeps s0 s) : Keeps s0 (startReset cause s) := by
  unfold startReset
  repeat' first
    | with_reducible assumption | with_reducible apply State.modPrime_keeps | with_reducible apply pullLine_keeps
    | with_reducible apply startDrain_keeps | with_reducible apply beginPriming_keeps | with_reducible apply Keeps.ite

theorem heldResets_keeps {s0 s : State} (h : Keeps s0 s) : Keeps s0 (heldResets s) := by
  unfold heldResets
  repeat' first
    | with_reducible assumption | with_reducible apply startReset_keeps | with_reducible apply State.modPrime_keeps
    | with_reducible apply Keeps.ite | split

theorem lcFuse_keeps {s0 s : State} (cmd : Nat) (target : LcState) (h : Keeps s0 s) : Keeps s0 (lcFuse cmd target
    s) := by
  unfold lcFuse
  repeat' first
    | with_reducible assumption | with_reducible intro _ | with_reducible refine forEach_keeps _ ?_ ?_
    | with_reducible apply setPast_keeps | with_reducible apply State.modTest_keeps | with_reducible apply raise_keeps
    | with_reducible apply eraseKeys_keeps | with_reducible apply State.modPrime_keeps
    | with_reducible apply finish_keeps | with_reducible apply Keeps.ite | with_reducible apply KeepsO.ite
    | with_reducible apply KeepsO.some | with_reducible apply KeepsO.none | with_reducible apply Keeps.fst_ite
    | with_reducible apply Keeps.snd_ite | with_reducible refine Keeps.ofEq (by assumption) ?_
    | with_reducible refine Keeps.ofEq2 (by assumption) ?_ | with_reducible refine KeepsO.get (by assumption) ?_
    | with_reducible refine KeepsO.getD ?_ ?_ | exact Nat.le_refl _ | exact Nat.le_max_left _ _

theorem endDrain_keeps {s0 s : State} (d : Drain) (h : Keeps s0 s) : Keeps s0 (endDrain d s) := by
  unfold endDrain
  repeat' first
    | with_reducible assumption | with_reducible intro _ | with_reducible apply sealDrain_keeps
    | with_reducible apply powerLogF_keeps | with_reducible apply State.modPrime_keeps
    | with_reducible apply releaseLine_keeps | with_reducible apply soloDown_keeps
    | with_reducible apply State.modPower_keeps | with_reducible apply goDown_keeps
    | with_reducible apply lcFuse_keeps | with_reducible apply beginPriming_keeps | with_reducible apply Keeps.ite
    | exact Nat.le_refl _ | dsimp only | split

theorem sealOnce_keeps {s0 s : State} (d : Drain) (h : Keeps s0 s) : Keeps s0 (sealOnce d s) := by
  unfold sealOnce
  repeat' first
    | with_reducible assumption | with_reducible intro _ | with_reducible refine forEach_keeps _ ?_ ?_
    | with_reducible apply sealDrain_keeps | with_reducible apply State.modPrime_keeps
    | with_reducible apply Keeps.ite

theorem drainComplete_keeps {s0 s : State} (h : Keeps s0 s) : Keeps s0 (drainComplete s) := by
  unfold drainComplete
  repeat' first
    | with_reducible assumption | with_reducible intro _ | with_reducible refine forEach_keeps _ ?_ ?_
    | with_reducible apply sealOnce_keeps | with_reducible apply endDrain_keeps | with_reducible apply Keeps.ite
    | with_reducible apply KeepsO.ite | with_reducible apply KeepsO.some | with_reducible apply KeepsO.none
    | with_reducible apply Keeps.fst_ite | with_reducible apply Keeps.snd_ite
    | with_reducible refine Keeps.ofEq (by assumption) ?_ | with_reducible refine Keeps.ofEq2 (by assumption) ?_
    | with_reducible refine KeepsO.get (by assumption) ?_ | with_reducible refine KeepsO.getD ?_ ?_
    | exact Nat.le_refl _ | exact Nat.le_max_left _ _ | dsimp only | split

theorem powerRole_keeps {s0 s : State} (h : Keeps s0 s) : Keeps s0 (powerRole s) := by
  unfold powerRole
  repeat' first
    | with_reducible assumption | with_reducible apply enterFenced_keeps | with_reducible apply sendRelinquish_keeps
    | with_reducible apply Keeps.ite | split

theorem powerFailure_keeps {s0 s : State} (rail : Nat) (cause : Nat) (h : Keeps s0 s) : Keeps s0 (powerFailure rail
    cause s) := by
  unfold powerFailure
  repeat' first
    | with_reducible assumption | with_reducible intro _ | with_reducible refine forEach_keeps _ ?_ ?_
    | with_reducible apply raiseWith_keeps | with_reducible apply State.modPower_keeps
    | with_reducible apply firstFailure_keeps | with_reducible apply finishAll_keeps
    | with_reducible apply powerRole_keeps | with_reducible apply State.modPrime_keeps
    | with_reducible apply pullLine_keeps | with_reducible apply startDrain_keeps
    | with_reducible apply soloDown_keeps | with_reducible apply goDown_keeps
    | with_reducible apply State.modTest_keeps | with_reducible apply Keeps.ite | with_reducible apply KeepsO.ite
    | with_reducible apply KeepsO.some | with_reducible apply KeepsO.none | with_reducible apply Keeps.fst_ite
    | with_reducible apply Keeps.snd_ite | with_reducible refine Keeps.ofEq (by assumption) ?_
    | with_reducible refine Keeps.ofEq2 (by assumption) ?_ | with_reducible refine KeepsO.get (by assumption) ?_
    | with_reducible refine KeepsO.getD ?_ ?_ | exact Nat.le_refl _ | exact List.length_map _
    | exact Nat.le_max_left _ _ | dsimp only | split

theorem offRequest_keeps {s0 s : State} (h : Keeps s0 s) : Keeps s0 (offRequest s) := by
  unfold offRequest
  repeat' first
    | with_reducible assumption | with_reducible intro _ | with_reducible apply State.modPower_keeps
    | with_reducible apply pullLine_keeps | with_reducible apply startDrain_keeps
    | with_reducible apply State.modPrime_keeps | with_reducible apply soloDown_keeps
    | with_reducible apply goDown_keeps | with_reducible apply Keeps.ite

theorem coldStart_keeps {s0 s : State} (h : Keeps s0 s) : Keeps s0 (coldStart s) := by
  unfold coldStart
  repeat' first
    | with_reducible assumption | with_reducible apply beginPriming_keeps | with_reducible apply State.modPower_keeps

theorem onRequest_keeps {s0 s : State} (h : Keeps s0 s) : Keeps s0 (onRequest s) := by
  unfold onRequest
  repeat' first
    | with_reducible assumption | with_reducible apply State.modPower_keeps | with_reducible apply coldStart_keeps
    | with_reducible apply Keeps.ite

theorem erasePalette_keeps {s0 s : State} (p : KeyTag → Bool) (h : Keeps s0 s) : Keeps s0 (erasePalette p s) := by
  unfold erasePalette
  repeat' first
    | with_reducible assumption | with_reducible apply State.modCipher_keeps | split | rfl

theorem connClosed_keeps {s0 s : State} (c : Nat) (h : Keeps s0 s) : Keeps s0 (connClosed c s) := by
  unfold connClosed
  repeat' first
    | with_reducible assumption | with_reducible intro _ | with_reducible refine forEach_keeps _ ?_ ?_
    | with_reducible apply dropMsg_keeps | with_reducible apply erasePalette_keeps
    | with_reducible apply setReserve_keeps | with_reducible apply State.modXport_keeps
    | with_reducible apply schedRelease_keeps | with_reducible apply State.modSched_keeps
    | with_reducible apply finishAll_keeps | with_reducible apply State.modConn_keeps

theorem closeCheck_keeps {s0 s : State} (c : Nat) (h : Keeps s0 s) : Keeps s0 (closeCheck c s) := by
  unfold closeCheck
  repeat' first
    | with_reducible assumption | with_reducible apply connClosed_keeps | with_reducible apply Keeps.ite

theorem closeAll_keeps {s0 s : State} (h : Keeps s0 s) : Keeps s0 (closeAll s) := by
  unfold closeAll
  repeat' first
    | with_reducible assumption | with_reducible intro _ | with_reducible refine forEach_keeps _ ?_ ?_
    | with_reducible apply closeCheck_keeps

theorem answerCxl_keeps {s0 s : State} (g : Gather) (tag : Nat) (h : Keeps s0 s) : Keeps s0 (answerCxl g tag s) := by
  unfold answerCxl
  repeat' first
    | with_reducible assumption | with_reducible apply endGather_keeps | with_reducible apply cxlReadRefused_keeps
    | with_reducible apply State.modHost_keeps | with_reducible apply State.send_keeps
    | with_reducible apply Keeps.ite | split | rfl

theorem answerMem_keeps {s0 s : State} (g : Gather) (cmd : Nat) (h : Keeps s0 s) : Keeps s0 (answerMem g cmd s) := by
  unfold answerMem
  repeat' first
    | with_reducible assumption | with_reducible apply endGather_keeps | with_reducible apply finish_keeps | split

theorem localGather_keeps {s0 s : State} (g : Gather) (h : Keeps s0 s) : Keeps s0 (localGather g s) := by
  unfold localGather
  repeat' first
    | with_reducible assumption | with_reducible apply gatherRun_keeps | with_reducible apply answerCxl_keeps
    | with_reducible apply answerMem_keeps | with_reducible apply Keeps.ite | split

theorem localGathers_keeps {s0 s : State} (h : Keeps s0 s) : Keeps s0 (localGathers s) := by
  unfold localGathers
  repeat' first
    | with_reducible assumption | with_reducible intro _ | with_reducible refine forEach_keeps _ ?_ ?_
    | with_reducible apply localGather_keeps

theorem ctlAcks_keeps {s0 s : State} (h : Keeps s0 s) : Keeps s0 (ctlAcks s) := by
  unfold ctlAcks
  repeat' first
    | with_reducible assumption | with_reducible intro _ | with_reducible refine forEach_keeps _ ?_ ?_
    | with_reducible apply finishWith_keeps | exact Nat.le_refl _ | dsimp only | split

theorem emptyHostMbx_keeps {s0 s : State} (h : Keeps s0 s) : Keeps s0 (emptyHostMbx s) := by
  unfold emptyHostMbx
  repeat' first
    | with_reducible assumption | with_reducible intro _ | with_reducible refine forEach_keeps _ ?_ ?_
    | with_reducible apply mbxRelease_keeps

theorem hostTrainNow_keeps {s0 s : State} (h : Keeps s0 s) : Keeps s0 (hostTrainNow s) := by
  unfold hostTrainNow
  repeat' first
    | with_reducible assumption | with_reducible apply State.send_keeps | with_reducible apply Keeps.ite

theorem hostPortReset_keeps {s0 s : State} (h : Keeps s0 s) : Keeps s0 (hostPortReset s) := by
  unfold hostPortReset
  repeat' first
    | with_reducible assumption | with_reducible intro _ | with_reducible refine forEach_keeps _ ?_ ?_
    | with_reducible apply State.modHost_keeps | with_reducible apply State.modDura_keeps
    | with_reducible apply State.modXport_keeps | with_reducible apply emptyHostMbx_keeps
    | with_reducible apply State.modEv_keeps | with_reducible apply hostTrainNow_keeps
    | with_reducible apply State.modSump_keeps | with_reducible apply Keeps.ite | with_reducible apply KeepsO.ite
    | with_reducible apply KeepsO.some | with_reducible apply KeepsO.none | with_reducible apply Keeps.fst_ite
    | with_reducible apply Keeps.snd_ite | with_reducible refine Keeps.ofEq (by assumption) ?_
    | with_reducible refine Keeps.ofEq2 (by assumption) ?_ | with_reducible refine KeepsO.get (by assumption) ?_
    | with_reducible refine KeepsO.getD ?_ ?_ | exact Nat.le_refl _ | exact List.length_map _
    | exact Nat.le_max_left _ _ | dsimp only | split | rfl | decide | trivial

theorem hostDrainCheck_keeps {s0 s : State} (h : Keeps s0 s) : Keeps s0 (hostDrainCheck s) := by
  unfold hostDrainCheck
  repeat' first
    | with_reducible assumption | with_reducible apply hostPortReset_keeps | with_reducible apply Keeps.ite | split

theorem swapCheck_keeps {s0 s : State} (h : Keeps s0 s) : Keeps s0 (swapCheck s) := by
  unfold swapCheck
  repeat' first
    | with_reducible assumption | with_reducible apply setPast_keeps | with_reducible apply State.modTwin_keeps
    | with_reducible apply sendRelinquish_keeps | with_reducible apply Keeps.ite | split

theorem resyncCheck_keeps {s0 s : State} (h : Keeps s0 s) : Keeps s0 (resyncCheck s) := by
  unfold resyncCheck
  repeat' first
    | with_reducible assumption | with_reducible apply State.modTwin_keeps | with_reducible apply enterActive_keeps
    | with_reducible apply ctlAll_keeps | with_reducible apply Keeps.ite

theorem wakeAcks_keeps {s0 s : State} (h : Keeps s0 s) : Keeps s0 (wakeAcks s) := by
  unfold wakeAcks
  repeat' first
    | with_reducible assumption | with_reducible intro _ | with_reducible refine forEach_keeps _ ?_ ?_
    | with_reducible apply wakeFinish_keeps | with_reducible apply wakeReplayed_keeps

theorem memActive_keeps {s0 s : State} (h : Keeps s0 s) : Keeps s0 (memActive s) := by
  unfold memActive
  repeat' first
    | with_reducible assumption | with_reducible apply State.modHost_keeps | split | rfl

theorem stopCheck_keeps {s0 s : State} (h : Keeps s0 s) : Keeps s0 (stopCheck s) := by
  unfold stopCheck
  repeat' first
    | with_reducible assumption | with_reducible intro _ | with_reducible refine forEach_keeps _ ?_ ?_
    | with_reducible apply State.modSump_keeps

theorem creditDue_keeps {s0 s : State} (h : Keeps s0 s) : Keeps s0 (creditDue s) := by
  unfold creditDue
  repeat' first
    | with_reducible assumption | with_reducible intro _ | with_reducible refine forEach_keeps _ ?_ ?_
    | with_reducible apply sendAck_keeps | with_reducible apply renewCredit_keeps | with_reducible apply Keeps.ite

theorem twinCreditDue_keeps {s0 s : State} (h : Keeps s0 s) : Keeps s0 (twinCreditDue s) := by
  unfold twinCreditDue
  repeat' first
    | with_reducible assumption | with_reducible intro _ | with_reducible refine forEach_keeps _ ?_ ?_
    | with_reducible apply sendApplyAck_keeps | with_reducible apply Keeps.ite

theorem memCreditDue_keeps {s0 s : State} (h : Keeps s0 s) : Keeps s0 (memCreditDue s) := by
  unfold memCreditDue
  repeat' first
    | with_reducible assumption | with_reducible intro _ | with_reducible refine forEach_keeps _ ?_ ?_
    | with_reducible apply State.modSump_keeps | with_reducible apply State.send_keeps
    | with_reducible apply Keeps.ite

theorem spillCheck_keeps {s0 s : State} (h : Keeps s0 s) : Keeps s0 (spillCheck s) := by
  unfold spillCheck
  repeat' first
    | with_reducible assumption | with_reducible apply State.modSump_keeps | with_reducible apply Keeps.ite

theorem chanCmds_keeps {s0 s : State} (h : Keeps s0 s) : Keeps s0 (chanCmds s) := by
  unfold chanCmds
  repeat' first
    | with_reducible assumption | with_reducible intro _ | with_reducible refine forEach_keeps _ ?_ ?_
    | with_reducible apply finish_keeps | exact Nat.le_refl _ | dsimp only | split

theorem scrubWakeEnd_keeps {s0 s : State} (d : Nat) (h : Keeps s0 s) : Keeps s0 (scrubWakeEnd d s) := by
  unfold scrubWakeEnd
  repeat' first
    | with_reducible assumption | with_reducible apply State.modDrw_keeps | with_reducible apply beginPark_keeps
    | with_reducible apply Keeps.ite

theorem passEnd_keeps {s0 s : State} (g : Nat) (h : Keeps s0 s) : Keeps s0 (passEnd g s) := by
  unfold passEnd
  repeat' first
    | with_reducible assumption | with_reducible intro _ | with_reducible refine forEach_keeps _ ?_ ?_
    | with_reducible apply State.modGrp_keeps | with_reducible apply scrubWakeEnd_keeps
    | with_reducible apply State.modDrw_keeps | with_reducible apply finishUnit_keeps | with_reducible apply Keeps.ite
    | with_reducible apply KeepsO.ite | with_reducible apply KeepsO.some | with_reducible apply KeepsO.none
    | with_reducible apply Keeps.fst_ite | with_reducible apply Keeps.snd_ite | refine Keeps.ofEq (by assumption) ?_
    | refine Keeps.ofEq2 (by assumption) ?_ | refine KeepsO.get (by assumption) ?_ | refine KeepsO.getD ?_ ?_
    | exact Nat.le_refl _ | exact Nat.le_max_left _ _ | dsimp only | split

theorem passEnds_keeps {s0 s : State} (h : Keeps s0 s) : Keeps s0 (passEnds s) := by
  unfold passEnds
  repeat' first
    | with_reducible assumption | with_reducible intro _ | with_reducible refine forEach_keeps _ ?_ ?_
    | with_reducible apply passEnd_keeps

theorem sealedDrain_keeps {s0 s : State} (h : Keeps s0 s) : Keeps s0 (sealedDrain s) := by
  unfold sealedDrain
  repeat' first
    | with_reducible assumption | with_reducible intro _ | with_reducible refine forEach_keeps _ ?_ ?_
    | with_reducible apply endDrain_keeps | with_reducible apply Keeps.ite | with_reducible apply KeepsO.ite
    | with_reducible apply KeepsO.some | with_reducible apply KeepsO.none | with_reducible apply Keeps.fst_ite
    | with_reducible apply Keeps.snd_ite | refine Keeps.ofEq (by assumption) ?_
    | refine Keeps.ofEq2 (by assumption) ?_ | refine KeepsO.get (by assumption) ?_ | refine KeepsO.getD ?_ ?_
    | exact Nat.le_refl _ | exact Nat.le_max_left _ _ | dsimp only | split

theorem sendWaiting_keeps {s0 s : State} (h : Keeps s0 s) : Keeps s0 (sendWaiting s) := by
  unfold sendWaiting
  repeat' first
    | with_reducible assumption | with_reducible intro _ | with_reducible refine forEach_keeps _ ?_ ?_
    | with_reducible apply pumpTx_keeps

theorem settlePass_keeps {s0 s : State} (h : Keeps s0 s) : Keeps s0 (settlePass s) := by
  unfold settlePass
  repeat' first
    | with_reducible assumption | with_reducible intro _ | with_reducible refine forEach_keeps _ ?_ ?_
    | with_reducible apply localGathers_keeps | with_reducible apply runEngines_keeps
    | with_reducible apply varnishAll_keeps | with_reducible apply advanceAll_keeps
    | with_reducible apply flushCheck_keeps | with_reducible apply releaseHeld_keeps
    | with_reducible apply lagAcked_keeps | with_reducible apply ctlAcks_keeps
    | with_reducible apply budgetCheck_keeps | with_reducible apply pinCheckAll_keeps
    | with_reducible apply parkAdvanceAll_keeps | with_reducible apply wakeAcks_keeps
    | with_reducible apply chanCmds_keeps | with_reducible apply spillCheck_keeps
    | with_reducible apply schedStageAll_keeps | with_reducible apply closeAll_keeps
    | with_reducible apply sealedDrain_keeps | with_reducible apply passEnds_keeps
    | with_reducible apply memCreditDue_keeps | with_reducible apply twinCreditDue_keeps
    | with_reducible apply creditDue_keeps | with_reducible apply stopCheck_keeps
    | with_reducible apply sendWaiting_keeps | with_reducible apply memActive_keeps
    | with_reducible apply resyncCheck_keeps | with_reducible apply swapCheck_keeps
    | with_reducible apply heldResets_keeps | with_reducible apply hostDrainCheck_keeps

theorem orderCheck_keeps {s0 s : State} (h : Keeps s0 s) : Keeps s0 (orderCheck s) := by
  unfold orderCheck
  repeat' first
    | with_reducible assumption | with_reducible apply State.modSump_keeps

theorem settle_keeps {s0 s : State} (h : Keeps s0 s) : Keeps s0 (settle s) := by
  unfold settle
  repeat' first
    | with_reducible assumption | with_reducible apply orderCheck_keeps | with_reducible apply settlePass_keeps

end Sys2Proof.Machine
end

