-- ==== Sys2Proof/Laws/KeepsPackets.lean ====
section
/-! SUPPORT. `Keeps` through the operations of packets, mailbox entries and media responses. -/

namespace Sys2Proof.Machine

open Sys2Proof











theorem renewLease_keeps {s0 s : State} (m : Nat) (h : Keeps s0 s) : Keeps s0 (renewLease m s) := by
  unfold renewLease
  repeat' first
    | with_reducible assumption | with_reducible apply State.modMbx_keeps

theorem noOwner_keeps {s0 s : State} (m : Nat) (h : Keeps s0 s) : Keeps s0 (noOwner m s) := by
  unfold noOwner
  repeat' first
    | with_reducible assumption | with_reducible apply State.modMbx_keeps

theorem mctpControl_keeps {s0 s : State} (f : State → State × Bytes) (h_f : ∀ t, Keeps s0 t → Keeps s0 (f t).1)
    (h : Keeps s0 s) :
    KeepsR s0 (mctpControl f s) := by
  unfold mctpControl
  repeat' first
    | with_reducible assumption | with_reducible apply h_f | with_reducible apply State.send_keeps
    | with_reducible apply KeepsR.next | with_reducible apply KeepsR.ite | with_reducible apply Keeps.ite

theorem notePath_keeps {s0 s : State} (p : Pkt) (h : Keeps s0 s) : Keeps s0 (notePath p s) := by
  unfold notePath
  repeat' first
    | with_reducible assumption | with_reducible apply State.modConn_keeps | with_reducible apply State.modNport_keeps
    | with_reducible apply Keeps.ite

theorem switchKey_keeps {s0 s : State} (c : Nat) (gen : Nat) (h : Keeps s0 s) : Keeps s0 (switchKey c gen s) := by
  unfold switchKey
  repeat' first
    | with_reducible assumption | with_reducible apply logXport_keeps | with_reducible apply State.modConn_keeps
    | with_reducible apply Keeps.ite

theorem dropFrame_keeps {s0 s : State} (p : Pkt) (h : Keeps s0 s) : Keeps s0 (dropFrame p s) := by
  unfold dropFrame
  repeat' first
    | with_reducible assumption | with_reducible apply State.modNport_keeps

theorem dropAuth_keeps {s0 s : State} (p : Pkt) (sub : Nat) (h : Keeps s0 s) : Keeps s0 (dropAuth p sub s) := by
  unfold dropAuth
  repeat' first
    | with_reducible assumption | with_reducible apply State.modNport_keeps | with_reducible apply raiseWith_keeps
    | with_reducible apply sendNak_keeps | with_reducible apply Keeps.ite

theorem plainNak_keeps {s0 s : State} (p : Pkt) (code : Nat) (sub : Nat) (detail : BitVec 32) (h : Keeps s0 s) :
    Keeps s0 (plainNak p code sub detail s) := by
  unfold plainNak
  repeat' first
    | with_reducible assumption | with_reducible apply sendNak_keeps

theorem rxChecks_keeps {s0 s : State} (p : Pkt) (ctl : Bool) (hdr : Bool) (auth : Bool) (wit : Bool) (both : Bool)
    (h : Keeps s0 s) : Keeps s0 (rxChecks p ctl hdr auth wit both s).1 := by
  unfold rxChecks
  repeat' first
    | with_reducible assumption | with_reducible intro _ | with_reducible refine forEach_keeps _ ?_ ?_
    | with_reducible apply dropFrame_keeps | with_reducible apply dropAuth_keeps | with_reducible apply gcmJob_keeps
    | with_reducible apply notePath_keeps | with_reducible apply plainNak_keeps
    | with_reducible apply State.modConn_keeps | with_reducible apply notices_keeps
    | with_reducible apply switchKey_keeps | with_reducible apply Keeps.ite | with_reducible apply KeepsO.ite
    | with_reducible apply KeepsO.some | with_reducible apply KeepsO.none | with_reducible apply Keeps.fst_ite
    | with_reducible apply Keeps.snd_ite | with_reducible refine Keeps.ofEq (by assumption) ?_
    | with_reducible refine Keeps.ofEq2 (by assumption) ?_ | with_reducible refine KeepsO.get (by assumption) ?_
    | with_reducible refine KeepsO.getD ?_ ?_ | exact Nat.le_refl _ | exact List.length_map _
    | exact Nat.le_max_left _ _ | dsimp only | split

theorem mayResend_keeps {s0 s : State} (c : Nat) (id : MsgId) (h : Keeps s0 s) : Keeps s0 (mayResend c id s).2 := by
  unfold mayResend
  repeat' first
    | with_reducible assumption | with_reducible apply State.modConn_keeps | with_reducible apply Keeps.snd_ite

theorem resendAnswer_keeps {s0 s : State} (p : Pkt) (op : Option NetOp) (h : Keeps s0 s) : Keeps s0 (resendAnswer p op s) := by
  have hs := plainNak_keeps p 5 4 0 h
  unfold resendAnswer
  dsimp only
  split
  · exact sendNak_keeps _ _ _ h
  · split
    · exact h
    split
    all_goals try split
    all_goals first
      | exact h
      | exact hs
      | exact sendAck_keeps _ _ _ h
      | exact sendAtomicAnswer_keeps _ _ h
      | (split <;> first | exact sendFlushAnswer_keeps _ _ _ h | exact sendAck_keeps _ _ _ h | exact hs)

theorem answerSettled_keeps {s0 s : State} (p : Pkt) (op : Option NetOp) (h : Keeps s0 s) :
    Keeps s0 (answerSettled p op s) := by
  unfold answerSettled
  repeat' first
    | with_reducible assumption | with_reducible apply sendAck_keeps | with_reducible apply mayResend_keeps
    | with_reducible apply resendAnswer_keeps | with_reducible apply Keeps.ite

theorem seqChecks_keeps {s0 s : State} (p : Pkt) (op : Option NetOp) (h : Keeps s0 s) : Keeps s0 (seqChecks p op s).1 := by
  unfold seqChecks
  repeat' first
    | with_reducible assumption | with_reducible apply answerSettled_keeps | with_reducible apply Keeps.fst_ite

theorem ctlCheck_keeps {s0 s : State} (p : Pkt) (h : Keeps s0 s) : Keeps s0 (ctlCheck p s).1 := by
  unfold ctlCheck
  repeat' first
    | with_reducible assumption | with_reducible apply State.modConn_keeps | with_reducible apply Keeps.fst_ite

theorem settlePkt_keeps {s0 s : State} (p : Pkt) (h : Keeps s0 s) : Keeps s0 (settlePkt p s) := by
  unfold settlePkt
  repeat' first
    | with_reducible assumption | with_reducible apply State.modConn_keeps | with_reducible apply consumeUnit_keeps

theorem ackDue_keeps {s0 s : State} (c : Nat) (outOfOrder : Bool) (h : Keeps s0 s) : Keeps s0 (ackDue c outOfOrder s) := by
  unfold ackDue
  repeat' first
    | with_reducible assumption | with_reducible apply sendAck_keeps | with_reducible apply Keeps.ite

theorem xportChanged_keeps {s0 s : State} (c : Nat) (h : Keeps s0 s) : Keeps s0 (xportChanged c s) := by
  unfold xportChanged
  repeat' first
    | with_reducible assumption | with_reducible apply logXport_keeps | with_reducible apply Keeps.ite | split

theorem takeRefs_keeps {s0 s : State} (g : Nat) (span : List Nat) (h : Keeps s0 s) : Keeps s0 (takeRefs g span s) := by
  unfold takeRefs
  repeat' first
    | with_reducible assumption | with_reducible intro _ | with_reducible refine forEach_keeps _ ?_ ?_
    | with_reducible apply State.modGrant_keeps | with_reducible apply State.modDrw_keeps

theorem refuseMsg_keeps {s0 s : State} (p : Pkt) (r : Refuse) (h : Keeps s0 s) : Keeps s0 (refuseMsg p r s) := by
  unfold refuseMsg
  repeat' first
    | with_reducible assumption | with_reducible apply settlePkt_keeps | with_reducible apply dropAndRelease_keeps
    | with_reducible apply nakDrop_keeps

theorem placePacket_keeps {s0 s : State} (p : Pkt) (admission : Bool) (data : Bytes) (h : Keeps s0 s) :
    Keeps s0 (placePacket p admission data s) := by
  have hp (c d : Prop) [Decidable c] [Decidable d] (r : Option State) (hr : KeepsO s0 r) :
      KeepsO s0 (if c then some s else if d then r else none) :=
    KeepsO.ite (KeepsO.some h) (KeepsO.ite hr KeepsO.none)
  unfold placePacket
  dsimp only
  split
  · exact h
  · split
    · exact h
    · rename_i t e
      have ht : Keeps s0 t := hp _ _ _ (placePending_keeps _ _ _ _ _ h) t e
      refine settlePkt_keeps p (advanceConn_keeps _ ?_)
      exact Keeps.ite (chain_keeps _ _ _ (State.modConn_keeps _ _ (logEntry_keeps _ (State.modConn_keeps _ _ ht))))
        (State.modConn_keeps _ _ (logEntry_keeps _ (State.modConn_keeps _ _ ht)))

theorem laterPacket_keeps {s0 s : State} (p : Pkt) (op : NetOp) (m : Msg) (data : Bytes) (h : Keeps s0 s) :
    Keeps s0 (laterPacket p op m data s) := by
  unfold laterPacket
  repeat' first
    | with_reducible assumption | with_reducible apply refuseMsg_keeps | with_reducible apply placePacket_keeps
    | refine KeepsO.get (by assumption) ?_ | with_reducible apply Keeps.ite | split

theorem firstPacket_keeps {s0 s : State} (p : Pkt) (op : NetOp) (data : Bytes) (rlen : Nat) (h : Keeps s0 s) :
    Keeps s0 (firstPacket p op data rlen s) := by
  unfold firstPacket
  repeat' first
    | with_reducible assumption | with_reducible intro _ | with_reducible apply refuseMsg_keeps
    | with_reducible apply wakeSpan_keeps | with_reducible apply settlePkt_keeps
    | with_reducible apply advanceConn_keeps | with_reducible apply State.modConn_keeps
    | with_reducible apply takeRefs_keeps | with_reducible apply placePacket_keeps
    | refine KeepsO.get (by assumption) ?_ | with_reducible apply Keeps.ite | exact Nat.le_refl _ | dsimp only | split

theorem stalePacket_keeps {s0 s : State} (p : Pkt) (op : NetOp) (h : Keeps s0 s) : Keeps s0 (stalePacket p op s) := by
  unfold stalePacket
  repeat' first
    | with_reducible assumption | with_reducible intro _ | with_reducible apply settlePkt_keeps
    | with_reducible apply sendNak_keeps | with_reducible apply resendAnswer_keeps | exact Nat.le_refl _ | dsimp only
    | split

theorem hostPacket_keeps {s0 s : State} (p : Pkt) (op : NetOp) (data : Bytes) (rlen : Nat) (h : Keeps s0 s) :
    Keeps s0 (hostPacket p op data rlen s) := by
  unfold hostPacket
  repeat' first
    | with_reducible assumption | with_reducible apply stalePacket_keeps | with_reducible apply refuseMsg_keeps
    | with_reducible apply laterPacket_keeps | with_reducible apply settlePkt_keeps
    | with_reducible apply firstPacket_keeps | with_reducible apply Keeps.ite | split

theorem noteArrival_keeps {s0 s : State} (p : Pkt) (h : Keeps s0 s) : Keeps s0 (noteArrival p s) := by
  unfold noteArrival
  repeat' first
    | with_reducible assumption | with_reducible intro _ | with_reducible refine forEach_keeps _ ?_ ?_
    | with_reducible apply State.modConn_keeps

theorem rxHost_keeps {s0 s : State} (p : Pkt) (op : NetOp) (hdr : Bool) (auth : Bool) (body : Bool) (data : Bytes)
    (rlen : Nat) (h : Keeps s0 s) : Keeps s0 (rxHost p op hdr auth body data rlen s) := by
  unfold rxHost
  repeat' first
    | with_reducible assumption | with_reducible intro _ | with_reducible refine forEach_keeps _ ?_ ?_
    | with_reducible apply rxChecks_keeps | with_reducible apply dropFrame_keeps
    | with_reducible apply seqChecks_keeps | with_reducible apply settle_keeps
    | with_reducible apply xportChanged_keeps | with_reducible apply ackDue_keeps
    | with_reducible apply noteArrival_keeps | with_reducible apply hostPacket_keeps | with_reducible apply Keeps.ite

theorem creditSeen_keeps {s0 s : State} (c : Nat) (b : AckBody) (h : Keeps s0 s) : Keeps s0 (creditSeen c b s) := by
  unfold creditSeen
  repeat' first
    | with_reducible assumption | with_reducible intro _ | with_reducible apply setReserve_keeps
    | with_reducible apply State.modConn_keeps | with_reducible apply Keeps.ite | exact Nat.le_refl _ | dsimp only
    | split

theorem ackBody_keeps {s0 s : State} (p : Pkt) (b : AckBody) (h : Keeps s0 s) : Keeps s0 (ackBody p b s) := by
  unfold ackBody
  repeat' first
    | with_reducible assumption | with_reducible apply State.modConn_keeps | with_reducible apply creditSeen_keeps
    | with_reducible apply pumpTx_keeps | with_reducible apply Keeps.ite

theorem rxControl_keeps {s0 s : State} (p : Pkt) (n : Nat) (auth body : Bool) {act : State → State}
    (ha : ∀ {t : State}, Keeps s0 t → Keeps s0 (act t)) (h : Keeps s0 s) : Keeps s0 (rxControl p n auth body act s) := by
  unfold rxControl
  repeat' first
    | with_reducible assumption | with_reducible apply ha | with_reducible apply rxChecks_keeps
    | with_reducible apply dropFrame_keeps | with_reducible apply ctlCheck_keeps | with_reducible apply settle_keeps
    | with_reducible apply xportChanged_keeps | with_reducible apply Keeps.ite

theorem dropEvent_keeps {s0 s : State} (p : Nat) (h : Keeps s0 s) : Keeps s0 (dropEvent p s) := by
  unfold dropEvent
  repeat' first
    | with_reducible assumption | with_reducible apply portEvent_keeps

theorem retransmit_keeps {s0 s : State} (c : Nat) (t : TxPkt) (h : Keeps s0 s) : Keeps s0 (retransmit c t s) := by
  unfold retransmit
  repeat' first
    | with_reducible assumption | with_reducible intro _ | with_reducible refine forEach_keeps _ ?_ ?_
    | with_reducible apply State.modConn_keeps | with_reducible apply State.modNport_keeps
    | with_reducible apply sendNet_keeps | with_reducible apply Keeps.ite | with_reducible apply KeepsO.ite
    | with_reducible apply KeepsO.some | with_reducible apply KeepsO.none | with_reducible apply Keeps.fst_ite
    | with_reducible apply Keeps.snd_ite | with_reducible refine Keeps.ofEq (by assumption) ?_
    | with_reducible refine Keeps.ofEq2 (by assumption) ?_ | with_reducible refine KeepsO.get (by assumption) ?_
    | with_reducible refine KeepsO.getD ?_ ?_ | exact Nat.le_refl _ | exact List.length_map _
    | exact Nat.le_max_left _ _ | dsimp only | split

theorem sendNotice_keeps {s0 s : State} (c : Nat) (h : Keeps s0 s) : Keeps s0 (sendNotice c s) := by
  unfold sendNotice
  repeat' first
    | with_reducible assumption | with_reducible apply sendCtl_keeps

theorem freeGrant_keeps {s0 s : State} (g : Nat) (h : Keeps s0 s) : Keeps s0 (freeGrant g s) := by
  unfold freeGrant
  repeat' first
    | with_reducible assumption | with_reducible apply State.modGrant_keeps

theorem revocationDrop_keeps {s0 s : State} (g : Nat) (h : Keeps s0 s) : Keeps s0 (revocationDrop g s) := by
  unfold revocationDrop
  repeat' first
    | with_reducible assumption | with_reducible intro _ | with_reducible refine forEach_keeps _ ?_ ?_
    | with_reducible apply dropAndRelease_keeps | with_reducible apply nakDrop_keeps

theorem announceSub_keeps {s0 s : State} (p : Nat) (q : Nat) (h : Keeps s0 s) : Keeps s0 (announceSub p q s) := by
  unfold announceSub
  repeat' first
    | with_reducible assumption | with_reducible apply State.send_keeps | with_reducible apply Keeps.ite

theorem announceAll_keeps {s0 s : State} (h : Keeps s0 s) : Keeps s0 (announceAll s) := by
  unfold announceAll
  repeat' first
    | with_reducible assumption | with_reducible intro _ | with_reducible refine forEach_keeps _ ?_ ?_
    | with_reducible apply announceSub_keeps

theorem pendingCtl_keeps {s0 s : State} (port : Nat) (h : Keeps s0 s) : Keeps s0 (pendingCtl port s) := by
  unfold pendingCtl
  repeat' first
    | with_reducible assumption | with_reducible intro _ | with_reducible refine forEach_keeps _ ?_ ?_
    | with_reducible apply sendAck_keeps | with_reducible apply State.modNport_keeps

theorem linkLost_keeps {s0 s : State} (c : Nat) (h : Keeps s0 s) : Keeps s0 (linkLost c s) := by
  unfold linkLost
  repeat' first
    | with_reducible assumption | with_reducible intro _ | with_reducible refine forEach_keeps _ ?_ ?_
    | with_reducible apply loseCommands_keeps | with_reducible apply raiseWith_keeps
    | with_reducible apply moduleFailed_keeps | with_reducible apply Keeps.ite

theorem afterLink_keeps {s0 s : State} (c : Nat) (h : Keeps s0 s) : Keeps s0 (afterLink c s) := by
  unfold afterLink
  repeat' first
    | with_reducible assumption | with_reducible apply settle_keeps | with_reducible apply wakeCheck_keeps
    | with_reducible apply runEngines_keeps | with_reducible apply pumpChan_keeps

theorem confirmFlit_keeps {s0 s : State} (c : Nat) (f : Bytes) (h : Keeps s0 s) : Keeps s0 (confirmFlit c f s) := by
  unfold confirmFlit
  repeat' first
    | with_reducible assumption | with_reducible apply State.modChan_keeps | with_reducible apply Keeps.ite

theorem anyFlit_keeps {s0 s : State} (c : Nat) (b : Bytes) (h : Keeps s0 s) : Keeps s0 (anyFlit c b s) := by
  unfold anyFlit
  repeat' first
    | with_reducible assumption | with_reducible intro _ | with_reducible refine forEach_keeps _ ?_ ?_
    | with_reducible apply State.modChan_keeps | with_reducible apply flitRx_keeps
    | with_reducible apply confirmFlit_keeps | with_reducible apply Keeps.ite | with_reducible apply KeepsO.ite
    | with_reducible apply KeepsO.some | with_reducible apply KeepsO.none | with_reducible apply Keeps.fst_ite
    | with_reducible apply Keeps.snd_ite | with_reducible refine Keeps.ofEq (by assumption) ?_
    | with_reducible refine Keeps.ofEq2 (by assumption) ?_ | with_reducible refine KeepsO.get (by assumption) ?_
    | with_reducible refine KeepsO.getD ?_ ?_ | exact Nat.le_refl _ | exact List.length_map _
    | exact Nat.le_max_left _ _ | dsimp only | split

theorem startConfirm_keeps {s0 s : State} (c : Nat) (h : Keeps s0 s) : Keeps s0 (startConfirm c s) := by
  unfold startConfirm
  repeat' first
    | with_reducible assumption | with_reducible intro _ | with_reducible refine forEach_keeps _ ?_ ?_
    | with_reducible apply State.modChan_keeps | with_reducible apply sendIdle_keeps
    | with_reducible apply State.send_keeps

theorem equalise_keeps {s0 s : State} (c : Nat) (h : Keeps s0 s) : Keeps s0 (equalise c s) := by
  unfold equalise
  repeat' first
    | with_reducible assumption | with_reducible apply State.freeVal_keeps | with_reducible apply State.modChan_keeps
    | with_reducible apply State.send_keeps

theorem eqBlock_keeps {s0 s : State} (c : Nat) (h : Keeps s0 s) : Keeps s0 (eqBlock c s) := by
  unfold eqBlock
  repeat' first
    | with_reducible assumption | with_reducible intro _ | with_reducible refine forEach_keeps _ ?_ ?_
    | with_reducible apply State.modChan_keeps | with_reducible apply State.freeVal_keeps
    | with_reducible apply State.send_keeps | with_reducible apply Keeps.ite | with_reducible apply KeepsO.ite
    | with_reducible apply KeepsO.some | with_reducible apply KeepsO.none | with_reducible apply Keeps.fst_ite
    | with_reducible apply Keeps.snd_ite | refine Keeps.ofEq (by assumption) ?_
    | refine Keeps.ofEq2 (by assumption) ?_ | refine KeepsO.get (by assumption) ?_ | refine KeepsO.getD ?_ ?_
    | exact Nat.le_refl _ | exact Nat.le_max_left _ _ | dsimp only | split

theorem trn1Rx_keeps {s0 s : State} (c : Nat) (preset : Nat) (req : Nat) (lock : Bool) (eqDone : Bool) (h : Keeps
    s0 s) : Keeps s0 (trn1Rx c preset req lock eqDone s) := by
  unfold trn1Rx
  repeat' first
    | with_reducible assumption | with_reducible intro _ | with_reducible refine forEach_keeps _ ?_ ?_
    | with_reducible apply equalise_keeps | with_reducible apply State.modChan_keeps
    | with_reducible apply startConfirm_keeps | with_reducible apply eqBlock_keeps | with_reducible apply Keeps.ite

theorem linkUp_keeps {s0 s : State} (c : Nat) (h : Keeps s0 s) : Keeps s0 (linkUp c s) := by
  unfold linkUp
  repeat' first
    | with_reducible assumption | with_reducible apply State.modChan_keeps | with_reducible apply resumeStream_keeps
    | with_reducible apply raiseWith_keeps | with_reducible apply readDescriptor_keeps
    | with_reducible apply Keeps.ite

theorem sidebandOne_keeps {s0 s : State} (c : Nat) (answer : Option (BitVec 8)) (h : Keeps s0 s) :
    Keeps s0 (sidebandOne c answer s) := by
  unfold sidebandOne
  repeat' first
    | with_reducible assumption | with_reducible intro _ | with_reducible apply State.modChan_keeps
    | with_reducible apply finishUnit_keeps | with_reducible apply startTraining_keeps
    | with_reducible apply State.send_keeps | with_reducible apply raiseWith_keeps
    | with_reducible apply linkLost_keeps | with_reducible apply moduleFailed_keeps | with_reducible apply Keeps.ite
    | exact Nat.le_refl _ | dsimp only | split

theorem afterMedia_keeps {s0 s : State} (c : Nat) (h : Keeps s0 s) : Keeps s0 (afterMedia c s) := by
  unfold afterMedia
  repeat' first
    | with_reducible assumption | with_reducible apply settle_keeps | with_reducible apply runEngines_keeps
    | with_reducible apply pumpChan_keeps

theorem badStatus_keeps {s0 s : State} (c : Nat) (m : MCmd) (status : Nat) (h : Keeps s0 s) :
    Keeps s0 (badStatus c m status s) := by
  unfold badStatus
  repeat' first
    | with_reducible assumption | with_reducible apply State.modChan_keeps | with_reducible apply loseCommand_keeps
    | with_reducible apply moduleFailed_keeps | with_reducible apply Keeps.ite

theorem onResponse_keeps {s0 s : State} (c tag : Nat) (op : MOp) (f : MCmd → State → State)
    (hf : ∀ m t, Keeps s0 t → Keeps s0 (f m t)) (h : Keeps s0 s) : Keeps s0 (onResponse c tag op f s) := by
  unfold onResponse
  split
  · rename_i e
    exact afterMedia_keeps _ (Keeps.ite (takeTag_keeps e h) (hf _ _ (takeTag_keeps e h)))
  · exact h

theorem countCorrected_keeps {s0 s : State} (c : Nat) (h : Keeps s0 s) : Keeps s0 (countCorrected c s) := by
  unfold countCorrected
  repeat' first
    | with_reducible assumption | with_reducible apply State.modChan_keeps | with_reducible apply raiseWith_keeps
    | with_reducible apply Keeps.ite

theorem sectorDecoded_keeps {s0 s : State} (c : Nat) (m : Miss) (d : Decoded) (h : Keeps s0 s) :
    Keeps s0 (sectorDecoded c m d s) := by
  unfold sectorDecoded
  repeat' first
    | with_reducible assumption | with_reducible apply modMiss_keeps | with_reducible apply countCorrected_keeps
    | with_reducible apply failForGood_keeps | with_reducible apply openOp_keeps | with_reducible apply Keeps.ite

theorem readDone_keeps {s0 s : State} (c : Nat) (cmd : MCmd) (data : Bytes) (h : Keeps s0 s) :
    Keeps s0 (readDone c cmd data s) := by
  unfold readDone
  repeat' first
    | with_reducible assumption | with_reducible apply sectorDecoded_keeps | with_reducible apply nsKeyUse_keeps
    | with_reducible apply sectorUncor_keeps | with_reducible apply failForGood_keeps
    | with_reducible apply checkUeRows_keeps | with_reducible apply Keeps.ite | split

theorem autoRebuild_keeps {s0 s : State} (g : Nat) (h : Keeps s0 s) : Keeps s0 (autoRebuild g s) := by
  unfold autoRebuild
  repeat' first
    | with_reducible assumption | with_reducible apply State.modGrp_keeps

theorem arrive_keeps {s0 s : State} (c : Nat) (d : Descriptor) (h : Keeps s0 s) : Keeps s0 (arrive c d s) := by
  unfold arrive
  repeat' first
    | with_reducible assumption | with_reducible apply State.modChan_keeps | with_reducible apply raiseWith_keeps
    | with_reducible apply autoRebuild_keeps | with_reducible apply Keeps.ite

theorem descRead_keeps {s0 s : State} (c : Nat) (b : Bytes) (h : Keeps s0 s) : Keeps s0 (descRead c b s) := by
  unfold descRead
  repeat' first
    | with_reducible assumption | with_reducible intro _ | with_reducible refine forEach_keeps _ ?_ ?_
    | with_reducible apply State.modChan_keeps | with_reducible apply moduleFailed_keeps
    | with_reducible apply raiseWith_keeps | with_reducible apply arrive_keeps | with_reducible apply Keeps.ite

theorem startMove_keeps {s0 s : State} (g : Nat) (e : Nat) (h : Keeps s0 s) : Keeps s0 (startMove g e s) := by
  unfold startMove
  repeat' first
    | with_reducible assumption | with_reducible apply State.modEasel_keeps | with_reducible apply settle_keeps
    | with_reducible apply openOp_keeps

theorem patrolNext_keeps {s0 s : State} (g : Nat) (h : Keeps s0 s) : Keeps s0 (patrolNext g s) := by
  unfold patrolNext
  repeat' first
    | with_reducible assumption | with_reducible apply openOp_keeps | with_reducible apply State.modGrp_keeps
    | with_reducible apply scrubWakeEnd_keeps | with_reducible apply State.modDrw_keeps
    | with_reducible apply Keeps.ite

theorem scrubNowNext_keeps {s0 s : State} (g : Nat) (h : Keeps s0 s) : Keeps s0 (scrubNowNext g s) := by
  unfold scrubNowNext
  repeat' first
    | with_reducible assumption | with_reducible intro _ | with_reducible apply scrubWakeEnd_keeps
    | with_reducible apply finishUnit_keeps | with_reducible apply State.modGrp_keeps
    | with_reducible apply openOp_keeps | with_reducible apply Keeps.ite | exact Nat.le_refl _ | dsimp only | split

end Sys2Proof.Machine
end

