-- ==== Sys2Proof/Laws/KeepsCmds.lean ====
section
/-! SUPPORT. `Keeps` through the operations of mailbox commands and the configuration they change. -/

namespace Sys2Proof.Machine

open Sys2Proof











theorem takeEasel_keeps {s0 s : State} (ek : Nat) (nsid : Nat) (unit : Nat) (psi : Nat) (h : Keeps s0 s) :
    Keeps s0 (takeEasel ek nsid unit psi s) := by
  unfold takeEasel
  repeat' first
    | with_reducible assumption | with_reducible apply State.draw_keeps | with_reducible apply startFill_keeps
    | with_reducible apply State.modEasel_keeps

theorem allocUnits_keeps {s0 : State} : ∀ (n nsid u psi : Nat) (b : Bool) {s t : State} {l : List (Nat × Nat)},
    allocUnits n nsid u psi b s = some (l, t) → Keeps s0 s → Keeps s0 t
  | 0, _, _, _, _, _, _, _, e, h => by cases e; exact h
  | n + 1, nsid, u, psi, b, s, t, l, e, h => by
    unfold allocUnits at e
    split at e
    · cases e
    · split at e
      · rename_i e2
        injection e with e
        injection e with _ e
        exact e ▸ allocUnits_keeps n _ _ _ _ e2 (takeEasel_keeps _ _ _ _ h)
      · cases e

theorem freeEasel_keeps {s0 s : State} (ek : Nat) (h : Keeps s0 s) : Keeps s0 (freeEasel ek s) := by
  unfold freeEasel
  repeat' first
    | with_reducible assumption | with_reducible apply State.modEasel_keeps | with_reducible refine Keeps.withOps _ ?_

theorem dropData_keeps {s0 s : State} (nsid : Nat) (off : Nat) (h : Keeps s0 s) : Keeps s0 (dropData nsid off s) := by
  unfold dropData
  repeat' first
    | with_reducible assumption | with_reducible apply State.modSump_keeps

theorem State.modNs_keeps {s0 s : State} (id : Nat) (f : Ns → Ns) (h : Keeps s0 s) : Keeps s0 (State.modNs s id f) := by
  unfold State.modNs
  repeat' first
    | with_reducible assumption | with_reducible apply State.modCtl_keeps | with_reducible apply Keeps.ite | split
    | rfl

theorem applyOpen_keeps {s0 s : State} (p : OpenParams) (h : Keeps s0 s) : Keeps s0 (applyOpen p s).1 := by
  unfold applyOpen
  repeat' first
    | with_reducible assumption | with_reducible apply setReserve_keeps | with_reducible apply State.modConn_keeps
    | with_reducible apply keyKeep_keeps | with_reducible apply Keeps.fst_ite

theorem applyClose_keeps {s0 s : State} (c : Nat) (h : Keeps s0 s) : Keeps s0 (applyClose c s) := by
  unfold applyClose
  repeat' first
    | with_reducible assumption | with_reducible apply State.modConn_keeps | with_reducible apply connClosed_keeps
    | split

theorem applyRekey_keeps {s0 s : State} (c : Nat) (g : Nat) (b0 : Blob) (b1 : Blob) (h : Keeps s0 s) :
    Keeps s0 (applyRekey c g b0 b1 s).1 := by
  unfold applyRekey
  repeat' first
    | with_reducible assumption | with_reducible apply keyKeep_keeps | with_reducible apply State.modConn_keeps
    | split

theorem applyGrant_keeps {s0 s : State} (p : GrantParams) (h : Keeps s0 s) : Keeps s0 (applyGrant p s).1 := by
  unfold applyGrant
  repeat' first
    | with_reducible assumption | with_reducible apply State.modGrant_keeps | with_reducible apply wakeSpan_keeps
    | with_reducible apply Keeps.ite | with_reducible apply Keeps.fst_ite | split

theorem applyCreate_keeps {s0 s : State} (p : CreateNsParams) (h : Keeps s0 s) : Keeps s0 (applyCreate p s).1 := by
  unfold applyCreate
  repeat' first
    | with_reducible assumption | refine allocUnits_keeps _ _ _ _ _ (by assumption) ?_
    | with_reducible apply State.modCtl_keeps | with_reducible apply Keeps.ite | with_reducible apply Keeps.fst_ite
    | split | rfl

theorem applyDelete_keeps {s0 s : State} (id : Nat) (h : Keeps s0 s) : Keeps s0 (applyDelete id s) := by
  unfold applyDelete
  repeat' first
    | with_reducible assumption | with_reducible intro _ | with_reducible refine forEach_keeps _ ?_ ?_
    | with_reducible apply freeEasel_keeps | with_reducible apply dropData_keeps
    | with_reducible apply erasePalette_keeps | with_reducible apply State.modCtl_keeps | exact Nat.le_refl _
    | dsimp only | split

theorem applyResize_keeps {s0 s : State} (id : Nat) (units : Nat) (h : Keeps s0 s) : Keeps s0 (applyResize id units s).1 := by
  unfold applyResize
  repeat' first
    | with_reducible assumption | with_reducible intro _ | with_reducible refine forEach_keeps _ ?_ ?_
    | refine allocUnits_keeps _ _ _ _ _ (by assumption) ?_ | with_reducible apply freeEasel_keeps
    | with_reducible apply dropData_keeps | with_reducible apply State.modNs_keeps | with_reducible apply Keeps.ite
    | with_reducible apply Keeps.fst_ite | exact Nat.le_refl _ | dsimp only | split

theorem applySanitize_keeps {s0 s : State} (id : Nat) (h : Keeps s0 s) : Keeps s0 (applySanitize id s) := by
  unfold applySanitize
  repeat' first
    | with_reducible assumption | with_reducible intro _ | with_reducible refine forEach_keeps _ ?_ ?_
    | with_reducible apply dropData_keeps | with_reducible apply State.draw_keeps | with_reducible apply raise_keeps
    | with_reducible apply erasePalette_keeps | with_reducible apply State.modNs_keeps
    | with_reducible apply startFill_keeps | with_reducible apply Keeps.ite | exact Nat.le_refl _ | dsimp only | split

theorem applyWitness_keeps {s0 s : State} (p : WitnessParams) (h : Keeps s0 s) : Keeps s0 (applyWitness p s).1 := by
  unfold applyWitness
  repeat' first
    | with_reducible assumption | with_reducible apply applyOpen_keeps | with_reducible apply State.modConn_keeps
    | with_reducible apply State.modTwin_keeps

theorem applyPort_keeps {s0 s : State} (p : PortParams) (h : Keeps s0 s) : Keeps s0 (applyPort p s) := by
  unfold applyPort
  repeat' first
    | with_reducible assumption | with_reducible apply State.modNport_keeps | with_reducible apply State.modSub_keeps
    | with_reducible apply Keeps.ite

theorem applyIntegrity_keeps {s0 s : State} (unit param v : Nat) (h : Keeps s0 s) : Keeps s0
    (applyIntegrity unit param v s) := by
  unfold applyIntegrity
  split <;> first
    | exact h
    | exact Keeps.withPlat _ h
    | exact State.modChan_keeps _ _ h
    | exact State.modGrp_keeps _ _ h
    | exact State.modDrch_keeps _ _ h
    | exact State.modDram_keeps _ h
    | exact State.modTest_keeps _ h (Nat.le_refl _)

theorem applyXport_keeps {s0 s : State} (p : XportParams) (h : Keeps s0 s) : Keeps s0 (applyXport p s) := by
  unfold applyXport
  repeat' first
    | with_reducible assumption | with_reducible apply State.modXport_keeps

theorem applyGrantRecord_keeps {s0 s : State} (r : GrantRec) (h : Keeps s0 s) : Keeps s0 (applyGrantRecord r s) := by
  unfold applyGrantRecord
  repeat' first
    | with_reducible assumption | with_reducible apply State.modGrant_keeps

theorem applyConnRecord_keeps {s0 s : State} (r : ConnRec) (h : Keeps s0 s) : Keeps s0 (applyConnRecord r s) := by
  unfold applyConnRecord
  repeat' first
    | with_reducible assumption | with_reducible apply setReserve_keeps | with_reducible apply State.modConn_keeps

theorem applyNsTable_keeps {s0 s : State} (l : List (Nat × CreateNsParams)) (h : Keeps s0 s) : Keeps s0 (applyNsTable l s) := by
  unfold applyNsTable
  repeat' first
    | with_reducible assumption | with_reducible intro _ | with_reducible refine forEach_keeps _ ?_ ?_
    | with_reducible apply applyDelete_keeps | with_reducible apply applyResize_keeps
    | with_reducible apply State.modNs_keeps | with_reducible apply applyCreate_keeps | with_reducible apply Keeps.ite
    | exact Nat.le_refl _ | dsimp only | split

theorem applyDrawer_keeps {s0 s : State} (wake : Bool) (d : Nat) (h : Keeps s0 s) : Keeps s0 (applyDrawer wake d s)
    := by
  unfold applyDrawer
  repeat' first
    | with_reducible assumption | with_reducible intro _ | with_reducible refine forEach_keeps _ ?_ ?_
    | with_reducible apply beginWake_keeps | with_reducible apply State.modDrw_keeps
    | with_reducible apply requestWake_keeps | with_reducible apply beginPark_keeps | with_reducible apply Keeps.ite
    | with_reducible apply KeepsO.ite | with_reducible apply KeepsO.some | with_reducible apply KeepsO.none
    | with_reducible apply Keeps.fst_ite | with_reducible apply Keeps.snd_ite
    | with_reducible refine Keeps.ofEq (by assumption) ?_ | with_reducible refine Keeps.ofEq2 (by assumption) ?_
    | with_reducible refine KeepsO.get (by assumption) ?_ | with_reducible refine KeepsO.getD ?_ ?_
    | exact Nat.le_refl _ | exact List.length_map _ | exact Nat.le_max_left _ _ | dsimp only | split

theorem pbaCheck_keeps {s0 s : State} (v : Nat) (h : Keeps s0 s) : Keeps s0 (pbaCheck v s) := by
  unfold pbaCheck
  repeat' first
    | with_reducible assumption | with_reducible intro _ | with_reducible apply State.modEv_keeps
    | with_reducible apply Keeps.ite | refine Keeps.ofEq (by assumption) ?_ | refine Keeps.ofEq2 (by assumption) ?_
    | exact Nat.le_refl _ | exact Nat.le_max_left _ _ | dsimp only | split | rfl | decide | trivial

theorem applyRoute_keeps {s0 s : State} (x : Nat) (r : Route) (h : Keeps s0 s) : Keeps s0 (applyRoute x r s) := by
  unfold applyRoute
  repeat' first
    | with_reducible assumption | with_reducible intro _ | with_reducible apply State.modEv_keeps
    | with_reducible apply pbaCheck_keeps | with_reducible apply sendVector_keeps | with_reducible apply Keeps.ite
    | refine Keeps.ofEq (by assumption) ?_ | refine Keeps.ofEq2 (by assumption) ?_ | exact Nat.le_refl _
    | exact Nat.le_max_left _ _ | dsimp only | split | rfl | decide | trivial

theorem tableChange_keeps {s0 : State} {x : State × Nat} (h : Keeps s0 x.1) : Keeps s0 (tableChange x).1 :=
  Keeps.ite (tableCopies_keeps h) h

theorem applyCfg_keeps {s0 s : State} (c : Cfg) (h : Keeps s0 s) : Keeps s0 (applyCfg c s).1 := by
  unfold applyCfg
  repeat' first
    | with_reducible assumption | with_reducible intro _ | with_reducible refine forEach_keeps _ ?_ ?_
    | with_reducible apply tableChange_keeps | with_reducible exact modHostFour_keeps _ (by assumption) rfl
    | with_reducible apply State.modDura_keeps | with_reducible apply applyIntegrity_keeps
    | with_reducible apply State.modSump_keeps | with_reducible apply applyPort_keeps
    | with_reducible apply applyXport_keeps | with_reducible apply State.modHost_keeps
    | with_reducible apply applyRoute_keeps | with_reducible apply State.modCipher_keeps
    | with_reducible apply State.modCtl_keeps | with_reducible apply applyCreate_keeps
    | with_reducible apply applyDelete_keeps | with_reducible apply applyResize_keeps
    | with_reducible apply State.modNs_keeps | with_reducible apply applyDrawer_keeps
    | with_reducible apply State.modDrw_keeps | with_reducible apply applyOpen_keeps
    | with_reducible apply applyClose_keeps | with_reducible apply applyRekey_keeps
    | with_reducible apply applyGrant_keeps | with_reducible apply revoke_keeps
    | with_reducible apply applyWitness_keeps | with_reducible apply State.modTwin_keeps
    | with_reducible apply applySanitize_keeps | with_reducible apply State.modSched_keeps
    | with_reducible apply schedStage_keeps | with_reducible apply schedWake_keeps
    | with_reducible apply schedRelease_keeps | with_reducible apply applyConnRecord_keeps
    | with_reducible apply applyGrantRecord_keeps | with_reducible apply applyNsTable_keeps
    | with_reducible apply Keeps.ite | with_reducible apply Keeps.fst_ite | with_reducible refine KeepsO.getD ?_ ?_
    | refine Keeps.ofEq (by assumption) ?_ | refine Keeps.ofEq2 (by assumption) ?_ | exact Nat.le_refl _
    | exact Nat.le_max_left _ _ | dsimp only | split | rfl | decide | trivial | assumption | simp

theorem openCmd_keeps {s0 s : State} (m : Nat) (code : Nat) (tag : BitVec 16) (kind : CmdKind) (unit : Nat) (h : Keeps s0 s) :
    Keeps s0 (openCmd m code tag kind unit s).2 := by
  unfold openCmd
  repeat' first
    | with_reducible assumption | with_reducible apply State.modCtl_keeps | with_reducible apply State.modMbx_keeps
    | with_reducible apply Keeps.ite | with_reducible apply Keeps.snd_ite | split | rfl

theorem blobEvent_keeps {s0 s : State} (v : Nat × Bytes) (h : Keeps s0 s) : Keeps s0 (blobEvent v s) := by
  unfold blobEvent
  repeat' first
    | with_reducible assumption | with_reducible apply raise_keeps | with_reducible apply Keeps.ite

theorem runCommand_keeps {s0 s : State} (m : Nat) (code : Nat) (tag : BitVec 16) (kind : CmdKind) (unit : Nat)
    (check : State → Verdict) (run : Nat → State → State) (h_run : ∀ a0_ t, Keeps s0 t → Keeps s0 (run a0_ t))
    (h : Keeps s0 s) :
    Keeps s0 (runCommand m code tag kind unit check run s) := by
  unfold runCommand
  repeat' first
    | with_reducible assumption | with_reducible apply h_run | with_reducible apply openCmd_keeps
    | with_reducible apply finish_keeps | with_reducible apply blobEvent_keeps | with_reducible apply Keeps.ite
    | split

theorem takeCommand_keeps {s0 s : State} (a0_ : CmdHdr) (code : Nat) (kind : CmdKind) (unit : Nat) (check : State → Verdict)
    (run : Nat → State → State) (h_run : ∀ a0_ t, Keeps s0 t → Keeps s0 (run a0_ t)) (h : Keeps s0 s) :
    KeepsR s0 (takeCommand a0_ code kind unit check run s) := by
  unfold takeCommand
  repeat' first
    | with_reducible assumption | with_reducible apply h_run | with_reducible apply mbxTake_keeps
    | with_reducible apply respond_keeps | with_reducible apply settle_keeps | with_reducible apply runCommand_keeps
    | with_reducible apply KeepsR.next | with_reducible apply KeepsR.ite | with_reducible apply Keeps.ite

theorem answerLogged_keeps {s0 s : State} (id : Nat) (lsn : Lsn) (status : Nat) (block : Bytes) (h : Keeps s0 s) :
    Keeps s0 (answerLogged id lsn status block s) := by
  unfold answerLogged
  repeat' first
    | with_reducible assumption | with_reducible apply State.modCtl_keeps | with_reducible apply Keeps.ite | split
    | rfl

theorem commit_keeps {s0 s : State} (code : Nat) (tag : BitVec 16) (c : Cfg) (block : State → Bytes)
    (after : Option (State → State)) (id : Nat) (ha : match after with | none => True | some f => ∀ t, Keeps s0 t → Keeps s0 (f t)) (h : Keeps s0 s) :
    Keeps s0 (commit code tag c block after id s) := by
  have hr (r : Nat) : Keeps s0 (record 0x0004 1001 false (commitBody code tag r 0) (raise 1001 s)) := record_keeps _ _ _ _ (raise_keeps _ h)
  have hl := logControl_keeps code tag 0 c h
  have hc := applyCfg_keeps c (record_keeps 0x0004 0xFFFF false (commitBody code tag 0 (logControl code tag 0 c s).2) hl)
  unfold commit
  split
  · exact finish_keeps _ _ _ h
  · exact finish_keeps _ _ _ (hr _)
  · refine Keeps.ite (finish_keeps _ _ _ hc) ?_
    split
    · exact ha _ hc
    · exact answerLogged_keeps _ _ _ _ hc

theorem cfgCommand_keeps {s0 s : State} (a0_ : CmdHdr) (code : Nat) (unit : Nat) (c : Cfg) (block : State → Bytes)
    (h : Keeps s0 s) :
    KeepsR s0 (cfgCommand a0_ code unit c block s) := by
  unfold cfgCommand
  repeat' first
    | with_reducible assumption | with_reducible intro _ | with_reducible apply takeCommand_keeps
    | with_reducible apply commit_keeps | with_reducible apply KeepsR.next | with_reducible apply KeepsR.ite
    | exact Nat.le_refl _ | dsimp only

theorem readCommand_keeps {s0 s : State} (a0_ : CmdHdr) (code : Nat) (unit : Nat) (check : State → Verdict)
    (block : State → Bytes) (h : Keeps s0 s) :
    KeepsR s0 (readCommand a0_ code unit check block s) := by
  unfold readCommand
  repeat' first
    | with_reducible assumption | with_reducible intro _ | with_reducible apply takeCommand_keeps
    | with_reducible apply finish_keeps

theorem abortPark_keeps {s0 s : State} (id : Nat) (d : Nat) (h : Keeps s0 s) : Keeps s0 (abortPark id d s) := by
  unfold abortPark
  repeat' first
    | with_reducible assumption | with_reducible intro _ | with_reducible apply finish_keeps
    | with_reducible apply State.modDrw_keeps | with_reducible apply parkBack_keeps
    | with_reducible apply setPast_keeps | with_reducible apply Keeps.ite | exact Nat.le_refl _ | dsimp only | split

theorem abortCommit_keeps {s0 s : State} (id : Nat) (h : Keeps s0 s) : Keeps s0 (abortCommit id s) := by
  unfold abortCommit
  repeat' first
    | with_reducible assumption | with_reducible intro _ | with_reducible apply setPast_keeps
    | with_reducible apply State.modFlash_keeps | with_reducible apply finish_keeps | with_reducible apply Keeps.ite
    | refine Keeps.ofEq (by assumption) ?_ | refine Keeps.ofEq2 (by assumption) ?_ | exact Nat.le_refl _
    | exact Nat.le_max_left _ _ | dsimp only | split | rfl | decide | trivial | assumption | simp

theorem abortNow_keeps {s0 s : State} (r : Running) (h : Keeps s0 s) : Keeps s0 (abortNow r s) := by
  unfold abortNow
  repeat' first
    | with_reducible assumption | with_reducible apply abortPark_keeps | with_reducible apply finish_keeps
    | with_reducible apply State.modTwin_keeps | with_reducible apply scrubWakeEnd_keeps
    | with_reducible apply State.modGrp_keeps | with_reducible apply State.modPower_keeps
    | with_reducible apply chargeCheck_keeps | with_reducible apply abortCommit_keeps
    | with_reducible apply State.modPrime_keeps | with_reducible apply State.modTest_keeps
    | with_reducible apply Keeps.ite | split | rfl

theorem openFormat_keeps {s0 s : State} (g : Nat) (h : Keeps s0 s) : Keeps s0 (openFormat g s) := by
  unfold openFormat
  repeat' first
    | with_reducible assumption | with_reducible intro _ | with_reducible refine forEach_keeps _ ?_ ?_
    | with_reducible apply State.freeVal_keeps | with_reducible apply openMeta_keeps

theorem memBusy_keeps {s0 s : State} (id : Nat) (ds : List Nat) (h : Keeps s0 s) : Keeps s0 (memBusy id ds s) := by
  unfold memBusy
  repeat' first
    | with_reducible assumption | with_reducible apply finish_keeps | with_reducible apply wakeSpan_keeps

theorem memLine_keeps {s0 s : State} (nsid : Nat) (off : Nat) (d : Bytes) (h : Keeps s0 s) :
    Keeps s0 (memLine nsid off d s).1 := by
  unfold memLine
  repeat' first
    | with_reducible assumption | with_reducible apply logEntry_keeps | with_reducible apply showLine_keeps
    | with_reducible apply foldStep_keeps | refine KeepsO.get (by assumption) ?_
    | with_reducible refine KeepsO.getD ?_ ?_

theorem requestPark_keeps {s0 s : State} (d : Nat) (id : Nat) (h : Keeps s0 s) : Keeps s0 (requestPark d id s) := by
  unfold requestPark
  repeat' first
    | with_reducible assumption | with_reducible intro _ | with_reducible apply beginPark_keeps
    | with_reducible apply State.modDrw_keeps | with_reducible apply finishAll_keeps
    | with_reducible apply finish_keeps | exact Nat.le_refl _ | dsimp only | split

theorem unfreeze_keeps {s0 s : State} (h : Keeps s0 s) : Keeps s0 (unfreeze s) := by
  unfold unfreeze
  split
  · exact h
  · have h1 := State.modTest_keeps (fun t => { t with frozen := false, dropped := none }) h (Nat.le_refl _)
    dsimp only
    split
    · exact record_keeps _ _ _ _ h1
    · exact h1

theorem dropChallenge_keeps {s0 s : State} (h : Keeps s0 s) : Keeps s0 (dropChallenge s) := by
  unfold dropChallenge
  repeat' first
    | with_reducible assumption | with_reducible apply State.modTest_keeps | split | rfl

theorem fuseItem_keeps {s0 s : State} (item : Nat) (d : Bytes) (h : Keeps s0 s) : Keeps s0 (fuseItem item d s) := by
  unfold fuseItem
  repeat' first
    | with_reducible assumption | with_reducible apply State.modTest_keeps | with_reducible apply State.modFlash_keeps
    | split | rfl

end Sys2Proof.Machine
end

