-- ==== Sys2Proof/Laws/KeepsTwin.lean ====
section
/-! SUPPORT. `Keeps` through the operations of twin frames, handshakes and twin timers. -/

namespace Sys2Proof.Machine

open Sys2Proof











theorem freshCredit_keeps {s0 s : State} (h : Keeps s0 s) : Keeps s0 (freshCredit s) := by
  unfold freshCredit
  repeat' first
    | with_reducible assumption | with_reducible apply State.modTwin_keeps | with_reducible apply State.modSump_keeps

theorem standbyEnd_keeps {s0 s : State} (c : Nat) (m : Msg) (lsn : Lsn) (h : Keeps s0 s) : Keeps s0 (standbyEnd c m lsn s) := by
  unfold standbyEnd
  repeat' first
    | with_reducible assumption | with_reducible apply stepped_keeps | with_reducible apply State.modConn_keeps

theorem standbyChain_keeps {s0 : State} : ∀ (n c : Nat) (first final : Bool) (lsn : Lsn) (res : List AtomRes)
    (more : Bool) {s : State},
    Keeps s0 s → KeepsO s0 (standbyChain n c first final lsn res more s)
  | 0, _, _, _, _, _, _, _, h => KeepsO.some h
  | n + 1, c, first, final, lsn, res, more, s, h => by
    have h1 : Keeps s0 (s.modConn c Conn.passDropped) := State.modConn_keeps _ _ h
    unfold standbyChain
    dsimp only
    split
    · exact KeepsO.some h1
    · refine KeepsO.ite (KeepsO.some h1) (KeepsO.ite ?_ ?_)
      · split
        · refine KeepsO.ite (standbyChain_keeps n _ _ _ _ _ _ (State.modConn_keeps _ _ (standbyEnd_keeps _ _ _ (foldStep_keeps _ ?_))))
            (KeepsO.some h1)
          exact Keeps.fst_ite (atomicWrite_keeps _ _ _ _ h1) h1
        · exact KeepsO.ite (KeepsO.some h1) KeepsO.none
      · exact standbyChain_keeps n _ _ _ _ _ _ (standbyEnd_keeps _ _ _ (foldStep_keeps _ (showMessage_keeps _ _ h1)))

theorem runAnchor_keeps {s0 s : State} (c : Nat) (id : MsgId) (final : Bool) (lsn : Lsn) (rest : List Logged) (h : Keeps s0 s) :
    KeepsO s0 (runAnchor c id final lsn rest s) := by
  unfold runAnchor
  exact standbyChain_keeps _ _ _ _ _ _ _ (State.modConn_keeps _ _ h)

theorem beginMsg_keeps {s0 s : State} (e : LogEntry) (moff : Nat) (nsoff : Nat) (akey : Option (BitVec 32)) (psn : Psn)
    (op : NetOp) (h : Keeps s0 s) :
    Keeps s0 (beginMsg e moff nsoff akey psn op s) := by
  unfold beginMsg
  repeat' first
    | with_reducible assumption | with_reducible apply State.modConn_keeps | with_reducible apply takeRefs_keeps
    | with_reducible apply Keeps.ite | with_reducible refine KeepsO.getD ?_ ?_ | split

theorem placeEntry_keeps {s0 s : State} (lsn : Lsn) (e : LogEntry) (moff : Nat) (nsoff : Nat) (mlen : Option Nat) (psn : Psn)
    (op : NetOp) (data : Bytes) (h : Keeps s0 s) :
    Keeps s0 (placeEntry lsn e moff nsoff mlen psn op data s) := by
  unfold placeEntry
  repeat' first
    | with_reducible assumption | with_reducible apply placePending_keeps | with_reducible apply State.modConn_keeps
    | refine KeepsO.get (by assumption) ?_ | with_reducible apply Keeps.ite | with_reducible refine KeepsO.getD ?_ ?_

theorem placeResync_keeps {s0 s : State} (lsn : Lsn) (ns : Nat) (off : Nat) (poison : BitVec 64) (data : Bytes)
    (h : Keeps s0 s) :
    Keeps s0 (placeResync lsn ns off poison data s) := by
  unfold placeResync
  repeat' first
    | with_reducible assumption | with_reducible intro _ | with_reducible refine forEach_keeps _ ?_ ?_
    | with_reducible apply nextStamp_keeps | with_reducible apply showLine_keeps | with_reducible apply foldStep_keeps
    | refine KeepsO.get (by assumption) ?_ | with_reducible apply Keeps.ite | with_reducible refine KeepsO.getD ?_ ?_

theorem askFull_keeps {s0 s : State} (differs : Bool) (h : Keeps s0 s) : Keeps s0 (askFull differs s) := by
  unfold askFull
  repeat' first
    | with_reducible assumption | with_reducible apply sendData_keeps | with_reducible apply State.modTwin_keeps
    | with_reducible apply Keeps.ite

theorem applyBody_keeps {s0 s : State} (final : Bool) (l : Logged) (rest : List Logged) (h : Keeps s0 s) :
    KeepsO s0 (applyBody final l rest s) := by
  unfold applyBody
  repeat' first
    | with_reducible assumption | with_reducible intro _ | with_reducible apply placeEntry_keeps
    | with_reducible apply beginMsg_keeps | with_reducible apply runAnchor_keeps
    | with_reducible apply releaseRefs_keeps | with_reducible apply freePending_keeps
    | with_reducible apply State.modConn_keeps | with_reducible apply nextStamp_keeps
    | with_reducible apply showLine_keeps | with_reducible apply foldStep_keeps | with_reducible apply askFull_keeps
    | with_reducible apply applyCfg_keeps | with_reducible apply foldDigest_keeps
    | with_reducible apply placeResync_keeps | exact KeepsO.none | with_reducible apply KeepsO.some
    | with_reducible apply KeepsO.ite | refine KeepsO.get (by assumption) ?_ | with_reducible apply Keeps.ite
    | with_reducible refine KeepsO.getD ?_ ?_ | exact Nat.le_refl _ | dsimp only | split

theorem keepDigest_keeps {s0 s : State} (h : Keeps s0 s) : Keeps s0 (keepDigest s) := by
  unfold keepDigest
  repeat' first
    | with_reducible assumption | with_reducible apply State.modTwin_keeps

theorem applyEntry_keeps {s0 s : State} (final : Bool) (l : Logged) (rest : List Logged) (h : Keeps s0 s) :
    KeepsO s0 (applyEntry final l rest s) := by
  intro t e
  unfold applyEntry at e
  dsimp only at e
  rw [Option.map_eq_some_iff] at e
  obtain ⟨u, hu, e⟩ := e
  exact e ▸ keepDigest_keeps (applyBody_keeps final l rest (noteTiles_keeps _ _ (foldEntry_keeps _ _ (State.modTwin_keeps _ h))) u hu)

theorem digestMatch_keeps {s0 s : State} (lsn : Lsn) (h : Keeps s0 s) : Keeps s0 (digestMatch lsn s) := by
  unfold digestMatch
  repeat' first
    | with_reducible assumption | with_reducible apply State.modTwin_keeps

theorem digestMismatch_keeps {s0 s : State} (port : Nat) (h : Keeps s0 s) : Keeps s0 (digestMismatch port s) := by
  unfold digestMismatch
  repeat' first
    | with_reducible assumption | with_reducible intro _ | with_reducible apply raiseWith_keeps
    | with_reducible apply State.modTwin_keeps | with_reducible apply enterSolo_keeps
    | with_reducible apply enterFenced_keeps | with_reducible apply sendRelinquish_keeps | exact Nat.le_refl _
    | dsimp only | split

theorem digestAnswer_keeps {s0 s : State} (port : Nat) (lsn : Lsn) (v : BitVec 64) (h : Keeps s0 s) :
    Keeps s0 (digestAnswer port lsn v s) := by
  unfold digestAnswer
  repeat' first
    | with_reducible assumption | with_reducible apply ctlOne_keeps | with_reducible apply digestMatch_keeps
    | with_reducible apply digestMismatch_keeps | with_reducible apply Keeps.ite | split

theorem digestDue_keeps {s0 s : State} (h : Keeps s0 s) : Keeps s0 (digestDue s) := by
  unfold digestDue
  repeat' first
    | with_reducible assumption | with_reducible apply digestAnswer_keeps | with_reducible apply State.modTwin_keeps
    | with_reducible apply Keeps.ite | with_reducible refine KeepsO.getD ?_ ?_ | split

theorem startFetch_keeps {s0 s : State} (a0_ : HeldFetch) (h : Keeps s0 s) : Keeps s0 (startFetch a0_ s) := by
  unfold startFetch
  repeat' first
    | with_reducible assumption | with_reducible intro _ | with_reducible apply answerFetch_keeps
    | with_reducible apply State.modTwin_keeps | with_reducible apply readCodeword_keeps
    | with_reducible apply Keeps.ite | exact Nat.le_refl _ | dsimp only | split

theorem pumpFetches_keeps {s0 s : State} (h : Keeps s0 s) : Keeps s0 (pumpFetches s) := by
  unfold pumpFetches
  repeat' first
    | with_reducible assumption | with_reducible intro _ | with_reducible refine forEach_keeps _ ?_ ?_
    | with_reducible apply startFetch_keeps

theorem applyLoop_keeps {s0 : State} : ∀ (n : Nat) (final : Bool) (upTo : Option Lsn) {s : State}, Keeps s0 s →
    Keeps s0 (applyLoop n final upTo s)
  | 0, _, _, _, h => h
  | n + 1, final, upTo, s, h => by
    unfold applyLoop
    split
    · exact h
    · refine Keeps.ite h ?_
      split
      · exact h
      · rename_i t e
        have ht : Keeps s0 t := applyEntry_keeps final _ _ h t e
        have hd : Keeps s0 (digestDue (if t.twin.ackCount ≥ 16 then sendApplyAck t else t)) :=
          digestDue_keeps (Keeps.ite (sendApplyAck_keeps ht) ht)
        exact Keeps.ite (applyLoop_keeps n final upTo hd) hd

theorem applyAll_keeps {s0 s : State} (final : Bool) (upTo : Option Lsn) (h : Keeps s0 s) : Keeps s0 (applyAll
    final upTo s) := by
  unfold applyAll
  repeat' first
    | with_reducible assumption | with_reducible intro _ | with_reducible refine forEach_keeps _ ?_ ?_
    | with_reducible apply applyLoop_keeps | with_reducible apply Keeps.ite

theorem varnishSteps_keeps {s0 : State} : ∀ (n : Nat) {s : State}, Keeps s0 s → Keeps s0 (varnishSteps n s)
  | 0, _, h => h
  | n + 1, s, h => by
    unfold varnishSteps
    dsimp only
    split
    · exact h
    · exact varnishSteps_keeps n (State.modConn_keeps _ _ (standbyEnd_keeps _ _ _ (showMessage_keeps _ _ h)))

theorem resolveConn_keeps {s0 s : State} (c : Nat) (h : Keeps s0 s) : Keeps s0 (resolveConn c s) := by
  unfold resolveConn
  repeat' first
    | with_reducible assumption | with_reducible intro _ | with_reducible refine forEach_keeps _ ?_ ?_
    | with_reducible apply State.modConn_keeps | with_reducible apply releaseRefs_keeps
    | with_reducible apply freePending_keeps

theorem resolveAll_keeps {s0 s : State} (h : Keeps s0 s) : Keeps s0 (resolveAll s) := by
  unfold resolveAll
  repeat' first
    | with_reducible assumption | with_reducible intro _ | with_reducible refine forEach_keeps _ ?_ ?_
    | with_reducible apply resolveConn_keeps | with_reducible apply varnishSteps_keeps
    | with_reducible apply State.modConn_keeps

theorem notices_keeps {s0 s : State} (h : Keeps s0 s) : Keeps s0 (notices s) := by
  unfold notices
  repeat' first
    | with_reducible assumption | with_reducible intro _ | with_reducible refine forEach_keeps _ ?_ ?_
    | with_reducible apply sendNotice_keeps | with_reducible apply State.modConn_keeps

theorem takeoverAnnounce_keeps {s0 s : State} (h : Keeps s0 s) : Keeps s0 (takeoverAnnounce s) := by
  unfold takeoverAnnounce
  repeat' first
    | with_reducible assumption | with_reducible apply memActive_keeps | with_reducible apply State.modTwin_keeps
    | with_reducible apply finishAll_keeps | with_reducible apply notices_keeps
    | with_reducible apply announceAll_keeps

theorem restartRevokes_keeps {s0 s : State} (h : Keeps s0 s) : Keeps s0 (restartRevokes s) := by
  unfold restartRevokes
  repeat' first
    | with_reducible assumption | with_reducible apply State.modXport_keeps

theorem takeoverResolve_keeps {s0 s : State} (h : Keeps s0 s) : Keeps s0 (takeoverResolve s) := by
  unfold takeoverResolve
  repeat' first
    | with_reducible assumption | with_reducible apply State.modTwin_keeps | with_reducible apply restartRevokes_keeps
    | with_reducible apply freshCredit_keeps | with_reducible apply resolveAll_keeps

theorem takeoverSolo_keeps {s0 s : State} (e : Epoch) (witness : Bool) (h : Keeps s0 s) :
    Keeps s0 (takeoverSolo e witness s) := by
  unfold takeoverSolo
  repeat' first
    | with_reducible assumption | with_reducible apply enterSolo_keeps | with_reducible apply takeoverResolve_keeps
    | with_reducible apply ctlAll_keeps | with_reducible apply State.modTwin_keeps
    | with_reducible apply takeoverAnnounce_keeps | with_reducible apply Keeps.ite

theorem takeoverSwap_keeps {s0 s : State} (h : Keeps s0 s) : Keeps s0 (takeoverSwap s) := by
  unfold takeoverSwap
  repeat' first
    | with_reducible assumption | with_reducible apply enterActive_keeps | with_reducible apply takeoverResolve_keeps
    | with_reducible apply takeoverAnnounce_keeps | with_reducible apply ctlAll_keeps

theorem takeoverGo_keeps {s0 s : State} (swap : Bool) (h : Keeps s0 s) : Keeps s0 (takeoverGo swap s) := by
  unfold takeoverGo
  repeat' first
    | with_reducible assumption | with_reducible apply takeoverSwap_keeps | with_reducible apply takeoverSolo_keeps
    | with_reducible apply Keeps.ite

theorem takeoverOn_keeps {s0 s : State} (f : State → State) (hf : ∀ t, Keeps s0 t → Keeps s0 (f t)) (h : Keeps s0 s) :
    Keeps s0 (takeoverOn f s) := Keeps.ite (hf _ h) h

theorem takeoverK1_keeps {s0 s : State} (h : Keeps s0 s) : Keeps s0 (takeoverK1 s) := by
  unfold takeoverK1
  repeat' first
    | with_reducible assumption | with_reducible intro _ | with_reducible refine forEach_keeps _ ?_ ?_
    | with_reducible apply applyAll_keeps | with_reducible apply takeoverOn_keeps
    | with_reducible apply takeoverGo_keeps | with_reducible apply Keeps.ite | with_reducible apply KeepsO.ite
    | with_reducible apply KeepsO.some | with_reducible apply KeepsO.none | with_reducible apply Keeps.fst_ite
    | with_reducible apply Keeps.snd_ite | with_reducible refine Keeps.ofEq (by assumption) ?_
    | with_reducible refine Keeps.ofEq2 (by assumption) ?_ | with_reducible refine KeepsO.get (by assumption) ?_
    | with_reducible refine KeepsO.getD ?_ ?_ | exact Nat.le_refl _ | exact List.length_map _
    | exact Nat.le_max_left _ _ | dsimp only | split

theorem takeoverHeld_keeps {s0 s : State} (upTo : Option Lsn) (h : Keeps s0 s) : Keeps s0 (takeoverHeld upTo s) := by
  unfold takeoverHeld
  repeat' first
    | with_reducible assumption | with_reducible apply applyAll_keeps

theorem transmitWit_keeps {s0 s : State} (r : WitReq) (h : Keeps s0 s) : Keeps s0 (transmitWit r s) := by
  unfold transmitWit
  repeat' first
    | with_reducible assumption | with_reducible apply queueTx_keeps

theorem askWit_keeps {s0 s : State} (w : Nat) (h : Keeps s0 s) : Keeps s0 (askWit w s) := by
  unfold askWit
  repeat' first
    | with_reducible assumption | with_reducible apply transmitWit_keeps | with_reducible apply State.modTwin_keeps
    | with_reducible apply Keeps.ite

theorem openWitness_keeps {s0 s : State} (h : Keeps s0 s) : Keeps s0 (openWitness s) := by
  unfold openWitness
  repeat' first
    | with_reducible assumption | with_reducible apply applyWitness_keeps | split

theorem sendHandshake_keeps {s0 s : State} (h : Keeps s0 s) : Keeps s0 (sendHandshake s) := by
  unfold sendHandshake
  repeat' first
    | with_reducible assumption | with_reducible apply ctlAll_keeps

theorem lcReached_keeps {s0 s : State} (h : Keeps s0 s) : Keeps s0 (lcReached s) := by
  unfold lcReached
  repeat' first
    | with_reducible assumption | with_reducible apply record_keeps | with_reducible apply raiseWith_keeps
    | with_reducible apply State.modPrime_keeps | with_reducible apply Keeps.ite

theorem roleDecided_keeps {s0 s : State} (h : Keeps s0 s) : Keeps s0 (roleDecided s) := by
  unfold roleDecided
  repeat' first
    | with_reducible assumption | with_reducible apply State.modTwin_keeps | with_reducible apply State.modPrime_keeps
    | with_reducible apply lcReached_keeps | with_reducible apply State.send_keeps | with_reducible apply Keeps.ite

theorem primeBitmap_keeps {s0 s : State} (h : Keeps s0 s) : Keeps s0 (primeBitmap s) := by
  unfold primeBitmap
  repeat' first
    | with_reducible assumption | with_reducible apply State.modTwin_keeps

theorem primeSolo_keeps {s0 s : State} (e : Epoch) (h : Keeps s0 s) : Keeps s0 (primeSolo e s) := by
  unfold primeSolo
  repeat' first
    | with_reducible assumption | with_reducible apply primeBitmap_keeps | with_reducible apply enterSolo_keeps
    | with_reducible apply roleDecided_keeps | with_reducible apply State.modPrime_keeps
    | with_reducible apply Keeps.ite

theorem pairStart_keeps {s0 s : State} (lsn : Lsn) (h : Keeps s0 s) : Keeps s0 (pairStart lsn s) := by
  unfold pairStart
  repeat' first
    | with_reducible assumption | with_reducible apply keepDigest_keeps | with_reducible apply freshCredit_keeps
    | with_reducible apply State.modTwin_keeps

theorem primeActive_keeps {s0 s : State} (e : Epoch) (h : Keeps s0 s) : Keeps s0 (primeActive e s) := by
  unfold primeActive
  repeat' first
    | with_reducible assumption | with_reducible apply roleDecided_keeps | with_reducible apply enterActive_keeps
    | with_reducible apply pairStart_keeps

theorem primeStandby_keeps {s0 s : State} (e : Epoch) (h : Keeps s0 s) : Keeps s0 (primeStandby e s) := by
  unfold primeStandby
  repeat' first
    | with_reducible assumption | with_reducible apply roleDecided_keeps | with_reducible apply sendApplyAck_keeps
    | with_reducible apply enterStandby_keeps | with_reducible apply pairStart_keeps

theorem resyncReqs_keeps {s0 : State} : ∀ (n : Nat) (full : Bool) (l : List Nat) {s : State}, Keeps s0 s →
    Keeps s0 (resyncReqs n full l s)
  | 0, _, _, _, h => h
  | n + 1, full, _, _, h => Keeps.ite (sendData_keeps _ h) (resyncReqs_keeps n full _ (sendData_keeps _ h))

theorem becomeReturner_keeps {s0 s : State} (e : Epoch) (full : Bool) (h : Keeps s0 s) :
    Keeps s0 (becomeReturner e full s) := by
  unfold becomeReturner
  repeat' first
    | with_reducible assumption | with_reducible apply enterStandby_keeps | with_reducible apply pairStart_keeps
    | with_reducible apply State.modTwin_keeps | with_reducible apply State.modPrime_keeps
    | with_reducible apply roleDecided_keeps | with_reducible apply resyncReqs_keeps

theorem takeDecision_keeps {s0 s : State} (d : HsDecision) (h : Keeps s0 s) : Keeps s0 (takeDecision d s) := by
  unfold takeDecision
  repeat' first
    | with_reducible assumption | with_reducible apply State.modPrime_keeps | with_reducible apply primeActive_keeps
    | with_reducible apply primeSolo_keeps | with_reducible apply primeStandby_keeps
    | with_reducible apply becomeReturner_keeps | with_reducible apply Keeps.ite | split

theorem meetDecide_keeps {s0 s : State} (h : Keeps s0 s) : Keeps s0 (meetDecide s) := by
  unfold meetDecide
  repeat' first
    | with_reducible assumption | with_reducible apply takeDecision_keeps | with_reducible apply State.modTwin_keeps
    | with_reducible apply Keeps.ite | split

theorem hsFrame_keeps {s0 s : State} (b : HsBody) (h : Keeps s0 s) : Keeps s0 (hsFrame b s) := by
  unfold hsFrame
  repeat' first
    | with_reducible assumption | with_reducible apply meetDecide_keeps | with_reducible apply State.modTwin_keeps
    | with_reducible apply sendHandshake_keeps | with_reducible apply Keeps.ite

theorem staleFrame_keeps {s0 s : State} (t : Nat) (h : Keeps s0 s) : Keeps s0 (staleFrame t s) := by
  unfold staleFrame
  repeat' first
    | with_reducible assumption | with_reducible apply State.modTport_keeps | with_reducible apply raiseWith_keeps
    | with_reducible apply Keeps.ite

theorem heard_keeps {s0 s : State} (h : Keeps s0 s) : Keeps s0 (heard s) := by
  unfold heard
  repeat' first
    | with_reducible assumption | with_reducible apply State.modTwin_keeps

theorem swapOver_keeps {s0 s : State} (cmd : Nat) (e : Epoch) (fromLsn : Lsn) (h : Keeps s0 s) :
    Keeps s0 (swapOver cmd e fromLsn s) := by
  unfold swapOver
  repeat' first
    | with_reducible assumption | with_reducible apply enterStandby_keeps | with_reducible apply freshCredit_keeps
    | with_reducible apply State.modTwin_keeps | with_reducible apply finish_keeps
    | with_reducible apply sendApplyAck_keeps | with_reducible apply keepDigest_keeps

theorem standbyEpoch_keeps {s0 s : State} (e : Epoch) (h : Keeps s0 s) : Keeps s0 (standbyEpoch e s) := by
  unfold standbyEpoch
  repeat' first
    | with_reducible assumption | with_reducible apply changeRole_keeps | with_reducible apply State.modTwin_keeps

theorem newerFrame_keeps {s0 s : State} (e : Epoch) (assigned : Option (Nat × Lsn)) (h : Keeps s0 s) :
    Keeps s0 (newerFrame e assigned s) := by
  unfold newerFrame
  repeat' first
    | with_reducible assumption | with_reducible intro _ | with_reducible apply swapOver_keeps
    | with_reducible apply heard_keeps | with_reducible apply enterFenced_keeps
    | with_reducible apply standbyEpoch_keeps | with_reducible apply sendRelinquish_keeps | exact Nat.le_refl _
    | dsimp only | split

theorem epochGate_keeps {s0 s : State} (a0_ : TwinHdr) (assigned : Option (Nat × Lsn)) (h : Keeps s0 s) :
    Keeps s0 (epochGate a0_ assigned s).1 := by
  unfold epochGate
  repeat' first
    | with_reducible assumption | with_reducible apply heard_keeps | with_reducible apply newerFrame_keeps
    | with_reducible apply staleFrame_keeps | with_reducible apply Keeps.fst_ite

theorem linkGate_keeps {s0 s : State} (hd : TwinHdr) (b : TwinBody) (h : Keeps s0 s) : Keeps s0 (linkGate hd b s).1
    := by
  unfold linkGate
  repeat' first
    | with_reducible assumption | with_reducible intro _ | with_reducible refine forEach_keeps _ ?_ ?_
    | with_reducible apply twinAcks_keeps | with_reducible apply twinAccept_keeps | with_reducible apply Keeps.ite
    | with_reducible apply KeepsO.ite | with_reducible apply KeepsO.some | with_reducible apply KeepsO.none
    | with_reducible apply Keeps.fst_ite

theorem twinFrame_keeps {s0 s : State} (a0_ : TwinHdr) (b : TwinBody) (assigned : Option (Nat × Lsn)) (act : State → State)
    (h_act : ∀ t, Keeps s0 t → Keeps s0 (act t)) (h : Keeps s0 s) :
    Keeps s0 (twinFrame a0_ b assigned act s) := by
  unfold twinFrame
  repeat' first
    | with_reducible assumption | with_reducible apply h_act | with_reducible apply linkGate_keeps
    | with_reducible apply epochGate_keeps | with_reducible apply settle_keeps | with_reducible apply Keeps.ite

theorem logFrame_keeps {s0 s : State} (lsn : Lsn) (e : LogEntry) (h : Keeps s0 s) : Keeps s0 (logFrame lsn e s) := by
  unfold logFrame
  repeat' first
    | with_reducible assumption | with_reducible apply State.modTwin_keeps | with_reducible apply State.modSump_keeps
    | with_reducible apply takeoverK1_keeps | with_reducible apply applyAll_keeps
    | with_reducible apply pumpFetches_keeps | with_reducible apply Keeps.ite | split

theorem clearTiles_keeps {s0 s : State} (a : Lsn) (h : Keeps s0 s) : Keeps s0 (clearTiles a s) := by
  unfold clearTiles
  repeat' first
    | with_reducible assumption | with_reducible apply State.modTwin_keeps

theorem applyAckFrame_keeps {s0 s : State} (a : Lsn) (credit : BitVec 32) (h : Keeps s0 s) :
    Keeps s0 (applyAckFrame a credit s) := by
  unfold applyAckFrame
  repeat' first
    | with_reducible assumption | with_reducible apply State.modTwin_keeps | with_reducible apply pumpFetches_keeps
    | with_reducible apply pumpLog_keeps | with_reducible apply clearTiles_keeps | with_reducible apply Keeps.ite

theorem primeBeat_keeps {s0 s : State} (port : Nat) (e : Epoch) (role : Nat) (h : Keeps s0 s) : Keeps s0 (primeBeat
    port e role s) := by
  unfold primeBeat
  repeat' first
    | with_reducible assumption | with_reducible intro _ | with_reducible refine forEach_keeps _ ?_ ?_
    | with_reducible apply becomeReturner_keeps | with_reducible apply heard_keeps
    | with_reducible apply staleFrame_keeps | with_reducible apply State.modPrime_keeps
    | with_reducible apply Keeps.ite

theorem digestFrame_keeps {s0 s : State} (port : Nat) (lsn : Lsn) (v : BitVec 64) (h : Keeps s0 s) :
    Keeps s0 (digestFrame port lsn v s) := by
  unfold digestFrame
  repeat' first
    | with_reducible assumption | with_reducible apply digestAnswer_keeps | with_reducible apply State.modTwin_keeps
    | with_reducible apply digestMatch_keeps | with_reducible apply digestMismatch_keeps
    | with_reducible apply Keeps.ite | split

theorem stopResync_keeps {s0 s : State} (h : Keeps s0 s) : Keeps s0 (stopResync s) := by
  unfold stopResync
  repeat' first
    | with_reducible assumption | with_reducible apply State.modTwin_keeps

theorem relinquishEvent_keeps {s0 s : State} (port : Nat) (h : Keeps s0 s) : Keeps s0 (relinquishEvent port s) := by
  unfold relinquishEvent
  repeat' first
    | with_reducible assumption | with_reducible apply raiseWith_keeps | with_reducible apply State.modTwin_keeps
    | with_reducible apply Keeps.ite

theorem relinquishFrame_keeps {s0 s : State} (port : Nat) (last : Lsn) (cause : Nat) (h : Keeps s0 s) :
    Keeps s0 (relinquishFrame port last cause s) := by
  unfold relinquishFrame
  repeat' first
    | with_reducible assumption | with_reducible intro _ | with_reducible apply relinquishEvent_keeps
    | with_reducible apply enterFenced_keeps | with_reducible apply takeoverK1_keeps
    | with_reducible apply State.modTwin_keeps | with_reducible apply enterSolo_keeps
    | with_reducible apply stopResync_keeps | with_reducible apply Keeps.ite | exact Nat.le_refl _ | dsimp only
    | split

theorem takeoverFrame_keeps {s0 s : State} (f : Lsn) (peer : Nat) (h : Keeps s0 s) : Keeps s0 (takeoverFrame f peer s) := by
  unfold takeoverFrame
  repeat' first
    | with_reducible assumption | with_reducible apply freshCredit_keeps | with_reducible apply State.modTwin_keeps
    | with_reducible apply sendApplyAck_keeps | with_reducible apply Keeps.ite

theorem fixSector_keeps {s0 s : State} (f : SentFetch) (data : Bytes) (mask : BitVec 4) (h : Keeps s0 s) :
    Keeps s0 (fixSector f data mask s) := by
  unfold fixSector
  repeat' first
    | with_reducible assumption | with_reducible apply modOp_keeps

theorem repairOv_keeps {s0 s : State} (ns : Nat) (off : Nat) (l : Nat) (data : Bytes) (mask : BitVec 4) (h : Keeps
    s0 s) : Keeps s0 (repairOv ns off l data mask s) := by
  unfold repairOv
  repeat' first
    | with_reducible assumption | with_reducible intro _ | with_reducible refine forEach_keeps _ ?_ ?_
    | with_reducible apply State.modSump_keeps | with_reducible apply poolWrite_keeps
    | with_reducible apply State.send_keeps | with_reducible apply Keeps.ite | with_reducible apply KeepsO.ite
    | with_reducible apply KeepsO.some | with_reducible apply KeepsO.none | with_reducible apply Keeps.fst_ite
    | with_reducible apply Keeps.snd_ite | with_reducible refine Keeps.ofEq (by assumption) ?_
    | with_reducible refine Keeps.ofEq2 (by assumption) ?_ | with_reducible refine KeepsO.get (by assumption) ?_
    | with_reducible refine KeepsO.getD ?_ ?_ | exact Nat.le_refl _ | exact List.length_map _
    | exact Nat.le_max_left _ _ | dsimp only | split

theorem repairSump_keeps {s0 s : State} (id : Nat) (data : Bytes) (mask : BitVec 4) (h : Keeps s0 s) :
    Keeps s0 (repairSump id data mask s) := by
  unfold repairSump
  repeat' first
    | with_reducible assumption | with_reducible intro _ | with_reducible apply State.modSump_keeps
    | with_reducible apply issueWrites_keeps | with_reducible apply Keeps.ite | exact Nat.le_refl _ | dsimp only
    | split

theorem fetchDone_keeps {s0 s : State} (f : SentFetch) (data : Bytes) (mask : BitVec 4) (h : Keeps s0 s) :
    Keeps s0 (fetchDone f data mask s) := by
  unfold fetchDone
  repeat' first
    | with_reducible assumption | with_reducible apply State.modTwin_keeps | with_reducible apply repairOv_keeps
    | with_reducible apply repairSump_keeps | with_reducible apply fixSector_keeps
    | with_reducible apply decideOutcome_keeps | with_reducible apply Keeps.ite | split

theorem logRecord_keeps {s0 s : State} (c : Cfg) (h : Keeps s0 s) : Keeps s0 (logRecord c s) := by
  unfold logRecord
  repeat' first
    | with_reducible assumption | with_reducible apply logControl_keeps

theorem resyncRecords_keeps {s0 s : State} (h : Keeps s0 s) : Keeps s0 (resyncRecords s) := by
  unfold resyncRecords
  repeat' first
    | with_reducible assumption | with_reducible intro _ | with_reducible refine forEach_keeps _ ?_ ?_
    | with_reducible apply logRecord_keeps | with_reducible apply logXport_keeps | exact Nat.le_refl _ | dsimp only
    | split

theorem resyncTakeover_keeps {s0 s : State} (h : Keeps s0 s) : Keeps s0 (resyncTakeover s) := by
  unfold resyncTakeover
  repeat' first
    | with_reducible assumption | with_reducible apply ctlAll_keeps | split

theorem startResync_keeps {s0 s : State} (h : Keeps s0 s) : Keeps s0 (startResync s) := by
  unfold startResync
  repeat' first
    | with_reducible assumption | with_reducible apply freshCredit_keeps | with_reducible apply State.modTwin_keeps
    | with_reducible apply resyncRecords_keeps | with_reducible apply resyncTakeover_keeps

theorem resyncReqFrame_keeps {s0 s : State} (full : Bool) (tiles : List Nat) (h : Keeps s0 s) :
    Keeps s0 (resyncReqFrame full tiles s) := by
  unfold resyncReqFrame
  repeat' first
    | with_reducible assumption | with_reducible apply State.modTwin_keeps | with_reducible apply startResync_keeps
    | with_reducible apply Keeps.ite

theorem walkEvent_keeps {s0 s : State} (idx : Nat) (h : Keeps s0 s) : Keeps s0 (walkEvent idx s) := by
  unfold walkEvent
  repeat' first
    | with_reducible assumption | with_reducible apply raiseWith_keeps | with_reducible apply State.modTwin_keeps
    | with_reducible apply Keeps.ite

theorem sendPiece_keeps {s0 s : State} (idx : Nat) (k : Nat) (g : Gather) (h : Keeps s0 s) :
    Keeps s0 (sendPiece idx k g s) := by
  unfold sendPiece
  repeat' first
    | with_reducible assumption | with_reducible apply endGather_keeps | with_reducible apply logEntry_keeps
    | with_reducible apply State.modTwin_keeps | with_reducible apply walkEvent_keeps | with_reducible apply Keeps.ite

theorem walkStep_keeps {s0 s : State} (h : Keeps s0 s) : Keeps s0 (walkStep s) := by
  unfold walkStep
  repeat' first
    | with_reducible assumption | with_reducible intro _ | with_reducible apply gatherRun_keeps
    | with_reducible apply sendPiece_keeps | with_reducible apply State.modTwin_keeps
    | with_reducible apply State.fresh_keeps | with_reducible apply Keeps.ite | exact Nat.le_refl _ | dsimp only
    | split

theorem soloOn_keeps {s0 s : State} (e : Epoch) (h : Keeps s0 s) : Keeps s0 (soloOn e s) := by
  unfold soloOn
  repeat' first
    | with_reducible assumption | with_reducible apply memActive_keeps | with_reducible apply enterSolo_keeps
    | with_reducible apply State.modTwin_keeps | with_reducible apply announceAll_keeps
    | with_reducible apply Keeps.ite

theorem leaseCheck_keeps {s0 s : State} (h : Keeps s0 s) : Keeps s0 (leaseCheck s) := by
  unfold leaseCheck
  repeat' first
    | with_reducible assumption | with_reducible apply enterFenced_keeps | with_reducible apply Keeps.ite

theorem peerSilent_keeps {s0 s : State} (h : Keeps s0 s) : Keeps s0 (peerSilent s) := by
  unfold peerSilent
  repeat' first
    | with_reducible assumption | with_reducible intro _ | with_reducible apply State.modTwin_keeps
    | with_reducible apply leaseCheck_keeps | with_reducible apply askWit_keeps | with_reducible apply soloOn_keeps
    | with_reducible apply enterFenced_keeps | with_reducible apply stopResync_keeps | with_reducible apply Keeps.ite
    | exact Nat.le_refl _ | dsimp only | split

theorem unknownPair_keeps {s0 s : State} (h : Keeps s0 s) : Keeps s0 (unknownPair s) := by
  unfold unknownPair
  repeat' first
    | with_reducible assumption | with_reducible apply portEvent_keeps | split

theorem renewGranted_keeps {s0 s : State} (r : WitReq) (server : Nat) (h : Keeps s0 s) :
    Keeps s0 (renewGranted r server s) := by
  unfold renewGranted
  repeat' first
    | with_reducible assumption | with_reducible apply State.modTwin_keeps | with_reducible apply askWit_keeps
    | with_reducible apply Keeps.ite | with_reducible refine KeepsO.getD ?_ ?_ | split

theorem takeGranted_keeps {s0 s : State} (e : Epoch) (h : Keeps s0 s) : Keeps s0 (takeGranted e s) := by
  unfold takeGranted
  repeat' first
    | with_reducible assumption | with_reducible intro _ | with_reducible refine forEach_keeps _ ?_ ?_
    | with_reducible apply primeSolo_keeps | with_reducible apply State.modPrime_keeps
    | with_reducible apply takeoverOn_keeps | with_reducible apply takeoverSolo_keeps
    | with_reducible apply takeoverHeld_keeps | with_reducible apply Keeps.ite | with_reducible apply KeepsO.ite
    | with_reducible apply KeepsO.some | with_reducible apply KeepsO.none | with_reducible apply Keeps.fst_ite
    | with_reducible apply Keeps.snd_ite | with_reducible refine Keeps.ofEq (by assumption) ?_
    | with_reducible refine Keeps.ofEq2 (by assumption) ?_ | with_reducible refine KeepsO.get (by assumption) ?_
    | with_reducible refine KeepsO.getD ?_ ?_ | exact Nat.le_refl _ | exact List.length_map _
    | exact Nat.le_max_left _ _ | dsimp only | split

theorem soloGranted_keeps {s0 s : State} (e : Epoch) (h : Keeps s0 s) : Keeps s0 (soloGranted e s) := by
  unfold soloGranted
  repeat' first
    | with_reducible assumption | with_reducible apply primeSolo_keeps | with_reducible apply State.modPrime_keeps
    | with_reducible apply soloOn_keeps | with_reducible apply Keeps.ite | split

theorem staleRefusal_keeps {s0 s : State} (h : Keeps s0 s) : Keeps s0 (staleRefusal s) := by
  unfold staleRefusal
  repeat' first
    | with_reducible assumption | with_reducible apply State.modPrime_keeps | with_reducible apply enterFenced_keeps
    | with_reducible apply sendRelinquish_keeps | split

theorem witReply_keeps {s0 s : State} (r : WitReq) (b : WitBody) (h : Keeps s0 s) : Keeps s0 (witReply r b s) := by
  unfold witReply
  extract_lets s1 lt s2 own
  have h1 : Keeps s0 s1 := State.modTwin_keeps _ h
  have h2 : Keeps s0 s2 := Keeps.ite (State.modTwin_keeps _ h1) h1
  have hl (a n : Nat) {t : State} (ht : Keeps s0 t) : Keeps s0 (lt a n t) := State.modTwin_keeps _ ht
  clear_value s1 lt s2 own
  refine Keeps.ite (enterFenced_keeps _ h2) ?_
  split
  · exact renewGranted_keeps _ _ h2
  · exact takeGranted_keeps _ h2
  · exact soloGranted_keeps _ h2
  · exact staleRefusal_keeps h2
  · exact hl _ _ h2
  · exact Keeps.ite (hl _ _ h2) (enterFenced_keeps _ h2)
  · exact h2
  · exact hl _ _ (askWit_keeps _ h2)
  · exact Keeps.ite (hl _ _ h2) h2
  · exact hl _ _ (unknownPair_keeps h2)
  · exact h2

theorem newerReply_keeps {s0 s : State} (b : WitBody) (h : Keeps s0 s) : Keeps s0 (newerReply b s) := by
  unfold newerReply
  repeat' first
    | with_reducible assumption | with_reducible intro _ | with_reducible refine forEach_keeps _ ?_ ?_
    | with_reducible apply enterFenced_keeps | with_reducible apply Keeps.ite

end Sys2Proof.Machine
end

