-- ==== Sys2Proof/Laws/KeepsRest.lean ====
section
/-! SUPPORT. `Keeps` through the operations of the other families. -/

namespace Sys2Proof.Machine

open Sys2Proof











theorem marginDone_keeps {s0 s : State} (i : Nat) (h : Keeps s0 s) : Keeps s0 (marginDone i s) := by
  unfold marginDone
  repeat' first
    | with_reducible assumption | with_reducible apply finishAll_keeps | with_reducible apply State.modPower_keeps
    | with_reducible apply Keeps.ite | split

theorem railNowGood_keeps {s0 s : State} (i : Nat) (h : Keeps s0 s) : Keeps s0 (railNowGood i s) := by
  unfold railNowGood
  repeat' first
    | with_reducible assumption | with_reducible apply marginDone_keeps | with_reducible apply State.modRail_keeps
    | with_reducible apply wakeNext_keeps | with_reducible apply railsChanged_keeps | with_reducible apply Keeps.ite
    | split

theorem railNowOff_keeps {s0 s : State} (i : Nat) (h : Keeps s0 s) : Keeps s0 (railNowOff i s) := by
  unfold railNowOff
  repeat' first
    | with_reducible assumption | with_reducible apply State.modRail_keeps | with_reducible apply State.modPower_keeps
    | with_reducible apply railsChanged_keeps | with_reducible apply fallFrom_keeps | with_reducible apply Keeps.ite
    | split

theorem railLost_keeps {s0 s : State} (i : Nat) (h : Keeps s0 s) : Keeps s0 (railLost i s) := by
  unfold railLost
  repeat' first
    | with_reducible assumption | with_reducible apply railFault_keeps | with_reducible apply State.modRail_keeps
    | with_reducible apply powerLog_keeps | with_reducible apply drawerFault_keeps
    | with_reducible apply firstFailure_keeps | with_reducible apply powerFailure_keeps
    | with_reducible apply noteFailure_keeps | with_reducible apply Keeps.ite | split

theorem judgeRail_keeps {s0 s : State} (i : Nat) (h : Keeps s0 s) : Keeps s0 (judgeRail i s) := by
  unfold judgeRail
  repeat' first
    | with_reducible assumption | with_reducible apply railNowGood_keeps | with_reducible apply railLost_keeps
    | with_reducible apply railNowOff_keeps | with_reducible apply State.modRail_keeps
    | with_reducible apply Keeps.ite

theorem missedBound_keeps {s0 s : State} (c : Nat) (h : Keeps s0 s) : Keeps s0 (missedBound c s) := by
  unfold missedBound
  repeat' first
    | with_reducible assumption | with_reducible apply moduleFailed_keeps | with_reducible apply State.modChan_keeps
    | with_reducible apply Keeps.ite

theorem recoverGroup_keeps {s0 s : State} (unclean : Bool) (g : Nat) (h : Keeps s0 s) :
    Keeps s0 (recoverGroup unclean g s) := by
  unfold recoverGroup
  repeat' first
    | with_reducible assumption | with_reducible intro _ | with_reducible refine forEach_keeps _ ?_ ?_
    | with_reducible apply State.modNv_keeps | with_reducible apply openOp_keeps

theorem lowCheck_keeps {s0 s : State} (h : Keeps s0 s) : Keeps s0 (lowCheck s) := by
  unfold lowCheck
  repeat' first
    | with_reducible assumption | with_reducible apply raise_keeps | with_reducible apply State.modDura_keeps
    | with_reducible apply Keeps.ite

theorem entryRoom_keeps {s0 s : State} (h : Keeps s0 s) : KeepsO s0 (entryRoom s) := by
  intro t e
  unfold entryRoom at e
  dsimp only at e
  split at e
  · obtain ⟨x, hx, rfl⟩ := Option.map_eq_some_iff.mp e
    exact poolNeed_keeps h hx
  · cases e
    exact h

theorem spillOne_keeps {s0 s : State} (h : Keeps s0 s) : KeepsO s0 (spillOne s) := by
  unfold spillOne
  repeat' first
    | with_reducible assumption | with_reducible intro _ | with_reducible refine forEach_keeps _ ?_ ?_
    | with_reducible apply entryRoom_keeps | with_reducible apply State.modSump_keeps
    | with_reducible apply ovMerge_keeps | with_reducible apply Keeps.ite | with_reducible apply KeepsO.ite
    | with_reducible apply KeepsO.some | with_reducible apply KeepsO.none | with_reducible apply Keeps.fst_ite
    | with_reducible apply Keeps.snd_ite | with_reducible refine Keeps.ofEq (by assumption) ?_
    | with_reducible refine Keeps.ofEq2 (by assumption) ?_ | with_reducible refine KeepsO.get (by assumption) ?_
    | with_reducible refine KeepsO.getD ?_ ?_ | exact Nat.le_refl _ | exact List.length_map _
    | exact Nat.le_max_left _ _ | dsimp only | split

theorem spillMove_keeps {s0 s : State} (h : Keeps s0 s) : KeepsO s0 (spillMove s) :=
  KeepsO.ite (spillOne_keeps (spillCheck_keeps h)) KeepsO.none

theorem spillAll_keeps {s0 s : State} (h : Keeps s0 s) : Keeps s0 (spillAll s) :=
  spillCheck_keeps (untilNone_keeps (fun _ k => spillMove_keeps k) _ h)

theorem mediaStalled_keeps {s0 s : State} (h : Keeps s0 s) : Keeps s0 (mediaStalled s) := by
  unfold mediaStalled
  repeat' first
    | with_reducible assumption | with_reducible apply enterFenced_keeps | with_reducible apply sendRelinquish_keeps
    | split

theorem bootMark_keeps {s0 s : State} (b : Nat) (kind : Nat) (img : Nat) (q : Nat) (cmd : Nat) (h : Keeps s0 s) :
    Keeps s0 (bootMark b kind img q cmd s) := by
  unfold bootMark
  repeat' first
    | with_reducible assumption | with_reducible intro _ | with_reducible refine forEach_keeps _ ?_ ?_
    | with_reducible apply flashQueue_keeps

theorem bootWord_keeps {s0 s : State} (kind : Nat) (img : Nat) (cmd : Nat) (h : Keeps s0 s) : Keeps s0 (bootWord
    kind img cmd s) := by
  unfold bootWord
  repeat' first
    | with_reducible assumption | with_reducible intro _ | with_reducible refine forEach_keeps _ ?_ ?_
    | with_reducible apply bootMark_keeps | with_reducible apply State.modFlash_keeps | with_reducible apply Keeps.ite
    | with_reducible apply KeepsO.ite | with_reducible apply KeepsO.some | with_reducible apply KeepsO.none
    | with_reducible apply Keeps.fst_ite | with_reducible apply Keeps.snd_ite
    | with_reducible refine Keeps.ofEq (by assumption) ?_ | with_reducible refine Keeps.ofEq2 (by assumption) ?_
    | with_reducible refine KeepsO.get (by assumption) ?_ | with_reducible refine KeepsO.getD ?_ ?_
    | exact Nat.le_refl _ | exact List.length_map _ | exact Nat.le_max_left _ _ | dsimp only

theorem imageDone_keeps {s0 s : State} (off : Nat) (d : Bytes) (cmd : Nat) (h : Keeps s0 s) :
    Keeps s0 (imageDone off d cmd s) := by
  unfold imageDone
  repeat' first
    | with_reducible assumption | with_reducible apply finish_keeps | with_reducible apply State.modFlash_keeps
    | split | rfl

theorem raiseSecMin_keeps {s0 s : State} (h : Keeps s0 s) : Keeps s0 (raiseSecMin s) := by
  unfold raiseSecMin
  repeat' first
    | with_reducible assumption | with_reducible apply State.modFlash_keeps | with_reducible apply Keeps.ite | split
    | rfl

theorem markHalfErased_keeps {s0 s : State} (h : Keeps s0 s) : Keeps s0 (markHalfErased s) := by
  unfold markHalfErased
  repeat' first
    | with_reducible assumption | with_reducible intro _ | with_reducible apply State.modFlash_keeps
    | refine Keeps.ofEq (by assumption) ?_ | refine Keeps.ofEq2 (by assumption) ?_ | exact Nat.le_refl _
    | exact Nat.le_max_left _ _ | dsimp only | split | rfl | decide | trivial | assumption | simp

theorem reEraseAll_keeps {s0 s : State} (h : Keeps s0 s) : Keeps s0 (reEraseAll s) := by
  unfold reEraseAll
  repeat' first
    | with_reducible assumption | with_reducible intro _ | with_reducible refine forEach_keeps _ ?_ ?_
    | with_reducible apply State.modFbank_keeps | with_reducible apply raiseWith_keeps

theorem runReached_keeps {s0 s : State} (h : Keeps s0 s) : Keeps s0 (runReached s) := by
  unfold runReached
  repeat' first
    | with_reducible assumption | with_reducible apply powerLog_keeps | with_reducible apply raiseSecMin_keeps
    | with_reducible apply State.modPrime_keeps | with_reducible apply announceAll_keeps
    | with_reducible apply memActive_keeps | with_reducible apply State.modTwin_keeps | with_reducible apply Keeps.ite

theorem atState_keeps {s0 s : State} (n : Nat) (up : Bool) (h : Keeps s0 s) : Keeps s0 (atState n up s) := by
  unfold atState
  repeat' first
    | with_reducible assumption | with_reducible apply powerOff_keeps | with_reducible apply State.modPower_keeps
    | with_reducible apply abandon_keeps | with_reducible apply runReached_keeps
    | with_reducible apply chargeCheck_keeps | with_reducible apply offRequest_keeps
    | with_reducible apply goDown_keeps | with_reducible apply State.modPrime_keeps
    | with_reducible apply powerLog_keeps | with_reducible apply pullLine_keeps
    | with_reducible apply beginPriming_keeps | with_reducible apply Keeps.ite

theorem soloStart_keeps {s0 s : State} (h : Keeps s0 s) : Keeps s0 (soloStart s) := by
  unfold soloStart
  repeat' first
    | with_reducible assumption | with_reducible intro _ | with_reducible refine forEach_keeps _ ?_ ?_
    | with_reducible apply abandon_keeps | with_reducible apply State.modPower_keeps
    | with_reducible apply railsChanged_keeps | with_reducible apply enableRail_keeps

theorem startStep4_keeps {s0 s : State} (h : Keeps s0 s) : Keeps s0 (startStep4 s) := by
  unfold startStep4
  repeat' first
    | with_reducible assumption | with_reducible apply State.modPrime_keeps | with_reducible apply pullLine_keeps
    | with_reducible apply Keeps.ite

theorem cascadeEnd_keeps {s0 s : State} (parts : Nat) (h : Keeps s0 s) : Keeps s0 (cascadeEnd parts s) := by
  unfold cascadeEnd
  repeat' first
    | with_reducible assumption | with_reducible apply State.modPower_keeps | with_reducible apply startStep4_keeps
    | with_reducible apply Keeps.ite

theorem rollCallEnd_keeps {s0 s : State} (stuck : Nat) (h : Keeps s0 s) : Keeps s0 (rollCallEnd stuck s) := by
  unfold rollCallEnd
  repeat' first
    | with_reducible assumption | with_reducible apply powerLog_keeps | with_reducible apply State.modPower_keeps

theorem tryMeasure_keeps {s0 s : State} (h : Keeps s0 s) : Keeps s0 (tryMeasure s) := by
  unfold tryMeasure
  repeat' first
    | with_reducible assumption | with_reducible apply chargeCheck_keeps | with_reducible apply State.modPower_keeps
    | with_reducible apply Keeps.ite

theorem judgeCistern_keeps {s0 s : State} (v0 : Nat) (v1 : Nat) (v2 : Nat) (h : Keeps s0 s) :
    Keeps s0 (judgeCistern v0 v1 v2 s) := by
  unfold judgeCistern
  repeat' first
    | with_reducible assumption | with_reducible apply State.modPower_keeps | with_reducible apply powerLog_keeps
    | with_reducible apply finishAll_keeps | with_reducible apply chargeCheck_keeps | with_reducible apply Keeps.ite

theorem marginRefused_keeps {s0 s : State} (m : Margin) (h : Keeps s0 s) : Keeps s0 (marginRefused m s) := by
  unfold marginRefused
  repeat' first
    | with_reducible assumption | with_reducible apply finishAll_keeps | with_reducible apply State.modPower_keeps

theorem issueRefresh_keeps {s0 s : State} (ch : Nat) (h : Keeps s0 s) : Keeps s0 (issueRefresh ch s) := by
  unfold issueRefresh
  repeat' first
    | with_reducible assumption | with_reducible intro _ | with_reducible refine forEach_keeps _ ?_ ?_
    | with_reducible apply State.send_keeps | with_reducible apply State.modDrch_keeps

theorem zqRun_keeps {s0 s : State} (ch : Nat) (rank : Nat) (h : Keeps s0 s) : Keeps s0 (zqRun ch rank s) := by
  unfold zqRun
  repeat' first
    | with_reducible assumption | with_reducible apply State.modDrch_keeps | with_reducible apply State.send_keeps

theorem selfExit_keeps {s0 s : State} (ch : Nat) (h : Keeps s0 s) : Keeps s0 (selfExit ch s) := by
  unfold selfExit
  repeat' first
    | with_reducible assumption | with_reducible apply State.modDrch_keeps | with_reducible apply Keeps.ite

theorem activate_keeps {s0 s : State} (p : DramAddr) (h : Keeps s0 s) : Keeps s0 (activate p s) := by
  unfold activate
  repeat' first
    | with_reducible assumption | with_reducible apply State.modDrch_keeps | with_reducible apply State.send_keeps
    | with_reducible apply raiseWith_keeps | with_reducible apply Keeps.ite

theorem retireRow_keeps {s0 s : State} (p : DramAddr) (h : Keeps s0 s) : Keeps s0 (retireRow p s) := by
  unfold retireRow
  repeat' first
    | with_reducible assumption | with_reducible apply State.modDrch_keeps | with_reducible apply flashQueue_keeps
    | with_reducible apply State.modDram_keeps | with_reducible apply Keeps.ite

theorem wordCorrected_keeps {s0 s : State} (p : DramAddr) (h : Keeps s0 s) : Keeps s0 (wordCorrected p s) := by
  unfold wordCorrected
  repeat' first
    | with_reducible assumption | with_reducible apply State.modDrch_keeps | with_reducible apply raiseWith_keeps
    | with_reducible apply retireRow_keeps | with_reducible apply Keeps.ite

theorem drainPoison_keeps {s0 s : State} (ns : Nat) (cw : Nat) (l : Nat) (h : Keeps s0 s) :
    Keeps s0 (drainPoison ns cw l s) := by
  unfold drainPoison
  repeat' first
    | with_reducible assumption | with_reducible intro _ | with_reducible apply repairOv_keeps
    | with_reducible apply writeTiles_keeps | exact Nat.le_refl _ | dsimp only | split

theorem ovUncorrectable_keeps {s0 s : State} (e : OvEntry) (l : Nat) (h : Keeps s0 s) : Keeps s0 (ovUncorrectable e l s) := by
  unfold ovUncorrectable
  repeat' first
    | with_reducible assumption | with_reducible apply drainPoison_keeps | with_reducible apply sendRepair_keeps
    | with_reducible apply repairOv_keeps | with_reducible apply Keeps.ite

theorem dropCopy_keeps {s0 s : State} (p : PoolPage) (cw : Nat) (h : Keeps s0 s) : Keeps s0 (dropCopy p cw s) := by
  unfold dropCopy
  repeat' first
    | with_reducible assumption | with_reducible apply State.modSump_keeps

theorem cleanUncorrectable_keeps {s0 s : State} (client : Nat) (v : Nat) (h : Keeps s0 s) :
    Keeps s0 (cleanUncorrectable client v s) := by
  unfold cleanUncorrectable
  repeat' first
    | with_reducible assumption | with_reducible intro _ | with_reducible apply dropCopy_keeps
    | with_reducible apply schedSlip_keeps | with_reducible apply Keeps.ite | exact Nat.le_refl _ | dsimp only | split

theorem connUncorrectable_keeps {s0 s : State} (v : Nat) (h : Keeps s0 s) : Keeps s0 (connUncorrectable v s) := by
  unfold connUncorrectable
  repeat' first
    | with_reducible assumption | with_reducible intro _ | with_reducible apply dropEvent_keeps
    | with_reducible apply dropAndRelease_keeps | with_reducible apply nakDrop_keeps | with_reducible apply Keeps.ite
    | exact Nat.le_refl _ | dsimp only | split

theorem keysUncorrectable_keeps {s0 s : State} (v : Nat) (h : Keeps s0 s) : Keeps s0 (keysUncorrectable v s) := by
  unfold keysUncorrectable
  repeat' first
    | with_reducible assumption | with_reducible intro _ | with_reducible refine forEach_keeps _ ?_ ?_
    | with_reducible apply connError_keeps | with_reducible apply failContext_keeps
    | with_reducible apply State.modCipher_keeps | with_reducible apply Keeps.ite | with_reducible apply KeepsO.ite
    | with_reducible apply KeepsO.some | with_reducible apply KeepsO.none | with_reducible apply Keeps.fst_ite
    | with_reducible apply Keeps.snd_ite | with_reducible refine Keeps.ofEq (by assumption) ?_
    | with_reducible refine Keeps.ofEq2 (by assumption) ?_ | with_reducible refine KeepsO.get (by assumption) ?_
    | with_reducible refine KeepsO.getD ?_ ?_ | exact Nat.le_refl _ | exact List.length_map _
    | exact Nat.le_max_left _ _ | dsimp only | split

theorem metaUncorrectable_keeps {s0 s : State} (v : Nat) (h : Keeps s0 s) : Keeps s0 (metaUncorrectable v s) := by
  unfold metaUncorrectable
  repeat' first
    | with_reducible assumption | with_reducible apply relinquishCause_keeps | with_reducible apply Keeps.ite

theorem bitmapUncorrectable_keeps {s0 s : State} (v : Nat) (h : Keeps s0 s) : Keeps s0 (bitmapUncorrectable v s) := by
  unfold bitmapUncorrectable
  repeat' first
    | with_reducible assumption | with_reducible apply State.modTwin_keeps

theorem clientOutcome_keeps {s0 s : State} (client : Nat) (v : Nat) (h : Keeps s0 s) : Keeps s0 (clientOutcome client v s) := by
  unfold clientOutcome
  repeat' first
    | with_reducible assumption | with_reducible apply ovUncorrectable_keeps
    | with_reducible apply cleanUncorrectable_keeps | with_reducible apply connUncorrectable_keeps
    | with_reducible apply keysUncorrectable_keeps | with_reducible apply metaUncorrectable_keeps
    | with_reducible apply bitmapUncorrectable_keeps | split

theorem wordUncorrectable_keeps {s0 s : State} (p : DramAddr) (addr : Nat) (h : Keeps s0 s) :
    Keeps s0 (wordUncorrectable p addr s) := by
  unfold wordUncorrectable
  repeat' first
    | with_reducible assumption | with_reducible apply State.freeVal_keeps | with_reducible apply State.modDrch_keeps
    | with_reducible apply raiseWith_keeps | with_reducible apply record_keeps
    | with_reducible apply clientOutcome_keeps | with_reducible apply retireRow_keeps | with_reducible apply Keeps.ite

theorem wordRead_keeps {s0 s : State} (addr : Nat) (w : BitVec 64 × BitVec 8) (h : Keeps s0 s) : Keeps s0 (wordRead
    addr w s) := by
  unfold wordRead
  repeat' first
    | with_reducible assumption | with_reducible intro _ | with_reducible refine forEach_keeps _ ?_ ?_
    | with_reducible apply wordCorrected_keeps | with_reducible apply State.send_keeps
    | with_reducible apply settle_keeps | with_reducible apply wordUncorrectable_keeps
    | with_reducible apply Keeps.ite | with_reducible apply KeepsO.ite | with_reducible apply KeepsO.some
    | with_reducible apply KeepsO.none | with_reducible apply Keeps.fst_ite | with_reducible apply Keeps.snd_ite
    | refine Keeps.ofEq (by assumption) ?_ | refine Keeps.ofEq2 (by assumption) ?_
    | refine KeepsO.get (by assumption) ?_ | refine KeepsO.getD ?_ ?_ | exact Nat.le_refl _
    | exact Nat.le_max_left _ _ | dsimp only | split

theorem sendPending_keeps {s0 s : State} (vs : List Nat) (h : Keeps s0 s) : Keeps s0 (sendPending vs s) := by
  unfold sendPending
  repeat' first
    | with_reducible assumption | with_reducible intro _ | with_reducible refine forEach_keeps _ ?_ ?_
    | with_reducible apply sendVector_keeps | with_reducible apply State.modEv_keeps | with_reducible apply Keeps.ite
    | refine Keeps.ofEq (by assumption) ?_ | refine Keeps.ofEq2 (by assumption) ?_ | exact Nat.le_refl _
    | exact Nat.le_max_left _ _ | dsimp only | split | rfl | decide | trivial

theorem rebuildCdat_keeps {s0 s : State} (h : Keeps s0 s) : Keeps s0 (rebuildCdat s) := by
  unfold rebuildCdat
  repeat' first
    | with_reducible assumption | with_reducible apply State.modHost_keeps | with_reducible refine KeepsO.getD ?_ ?_
    | split | rfl

theorem cxlRequest_keeps {s0 s : State} (f : State → State) (h_f : ∀ t, Keeps s0 t → Keeps s0 (f t)) (h : Keeps s0 s) :
    KeepsR s0 (cxlRequest f s) := by
  unfold cxlRequest
  repeat' first
    | with_reducible assumption | with_reducible apply h_f | with_reducible apply settle_keeps
    | with_reducible apply State.modHost_keeps | with_reducible apply KeepsR.next | with_reducible apply KeepsR.ite
    | with_reducible apply Keeps.ite | split | rfl

theorem cxlServe_keeps {s0 s : State} (tag : Nat) (a : Nat × Nat) (h : Keeps s0 s) : Keeps s0 (cxlServe tag a s) := by
  unfold cxlServe
  repeat' first
    | with_reducible assumption | with_reducible apply State.fresh_keeps | with_reducible apply gatherRun_keeps

theorem cxlRead_keeps {s0 s : State} (tag : Nat) (hpa : Nat) (h : Keeps s0 s) : Keeps s0 (cxlRead tag hpa s) := by
  unfold cxlRead
  repeat' first
    | with_reducible assumption | with_reducible apply cxlServe_keeps | with_reducible apply cxlReadRefused_keeps
    | split

theorem cxlNoop_keeps {s0 s : State} (tag : Nat) (hpa : Nat) (h : Keeps s0 s) : Keeps s0 (cxlNoop tag hpa s) := by
  unfold cxlNoop
  repeat' first
    | with_reducible assumption | with_reducible intro _ | with_reducible refine forEach_keeps _ ?_ ?_
    | with_reducible apply rasError_keeps | with_reducible apply State.modHost_keeps
    | with_reducible apply State.send_keeps | with_reducible apply Keeps.ite | with_reducible apply KeepsO.ite
    | with_reducible apply KeepsO.some | with_reducible apply KeepsO.none | with_reducible apply Keeps.fst_ite
    | with_reducible apply Keeps.snd_ite | with_reducible refine Keeps.ofEq (by assumption) ?_
    | with_reducible refine Keeps.ofEq2 (by assumption) ?_ | with_reducible refine KeepsO.get (by assumption) ?_
    | with_reducible refine KeepsO.getD ?_ ?_ | exact Nat.le_refl _ | exact List.length_map _
    | exact Nat.le_max_left _ _ | dsimp only

theorem cxlStore_keeps {s0 s : State} (tag hpa : Nat) (img : Img) (poison : Bool) (h : Keeps s0 s) :
    Keeps s0 (cxlStore tag hpa img poison s) := by
  unfold cxlStore
  split
  · exact cxlWrite_keeps _ (Keeps.ite (State.modHost_keeps _ h rfl) h)
  · exact cxlWriteRefused_keeps _ h

theorem drainHeld_keeps {s0 s : State} (h : Keeps s0 s) : Keeps s0 (drainHeld s) := by
  unfold drainHeld
  repeat' first
    | with_reducible assumption | with_reducible intro _ | with_reducible refine forEach_keeps _ ?_ ?_
    | with_reducible apply placeCxl_keeps | with_reducible apply State.modDura_keeps | with_reducible apply Keeps.ite

theorem hostLinkDown_keeps {s0 s : State} (h : Keeps s0 s) : Keeps s0 (hostLinkDown s) := by
  unfold hostLinkDown
  repeat' first
    | with_reducible assumption | with_reducible intro _ | with_reducible refine forEach_keeps _ ?_ ?_
    | with_reducible apply State.modHost_keeps | with_reducible apply Keeps.ite | with_reducible apply KeepsO.ite
    | with_reducible apply KeepsO.some | with_reducible apply KeepsO.none | with_reducible apply Keeps.fst_ite
    | with_reducible apply Keeps.snd_ite | with_reducible refine Keeps.ofEq (by assumption) ?_
    | with_reducible refine Keeps.ofEq2 (by assumption) ?_ | with_reducible refine KeepsO.get (by assumption) ?_
    | with_reducible refine KeepsO.getD ?_ ?_ | exact Nat.le_refl _ | exact List.length_map _
    | exact Nat.le_max_left _ _ | dsimp only

theorem hostReset_keeps {s0 s : State} (h : Keeps s0 s) : Keeps s0 (hostReset s) := by
  unfold hostReset
  repeat' first
    | with_reducible assumption | with_reducible intro _ | with_reducible refine forEach_keeps _ ?_ ?_
    | with_reducible apply hostLinkDown_keeps | with_reducible apply State.modPrime_keeps
    | with_reducible apply drainHeld_keeps | with_reducible apply State.modHost_keeps | with_reducible apply Keeps.ite
    | with_reducible apply KeepsO.ite | with_reducible apply KeepsO.some | with_reducible apply KeepsO.none
    | with_reducible apply Keeps.fst_ite | with_reducible apply Keeps.snd_ite
    | with_reducible refine Keeps.ofEq (by assumption) ?_ | with_reducible refine Keeps.ofEq2 (by assumption) ?_
    | with_reducible refine KeepsO.get (by assumption) ?_ | with_reducible refine KeepsO.getD ?_ ?_
    | exact Nat.le_refl _ | exact List.length_map _ | exact Nat.le_max_left _ _ | dsimp only

theorem cxlCommand_keeps {s0 s : State} (f : State → State) (h_f : ∀ t, Keeps s0 t → Keeps s0 (f t)) (h : Keeps s0 s) :
    KeepsR s0 (cxlCommand f s) := by
  unfold cxlCommand
  repeat' first
    | with_reducible assumption | with_reducible apply h_f | with_reducible apply KeepsR.next
    | with_reducible apply KeepsR.ite | with_reducible apply Keeps.ite

theorem readFuses_keeps {s0 s : State} (h : Keeps s0 s) : Keeps s0 (readFuses s) := by
  unfold readFuses
  repeat' first
    | with_reducible assumption | with_reducible intro _ | with_reducible refine forEach_keeps _ ?_ ?_
    | with_reducible apply State.modTest_keeps | with_reducible apply State.modRail_keeps
    | with_reducible apply markHalfErased_keeps | with_reducible apply State.modPower_keeps
    | with_reducible apply Keeps.ite | exact Nat.le_refl _

theorem markRecord_keeps {s0 s : State} (kind : Nat) (unit : Nat) (h : Keeps s0 s) : Keeps s0 (markRecord kind unit s) := by
  unfold markRecord
  repeat' first
    | with_reducible assumption | with_reducible apply record_keeps

theorem cisternFailed_keeps {s0 s : State} (h : Keeps s0 s) : Keeps s0 (cisternFailed s) := by
  unfold cisternFailed
  repeat' first
    | with_reducible assumption | with_reducible apply powerLog_keeps | with_reducible apply State.modPower_keeps

theorem analogMark_keeps {s0 s : State} (f : AnalogFail) (h : Keeps s0 s) : Keeps s0 (analogMark f s) := by
  unfold analogMark
  repeat' first
    | with_reducible assumption | with_reducible apply markRecord_keeps | with_reducible apply missedBound_keeps
    | with_reducible apply State.modTest_keeps | with_reducible apply State.modTport_keeps
    | with_reducible apply cisternFailed_keeps | with_reducible apply State.modDrch_keeps | split | rfl

theorem analogDone_keeps {s0 s : State} (l : List AnalogFail) (h : Keeps s0 s) : Keeps s0 (analogDone l s) := by
  unfold analogDone
  repeat' first
    | with_reducible assumption | with_reducible intro _ | with_reducible refine forEach_keeps _ ?_ ?_
    | with_reducible apply State.modTest_keeps | with_reducible apply analogMark_keeps
    | with_reducible apply raise_keeps | with_reducible apply Keeps.ite | exact Nat.le_refl _

theorem enginesUp_keeps {s0 s : State} (h : Keeps s0 s) : Keeps s0 (enginesUp s) := by
  unfold enginesUp
  repeat' first
    | with_reducible assumption | with_reducible intro _ | with_reducible refine forEach_keeps _ ?_ ?_
    | with_reducible apply State.modEngine_keeps

theorem sramMark_keeps {s0 s : State} (b : SramBlock) (h : Keeps s0 s) : Keeps s0 (sramMark b s) := by
  unfold sramMark
  repeat' first
    | with_reducible assumption | with_reducible apply markRecord_keeps | with_reducible apply State.modSump_keeps
    | with_reducible apply State.modTest_keeps | with_reducible apply engineOut_keeps | split | rfl

theorem pendingMarks_keeps {s0 s : State} (h : Keeps s0 s) : Keeps s0 (pendingMarks s) := by
  unfold pendingMarks
  repeat' first
    | with_reducible assumption | with_reducible intro _ | with_reducible refine forEach_keeps _ ?_ ?_
    | with_reducible apply State.modTest_keeps | with_reducible apply sramMark_keeps | exact Nat.le_refl _

theorem massErase_keeps {s0 s : State} (h : Keeps s0 s) : Keeps s0 (massErase s) :=
  ⟨h.1, h.2, h.3, h.4, h.5, fun i => ⟨(h.6 i).1, (h.6 i).2, rfl, rfl, (h.6 i).5⟩⟩

theorem bootArray_keeps {s0 s : State} (h : Keeps s0 s) : Keeps s0 (bootArray s) := by
  unfold bootArray
  repeat' first
    | with_reducible assumption | with_reducible intro _ | with_reducible refine forEach_keeps _ ?_ ?_
    | with_reducible apply massErase_keeps | with_reducible apply reEraseAll_keeps
    | with_reducible apply flashMarks_keeps | with_reducible apply State.modFlash_keeps
    | with_reducible apply Keeps.ite | with_reducible apply KeepsO.ite | with_reducible apply KeepsO.some
    | with_reducible apply KeepsO.none | with_reducible apply Keeps.fst_ite | with_reducible apply Keeps.snd_ite
    | with_reducible refine Keeps.ofEq (by assumption) ?_ | with_reducible refine Keeps.ofEq2 (by assumption) ?_
    | with_reducible refine KeepsO.get (by assumption) ?_ | with_reducible refine KeepsO.getD ?_ ?_
    | exact Nat.le_refl _ | exact List.length_map _ | exact Nat.le_max_left _ _ | dsimp only

theorem bootFailed_keeps {s0 s : State} (h : Keeps s0 s) : Keeps s0 (bootFailed s) := by
  unfold bootFailed
  repeat' first
    | with_reducible assumption | with_reducible apply State.modPrime_keeps

theorem bootStep_keeps {s0 s : State} (h : Keeps s0 s) : Keeps s0 (bootStep s) := by
  unfold bootStep
  repeat' first
    | with_reducible assumption | with_reducible intro _ | with_reducible refine forEach_keeps _ ?_ ?_
    | with_reducible apply bootArray_keeps | with_reducible apply bootFailed_keeps
    | with_reducible apply State.modPrime_keeps | with_reducible apply State.modTest_keeps
    | with_reducible apply pendingMarks_keeps | with_reducible apply raiseWith_keeps
    | with_reducible apply State.freeVal_keeps | with_reducible apply Keeps.ite | with_reducible apply KeepsO.ite
    | with_reducible apply KeepsO.some | with_reducible apply KeepsO.none | with_reducible apply Keeps.fst_ite
    | with_reducible apply Keeps.snd_ite | with_reducible refine Keeps.ofEq (by assumption) ?_
    | with_reducible refine Keeps.ofEq2 (by assumption) ?_ | with_reducible refine KeepsO.get (by assumption) ?_
    | with_reducible refine KeepsO.getD ?_ ?_ | exact Nat.le_refl _ | exact List.length_map _
    | exact Nat.le_max_left _ _ | dsimp only | split

theorem calStep_keeps {s0 s : State} (ok : Bool) (h : Keeps s0 s) : Keeps s0 (calStep ok s) := by
  unfold calStep
  repeat' first
    | with_reducible assumption | with_reducible intro _ | with_reducible refine forEach_keeps _ ?_ ?_
    | with_reducible apply analogMark_keeps | with_reducible apply State.modTest_keeps
    | with_reducible apply State.modCipher_keeps | with_reducible apply State.modPrime_keeps
    | with_reducible apply Keeps.ite | exact Nat.le_refl _ | dsimp only

theorem repairRow_keeps {s0 s : State} (e : Nat × Nat × Nat × Nat) (h : Keeps s0 s) : Keeps s0 (repairRow e s) := by
  unfold repairRow
  repeat' first
    | with_reducible assumption | with_reducible apply State.freeVal_keeps | with_reducible apply State.modDram_keeps
    | with_reducible apply State.modDrch_keeps | with_reducible apply Keeps.ite

theorem dramUp_keeps {s0 s : State} (bad : List Nat) (n : Nat) (h : Keeps s0 s) : Keeps s0 (dramUp bad n s) := by
  unfold dramUp
  repeat' first
    | with_reducible assumption | with_reducible apply markRecord_keeps | with_reducible apply State.modDrch_keeps
    | with_reducible apply State.modDram_keeps | with_reducible apply State.send_keeps
    | with_reducible apply Keeps.ite

theorem dramStep_keeps {s0 s : State} (bad : List Nat) (h : Keeps s0 s) : Keeps s0 (dramStep bad s) := by
  unfold dramStep
  repeat' first
    | with_reducible assumption | with_reducible intro _ | with_reducible refine forEach_keeps _ ?_ ?_
    | with_reducible apply dramUp_keeps | with_reducible apply State.modDram_keeps
    | with_reducible apply repairRow_keeps | with_reducible apply State.modPrime_keeps

theorem sramStep_keeps {s0 s : State} (bad : List SramBlock) (h : Keeps s0 s) : Keeps s0 (sramStep bad s) := by
  unfold sramStep
  repeat' first
    | with_reducible assumption | with_reducible intro _ | with_reducible refine forEach_keeps _ ?_ ?_
    | with_reducible apply State.modTest_keeps | with_reducible apply sramMark_keeps
    | with_reducible apply enginesUp_keeps | with_reducible apply State.modSump_keeps
    | with_reducible apply bootFailed_keeps | with_reducible apply State.modPrime_keeps
    | with_reducible apply lcReached_keeps | with_reducible apply Keeps.ite | exact Nat.le_refl _

theorem recordStep_keeps {s0 s : State} (ok : Bool) (h : Keeps s0 s) : Keeps s0 (recordStep ok s) := by
  unfold recordStep
  repeat' first
    | with_reducible assumption | with_reducible intro _ | with_reducible refine forEach_keeps _ ?_ ?_
    | with_reducible apply State.modTwin_keeps | with_reducible apply State.modDrw_keeps
    | with_reducible apply State.modPrime_keeps | with_reducible apply Keeps.ite

theorem handshakeStep_keeps {s0 s : State} (h : Keeps s0 s) : Keeps s0 (handshakeStep s) := by
  unfold handshakeStep
  repeat' first
    | with_reducible assumption | with_reducible apply State.modPrime_keeps | with_reducible apply State.modTwin_keeps
    | with_reducible apply roleDecided_keeps | with_reducible apply enterFenced_keeps
    | with_reducible apply sendHandshake_keeps | with_reducible apply openWitness_keeps
    | with_reducible apply Keeps.ite

theorem lineToRun_keeps {s0 s : State} (h : Keeps s0 s) : Keeps s0 (lineToRun s) := by
  unfold lineToRun
  repeat' first
    | with_reducible assumption | with_reducible apply State.modPrime_keeps | with_reducible apply pullLine_keeps
    | with_reducible apply runReached_keeps | with_reducible apply Keeps.ite

theorem stepDone_keeps {s0 s : State} (r : PrimeReport) (h : Keeps s0 s) : Keeps s0 (stepDone r s) := by
  unfold stepDone
  repeat' first
    | with_reducible assumption | with_reducible intro _ | with_reducible refine forEach_keeps _ ?_ ?_
    | with_reducible apply readFuses_keeps | with_reducible apply State.modPrime_keeps
    | with_reducible apply State.modPower_keeps | with_reducible apply bootStep_keeps
    | with_reducible apply analogDone_keeps | with_reducible apply calStep_keeps | with_reducible apply dramStep_keeps
    | with_reducible apply sramStep_keeps | with_reducible apply recordStep_keeps
    | with_reducible apply handshakeStep_keeps | with_reducible apply lineToRun_keeps
    | with_reducible apply State.send_keeps | with_reducible apply Keeps.ite | with_reducible apply KeepsO.ite
    | with_reducible apply KeepsO.some | with_reducible apply KeepsO.none | with_reducible apply Keeps.fst_ite
    | with_reducible apply Keeps.snd_ite | with_reducible refine Keeps.ofEq (by assumption) ?_
    | with_reducible refine Keeps.ofEq2 (by assumption) ?_ | with_reducible refine KeepsO.get (by assumption) ?_
    | with_reducible refine KeepsO.getD ?_ ?_ | exact Nat.le_refl _ | exact List.length_map _
    | exact Nat.le_max_left _ _ | dsimp only | split

theorem stepLate_keeps {s0 s : State} (r : PrimeReport) (h : Keeps s0 s) : Keeps s0 (stepLate r s) := by
  unfold stepLate
  repeat' first
    | with_reducible assumption | with_reducible apply cascadeEnd_keeps | with_reducible apply railsChanged_keeps
    | with_reducible apply windFault_keeps | with_reducible apply bootFailed_keeps
    | with_reducible apply calStep_keeps | with_reducible apply stepDone_keeps | with_reducible apply recordStep_keeps
    | with_reducible apply lineToRun_keeps | with_reducible apply State.modTest_keeps | split | rfl

theorem sumpUncorrectable_keeps {s0 s : State} (l : SumpLine) (h : Keeps s0 s) : Keeps s0 (sumpUncorrectable l s) := by
  unfold sumpUncorrectable
  repeat' first
    | with_reducible assumption | with_reducible apply relinquishCause_keeps
    | with_reducible apply State.modSump_keeps | with_reducible apply dropAndRelease_keeps
    | with_reducible apply nakDrop_keeps | with_reducible apply sendRepair_keeps
    | with_reducible apply repairSump_keeps | with_reducible apply Keeps.ite | split

theorem ringDiscard_keeps {s0 s : State} (h : Keeps s0 s) : Keeps s0 (ringDiscard s) := by
  unfold ringDiscard
  repeat' first
    | with_reducible assumption | with_reducible apply State.freeVal_keeps | with_reducible apply State.modTest_keeps
    | with_reducible apply Keeps.ite | split | rfl

theorem sramUncorrectable_keeps {s0 s : State} (p : SramPlace) (h : Keeps s0 s) : Keeps s0 (sramUncorrectable p s)
    := by
  unfold sramUncorrectable
  repeat' first
    | with_reducible assumption | with_reducible intro _ | with_reducible refine forEach_keeps _ ?_ ?_
    | with_reducible apply sumpUncorrectable_keeps | with_reducible apply State.modTest_keeps
    | with_reducible apply relinquishCause_keeps | with_reducible apply ringDiscard_keeps
    | with_reducible apply engineOut_keeps | with_reducible apply Keeps.ite | with_reducible apply KeepsO.ite
    | with_reducible apply KeepsO.some | with_reducible apply KeepsO.none | with_reducible apply Keeps.fst_ite
    | with_reducible apply Keeps.snd_ite | with_reducible refine Keeps.ofEq (by assumption) ?_
    | with_reducible refine Keeps.ofEq2 (by assumption) ?_ | with_reducible refine KeepsO.get (by assumption) ?_
    | with_reducible refine KeepsO.getD ?_ ?_ | exact Nat.le_refl _ | exact List.length_map _
    | exact Nat.le_max_left _ _ | dsimp only | split

theorem sramFault_keeps {s0 s : State} (p : SramPlace) (cls : Nat) (unit : Nat) (h : Keeps s0 s) :
    Keeps s0 (sramFault p cls unit s) := by
  unfold sramFault
  repeat' first
    | with_reducible assumption | with_reducible apply State.modTest_keeps | with_reducible apply raiseWith_keeps
    | with_reducible apply sramUncorrectable_keeps | with_reducible apply Keeps.ite | split | rfl

theorem softRepair_keeps {s0 s : State} (cls : Nat) (unit : Nat) (h : Keeps s0 s) : Keeps s0 (softRepair cls unit s) := by
  unfold softRepair
  repeat' first
    | with_reducible assumption | with_reducible apply State.modTest_keeps | with_reducible apply flashQueue_keeps
    | with_reducible apply raiseWith_keeps | with_reducible apply markRecord_keeps | split | rfl

theorem redirect_keeps {s0 s : State} (cls : Nat) (unit : Nat) (h : Keeps s0 s) : Keeps s0 (redirect cls unit s) := by
  unfold redirect
  repeat' first
    | with_reducible assumption | with_reducible apply raiseWith_keeps | with_reducible apply markRecord_keeps
    | with_reducible apply State.modTest_keeps | with_reducible apply Keeps.ite | split | rfl

theorem regionTested_keeps {s0 s : State} (cls : Nat) (h : Keeps s0 s) : Keeps s0 (regionTested cls s) := by
  unfold regionTested
  repeat' first
    | with_reducible assumption | with_reducible apply State.modTest_keeps | with_reducible apply Keeps.ite
    | with_reducible refine KeepsO.getD ?_ ?_ | split | rfl

theorem regionPassed_keeps {s0 s : State} (p : SramPlace) (h : Keeps s0 s) : Keeps s0 (regionPassed p s) := by
  unfold regionPassed
  repeat' first
    | with_reducible assumption | with_reducible apply State.modTest_keeps | split | rfl

theorem clearStatus_keeps {s0 s : State} (w : Nat) (mask : BitVec 32) (h : Keeps s0 s) : Keeps s0 (clearStatus w mask s) := by
  unfold clearStatus
  refine forEach_keeps _ (fun x t k => Keeps.ite (pbaCheck_keeps _ k) k) (State.modEv_keeps _ h ?_)
  intro x hx
  refine ⟨?_, hx.2⟩
  show (s.ev.status &&& ~~~(evMask w mask)).getLsbD x = false
  rw [BitVec.getLsbD_and, hx.1, Bool.false_and]

theorem maskChange_keeps {s0 s : State} (vec : Option Nat) (mask : Bool) (h : Keeps s0 s) :
    Keeps s0 (maskChange vec mask s) := by
  unfold maskChange
  repeat' first
    | with_reducible assumption | with_reducible intro _ | with_reducible apply State.modEv_keeps
    | with_reducible apply sendPending_keeps | with_reducible apply Keeps.ite | refine Keeps.ofEq (by assumption) ?_
    | refine Keeps.ofEq2 (by assumption) ?_ | exact Nat.le_refl _ | exact Nat.le_max_left _ _ | dsimp only | split
    | rfl | decide | trivial

theorem unitWrite_keeps {s0 s : State} (off : Nat) (v : BitVec 32) (h : Keeps s0 s) : Keeps s0 (unitWrite off v s) := by
  unfold unitWrite
  repeat' first
    | with_reducible assumption | with_reducible apply State.modDrch_keeps | with_reducible apply State.modRail_keeps
    | with_reducible apply Keeps.ite | split

theorem msixWrite_keeps {s0 s : State} (off : Nat) (v : BitVec 32) (h : Keeps s0 s) : Keeps s0 (msixWrite off v s) := by
  unfold msixWrite
  dsimp only
  split
  · exact State.modEv_keeps _ h (fun _ hx => hx)
  · exact State.modEv_keeps _ h (fun _ hx => hx)
  · exact State.modEv_keeps _ h (fun _ hx => hx)
  · exact maskChange_keeps _ _ h

theorem bankFree_keeps {s0 s : State} (b : Nat) (h : Keeps s0 s) : Keeps s0 (bankFree b s) := by
  unfold bankFree
  repeat' first
    | with_reducible assumption | with_reducible apply flashStart_keeps | with_reducible apply State.modFbank_keeps

theorem boundary_keeps {s0 s : State} (b : Nat) (o : FOp) (h : Keeps s0 s) : Keeps s0 (boundary b o s) := by
  unfold boundary
  repeat' first
    | with_reducible assumption | with_reducible apply bankFree_keeps | with_reducible apply State.modFbank_keeps
    | with_reducible apply Keeps.ite

theorem commitDone_keeps {s0 s : State} (img : Nat) (q : Nat) (cmd : Nat) (h : Keeps s0 s) : Keeps s0 (commitDone
    img q cmd s) := by
  unfold commitDone
  repeat' first
    | with_reducible assumption | with_reducible intro _ | with_reducible refine forEach_keeps _ ?_ ?_
    | with_reducible apply State.modFlash_keeps | with_reducible apply raiseWith_keeps
    | with_reducible apply finish_keeps | with_reducible apply State.modPrime_keeps | with_reducible apply Keeps.ite
    | with_reducible apply KeepsO.ite | with_reducible apply KeepsO.some | with_reducible apply KeepsO.none
    | with_reducible apply Keeps.fst_ite | with_reducible apply Keeps.snd_ite
    | with_reducible refine Keeps.ofEq (by assumption) ?_ | with_reducible refine Keeps.ofEq2 (by assumption) ?_
    | with_reducible refine KeepsO.get (by assumption) ?_ | with_reducible refine KeepsO.getD ?_ ?_
    | exact Nat.le_refl _ | exact List.length_map _ | exact Nat.le_max_left _ _ | dsimp only

theorem copyToBank1_keeps {s0 s : State} (p : FPurpose) (h : Keeps s0 s) : Keeps s0 (copyToBank1 p s) := by
  unfold copyToBank1
  repeat' first
    | with_reducible assumption | with_reducible intro _ | with_reducible refine forEach_keeps _ ?_ ?_
    | with_reducible apply bootMark_keeps | with_reducible apply flashQueue_keeps | with_reducible apply Keeps.ite
    | with_reducible apply KeepsO.ite | with_reducible apply KeepsO.some | with_reducible apply KeepsO.none
    | with_reducible apply Keeps.fst_ite | with_reducible apply Keeps.snd_ite
    | with_reducible refine Keeps.ofEq (by assumption) ?_ | with_reducible refine Keeps.ofEq2 (by assumption) ?_
    | with_reducible refine KeepsO.get (by assumption) ?_ | with_reducible refine KeepsO.getD ?_ ?_
    | exact Nat.le_refl _ | exact List.length_map _ | exact Nat.le_max_left _ _ | dsimp only | split

theorem parkRecorded_keeps {s0 s : State} (d : Nat) (h : Keeps s0 s) : Keeps s0 (parkRecorded d s) := by
  unfold parkRecorded
  repeat' first
    | with_reducible assumption | with_reducible apply startP4_keeps | with_reducible apply Keeps.ite

theorem opEffect_keeps {s0 s : State} (b : Nat) (o : FOp) (h : Keeps s0 s) : Keeps s0 (opEffect b o s) := by
  unfold opEffect
  repeat' first
    | with_reducible assumption | with_reducible intro _ | with_reducible refine forEach_keeps _ ?_ ?_
    | with_reducible apply imageDone_keeps | with_reducible apply commitDone_keeps
    | with_reducible apply copyToBank1_keeps | with_reducible apply parkRecorded_keeps
    | with_reducible apply State.modFbank_keeps | with_reducible apply Keeps.ite | with_reducible apply KeepsO.ite
    | with_reducible apply KeepsO.some | with_reducible apply KeepsO.none | with_reducible apply Keeps.fst_ite
    | with_reducible apply Keeps.snd_ite | with_reducible refine Keeps.ofEq (by assumption) ?_
    | with_reducible refine Keeps.ofEq2 (by assumption) ?_ | with_reducible refine KeepsO.get (by assumption) ?_
    | with_reducible refine KeepsO.getD ?_ ?_ | exact Nat.le_refl _ | exact List.length_map _
    | exact Nat.le_max_left _ _ | dsimp only | split

theorem substituteSector_keeps {s0 s : State} (b : Nat) (o : FOp) (h : Keeps s0 s) : Keeps s0 (substituteSector b o s) := by
  unfold substituteSector
  repeat' first
    | with_reducible assumption | with_reducible apply State.modFbank_keeps | with_reducible apply Keeps.ite | split

theorem opFailed_keeps {s0 s : State} (b : Nat) (o : FOp) (h : Keeps s0 s) : Keeps s0 (opFailed b o s) := by
  unfold opFailed
  cases o.purpose
  all_goals dsimp only
  all_goals first
    | with_reducible exact h
    | with_reducible exact substituteSector_keeps _ _ h
    | with_reducible exact finish_keeps _ _ _ h
    | (apply Keeps.ite
       · exact copyToBank1_keeps _ h
       · apply Keeps.ite
         · apply finish_keeps
           apply State.modFlash_keeps _ h
           rfl
         · exact h)

theorem setMark_keeps {s0 s : State} (b : Nat) (w : Nat) (v : BitVec 64) (h : Keeps s0 s) : Keeps s0 (setMark b w v
    s) := by
  unfold setMark
  repeat' first
    | with_reducible assumption | with_reducible intro _ | with_reducible refine forEach_keeps _ ?_ ?_
    | with_reducible apply State.modFbank_keeps

theorem pulseFail_keeps {s0 s : State} (b : Nat) (o : FOp) (h : Keeps s0 s) : Keeps s0 (pulseFail b o s) := by
  unfold pulseFail
  repeat' first
    | with_reducible assumption | with_reducible intro _ | with_reducible refine forEach_keeps _ ?_ ?_
    | with_reducible apply setMark_keeps | with_reducible apply State.freeVal_keeps
    | with_reducible apply State.modFbank_keeps | with_reducible apply bankFree_keeps
    | with_reducible apply opFailed_keeps | with_reducible apply raiseWith_keeps | with_reducible apply Keeps.ite
    | with_reducible apply KeepsO.ite | with_reducible apply KeepsO.some | with_reducible apply KeepsO.none
    | with_reducible apply Keeps.fst_ite | with_reducible apply Keeps.snd_ite
    | with_reducible refine Keeps.ofEq (by assumption) ?_ | with_reducible refine Keeps.ofEq2 (by assumption) ?_
    | with_reducible refine KeepsO.get (by assumption) ?_ | with_reducible refine KeepsO.getD ?_ ?_
    | exact Nat.le_refl _ | exact List.length_map _ | exact Nat.le_max_left _ _ | dsimp only | split

theorem wordDone_keeps {s0 s : State} (b : Nat) (o : FOp) (h : Keeps s0 s) : Keeps s0 (wordDone b o s) := by
  unfold wordDone
  repeat' first
    | with_reducible assumption | with_reducible intro _ | with_reducible refine forEach_keeps _ ?_ ?_
    | with_reducible apply State.modFlash_keeps | with_reducible apply setMark_keeps
    | with_reducible apply boundary_keeps | with_reducible apply bankFree_keeps | with_reducible apply opEffect_keeps
    | with_reducible apply State.modFbank_keeps | with_reducible apply Keeps.ite | with_reducible apply KeepsO.ite
    | with_reducible apply KeepsO.some | with_reducible apply KeepsO.none | with_reducible apply Keeps.fst_ite
    | with_reducible apply Keeps.snd_ite | with_reducible refine Keeps.ofEq (by assumption) ?_
    | with_reducible refine Keeps.ofEq2 (by assumption) ?_ | with_reducible refine KeepsO.get (by assumption) ?_
    | with_reducible refine KeepsO.getD ?_ ?_ | exact Nat.le_refl _ | exact List.length_map _
    | exact Nat.le_max_left _ _ | dsimp only | split

theorem sectorDone_keeps {s0 s : State} (b : Nat) (o : FOp) (h : Keeps s0 s) : Keeps s0 (sectorDone b o s) := by
  unfold sectorDone
  repeat' first
    | with_reducible assumption | with_reducible apply State.modFbank_keeps
    | with_reducible apply State.modFlash_keeps | split | rfl

end Sys2Proof.Machine
end

