-- ==== Sys2Proof/WellFormed.lean ====
section
/-! DEFINITION. Well-formed commands: every operand fits the field that carries it. A command whose operand fits but that a
rule turns away is well formed; the machine answers it. -/

namespace Sys2Proof

/-! Fields. -/

/-- A number of at most `w` bits. -/
def below (n w : Nat) : Bool := decide (n < 2 ^ w)
/-- A parameter left out, or of at most `w` bits. -/
def opt (o : Option Nat) (w : Nat) : Bool := o.all (fun n => below n w)
/-- CONN, 16 bits (R305). -/
def connNum (conn : Nat) : Bool := below conn 16
/-- PATH, 3 bits (R305). -/
def pathNum (q : Nat) : Bool := below q 3
/-- An IPv4 address. -/
def ipv4 (a : Nat) : Bool := below a 32
/-- An IPv6 address. -/
def ipv6 (a : Nat) : Bool := below a 128
/-- An easel of a group, 12 bits (R100). -/
def easelNum (e : Nat) : Bool := below e 12
/-- Presets of a TRN1 set, 4 bits each (R145). -/
def trainOk (preset req : Nat) : Bool := below preset 4 && below req 4
/-- Rate and width of a trained host link (R385, R386): 2.5 to 64 GT/s, 1 to 16 lanes. -/
def hostLinkOk (rate width : Nat) : Bool := decide (1 ≤ rate) && decide (rate ≤ 6) && [1, 2, 4, 8, 16].contains width
/-- TAG of 16 bits and a line address of 52 bits (R404). -/
def cxlOk (tag hpa : Nat) : Bool := below tag 16 && below hpa 52 && hpa % 64 == 0
/-- A 32-bit word of BAR0, 1 MiB (R19). -/
def barOff (off : Nat) : Bool := below off 20 && off % 4 == 0
/-- Framing of a mailbox command: NENT counts 1 to 16 entries (R419, R429). -/
def framed (h : CmdHdr) : Bool := decide (1 ≤ h.nent) && decide (h.nent ≤ 16)
/-- Data of a mailbox command: at most the block of 16 entries (R429). -/
def memData (d : Bytes) : Bool := decide (d.length ≤ 896)
/-- A key-wrap blob: at most 72 bytes, a namespace key of 64 wrapped (R472). -/
def blobOk (b : Blob) : Bool := decide (b.length ≤ 72)
/-- Lengths of PUBKEY and SIGNATURE in an authorisation (R626). -/
def authOk (a : LcAuth) : Bool := a.key.length == 97 && a.sig.length == 96
/-- Owner tag of a palette key (R469). -/
def tagOk : KeyTag → Bool
  | .conn c g => connNum c && below g 8
  | .ns n => below n 16
/-- Fields of a log entry's head (R255). -/
def entryOk (e : LogEntry) : Bool := connNum e.conn && below e.nsid 16
/-- Extents of SCHED_APPEND: offset and length of 64 bits (schedule tables). -/
def extentsOk (l : List (Nat × Nat)) : Bool := l.all (fun e => below e.1 64 && below e.2 64)

/-! Parameter blocks. -/

/-- SET_POOL (R681). -/
def poolOk (p : PoolParams) : Bool :=
  opt p.intentRsv 16 && opt p.spillHigh 8 && opt p.spillLow 8 && opt p.mergeWait 64 && opt p.readFloor 8 && opt p.pfFloor 8
/-- SET_PORT (R299, R301). -/
def portOk (p : PortParams) : Bool :=
  below p.port 8 && below p.mode 8 && below p.sub 8 && below p.vlan 12 && below p.pcp 3 && below p.mac 48 && ipv4 p.ip4 && ipv6 p.ip6
/-- SET_XPORT (transport parameters). -/
def xportOk (p : XportParams) : Bool :=
  opt p.dscpData 8 && opt p.dscpCtrl 8 && opt p.ecnMark 8 && opt p.ecnReact 8 && opt p.ackCount 8 && opt p.ackDelay 64
    && opt p.reasm 64 && opt p.creditIdle 64
/-- CREATE_NS (R442). -/
def createOk (p : CreateNsParams) : Bool :=
  below p.nsid 16 && below p.units 16 && below p.psi 16 && p.blob0.all blobOk && p.blob1.all blobOk
/-- OPEN_CONNECTION (R353). -/
def openOk (p : OpenParams) : Bool :=
  connNum p.conn && below p.cls 16 && below p.retryMax 8 && below p.creditWin 16 && blobOk p.blob0 && blobOk p.blob1
/-- REGISTER_GRANT (R359): at most 8 listed connections. -/
def grantOk (p : GrantParams) : Bool :=
  below p.nsid 16 && below p.off 64 && below p.len 64 && below p.setKind 8 && below p.cls 16 && below p.count 8
    && decide (p.conns.length ≤ 8) && p.conns.all connNum && below p.pinned 8
/-- SET_TWIN. -/
def twinOk (p : TwinParams) : Bool := opt p.twinCredit 16 && opt p.resyncShare 8 && opt p.ueStorm 16 && opt p.hsWait 64
/-- SCHED_CREATE. -/
def schedOk (p : SchedParams) : Bool := below p.nsid 16 && p.conn.all connNum && below p.leadMs 16 && below p.lookahead 32

/-- Well-formed commands. -/
def Instr.wf : Instr → Bool
  | .write _ data => data.length < 65536
  | .writeDurable _ data => data.length < 65536
  | .readReq _ _ _ => true
  | .flush _ => true
  | .atomicCas _ _ _ => true
  | .atomicFadd _ _ _ => true
  | .ack _ _ => true
  | .probe _ _ => true
  | .witness _ _ => true
  | .readGatherComplete _ => true
  | .reassemblyTimeout conn _ => connNum conn
  | .missingMessageTimeout conn => connNum conn
  | .ackDelayTimer conn => connNum conn
  | .retransmitTimer conn _ => connNum conn
  | .creditIdleTimer conn => connNum conn
  | .hostCreditWaitTimer conn => connNum conn
  | .pathLivenessTimer conn q => connNum conn && pathNum q
  | .ecnRateTimer conn q => connNum conn && pathNum q
  | .keyGenerationDiscard conn => connNum conn
  | .takeoverNoticeRepeat conn => connNum conn
  | .arpRequest _ _ ip4 => ipv4 ip4
  | .neighbourSolicitation _ _ ip6 => ipv6 ip6
  | .echoRequest _ _ v6 dst => if v6 then ipv6 dst else ipv4 dst
  | .nonVorwiriFrame _ _ => true
  | .subportLinkChange _ _ _ => true
  | .networkFecWindow _ _ _ _ => true
  | .log _ e => entryOk e
  | .applyAck _ _ _ => true
  | .heartbeat _ _ _ _ _ _ => true
  | .digest _ _ _ => true
  | .relinquish _ _ _ => true
  | .takeoverGapFillTimeout => true
  | .takeoverAnnounceDelay => true
  | .takeover _ _ _ => true
  | .fetchReq _ _ _ _ _ => true
  | .fetchResp _ _ _ _ => true
  | .mailbox _ _ => true
  | .resyncReq _ _ _ => true
  | .resyncEntrySend => true
  | .handshake _ _ => true
  | .link _ => true
  | .twinPortTrained _ _ _ _ => true
  | .twinLinkAckTimer _ => true
  | .twinReplayTimer _ => true
  | .twinPortStallTimer _ => true
  | .twinFecWindow _ _ _ => true
  | .applyAckTimer => true
  | .twinCreditWaitTimer => true
  | .heartbeatTimer => true
  | .peerSilentTimer => true
  | .digestTimer => true
  | .renewTimer => true
  | .witnessResendTimer => true
  | .witnessRetryTimer => true
  | .leaseLapseTimer => true
  | .swapS1Timeout => true
  | .swapTakeoverTimeout => true
  | .resyncTakeoverRepeat => true
  | .coreWatchdogTimeout => true
  | .clockMonitorWindow _ _ _ => true
  | .mediaStallTimer => true
  | .readCwResponse _ _ _ _ => true
  | .peerFetchTimeout ftag => below ftag 16
  | .writeCwResponse _ _ _ => true
  | .dieStatusResponse _ _ _ _ => true
  | .dieResetResponse _ _ _ => true
  | .tempResponse _ _ _ _ => true
  | .descriptorResponse _ _ _ _ => true
  | .dieCommandTimeout _ _ => true
  | .dieResetTimeout _ _ => true
  | .rowUpdateStart _ => true
  | .mergeWaitExpiry _ => true
  | .rowLeaseExpiry _ _ => true
  | .gapMoveStart _ e => easelNum e
  | .gapMoveYieldTimeout _ e => easelNum e
  | .scrubRead _ => true
  | .parkScrubDue _ => true
  | .rebuildRow _ => true
  | .ceWindowTimer _ => true
  | .flitReceive _ _ => true
  | .lctl _ _ => true
  | .linkAckTimer _ => true
  | .linkReplayTimer _ => true
  | .blockAlignmentLoss _ => true
  | .trn1 _ _ preset req _ _ => trainOk preset req
  | .trn2 _ _ => true
  | .trainingStepTimeout _ => true
  | .confirmPeriodExpiry _ => true
  | .sidebandPollTimer _ _ => true
  | .tempPollTimer _ => true
  | .drawerRailGood _ _ => true
  | .drawerRailOff _ _ => true
  | .drawerWakeStepTimeout _ => true
  | .easelStateLoaded _ => true
  | .wakePeerTimeout _ => true
  | .parkStepTimeout _ => true
  | .drawerSettleTimer _ => true
  | .parkIdleTimer _ => true
  | .drawerCheckTimer _ => true
  | .schedRateTick _ => true
  | .spillwayMove => true
  | .dirtyBudgetEval => true
  | .mirrorLagAgeLimit => true
  | .mirrorCtlFlush => true
  | .drainComplete => true
  | .gctlRstkey _ => true
  | .hostLinkTrained rate width _ _ => hostLinkOk rate width
  | .powerstateWrite _ => true
  | .hdmDecoderCommit _ base size _ => below base 64 && below size 64
  | .memRd tag hpa => cxlOk tag hpa
  | .memRdData tag hpa => cxlOk tag hpa
  | .memSpecRd tag hpa => cxlOk tag hpa
  | .memInv tag hpa => cxlOk tag hpa
  | .memInvNT tag hpa => cxlOk tag hpa
  | .memClnEvct tag hpa => cxlOk tag hpa
  | .memWr tag hpa _ _ => cxlOk tag hpa
  | .memWrPtl tag hpa _ _ _ => cxlOk tag hpa
  | .gpfPhase2 => true
  | .gpfTimeout => true
  | .perstAssert => true
  | .hotReset => true
  | .dlDown => true
  | .flr => true
  | .hostDrainH3Timeout => true
  | .poisonedTlp _ => true
  | .doeRequest _ => true
  | .getEventRecords => true
  | .clearEventRecords count => below count 8
  | .getFwInfo => true
  | .getTimestamp => true
  | .setTimestamp value => below value 64
  | .getSupportedLogs => true
  | .getLog _ => true
  | .identifyMemoryDevice => true
  | .getPartitionInfo => true
  | .getHealthInfo => true
  | .cxlUnsupportedCommand opcode => below opcode 16
  | .mbxSelWrite _ => true
  | .mbxCmdPush _ _ => true
  | .mbxRspPop _ _ => true
  | .mbxOwnerClaim _ _ => true
  | .mbxOwnerRelease _ _ => true
  | .mbxLeaseExpiry _ => true
  | .unitSelWrite _ => true
  | .setEndpointId eid => below eid 8
  | .getEndpointId => true
  | .getMctpVersionSupport => true
  | .getMessageTypeSupport => true
  | .getVendorDefinedMessageSupport => true
  | .mctpMailboxMessage eid _ _ => below eid 8
  | .identify h => framed h
  | .getStatus h mbx _ => framed h && below mbx 8
  | .abort h _ => framed h
  | .setDurability h pHold kMargin tFixed => framed h && opt pHold 16 && opt kMargin 8 && opt tFixed 64
  | .setIntegrity h scope unit param value => framed h && below scope 8 && below unit 16 && below param 16 && below value 64
  | .setPool h p => framed h && poolOk p
  | .setPort h p => framed h && portOk p
  | .setXport h p => framed h && xportOk p
  | .setHostport h maxRate perstSys ssvid ssid => framed h && opt maxRate 8 && opt perstSys 8 && opt ssvid 16 && opt ssid 16
  | .setHdm h k nsid => framed h && below k 8 && below nsid 16
  | .clearHdm h k => framed h && below k 8
  | .setEventRoute h ev vec cores _ => framed h && below ev 16 && below vec 16 && below cores 8
  | .setCompat h mask => framed h && below mask 32
  | .setMbx h lease addr => framed h && opt lease 64 && opt addr 8
  | .getConfig h param => framed h && below param 16
  | .formatGroup h g => framed h && below g 8
  | .createNs h p => framed h && createOk p
  | .deleteNs h nsid => framed h && below nsid 16
  | .resizeNs h nsid units => framed h && below nsid 16 && below units 16
  | .setNsAttr h nsid _ _ _ _ => framed h && below nsid 16
  | .nsStatus h nsid => framed h && below nsid 16
  | .readEasel h g e => framed h && below g 8 && easelNum e
  | .memRead h nsid off len => framed h && below nsid 16 && below off 64 && below len 32
  | .memWrite h nsid off data => framed h && below nsid 16 && below off 64 && memData data
  | .parkDrawer h d => framed h && below d 8
  | .wakeDrawer h d => framed h && below d 8
  | .setDrawer h d _ parkIdle => framed h && below d 8 && below parkIdle 32
  | .drawerStatus h d => framed h && below d 8
  | .openConnection h p => framed h && openOk p
  | .closeConnection h conn => framed h && connNum conn
  | .rekey h conn gen _ _ => framed h && connNum conn && below gen 8
  | .connStatus h conn => framed h && connNum conn
  | .registerGrant h p => framed h && grantOk p
  | .revokeGrant h _ => framed h
  | .grantStatus h slot => framed h && below slot 32
  | .swapRoles h => framed h
  | .forceTakeover h => framed h
  | .setWitness h p => framed h && below p.addr 128 && below p.witPort 8
  | .setTwin h p => framed h && twinOk p
  | .twinStatus h => framed h
  | .scrubNow h g => framed h && below g 8
  | .rebuild h g => framed h && below g 8
  | .sanitize h nsid => framed h && below nsid 16
  | .cisternTest h => framed h
  | .margin h port rail _ => framed h && below port 8 && below rail 8
  | .chRetrain h ch => framed h && below ch 8
  | .chSbreset h ch => framed h && below ch 8
  | .chDesc h ch page => framed h && below ch 8 && below page 8
  | .maintStatus h => framed h
  | .schedCreate h p => framed h && schedOk p
  | .schedAppend h handle extents => framed h && below handle 8 && extentsOk extents
  | .schedStart h handle => framed h && below handle 8
  | .schedDelete h handle => framed h && below handle 8
  | .schedStatus h handle => framed h && below handle 8
  | .recFreeze h => framed h
  | .recUnfreeze h => framed h
  | .recRead h source _ count => framed h && below source 8 && below count 32
  | .fwBegin h image len => framed h && below image 8 && below len 32
  | .fwData h image off data => framed h && below image 8 && below off 32 && memData data
  | .fwCommit h image => framed h && below image 8
  | .fwActivate h image => framed h && below image 8
  | .fwStatus h => framed h
  | .lcAdvance h target auth => framed h && below target 8 && authOk auth
  | .lcFuseItem h target item data auth => framed h && below target 8 && below item 16 && memData data && authOk auth
  | .lcStatus h => framed h
  | .lcResetTimer => true
  | .jtagAuthenticate auth => authOk auth
  | .cipherKatTimer _ _ _ => true
  | .cipherAlarm _ => true
  | .paletteUnwrapDone tag _ => tagOk tag
  | .railSenseSample _ _ => true
  | .cisternSample _ => true
  | .railWarnTimer _ => true
  | .railPgChange _ _ => true
  | .railTOnExpiry _ => true
  | .railTOffExpiry _ => true
  | .railTDisExpiry _ => true
  | .windlassRisingEdge => true
  | .windlassFallingEdge => true
  | .cascadeWaitExpiry => true
  | .windlassStepTimeout => true
  | .windlassFaultExit => true
  | .stuckLineTimeout => true
  | .cascadeTrainEnd _ => true
  | .cascadeTimeout => true
  | .rollCallTrainEnd holding => decide (holding.length ≤ 16)
  | .rollCallTimeout => true
  | .pwrEnRise => true
  | .pwrEnFall => true
  | .pwrCtlOffreq => true
  | .pwrfailNLow => true
  | .vinFail => true
  | .offSettleTimer => true
  | .cisternMeasureDue => true
  | .cisternPostponeTimer => true
  | .cisternSettleTimer _ => true
  | .cisternV1WindowEnd _ => true
  | .cisternTestLoadEnd _ => true
  | .cisternChargeTimeout => true
  | .pmbusResponse _ _ => true
  | .pmbusTimeout _ => true
  | .aonPinInit => true
  | .standbyPowerGood => true
  | .crystalStable _ => true
  | .primingStepComplete _ => true
  | .primingStepTimeout _ => true
  | .hsHelloTimer => true
  | .hsDecideRetryTimer => true
  | .hsWaitExpiry => true
  | .waitpeerRenewTimer => true
  | .regionClearTimer _ => true
  | .suspectRowSettle _ => true
  | .dramRefreshTimer _ _ => true
  | .dramMr4Poll _ _ _ _ _ => true
  | .zqCalibrationTimer _ _ => true
  | .selfRefreshIdle _ => true
  | .activationTableClear _ _ => true
  | .dramPatrolRead _ => true
  | .dramCeWindow _ => true
  | .dramReadComplete addr words => below addr 37 && decide (words.length ≤ 32)
  | .flashProgramPulseDone _ _ => true
  | .flashErasePulseDone _ _ => true
  | .flashBusFaultRead _ _ => true
  | .eccFlipWrite _ => true
  | .eccInjectionApply _ _ => true
  | .transparentTestRegion _ _ _ => true
  | .recorderSpill => true
  | .recFreezeTimeout => true
  | .evStatusClear _ _ _ => true
  | .msixMaskChange _ _ => true
  | .reg64LowRead off => barOff off
  | .registerWrite off _ _ => barOff off
  | .junctionTempSample _ => true
  | .thermalCriticalTimer => true
  | .thermalShutdownTimer => true
  | .grantDeadTimer slot => below slot 17
  | .revocationDropTimer slot => below slot 17
  | .probeResendTimer conn => connNum conn
  | .xportEntryTimer conn => connNum conn
  | .idleOs _ => true
  | .perstDeassert => true
  | .twinPortLinkLoss _ => true
  | .cipherAlarmDeassert _ => true
  | .primingDrawerWakeStagger _ => true

end Sys2Proof
end

