-- ==== Sys2Proof/Tests/Slice0.lean ====
section
/-! SUPPORT. Tests: ill-formed commands that WellFormed refuses, worked values of the manual, and a witness for each clause of the statements:
concrete states and operands that meet the clause's hypotheses together. -/

namespace Sys2Proof.Tests

set_option Elab.async false

open Sys2Proof Sys2Proof.Machine

/-- The state after reset with power-sequencer fields of its own. -/
def pw (p : Power) : State := { State.reset with power := p }

/-- A twin in RUN that serves alone in DEPLOYED, and the same in other roles. -/
def inRole (r : Role) : State :=
  { State.reset with
    prime := { State.reset.prime with primeAt := some 0 }
    test := { State.reset.test with lc := .deployed }
    twin := { State.reset.twin with role := r }
    power := { State.reset.power with wl := 13, line := true } }

/-- SOLO in RUN. -/
def run : State := inRole .solo

/-- A key of `n` bytes wrapped under the KEK of the tests, and a witness. -/
def blob (n : Nat) : Blob := wrapKey (List.replicate 32 0) (List.replicate n 1)
def wit0 : WitnessParams := { v6 := false, addr := 1, pair := 0, witPort := 0, blob0 := blob 32, blob1 := blob 32 }

/-! Power, drawers, budget. -/

theorem witness_windlass :
    (let s := pw { wl := 3, wlDir := true, line := false }
     s.power.hold = false ∧ s.power.line = false ∧ 1 ≤ s.power.wl ∧ s.power.wl ≤ 10 ∧ s.power.wlDir = true ∧ s.power.goingDown = false
      ∧ s.power.latch ≠ .off) ∧
    (let s := pw { wl := 12, wlDir := false, line := false }
     s.power.hold = false ∧ s.power.line = false ∧ 2 ≤ s.power.wl ∧ s.power.wl ≤ 12 ∧ s.power.wlDir = false) ∧
    (let s := pw { wl := 3 }; s.power.wl ≠ 13 ∨ s.power.hold = true) ∧
    (let s := pw { hold := true, stepTo := some (12, true) }
     s.power.hold = true ∧ s.power.stepTo = some (12, true) ∧ 12 ≤ 12 ∧ s.power.acting = false) ∧
    (let s := pw { line := false, wl := 1 }; s.power.line = false ∧ s.power.wl ≠ 15 ∧ s.power.wl ≠ 0) ∧
    (let s := pw { wl := 15 }; s.power.wl = 15 ∧ s.allOff = true) ∧
    (let s := { pw { wl := 0, line := false } with prime := { State.reset.prime with step := 4 } }
     s.power.wl = 0 ∧ s.prime.step = 4 ∧ s.power.line = false ∧ s.power.stepTo = none) := by decide +kernel

theorem witness_power_requests :
    (let s := pw { cascading := true }; s.power.cascading = true ∧ s.prime.step ≠ 3) ∧
    (let s := { pw { cascading := true, line := true, wl := 0 } with prime := { State.reset.prime with step := 3 } }
     s.power.cascading = true ∧ s.prime.step = 3 ∧ s.power.line = true ∧ s.power.wl = 0) ∧
    (let s := pw { rollCall := true }
     s.power.rollCall = true ∧ [false, true][1]? = some true ∧ (∀ j, j < 1 → [false, true][j]? = some false)) ∧
    (let s := { pw { wl := 0, offSettled := true } with prime := { State.reset.prime with standby := true } }
     s.power.latch ≠ .off ∧ s.power.wl = 0 ∧ s.power.stepTo = none ∧ s.prime.step = 0 ∧ s.prime.standby = true ∧ s.allOff = true
      ∧ s.power.offSettled = true) ∧
    (let s := pw { wl := 5, goingDown := true }; s.power.latch ≠ .off ∧ s.power.wl ≠ 0 ∧ s.power.goingDown = true) ∧
    (run.power.wl = 13 ∧ run.power.stepTo = none ∧ run.prime.drain = none) ∧
    (run.power.pwrFail = false ∧ run.power.cisCmd = none ∧ run.power.firstRail = 0xFF ∧ run.power.firstCause = 0xFF ∧ run.power.wl = 13
      ∧ run.prime.drain = none ∧ run.twin.role = .solo) ∧
    (let s := State.reset
     s.power.wl = 0 ∧ s.power.stepTo = none ∧ s.allOff = true ∧ s.prime.step = 0 ∧ s.power.latch ≠ .on) := by decide +kernel

/-- A twin in RUN with its cistern's values, idle. -/
def cis (p : Power) : State := { run with power := p }

theorem witness_cistern :
    (let s := cis { State.reset.power with wl := 13, cisMv := 48000, vChg := 48000, cisSt := 2 }; s.measureOk = true) ∧
    (let s := { run with dura := { run.dura with clow := false } }; s.measureOk = false ∧ s.power.cisStep = .none) ∧
    (let s := cis { State.reset.power with wl := 13, cisMv := 48000, vChg := 48000, cisSt := 2, postponed := true }
     s.measureOk = true ∧ s.power.postponed = true) ∧
    (let s := cis { cisStep := .m2 }; s.power.cisStep = .m2) ∧
    (let s := cis { cisStep := .m3 48000 }; s.power.cisStep = .m3 48000) ∧
    (let s := cis { State.reset.power with wl := 13, cisStep := .m4 48000 47900, rTest := 10000, tTest := 100, cNom := 500000, esrMax := 100, chgEn := false }
     s.power.cisStep = .m4 48000 47900 ∧ 47000 < 47900 ∧ 47900 ≤ 48000 ∧ (48000 - 47900) * s.power.rTest / 47900 ≤ s.power.esrMax ∧
     (let c := 1000 * (47900 + 47000) * (1000 * s.power.tTest - 120) * 47900 / (2 * s.power.rTest * (47900 - 47000) * 48000)
      6 * s.power.cNom ≤ 10 * c ∧ 10 * c ≤ 15 * s.power.cNom) ∧ s.power.wl = 13 ∧ s.power.pwrFail = false ∧ s.power.chgEn = false
       ∧ s.power.cisCmd = none) ∧
    (let s := cis { chgEn := true, chgAt := some 7 }; s.power.chgEn = true ∧ s.power.chgAt = some 7) ∧
    (let s := pw { margins := [{ rail := 3, step := 20, cmd := none, phase := 1 }], rails := [(3, { pmbPort := 1 })] }
     s.marginOn (0 : Fin 2) = some { rail := 3, step := 20, cmd := none, phase := 1 } ∧ (0x1F : BitVec 8).toNat < 32
      ∧ (s.rail 3).st ≠ .good) := by decide +kernel

theorem witness_rails :
    (∀ i, i < 48 → (State.reset.rail i).st = .off ∨ (State.reset.rail i).st = .unused) ∧
    (let s := pw { rails := [(16, { en := true, st := .ramping, nomMv := 1000, mv := 1000, pgUsed := true })] }
     (s.rail 16).st = .ramping ∧ ({ (s.rail 16) with pg := true } : Rail).isGood s.test.railConvBad = true) ∧
    (let s := pw { rails := [(15, { st := .good, pgUsed := true })] }
     15 < 16 ∧ (s.rail 15).st = .good ∧ (s.rail 15).pgUsed = true ∧ s.power.wl ≠ 13 ∧ s.power.goingDown = false) ∧
    (let s := pw { rails := [(47, { st := .good, nomMv := 1000, mv := 900 })] }; (s.rail 47).st = .good ∧ (s.rail 47).within 5 = false) ∧
    (let s := pw { rails := [(47, { st := .ramping })] }; 47 = 16 + 4 * 7 + 3 ∧ (s.rail 47).st = .ramping) ∧
    (let s := pw { rails := [(0, { st := .ramping })] }
     (s.rail 0).st = .ramping ∧ s.power.firstRail = 0xFF ∧ s.power.firstCause = 0xFF) ∧
    (let s := pw { rails := [(0, { st := .falling })] }; (s.rail 0).st = .falling) ∧
    (let s := pw { rails := [(15, { st := .discharging })] }; (s.rail 15).st = .discharging) ∧
    (let s := { pw { rails := [(16, { st := .ramping })] } with drawers := [(0, { st := .waking, step := riseStep 0 })] }
     (s.rail (16 + 4 * 0 + 0)).st = .ramping ∧ s.power.margins = [] ∧ (s.drw 0).st = .waking ∧ (s.drw 0).step = riseStep 0) ∧
    (let s := { pw { rails := [(47, { st := .falling })] } with drawers := [(7, { st := .parking, step := fallStep 3 })] }
     (s.rail (16 + 4 * 7 + 3)).en = false ∧ (s.rail (16 + 4 * 7 + 3)).st = .falling ∧ (s.drw 7).step = fallStep 3) := by decide +kernel

/-- A twin in RUN with one drawer's state. -/
def dr (d : Nat) (k : Drawer) : State := { run with drawers := [(d, k)] }

theorem witness_drawer_timers :
    (let s := dr 7 { st := .waking, step := .w4 }; (s.drw 7).st = .waking ∧ ((s.drw 7).step = .w1 ∨ (s.drw 7).step = .w2
      ∨ (s.drw 7).step = .w3 ∨ (s.drw 7).step = .w4)) ∧
    (let s := dr 0 { st := .waking, step := .w6 }; (s.drw 0).st = .waking ∧ (s.drw 0).step = .w6 ∧
      (∀ i, i < 18 → descSettled (s.chan (18 * 0 + i)) = true)) ∧
    (let s := dr 0 { st := .waking, step := .w7 }
     (s.drw 0).st = .waking ∧ (s.drw 0).step = .w7 ∧ (s.drw 0).loaded = false ∧ (s.drw 0).recovering = [] ∧ (∀ e ∈ s.easels, e.2.filling = false)) ∧
    (let s := dr 1 { st := .waking, wakeDone := true }; (s.drw 1).st = .waking ∧ (s.drw 1).wakeDone = true) ∧
    (let s := dr 1 { st := .waking, wakeDone := false }; (s.drw 1).st = .waking ∧ (s.drw 1).wakeDone = false) ∧
    (let s := dr 2 { st := .parking, step := .p2 }
     (s.drw 2).st = .parking ∧ ((s.drw 2).step = .p1 ∨ (s.drw 2).step = .p2) ∧ (s.drw 2).cmds = [] ∧ (s.drw 2).latch = .none) ∧
    (let s := dr 3 { st := .parked, latch := .wake [5] }; (s.drw 3).latch = .wake [5] ∧ (s.drw 3).st = .parked ∧ (s.drw 3).step = .none ∧
      (∀ i, i < 4 → (s.rail (drawerRail 3 i)).down = true)) ∧
    (let s := dr 4 { st := .awake, parkable := true, parkIdle := 10 }
     s.serving = true ∧ (s.drw 4).st = .awake ∧ (s.drw 4).parkIdle ≠ 0 ∧ (s.drw 4).refs = 0 ∧ s.parkRefusal 4 = none) ∧
    (let s := { run with twin := { run.twin with role := .active, checks := [(5, 9)] } }; s.twin.checks = [(5, 9)] ∧ s.logging = true) ∧
    (let s := { dr 6 { st := .parked } with prime := { run.prime with step := 11, wakes := [6] } }
     s.prime.step = 11 ∧ s.prime.wakes = [6] ∧ (s.drw 6).st = .parked ∧ (s.drw 6).step = .none ∧ (s.drw 6).fellAt = 0) ∧
    run.serving = true := by decide +kernel

theorem witness_budget :
    (let s := State.reset; s.dura.clow = true ∧ 2 * s.dMax s.energy < 3 * s.sumpSize) ∧
    (spillCheck State.reset).sump.spillActive = false ∧
    (let r : LagRec := { lsn := 1, bytes := 64, time := 0 }
     let s := { run with now := 64000, dura := { run.dura with lag := [r] } }
     r ∈ s.dura.lag ∧ r.time + 64000 ≤ s.now) ∧
    (let r : LagRec := { lsn := 1, bytes := 64, time := 0 }
     let s := { inRole .active with dura := { run.dura with lag := [r], clow := false } }
     r ∈ s.dura.lag ∧ s.twin.role = .active ∧ s.ackedTo r.lsn = false ∧ s.dura.clow = false) ∧
    (let d : Drain := { kind := .orderly, since := 0, dirty := 0 }
     let s := { State.reset with prime := { State.reset.prime with drain := some d } }
     s.prime.drain = some d ∧ s.drained = true ∧ d.kind = .orderly ∧ d.sealed = false ∧ d.cmd = none ∧
      (sealDrain d { s with prime := { s.prime with drain := some { d with sealed := true } } }).metaOpen = false) ∧
    (let d : Drain := { kind := .orderly, since := 0, dirty := 0, sealed := true }
     let s := { State.reset with prime := { State.reset.prime with drain := some d } }
     s.prime.drain = some d ∧ s.drained = true ∧ d.kind = .orderly ∧ d.sealed = true ∧ s.metaOpen = false) ∧
    (0x5A : BitVec 8) ≠ 0xA5 ∧
    (run.serving = true ∧ run.test.lc = .deployed) ∧
    (let s := inRole .standby
     s.serving = false ∧ s.twin.role ≠ .fenced ∧ s.prime.drain = none ∧ s.host.drain = .none ∧ s.power.wl = 13) ∧
    State.reset.mediaStuck = false := by decide +kernel

theorem witness_clock_fault :
    (let s := { run with ev := { run.ev with islands := [(73, { fault := true, good := 2 })] } }
     (s.island 73).fault = true ∧ 2 ≤ (s.island 73).good ∧ 95 * nominalKhz 73 ≤ 100 * 1500000 ∧
      100 * 1500000 ≤ 105 * nominalKhz 73) := by decide +kernel

/-! Host port, events, cipher, self-test, flash, DRAM, priming. -/

/-- A namespace of one unit, on a live easel. -/
def ns1 : Ns := { units := [(0, 0)] }

/-- A twin in RUN with namespace 1, decoder 0 committed on it at base 0, and the CXL link up. -/
def host : State :=
  { run with
    ctl := { run.ctl with nss := [(1, ns1)] }
    sump := { run.sump with lines := [] }
    dura := { run.dura with dmax := 1000000, clow := false }
    twin := { run.twin with hostTx := true }
    host := { run.host with memEn := true, memAct := true, cxl := true, rate := 6, width := 16
                            hdm := [{ nsid := 1, committed := true, base := 0, size := 2147483648 }, {}, {}, {}] } }

theorem witness_host_link :
    (run.host.perst = false ∧ run.test.badHost = false ∧ run.host.drain = .none ∧ run.prime.primeAt.isSome = true ∧ run.prime.step = 0
      ∧ 1 ≤ 6 ∧ 6 ≤ 6 ∧ 16 ∈ [1, 2, 4, 8, 16]) ∧
    (∀ d ∈ run.host.hdm, d.committed = false) ∧ (∃ d ∈ host.host.hdm, d.committed = true) ∧ run.host.d3 = false ∧
    (true = true ↔ (host.hdm 0).nsid ≠ 0 ∧ 2147483648 = host.nsSize (host.hdm 0).nsid ∧ 0 % 268435456 = 0 ∧ 0 = 0
      ∧ ∀ j, j < 0 → (host.hdm j).committed = true) ∧
    (run.host.perstSys = false ∧ run.prime.drain = none) ∧
    (let s := { run with host := { run.host with drain := .h3 5 } }; s.host.drain = .h3 5) ∧
    (let s := { run with host := { run.host with perst := true } }
     s.host.perst = true ∧ s.host.drain = .none ∧ s.test.badHost = false ∧ s.prime.primeAt.isSome = true ∧ s.prime.step = 0) := by
  decide +kernel

theorem witness_cxl_mem :
    (host.host.drain = .none ∧ host.cxlHit 64 = some (1, 64) ∧ host.cxlHit 4503599627370432 = none ∧ (host.cxlHit 0).isSome = true) ∧
    (host.dura.held = [] ∧ host.canPlace { tag := 0, ns := 1, off := 64, img := imgOf (List.replicate 64 0), poison := false } = true) ∧
    (let s := { host with dura := { host.dura with held := [{ tag := 0, ns := 1, off := 0, img := imgOf (List.replicate 64 0), poison := false }] } }
     s.host.drain = .none ∧ s.cxlHit 64 = some (1, 64) ∧ s.dura.held ≠ []) ∧
    (let s := { run with host := { run.host with gpfWait := [{ since := 3 }] } }; s.host.gpfWait = [{ since := 3 }]) := by decide +kernel

theorem witness_cxl_mailbox :
    run.host.d3 = false ∧ run.host.cxlTimeAt = none ∧
    (let s := { run with flash := { run.flash with boot := [(0xC1, 0, 1)] } }; s.flash.valid 0 = true ∧ s.flash.valid 1 = false) ∧
    (let s := { run with host := { run.host with cxlTimeAt := some 3 } }; s.host.cxlTimeAt = some 3) ∧
    (let s := { run with host := { run.host with d3 := true } }; s.host.d3 = true) := by decide +kernel

theorem witness_events :
    run.host.d3 = false ∧
    (let s := { run with ev := { run.ev with pba := 1#2048 } }; s.host.d3 = false ∧ s.ev.funMask = false ∧ s.ev.pba.getLsbD 0 = true) ∧
    run.ev.pba = 0 ∧ run.reg64 0x018 = some 0 ∧ ((7 : BitVec 4) ≠ 0xF ∨ 0x378 % 4 ≠ 0) ∧
    ((921 : BitVec 16) ∈ (Vector.replicate 8 (921 : BitVec 16)).toList ∧ 8 * 115 < (921 : BitVec 16).toInt
      ∧ run.plat.hotAt = none ∧ run.plat.critAt = none) ∧
    (let s := { run with plat := { run.plat with hotAt := some 0, critAt := some 0 } }
     s.plat.hotAt.isSome = true ∧ s.plat.critAt.isSome = true ∧ s.power.wl = 13 ∧ s.power.stepTo = none ∧ s.prime.drain = none) := by
  decide +kernel

/-- No event goes to a vector after reset; and the junction sensors are cool there, as 95 °C still is. -/
theorem witness_cool : (∀ x, (State.reset.ev.route x).msix = false) ∧ (∀ y ∈ run.power.jtemp, y.toInt ≤ 8 * 95) ∧
    (∀ x ∈ (Vector.replicate 8 (760 : BitVec 16)).toList, x.toInt ≤ 8 * 95) := by
  refine ⟨fun x => ?_, ?_, ?_⟩
  · simp only [Events.route, State.reset, tabGet]
    split <;> rfl
  · intro y hy
    simp [run, inRole, State.reset] at hy
    subst hy
    decide +kernel
  · intro x hx
    simp at hx
    subst hx
    decide +kernel

theorem witness_raise :
    (let s := { run with ev := { run.ev with routes := [(5, { vec := 7, msix := true, cores := 1 })], evMsix := true, table := [(7, { mask := false })] } }
     (!s.ev.status.getLsbD 5 && (s.ev.route 5).msix && s.ev.evMsix) = true ∧ s.vecMasked (s.ev.route 5).vec = false) ∧
    (let s := { run with ev := { run.ev with routes := [(5, { vec := 7, msix := true, cores := 1 })], evMsix := true } }
     (!s.ev.status.getLsbD 5 && (s.ev.route 5).msix && s.ev.evMsix) = true ∧ s.vecMasked (s.ev.route 5).vec = true) ∧
    (!run.ev.status.getLsbD 5 && (run.ev.route 5).msix && run.ev.evMsix) = false := by decide +kernel

theorem witness_cipher_and_test :
    (let s := { run with cipher := { run.cipher with engines := { inServ := true, pipes := 0xFF } :: List.replicate 7 {} } }
     (s.engine 0).inServ = true ∧ pipesOk ((s.engine 0).pipes &&& ~~~(0x0F : BitVec 8)) = true) ∧
    ((1 : BitVec 4) &&& ~~~(1 : BitVec 4) = 0) ∧ ((2 : BitVec 4) &&& ~~~run.cipher.inputs ≠ 0) ∧
    (let s := { run with cipher := { run.cipher with unwrapping := [.ns 1], kek := some { bytes := List.replicate 32 0 } } }
     KeyTag.ns 1 ∈ s.cipher.unwrapping ∧ s.cipher.kek.isSome = true ∧ s.cipher.slots.length < 1024) ∧
    (run.test.lc ≠ .endOfLife ∧ (run.test.lc = .deployed → (0x00107FFF : BitVec 32).getLsbD 19 = false)) ∧
    (let s := { run with test := { run.test with lc := .endOfLife } }; s.test.lc = .endOfLife) ∧
    (let s := { run with test := { run.test with flipArm := true } }; s.test.flipArm = true) ∧
    run.untested 1 3 = false ∧
    (let s := { run with test := { run.test with frozen := true } }; s.test.frozen = true ∧ s.test.dropped = none) := by decide +kernel

/-- A twin in RUN with one flash bank's operation. -/
def fl0 (o : FOp) : State := { run with flash := { run.flash with banks := [{ op := some o }, {}] } }

theorem witness_flash :
    (let o : FOp := { erase := false, sector := 3, left := 2, pulses := 14, purpose := .slotErase 0 }
     ((fl0 o).fbank (0 : Fin 2)).op = some o ∧ o.erase = false ∧ o.pulses < 15) ∧
    (let o : FOp := { erase := false, sector := 3, left := 2, pulses := 15, purpose := .slotErase 0 }
     ((fl0 o).fbank (0 : Fin 2)).op = some o ∧ o.erase = false ∧ 15 ≤ o.pulses) ∧
    (let o : FOp := { erase := true, sector := 3, left := 1, pulses := 62, purpose := .slotErase 0 }
     ((fl0 o).fbank (0 : Fin 2)).op = some o ∧ o.erase = true ∧ run.power.pwrFail = false ∧ 0 < o.left ∧ o.pulses < 63) ∧
    (let o : FOp := { erase := true, sector := 3, left := 0, pulses := 63, purpose := .slotErase 0 }
     ((fl0 o).fbank (0 : Fin 2)).op = some o ∧ o.erase = true ∧ o.left = 0 ∧ 63 ≤ o.pulses) ∧
    (let o : FOp := { erase := true, sector := 3, left := 0, purpose := .slotErase 0 }
     ((fl0 o).fbank ((511 : Fin 1024).val / 512)).op.isSome = true) ∧
    ((run.fbank ((512 : Fin 1024).val / 512)).op = none ∧ (512 : Fin 1024).val ∉ (run.fbank ((512 : Fin 1024).val / 512)).halfErased) := by
  decide +kernel

/-- A twin in RUN with one DRAM channel in use. -/
def dram (k : DrChan) : State := { run with dram := { run.dram with chans := [(31, k)], usable := [31] } }

theorem witness_dram :
    (let s := dram { st := 1, postponed := 7 }; (s.drch 31).st = 1 ∧ (s.drch 31).postponed < 8) ∧
    (let s := dram { st := 1 }; (s.drch 31).st = 1 ∧ (s.drch 31).postponed = 0) ∧
    (let s := dram { st := 2, zqTemp := [40, 41] }
     ((s.drch 31).st = 1 ∨ (s.drch 31).st = 2) ∧ (4 = 1 ∨ 4 = 2 ∨ 4 = 4) ∧ 42 < (s.drch 31).zqTemp.getD 1 0 + 2 ∧ (s.drch 31).zqTemp.getD 1 0 < 42 + 2) ∧
    (let s := dram { st := 1 }; (s.drch 31).srIdle ≠ 0) ∧
    (let s := dram { st := 1 }; dramMap s.dram.usable 256 = some { ch := 31, rank := 0, bank := 0, row := 0, slot := 1 } ∧ (s.drch 31).st = 1) := by
  decide +kernel

/-- A twin that primes, at a step. -/
def prime (n : Nat) : State := { State.reset with prime := { State.reset.prime with step := n } }

/-- A report without failures. -/
def fine : PrimeReport := { analog := [], calOk := true, dramBad := [], sramBad := [], recordsOk := true }

theorem witness_priming :
    (State.reset.power.wl = 0 ∧ State.reset.prime.step = 0 ∧ State.reset.prime.primeAt = none) ∧
    (let s := { prime 1 with power := { State.reset.power with pwrEn := true } }; s.prime.step = 1 ∧ s.power.pwrEn = true) ∧
    ((prime 1).prime.step = 1 ∧ (prime 1).power.pwrEn = false) ∧
    ((prime 2).prime.step = 2 ∧ (readFuses (prime 2)).prime.warm = false) ∧
    ((prime 6).prime.step = 6 ∧ fine.analog = []) ∧
    ((prime 7).prime.step = 7 ∧ fine.calOk = true ∧ (prime 7).test.lc ≠ .endOfLife) ∧
    ((prime 10).prime.step = 10 ∧ fine.recordsOk = true ∧ (prime 10).prime.roleRec = none ∧ (prime 10).test.lc ≠ .endOfLife) ∧
    (let s := { prime 13 with power := { State.reset.power with wl := 12 } }; s.prime.step = 13 ∧ s.power.wl = 12) ∧
    (prime 5).prime.step = 5 := by decide +kernel

/-- A record of the twin's role, as read in step 11. -/
def role0 : HsBody :=
  { decide := false, twin := false, lrole := 2, stop := 0, pepoch := 3, lsn := 0, resync := false, bitmap := false, split := 0, jtiles := 0, cfg := 0
    newEpoch := 0, srole := 0, full := false }

theorem witness_handshake :
    (let s := { prime 12 with twin := { State.reset.twin with hs := { running := true } } }
     s.twin.hs.running = true ∧ s.twin.hs.hold = false ∧ s.twin.hs.peer = none ∧ s.twin.hs.decide = none ∧ s.prime.waitPeer = false ∧
      2 ≤ s.stopCode ∧ s.twin.witness = none) ∧
    (let s := { prime 12 with twin := { State.reset.twin with hs := { running := true, hold := true } } }
     s.twin.hs.running = true ∧ s.twin.hs.hold = true) ∧
    (let s := { prime 12 with
       prime := { (prime 12).prime with roleRead := some role0 }, twin := { State.reset.twin with hs := { running := true } } }
     s.stopCode < 2 ∧ s.twin.witness = none) ∧
    (let s := { prime 12 with
       prime := { (prime 12).prime with roleRead := some role0 }
       twin := { State.reset.twin with hs := { running := true }, witness := some wit0 } }
     s.stopCode < 2 ∧ s.twin.witness.isSome = true) ∧
    (let s := { prime 12 with
       prime := { (prime 12).prime with waitPeer := true }, twin := { State.reset.twin with hs := { running := true } } }
     s.twin.hs.running = true ∧ s.prime.waitPeer = true) := by decide +kernel

theorem witness_recovery :
    (let s := { run with now := 2000000000, gnv := [(15, { regions := [4], regionAt := [(4, 1000000000)], regionRec := 0 })] }
     s.ops = [] ∧ 4 ∈ (s.nv 15).regions ∧ (∀ x ∈ (s.nv 15).regions, tabGet 0 (s.nv 15).regionAt x + 1000000000 ≤ s.now) ∧
      (s.nv 15).regionRec + 100000000 ≤ s.now) ∧
    (let s := { run with
       drawers := [(7, { st := .awake })], groups := [(15, { st := .sound, ng := 100, eg := 1 })], gnv := [(15, { suspects := [9] })] }
     s.twin.role ≠ .priming ∧ s.live 15 = true ∧ s.ops = [] ∧ (s.nv 15).suspects = [9]) := by decide +kernel

/-! Vorwiri packets and timers, network ports. -/

/-- The key of generation 0. -/
def key : ConnKey := { bytes := List.replicate 32 1 }

/-- An OPEN connection that has received nothing. -/
def conn5 : Conn := { st := .opened, cls := 1, keys := [(0, key, blob 32, blob 32)], limit := 64, limitMax := 64, creditWin := 64, hostLimit := 64 }

/-- A grant of all rights over namespace 1 for class 1. -/
def grant0 : GrantParams := { nsid := 1, off := 0, len := 1048576, rights := 7, setKind := 1, cls := 1, count := 0, conns := [], pinned := 0 }

/-- A twin that serves alone, with namespace 1, connection 5, a grant in slot 0, and a sub-port with an address. -/
def net : State :=
  { host with
    drawers := [(0, { st := .awake })]
    dura := { host.dura with clow := false, overBud := false }
    nports := [(0, { subs := [{ up := true, ip4 := 167772161 }, {}, {}, {}] })]
    xport := { host.xport with conns := [(5, conn5)], grants := [(0, { st := .live, params := some grant0 })] } }

/-- A packet of connection 5 with `n` payload bytes, before its tag. -/
def bare (ctl : Bool) (n : Nat) (psn : Psn) (akey : BitVec 32) : Pkt :=
  { port := 0, sub := 0, ver := 1, kg := 0, first := !ctl, last := !ctl, durable := false, retx := false, flagRsv := 0, path := 0, epl := 0
    conn := 5, psn, msgId := if ctl then 0 else 1, msgOff := 0, plen := BitVec.ofNat 16 n, akey, raddr := 0, climit := 0, rsv := 0
    frame := { v6 := false, vlanTags := 0, fragment := false, ipOptions := false, ipV6Ext := false, udpSumBad := false, udpPort := 46018
               dstAddr := 167772161, hostAddr := 9, hostUdp := 9, ce := false, udpLen := n + 64 }
    tag := 0 }

/-- The packet with the tag of its header and payload. -/
def pkt (op : Nat) (ctl : Bool) (d : Bytes) (psn : Psn) (akey : BitVec 32) : Pkt :=
  let p := bare ctl d.length psn akey
  { p with tag := sealTag p op key (rxNonce 0 ctl 0 psn) d }

theorem bare_nonce (ctl : Bool) (n : Nat) (psn : Psn) (akey : BitVec 32) :
    rxNonce (net.conn 5).salt ctl (rxEpoch 0 (bare ctl n psn akey).epl).1 (bare ctl n psn akey).psn = rxNonce 0 ctl 0 psn := by
  have h1 : (net.conn 5).salt = 0 := by decide +kernel
  have h2 : (rxEpoch 0 0).1 = 0 := by decide +kernel
  rw [h1, show (bare ctl n psn akey).epl = 0 from rfl, h2]
  rfl

theorem pkt_authentic {s : State} (hk : (s.conn 5).kgGen 0 = some (0, key)) (hs : (s.conn 5).salt = (net.conn 5).salt) (he : s.twin.epoch = 0)
    (op : Nat) (ctl : Bool) (d : Bytes) (psn : Psn) (akey : BitVec 32) : s.authentic (pkt op ctl d psn akey) ctl op d = true := by
  have h := authentic_sealed (s := s) (p := bare ctl d.length psn akey) (key := key) (gen := 0) (op := op) (ctl := ctl) (d := d) hk
  rw [show (bare ctl d.length psn akey).conn.toNat = 5 from rfl, hs, he, bare_nonce] at h
  exact h

/-- AKEY of slot 0 in its first generation. -/
def akey0 : BitVec 32 := 131072

/-- The packet passes checks 1 to 10 and begins its message. -/
def startsMsg (p : Pkt) (op : NetOp) (hdr auth : Bool) (d : Bytes) (rlen : Nat) (s : State) : Bool :=
  hostAccepts p op hdr auth s && begins p op d rlen (hostAt p op hdr auth s)

/-- The message is granted by slot 0, or refused. -/
def granted (p : Pkt) (op : NetOp) (hdr auth : Bool) (ext rlen : Nat) (s : State) : Bool :=
  match (hostAt p op hdr auth s).admission 5 op p.akey 0 ext rlen with
  | .grant 0 _ _ => true
  | _ => false

def refused (p : Pkt) (op : NetOp) (hdr auth : Bool) (ext rlen : Nat) (s : State) : Bool :=
  match (hostAt p op hdr auth s).admission 5 op p.akey 0 ext rlen with
  | .refuse _ _ => true
  | _ => false

/-- The packet starts its message, and is granted or, as `ok` says, refused. -/
def starts (p : Pkt) (op : NetOp) (code : Nat) (hdr : Bool) (d : Bytes) (rlen : Nat) (ok : Bool) : Bool :=
  let auth := net.authentic p false code d
  let ext := if op == .readReq then rlen else if op == .cas || op == .fadd then 8 else d.length
  startsMsg p op hdr auth (if op == .readReq then [] else d) rlen net && (if ok then granted else refused) p op hdr auth ext rlen net

theorem net5 (op : Nat) (ctl : Bool) (d : Bytes) (psn : Psn) (akey : BitVec 32) : net.authentic (pkt op ctl d psn akey) ctl op d = true :=
  pkt_authentic (by decide +kernel) rfl (by decide +kernel) op ctl d psn akey

theorem witness_write :
    (let d := List.replicate 64 7
     let p := pkt 1 false d 1 akey0
     starts p .write 1 (headerOk p false d.length && decide (1 ≤ d.length)) d 0 true = true) ∧
    (let d := List.replicate 64 7
     let p := pkt 1 false d 1 0
     starts p .write 1 (headerOk p false d.length && decide (1 ≤ d.length)) d 0 false = true) := by
  simp only [starts, net5]
  decide +kernel

theorem witness_write_durable :
    (let d := List.replicate 64 7
     let p := pkt 2 false d 1 akey0
     starts p .writeDurable 2 (headerOk p false d.length && decide (1 ≤ d.length)) d 0 true = true) := by
  simp only [starts, net5]
  decide +kernel

theorem witness_read_req :
    (let d := beBytes 4 (64 : BitVec 32).toNat ++ beBytes 4 0
     let p := pkt 3 false d 1 akey0
     starts p .readReq 3 (headerOk p false 8 && singleOk p) d 64 true = true) := by
  simp only [starts, net5]
  decide +kernel

theorem witness_flush :
    (let p := pkt 5 false [] 1 0
     let hdr := headerOk p false 0 && singleOk p && noTarget p
     let auth := net.authentic p false 5 []
     startsMsg p .flush hdr auth [] 0 net = true ∧ (hostAt p .flush hdr auth net).dura.clow = false
      ∧ ((hostAt p .flush hdr auth net).conn 5).st = .opened ∧ (hostAt p .flush hdr auth net).twin.swap = .none) := by
  simp only [net5]
  decide +kernel

theorem witness_atomics :
    (let o := Vector.replicate 8 (0 : Byte)
     let p := pkt 7 false (o.toList ++ o.toList) 1 akey0
     starts p .cas 7 (headerOk p false 16 && singleOk p) (o.toList ++ o.toList) 0 true = true) ∧
    (let o := Vector.replicate 8 (0 : Byte)
     let p := pkt 8 false (o.toList ++ o.toList) 1 akey0
     starts p .fadd 8 (headerOk p false 16 && singleOk p) (o.toList ++ o.toList) 0 true = true) ∧
     (Vector.replicate 8 (0 : Byte)).toList = List.replicate 8 0 := by
  simp only [starts, net5]
  decide +kernel

/-- An ACK of nothing. -/
def ack0 : AckBody := { cumpsn := 0, rsv := 0, sack := 0, cused := 0, cseen := 0, dropcnt := 0, cecnt := 0 }

theorem witness_control_packets :
    (let p := pkt 0x0A true (ackPayload ack0) 0 0; ctlAccepts p 56 (net.authentic p true 0x0A (ackPayload ack0)) net = true) ∧
    (let p := pkt 0x0C true (beBytes 4 (0 : BitVec 32).toNat) 0 0
     ctlAccepts p 4 (net.authentic p true 0x0C (beBytes 4 (0 : BitVec 32).toNat)) net = true) := by
  simp only [net5]
  decide +kernel

theorem xor_one_ne (x : BitVec 128) : x ^^^ 1 ≠ x := by
  intro h
  have := congrArg (fun y => y.getLsbD 0) h
  simp at this

/-- Each packet with one bit of its tag flipped is forged, and meets the other hypotheses too. -/
def forged (op : Nat) (ctl : Bool) (d : Bytes) (psn : Psn) (akey : BitVec 32) : Pkt :=
  { pkt op ctl d psn akey with tag := (pkt op ctl d psn akey).tag ^^^ 1 }

theorem witness_forged (op : Nat) (ctl : Bool) (d : Bytes) (psn : Psn) (akey : BitVec 32) :
    (let p := forged op ctl d psn akey
     net.serving = true ∧ net.frameOk p = true ∧ (net.conn p.conn.toNat).st ≠ .closed ∧ (net.conn p.conn.toNat).wit = false ∧
     net.cipher.erased = false ∧ (net.conn p.conn.toNat).kgGen p.kg = some (0, key) ∧
     p.tag ≠ sealTag p op key (rxNonce (net.conn p.conn.toNat).salt ctl (rxEpoch net.twin.epoch p.epl).1 p.psn) d) := by
  have e (x : BitVec 128) (n : BitVec 96) : sealTag { bare ctl d.length psn akey with tag := x } op key n d = sealTag (bare ctl d.length psn akey) op key n d := by
    unfold sealTag header
    rfl
  have hc : (forged op ctl d psn akey).conn.toNat = 5 := rfl
  have ha : (false, 167772161) ∈ net.subAddrs 0 0 := by decide +kernel
  have he : net.twin.epoch = 0 := by decide +kernel
  simp only [hc, he]
  refine ⟨by decide +kernel, ?_, by decide +kernel, by decide +kernel, by decide +kernel, ?_, ?_⟩
  · simp [State.frameOk, forged, pkt, bare, ha]
  · rw [show (forged op ctl d psn akey).kg = 0 from rfl]
    decide +kernel
  · rw [show (rxNonce (net.conn 5).salt ctl (rxEpoch 0 (forged op ctl d psn akey).epl).1 (forged op ctl d psn akey).psn) = rxNonce 0 ctl 0 psn from
      bare_nonce ctl d.length psn akey]
    unfold forged pkt
    simp only
    exact fun h => xor_one_ne _ (h.trans (e _ _))

/-- The headers of the forged packets are in order. -/
theorem witness_forged_headers :
    (let p := forged 1 false (List.replicate 64 7) 1 akey0; headerOk p false (List.replicate 64 (7 : Byte)).length = true) ∧
    (let p := forged 3 false (List.replicate 8 7) 1 akey0; headerOk p false 8 = true ∧ singleOk p = true) ∧
    (let p := forged 5 false [] 1 0; headerOk p false 0 = true ∧ singleOk p = true ∧ noTarget p = true) ∧
    (let p := forged 7 false (List.replicate 16 7) 1 akey0; headerOk p false 16 = true ∧ singleOk p = true) ∧
    (let p := forged 0x0A true (ackPayload ack0) 0 0; headerOk p true 56 = true ∧ controlOk p = true) ∧
    (let p := forged 0x0C true (List.replicate 4 7) 0 0; headerOk p true 4 = true ∧ controlOk p = true) := by decide +kernel

/-- `net` with another state of connection 5. -/
def withConn (k : Conn) : State := { net with xport := { net.xport with conns := [(5, k)] } }

/-- A message in progress. -/
def msg1 : Msg := { id := 1, op := .readReq, akey := akey0, raddr := 0 }

/-- A packet sent and not acknowledged. -/
def tx1 (n : Nat) : TxPkt := { psn := 1, wit := false, msg := 1, off := 0, first := true, last := true, raddr := 0, data := [], path := 0, retries := n }

theorem witness_transport :
    (let g : Gather := { id := 4, net := some (5, 1), ns := 1, off := 0, len := 64 }
     let s := { net with xport := { net.xport with gathers := [g], conns := [(5, { conn5 with msgs := [msg1] })] } }
     s.xport.gathers.find? (fun g => g.id == 4) = some g ∧ g.net = some (5, 1) ∧ g.needs = [] ∧ g.stale = false ∧ (s.conn 5).msg 1 = some msg1
      ∧ s.gatherLate g = true ∧ s.gatherLate { g with got := [(0, List.replicate 256 0, 0)] } = false) ∧
    (let s := withConn { conn5 with msgs := [msg1] }
     (s.conn 5).msg 1 = some msg1 ∧ msg1.st = .incomplete ∧ s.serving = true ∧ s.prime.noAdmit = false) ∧
    ({ withConn { conn5 with msgs := [{ msg1 with id := 3 }], arrived := [(3, 0)] } with now := 10000000 } : State).missing 5 = true ∧
    ((withConn { conn5 with ackOwed := 1 }).conn 5).ackOwed ≠ 0 ∧ ((withConn conn5).conn 5).ackOwed = 0 ∧
    (let s := withConn { conn5 with txBuf := [tx1 9] }
     (s.conn 5).txBuf.find? (fun t => t.psn == 1) = some (tx1 9) ∧ s.maySend (s.conn 5) = true ∧ (tx1 9).retries < (s.conn 5).retryMax) ∧
    (let s := withConn { conn5 with txBuf := [tx1 10] }
     (s.conn 5).txBuf.find? (fun t => t.psn == 1) = some (tx1 10) ∧ s.maySend (s.conn 5) = true ∧ (s.conn 5).retryMax ≤ (tx1 10).retries
      ∧ (s.conn 5).st = .opened) ∧
    (let s := withConn { conn5 with st := .closing, txBuf := [tx1 10] }
     (s.conn 5).txBuf.find? (fun t => t.psn == 1) = some (tx1 10) ∧ s.maySend (s.conn 5) = true ∧ (s.conn 5).retryMax ≤ (tx1 10).retries
      ∧ (s.conn 5).st = .closing) ∧
    ((net.conn 5).st ≠ .closed ∧ later (net.conn 5).limit (net.conn 5).received = true) ∧
    (let s := withConn { conn5 with creditWait := some 0, txWait := [tx1 0] }; (s.conn 5).creditWait.isSome = true ∧ (s.conn 5).txWait ≠ []) ∧
    (let s := { net with xport := { net.xport with ecnReact := 1 } }; s.xport.ecnReact = 1) ∧
    (let s := withConn { conn5 with oldGen := some 0 }; (s.conn 5).oldGen = some 0) ∧
    (let s := withConn { conn5 with noticeOn := true, notices := 1 }; (s.conn 5).noticeOn = true ∧ (s.conn 5).notices ≠ 0) ∧
    ({ net with twin := { net.twin with role := .active } } : State).logging = true ∧
    (let s := { net with xport := { net.xport with grants := [(131071, { st := .dead }), (131072, { st := .revoking })] } }
     (s.grant 131071).st = .dead ∧ (s.grant 131072).st = .revoking ∧ s.serving = true) := by decide +kernel

theorem witness_network_ports :
    (net.mayAnswer 0 0 = true ∧ 167772161 ≠ 0 ∧ (net.subPort 0 0).ip4 = 167772161 ∧ (net.subPort 0 0).echoes.length < 1000) ∧
    (net.mayAnswer 7 3 = false) ∧
    (let s := { net with nports := [(0, { subs := [{ up := true, ip6 := 5 }, {}, {}, {}] })] }
     s.mayAnswer 0 0 = true ∧ (s.subPort 0 0).ip6 = 5) ∧
    (let s := { net with nports := [(0, { subs := [{ up := true, ip4 := 5, echoes := List.replicate 1000 0 }, {}, {}, {}] })] }
     s.mayAnswer 0 0 = true ∧ 1000 ≤ ((s.subPort 0 0).echoes.filter (fun t => decide (s.now < t + 1000000000))).length) ∧
    (0 < modeSubs (net.nport 0).mode ∧ (net.subPort 0 0).up = true ∧ (net.subPort 0 0).fecDeg = false ∧ 0 ∉ net.test.badNet ∧
      (net.subPort 7 0).up = false ∧ 0 < modeSubs (net.nport 7).mode) := by decide +kernel

/-! Twin frames, twin timers, witness. -/

/-- The header of a frame that carries `b`, at epoch `e`, on port 0, in order, with the FCS of its bytes. -/
def hdr (e : Epoch) (b : TwinBody) : TwinHdr :=
  let h : TwinHdr := { port := 0, fcs := 0, lackv := false, lnakv := false, epoch := e, lsn := 1, lseq := 0, lack := 0 }
  { h with fcs := frameFcs (headOf h b.isData) b }

/-- A twin in a role, at epoch 7, with twin port 0 in service and one 250 ms digest sent. -/
def twin (r : Role) : State :=
  { inRole r with
    tports := [(0, { st := 2 })]
    twin := { (inRole r).twin with epoch := 7, sent := 9, applied := 5, digests := [(5, 3)], hostTx := true } }

/-- `twin` with fields of the twin engine of its own. -/
def twinWith (r : Role) (f : Twin → Twin) : State := { twin r with twin := f (twin r).twin }

/-- An entry of the log. -/
def entry : LogEntry := { anchor := true, durable := false, conn := 5, msg := 1, nsid := 1, body := .cxlWrite 0 0 (List.replicate 64 0) }

/-- A fetch that waits for the peer's answer. -/
def fetch0 : SentFetch := { ftag := 3, grp := 0, grow := 0, pos := 0, ns := 1, off := 0, time := 0 }

/-- A HANDSHAKE that states and decides nothing. -/
def hs0 : HsBody := { decide := false, twin := false, lrole := 0, stop := 0, pepoch := 0, lsn := 0, resync := false, bitmap := false, split := 0, jtiles := 0
                      cfg := 0, newEpoch := 0, srole := 0, full := false }

/-- The link gate of a frame with its own FCS. -/
def gate (e : Epoch) (b : TwinBody) (s : State) : State × Bool :=
  if (s.tport 0).st != 2 then (s, false)
  else if b.isData then twinAccept (hdr e b) (twinAcks (hdr e b) s) else (twinAcks (hdr e b) s, true)

theorem gate_hdr (e : Epoch) (b : TwinBody) (s : State) : linkGate (hdr e b) b s = gate e b s := by
  simp [linkGate, gate, hdr, headOf]

/-- The frame passes its gates, and the state it is acted on in. -/
def accepts (b : TwinBody) (s : State) : Bool := frameAccepts (hdr 7 b) b s
def at7 (b : TwinBody) (s : State) : State := frameAt (hdr 7 b) b s

theorem witness_twin_frames :
    accepts (.data (.log { lsn := 1, entry })) (twin .standby) = true ∧
    (let b := TwinBody.applyAck 6 0; let t := at7 b (twin .active)
     accepts b (twin .active) = true ∧ t.logging = true ∧ atOrBefore 6 t.twin.sent = true) ∧
    (let b := TwinBody.heartbeat 2 0 0 6 0
     (twin .standby).twin.role ≠ .priming ∧ accepts b (twin .standby) = true ∧ State.reset.twin.role = .priming ∧
       (linkGate (hdr 7 b) b (twin .priming)).2 = true ∧ (twin .priming).twin.role = .priming) ∧
    (let b := TwinBody.digest 5 3; let c := TwinBody.digest 5 4; let t := at7 b (twin .active); let u := at7 c (twin .active)
     accepts b (twin .active) = true ∧ t.twin.resync = false ∧ t.twin.role = .active ∧ t.twin.digests.find? (fun e => e.1 == 5) = some (5, 3) ∧
     accepts c (twin .active) = true ∧ u.twin.digests.find? (fun e => e.1 == 5) = some (5, 3)) ∧
    (let b := TwinBody.relinquish 5 2; let t := relinquishEvent 0 (at7 b (twin .standby))
     accepts b (twin .standby) = true ∧ t.twin.role = .standby ∧ t.twin.resync = false ∧ t.twin.take = .none ∧ (2 : BitVec 8).toNat < 3) ∧
    (let b := TwinBody.relinquish 5 3
     accepts b (twin .active) = true ∧ (relinquishEvent 0 (at7 b (twin .active))).twin.role = .active ∧ (3 : BitVec 8).toNat = 3) ∧
    (let s := twinWith .standby (fun t => { t with take := .k1 9 false }); s.twin.take = .k1 9 false) ∧
    (let s := twinWith .standby (fun t => { t with take := .wait true }); s.twin.take = .wait true) ∧
    accepts (.takeover 6 2) (twin .active) = true ∧
    (let b := TwinBody.takeover 6 2; let t := (linkGate (hdr 8 b) b (twin .standby)).1
     (linkGate (hdr 8 b) b (twin .standby)).2 = true ∧ t.twin.role = .standby ∧ later 8 t.twin.epoch = true ∧ (8 : Epoch) ≠ t.twin.epoch) := by
  simp only [accepts, at7, frameAccepts, frameAt, gate_hdr]
  decide +kernel

theorem witness_twin_frames_more :
    accepts (.data (.fetchReq 1 0 5 3)) (twin .standby) = true ∧ accepts (.data (.mailbox (List.replicate 64 0))) (twin .standby) = true ∧
    accepts .link (twin .standby) = true ∧
    (let b := TwinBody.data (.fetchResp 3 0 (List.replicate 256 0))
     let s := twinWith .active (fun t => { t with sentFetches := [fetch0] })
     accepts b s = true ∧ (at7 b s).twin.sentFetches.find? (fun f => f.ftag == (3 : BitVec 16).toNat) = some fetch0
      ∧ s.twin.sentFetches.find? (fun f => f.ftag == 3) = some fetch0) ∧
    (let t := (linkGate (hdr 6 .link) .link (twin .active)).1
     (linkGate (hdr 6 .link) .link (twin .active)).2 = true ∧ t.twin.role ≠ .priming ∧ (6 : Epoch) ≠ t.twin.epoch ∧ later 6 t.twin.epoch = false) ∧
    (let t := (linkGate (hdr 8 .link) .link (twin .active)).1
     (linkGate (hdr 8 .link) .link (twin .active)).2 = true ∧ t.twin.role ≠ .priming ∧ (8 : Epoch) ≠ t.twin.epoch ∧ later 8 t.twin.epoch = true) ∧
    (let b := TwinBody.data (.resyncReq true []); let t := at7 b (twin .solo)
     accepts b (twin .solo) = true ∧ t.twin.role = .solo ∧ t.twin.resync = false) ∧
    (let s := twinWith .solo (fun t => { t with resync := true, resyncFrom := some 4 })
     s.twin.role = .solo ∧ s.twin.resync = true ∧ s.twin.waiting = [] ∧ s.twin.resyncLive = false ∧ s.twin.resyncFrom = some 4) ∧
    (let s := twinWith .solo (fun t => { t with resync := true, waiting := [{ lsn := 1, entry }] })
     s.twin.role = .solo ∧ s.twin.resync = true ∧ s.twin.waiting ≠ []) ∧
    (let s := twinWith .priming (fun t => { t with hs := { running := true } }); let b := TwinBody.handshake hs0
     s.twin.role = .priming ∧ (linkGate (hdr 7 b) b s).2 = true ∧ (linkGate (hdr 7 b) b s).1.twin.hs.running = true) := by
  simp only [accepts, at7, frameAccepts, frameAt, gate_hdr]
  decide +kernel

theorem witness_twin_ports :
    (run.test.badTwin.contains 3 = false ∧ (3 : Fin 4).val = 3 ∧ run.twin.pair = 0 ∧ (0 : Nat) ≠ (3 : Fin 4).val) ∧
    ((twin .active).tport 0).st = 2 ∧
    (let s := { run with tports := [(3, { st := 1 })] }; (s.tport 3).st = 1) ∧
    (let s := { run with tports := [(0, { st := 2, rxUnacked := 1, txBuf := [(0, 7, .mailbox [])] })] }
     (s.tport 0).st = 2 ∧ (s.tport 0).rxUnacked ≠ 0 ∧ (s.tport 0).txBuf ≠ [] ∧ s.twin.relinquished = none) ∧
    (((twin .active).tport 0).rxUnacked = 0) ∧
    (let s := twinWith .active (fun t => { t with relinquished := some 1 }); s.twin.relinquished = some 1 ∧ (s.tport 0).st = 2) := by
  decide +kernel

theorem witness_twin_timers :
    (let s := twinWith .standby (fun t => { t with ackCount := 1 }); s.twin.role = .standby ∧ s.twin.ackCount ≠ 0) ∧
    (let s := twinWith .active (fun t => { t with waiting := [{ lsn := 1, entry }] })
     s.twin.waiting = [{ lsn := 1, entry }] ∧ s.twinUp = some 0 ∧ dist s.twin.creditUsed s.twin.creditIn < entryUnits entry) ∧
    ((twin .active).twin.role ≠ .priming ∧ (twin .active).twin.relinquished = none ∧ (twin .active).twin.silent = false
      ∧ (twin .active).twin.digestAt = none ∧ (twin .active).twin.witness = none) ∧
    (let s := twinWith .active (fun t => { t with digestAt := some 5, digestMiss := 2 })
     s.twin.role = .active ∧ s.twin.silent = false ∧ s.twin.digestAt = some 5 ∧ 2 ≤ s.twin.digestMiss) ∧
    (let s := twinWith .active (fun t => { t with witness := some wit0 })
     s.twin.silent = false ∧ s.twin.role = .active ∧ s.twin.witness = some wit0 ∧ s.twin.witReqs.any (fun r => r.wtype == 1) = false
      ∧ s.twin.witRetry = none) ∧
    ((twin .standby).twin.silent = false ∧ (twin .standby).twin.resync = false ∧ (twin .standby).twin.take = .none) ∧
    (let s := twinWith .active (fun t => { t with witRetry := some (3, 4) }); s.twin.witRetry = some (3, 4)) ∧
    (let s := twinWith .active (fun t => { t with leaseEnd := some 5 }); s.twin.leaseEnd = some 5) ∧
    (let s := twinWith .active (fun t => { t with swap := .s1 2 0 }); s.twin.swap = .s1 2 0) ∧
    (let s := twinWith .active (fun t => { t with swap := .s2 2 }); s.twin.swap = .s2 2 ∧ s.twin.beat = none) ∧
    (let b : PeerBeat := { role := 2, health := 0, wit := 0, applied := 0, epoch := 7, time := 0 }
     let s := twinWith .active (fun t => { t with swap := .s2 2, beat := some b })
     s.twin.swap = .s2 2 ∧ s.twin.beat = some b ∧ b.role = 2 ∧ b.epoch = s.twin.epoch ∧ s.twin.silent = false) := by decide +kernel

/-- A witness's connection 5, with one request outstanding. -/
def witNet : State :=
  { net with
    twin := { net.twin with witness := some wit0, witReqs := [{ wtype := 1, wseq := 1, epoch := 0, sentAt := 0 }] }
    xport := { net.xport with conns := [(5, { conn5 with wit := true })] } }

theorem wit5 (op : Nat) (ctl : Bool) (d : Bytes) (psn : Psn) (akey : BitVec 32) : witNet.authentic (pkt op ctl d psn akey) ctl op d = true :=
  pkt_authentic (by decide +kernel) rfl (by decide +kernel) op ctl d psn akey

theorem witness_witness :
    (let b : WitBody := { wtype := 0x81, twin := 0, role := 0, result := 0, epoch := 0, pair := 0, wseq := 1, server := 1, leaseMs := 10 }
     let p := pkt 0x0D false (witPayload b) 1 0
     let x := rxChecks p false (headerOk p false 24 && singleOk p && noTarget p) (witNet.authentic p false 0x0D (witPayload b)) true false witNet
     let y := seqChecks p none x.1
     let v := ackDue p.conn.toNat (p.psn != (y.1.conn p.conn.toNat).cumPsn + 1) (settlePkt p y.1)
     x.2 = true ∧ y.2 = true ∧ v.replyOk b = true ∧ v.twin.witReqs.find? (fun r => r.wseq == b.wseq)
       = some { wtype := 1, wseq := 1, epoch := 0, sentAt := 0 }) := by
  simp only [wit5]
  decide +kernel

/-! Modules: responses, row work, links. -/

/-- A module's descriptor. -/
def desc0 : Descriptor :=
  { descVer := 1, descLen := 512, vendor := 1, model := 1, serial := 1, modFw := 1, dieCount := 8, qdepth := 4
    endurance := 1, dieCap := 68719476736, tReadTyp := 1, tReadMax := 1, tWriteTyp := 1, tWriteMax := 1, tResetMax := 1, powerMax := 1, powerIdle := 1
    tsense := true, tWarn := 680, tCrit := 760, linkCaps := 0 }

/-- A twin that serves alone, drawer 0 AWAKE, with one channel's state. -/
def chan (c : Nat) (k : Chan) : State := { host with drawers := [(0, { st := .awake })], chans := [(c, k)] }

/-- One command outstanding under tag 7. -/
def tagged (op : MOp) : State := chan 143 { link := .active, desc := some desc0, tags := [{ tag := 7, cmd := { op } }] }

/-- One response frees its tag, and its module has not failed. -/
def taken (op : MOp) (s : State) : Bool :=
  match takeTag 143 7 op s with | some (t, _) => !t.lost | none => false

/-- A module whose descriptor is read in two halves, the first already there. -/
def halves (l : List TagRec) : State := chan 143 { tags := l, descPages := [(0, List.replicate 256 0)] }

theorem witness_responses :
    taken .readCw (tagged .readCw) = true ∧ taken .writeCw (tagged .writeCw) = true ∧
    taken .dieStatus (tagged .dieStatus) = true ∧ taken .dieReset (tagged .dieReset) = true ∧
    (∃ t u, takeTag 143 7 .temp (tagged .temp) = some (t, u) ∧ t.lost = false ∧
      (∀ i, ((u.modChan 143 (fun k => { k with temp := i, tempValid := true })).chan 143).desc = some desc0) ∧
      (680 : BitVec 16).toInt ≤ desc0.tWarn ∧ desc0.tWarn < (681 : BitVec 16).toInt) ∧
    (∃ t u, takeTag 143 7 .descriptor (halves [{ tag := 7, cmd := { op := .descriptor, arg := 1 } }]) = some (t, u) ∧ t.lost = false ∧
      (let v := u.modChan 143 (fun k => { k with descPages := tabPut k.descPages t.cmd.arg (slice (List.replicate 288 0) 0 256) })
       descSettled (v.chan 143) = true ∧ (v.chan 143).descBytes = some (List.replicate 512 0))) ∧
    (∃ t u, takeTag 143 7 .descriptor (halves [{ tag := 7, cmd := { op := .descriptor } }, { tag := 8, cmd := { op := .descriptor } }])
      = some (t, u) ∧ t.lost = false ∧ descSettled (u.chan 143) = false) :=
  ⟨by decide +kernel, by decide +kernel, by decide +kernel, by decide +kernel,
    ⟨_, _, rfl, rfl, fun _ => rfl, by decide +kernel, by decide +kernel⟩, ⟨_, _, rfl, rfl, by decide +kernel, by decide +kernel⟩,
    ⟨_, _, rfl, rfl, by decide +kernel⟩⟩

theorem witness_media_timeouts :
    (let t : TagRec := { tag := 7, cmd := { op := .readCw, reissued := true } }
     ((chan 0 { tags := [t] }).chan 0).tags.find? (fun t => t.tag == (7 : Fin 1024).val) = some t ∧ t.cmd.op.dieQueue = true ∧ t.lost = false ∧ t.cmd.reissued = true) ∧
    (let t : TagRec := { tag := 7, cmd := { op := .readCw } }
     ((chan 0 { tags := [t] }).chan 0).tags.find? (fun t => t.tag == (7 : Fin 1024).val) = some t ∧ t.cmd.op.dieQueue = true ∧
      t.lost = false ∧ t.cmd.reissued = false ∧ t.resetSent = false ∧
      ((chan 0 { tags := [t] }).chan 0).tags.any (fun r => r.cmd.op == .dieReset && r.cmd.die == t.cmd.die) = false) ∧
    (let t : TagRec := { tag := 1023, cmd := { op := .dieReset } }
     ((chan 0 { tags := [t] }).chan 0).tags.find? (fun t => t.tag == (1023 : Fin 1024).val) = some t ∧ t.cmd.op = .dieReset ∧ t.lost = false) := by decide +kernel

/-- Group 0 formatted, its first easel unit 0 of namespace 1, and a dirty line of it. -/
def rows : State :=
  { host with
    drawers := [(0, { st := .awake })]
    groups := [(0, { st := .sound, ng := 2000000, eg := 1 })]
    easels := [(0, { nsid := 1, psi := 4, wcount := 4 })]
    sump := { host.sump with lines := [{ id := 0, bank := 0, ns := 1, line := 0, st := .dirty, img := imgOf (List.replicate 64 1) }] } }

theorem witness_row_work :
    (rows.grpWorks 0 = true ∧ rows.reserveRoom 0 = true ∧ ∃ st ns cw p, rows.chooseCw 0 = some (st, ns, cw) ∧ rows.decodeOff ns (256 * cw) = some p) ∧
    (let o : RowOp := { id := 3, grp := 0, grow := 0, dst := 0, purpose := .replay, phase := .write, await := [0] }
     let s := { rows with ops := [o] }
     s.op 3 = some o ∧ o.phase = .write ∧ o.grp = chGroup 0 ∧ o.await.contains (chPos 0) = true) ∧
    (rows.moveDue 0 0 = true ∧ rows.quietGroup 0 = true) ∧
    (let s := { rows with chans := [(0, { tags := List.replicate 8 { tag := 1, cmd := { op := .readCw } } })] }
     s.moveDue 0 0 = true ∧ s.quietGroup 0 = false) ∧
    (rows.live 0 = true ∧ (rows.drw (grpDrawer 0)).st = .awake ∧ rows.quietGroup 0 = true ∧ (rows.grp 0).ng ≠ 0) ∧
    (let s := { rows with drawers := [] }; (s.drw 0).st = .parked ∧ s.drawerGroups 0 ≠ []) ∧
    (let s := { rows with drawers := [(0, { st := .parking })] }; (s.drw 0).st = .parking ∧ s.drawerGroups 0 ≠ []) ∧
    (let o : RowOp := { id := 3, grp := 0, grow := 0, dst := 0, purpose := .host 1 0 [], phase := .merge }
     ({ rows with ops := [o] } : State).op 3 = some o ∧ o.phase = .merge) ∧
    (let s := { rows with groups := [(0, { st := .rebuilding, ng := 2000000, eg := 1 })] }
     (s.grp 0).st = .rebuilding ∧ s.grpWorks 0 = true ∧ s.rebuildHeld = false ∧
      (s.modGrp 0 (fun k => { k with paused := s.rebuildHeld })).unitAborted codeRebuild 0 = false ∧
      (s.modGrp 0 (fun k => { k with paused := s.rebuildHeld })).ops.any (fun o => o.grp == 0 && o.purpose == .rebuild) = false) :=
  ⟨⟨by decide +kernel, by decide +kernel, _, _, _, _, rfl, rfl⟩, by decide +kernel, by decide +kernel, by decide +kernel, by decide +kernel, by decide +kernel,
    by decide +kernel, by decide +kernel, by decide +kernel⟩

/-- Drawer 0, which holds the only dirty data, is in DFAULT. -/
def stuck (r : Role) : State := { rows with drawers := [(0, { st := .dfault })], twin := { rows.twin with role := r } }

theorem witness_media_stall :
    rows.mediaStuck = false ∧ (∀ r, (stuck r).mediaStuck = true ∧ (stuck r).twin.role = r) := by
  refine ⟨by decide +kernel, fun r => ⟨?_, rfl⟩⟩
  cases r <;> decide +kernel

theorem witness_links :
    ((chan 143 { link := .active, rxUnacked := 1, txBuf := [[]] }).chan 143).link = .active ∧
    ((chan 143 { link := .active }).chan 143).txBuf = [] ∧
    (let k := (chan 1 { link := .confirm, trn2Seen := 16 }).chan 1; k.link = .confirm ∧ k.confirmErr = false ∧ 16 ≤ k.trn2Seen) ∧
    (((chan 1 { link := .detect, trn1Lock := 6 }).chan 1).trn1Lock < 7 ∧ 7 ≤ ((chan 1 { link := .detect, trn1Lock := 7 }).chan 1).trn1Lock ∧
      (let k := (chan 1 { link := .detect }).chan 1; k.link = .detect ∧ k.shortTrain = false ∧ k.eqTry = none ∧ k.eqDone = false)) ∧
    (((chan 1 { link := .retrain }).chan 1).secondTry = false ∧ ((chan 1 { link := .retrain, secondTry := true }).chan 1).secondTry = true) ∧
    (((chan 1 { link := .confirm, confirmErr := true }).chan 1).confirmErr = true ∧ ((chan 1 { link := .confirm, trn2Seen := 15 }).chan 1).trn2Seen < 16) ∧
    (let s := { chan 1 { link := .active } with drawers := [(0, { st := .parking, step := .p4 })] }
     (s.chan 1).link = .active ∧ (s.drw (chDrawer 1)).step = .p4) ∧
    (let s := pw { rails := (List.range 4).map (fun k => (drawerRail 7 k, { st := .good })) }; s.drawerPowered 7 = true) ∧
    State.reset.drawerPowered 7 = false ∧
    (let s := chan 143 { link := .active, desc := some desc0 }; (s.chan 143).desc = some desc0 ∧ desc0.tsense = true) := by decide +kernel

/-- FCRC of an IDLE flit of number 0, in two halves of its 62 zero bytes. -/
theorem idle_half : (List.replicate 31 (0 : Byte)).foldl (crcByte 0x1021) 0xFFFF#16 = 49192#16 := by decide +kernel
theorem idle_rest : (List.replicate 31 (0 : Byte)).foldl (crcByte 0x1021) 49192#16 = 0xC9DB#16 := by decide +kernel

theorem idle_crc : crc16 (List.replicate 62 0) = 0xC9DB#16 := by
  show (List.replicate 31 (0 : Byte) ++ List.replicate 31 0).foldl (crcByte 0x1021) 0xFFFF#16 = _
  rw [List.foldl_append, idle_half, idle_rest]

/-- A scrambled flit that is an IDLE flit once descrambled in CONFIRM, with the two CRC bytes given. -/
def idleFlit (a b : Byte) : Bytes :=
  (scramble ((chan 1 { link := .confirm }).chan 1).rxScr (List.replicate 62 0 ++ [a, b])).1

/-- In CONFIRM one arriving flit has a right CRC once descrambled, and another a wrong one. -/
theorem witness_confirm_flits :
    (let x := (scramble ((chan 1 { link := .confirm }).chan 1).rxScr (idleFlit 0xDB 0xC9)).1
     (idleFlit 0xDB 0xC9).length = 64 ∧ leBytes 2 (crc16 (x.take 62)).toNat = (x.drop 62).take 2) ∧
    (let x := (scramble ((chan 1 { link := .confirm }).chan 1).rxScr (idleFlit 0 0)).1
     (idleFlit 0 0).length = 64 ∧ leBytes 2 (crc16 (x.take 62)).toNat ≠ (x.drop 62).take 2) := by
  have good : (scramble ((chan 1 { link := .confirm }).chan 1).rxScr (idleFlit 0xDB 0xC9)).1 = List.replicate 62 0 ++ [0xDB, 0xC9] := by decide +kernel
  have bad : (scramble ((chan 1 { link := .confirm }).chan 1).rxScr (idleFlit 0 0)).1 = List.replicate 62 0 ++ [0, 0] := by decide +kernel
  have cut (a b : Byte) : (List.replicate 62 (0 : Byte) ++ [a, b]).take 62 = List.replicate 62 0 := rfl
  simp only [good, bad, cut, idle_crc]
  exact ⟨⟨by decide +kernel, by decide +kernel⟩, by decide +kernel, by decide +kernel⟩

/-! Mailboxes and mailbox commands. -/

/-- The entry header of a command of mailbox 0. -/
def cmd : CmdHdr := { mbx := 0, tag := 5, nent := 1 }

/-- A twin in RUN alone, mailbox 0 with another owner and command FIFO. -/
def mbx0 (b : Mbx) : State := { run with ctl := { run.ctl with mbx := b :: List.replicate 7 {} } }

/-- A twin that primes, past its cold start, at step 5. -/
def prime5 : State := { State.reset with prime := { State.reset.prime with step := 5, primeAt := some 0 } }

theorem witness_mailboxes :
    ((5 : BitVec 32).toNat % 8 = 5 ∧ (3 : BitVec 32).toNat % 8 ≤ 3 ∧ (1 : BitVec 32).getLsbD 0 = true) ∧
    (let s := mbx0 { token := 9 }
     (s.mbx (s.winMbx (some 0))).token = 9 ∧ (mbxPush (s.winMbx (some 0)) (s.mbx (s.winMbx (some 0))).stage (renewLease (s.winMbx (some 0)) s)).2 = true
      ∧ (s.mbx (s.winMbx (some 0))).token ≠ 8) ∧
    ((run.mbx (run.winMbx none)).token = 0) ∧
    (143 < unitCount 1 ∧ unitCount 1 ≤ 144 ∧ 1023 < unitCount 11 ∧ unitCount 12 ≤ 0) ∧
    (let s := prime5; s.bmcUp = true ∧ ((ptrCheck 4 s).mbx 4).cmds.length + 2 ≤ fifoSize ∧ fifoSize < ((ptrCheck 4 s).mbx 4).cmds.length + 300) ∧
    (run.mbx 0).rsps.length + 1 ≤ fifoSize := by decide +kernel

/-- A twin with decoder 0 over a namespace, not committed. -/
def mapped (n : Nat) : State := { host with host := { host.host with hdm := [{ nsid := n }, {}, {}, {}] } }

/-- Each command of group 0x01 is taken with an acceptable record. -/
theorem witness_parameters :
    commits cmd 0x0101 .immediate devUnit (.durability (some 100) none none) run = true ∧
    commits cmd 0x0102 .immediate 143 (.integrity 1 143 0 500) run = true ∧
    commits cmd 0x0103 .immediate devUnit (.pool ⟨some 8192, none, none, none, none, none⟩) run = true ∧
    commits cmd 0x0104 .immediate 0 (.port { port := 0, mode := 0, sub := 0, vlan := 0, pcp := 3, mac := 2, ip4 := 1, ip6 := 0 }) run = true ∧
    commits cmd 0x0105 .immediate devUnit (.xport ⟨none, none, none, none, some 4, none, none, none⟩) run = true ∧
    commits cmd 0x0106 .immediate devUnit (.hostport (some 5) none none none) run = true ∧
    commits cmd 0x0107 .immediate 0 (.setHdm 0 1) (mapped 0) = true ∧
    commits cmd 0x0108 .immediate 0 (.clearHdm 0) (mapped 1) = true ∧
    commits cmd 0x0109 .immediate 0 (.eventRoute 0 3 1 true) run = true ∧
    commits cmd 0x010A .immediate devUnit (.compat 0) run = true ∧
    commits cmd 0x010B .immediate devUnit (.mbx none none) run = true := by decide +kernel

/-- The KEK of the tests, and blobs under it. -/
def kek0 : Kek := { bytes := List.replicate 32 0 }

/-- A twin in RUN alone with group 0 of eight easels, namespace 1 mapped and namespace 2 free to change, connection 5 OPEN, grant slot 0 LIVE,
schedule 0, and the KEK. -/
def obj : State :=
  { net with
    groups := [(0, { st := .sound, ng := 20000000, eg := 8 })]
    easels := [(0, { nsid := 1 }), (1, { nsid := 2 }), (2, { nsid := 2, unit := 1 })]
    cipher := { net.cipher with kek := some kek0 }
    ctl := { net.ctl with nss := [(1, ns1), (2, { units := [(0, 1), (0, 2)] })], scheds := [(0, { nsid := 2, extents := [(0, 4096)] })] } }

/-- Objects as the tests open and create them. -/
def open9 : OpenParams :=
  { conn := 9, cls := 1, salt := 7, hpsn0 := 0, cpsn0 := 0, msgId0 := 0, retryMax := 10, creditWin := 4, blob0 := blob 32, blob1 := blob 32 }
def create0 : CreateNsParams :=
  { nsid := 0, units := 2, psi := 128, parkable := false, visVarnish := true, cacheFill := false, encrypted := false, blob0 := none, blob1 := none }
def sched9 : SchedParams := { nsid := 2, conn := none, leadMs := 300, lookahead := 256 }

theorem witness_namespaces :
    commits cmd 0x0202 .immediate devUnit (.createNs create0) obj = true ∧
    (logged cmd 0x0202 .immediate devUnit (.createNs create0) obj).pickNs 0 = some 3 ∧
    (allocUnits 2 3 0 128 false (logged cmd 0x0202 .immediate devUnit (.createNs create0) obj)).isSome = true ∧
    commits cmd 0x0203 .immediate 2 (.deleteNs 2) (obj.modCtl (fun c => { c with scheds := [] })) = true ∧
    ((logged cmd 0x0203 .immediate 2 (.deleteNs 2) obj).ns 2).isSome = true ∧
    commits cmd 0x0204 .immediate 2 (.resizeNs 2 1) obj = true ∧ commits cmd 0x0204 .immediate 2 (.resizeNs 2 3) obj = true ∧
    (allocUnits 1 2 2 128 false (logged cmd 0x0204 .immediate 2 (.resizeNs 2 3) obj)).isSome = true ∧
    commits cmd 0x0205 .immediate 2 (.nsAttr 2 false true) obj = true ∧
    commits cmd codeSanitize .long 2 (.sanitize 2) obj = true := by decide +kernel

/-- A blob of the tests unwraps to its key under their KEK. -/
theorem blob_material : unwrapKey (List.replicate 32 0) (blob 32) = some (List.replicate 32 1) := by
  unfold blob
  exact unwrapKey_wrapKey _ _ 4 (by simp) (by simp) (by simp)

theorem blob_key {u : State} (hk : u.cipher.kek = some kek0) (c g : Nat) : u.connBlob c g (blob 32) (blob 32) = some { bytes := List.replicate 32 1 } := by
  have e : u.unwrap (u.ownBlob (blob 32) (blob 32)) = some (List.replicate 32 1) := by
    unfold State.ownBlob State.unwrap
    rw [hk, ite_self, Option.bind_some, kek0, blob_material]
  unfold State.connBlob
  rw [e, Option.bind_some, connKey, if_pos List.length_replicate]

theorem blob_some {u : State} (hk : u.cipher.kek = some kek0) (c g : Nat) : (u.connBlob c g (blob 32) (blob 32)).isSome = true := by
  rw [blob_key hk, Option.isSome_some]

/-- Range checks on such blobs do not fail. -/
theorem blob_ranges {u : State} (hk : u.cipher.kek = some kek0) :
    u.cfgRange (.openConn open9) = firstOf [need ((u.conn 9).st == .closed) 0x0410 devUnit, need (!u.cipher.erased) 0x0904 devUnit, none] ∧
    u.cfgRange (.rekey 5 1 (blob 32) (blob 32)) = firstOf [need ((u.conn 5).st == .opened || (u.conn 5).st == .closing) 0x0411 devUnit,
      need ((u.conn 5).keys.length ≤ 1 && 1 == (listMax 0 ((u.conn 5).keys.map (·.1))) + 1) 0x0404 devUnit, need (!u.cipher.erased) 0x0904 devUnit, none] ∧
    u.cfgRange (.witness wit0) = firstOf [need (u.twin.witReqs.all (fun r => r.wtype != 2 && r.wtype != 3)) 0x0505 devUnit,
      need (!u.cipher.erased) 0x0904 devUnit, none] := by
  simp only [State.cfgRange, open9, wit0, blob_some hk]
  refine ⟨?_, ?_, ?_⟩ <;> simp [firstOf, need]

/-- OPEN_CONNECTION, REKEY and SET_WITNESS with such blobs. -/
theorem witness_open_blob : commits cmd 0x0401 .immediate devUnit (.openConn open9) obj = true ∧
    ((logged cmd 0x0401 .immediate devUnit (.openConn open9) obj).connBlob 9 0 (blob 32) (blob 32)).isSome = true := by
  refine ⟨?_, blob_some (by decide +kernel) 9 0⟩
  rw [commits, acceptable, State.cfgCheck, (blob_ranges (by decide +kernel)).1]
  decide +kernel

theorem witness_rekey_blob : commits cmd 0x0403 .immediate devUnit (.rekey 5 1 (blob 32) (blob 32)) obj = true ∧
    ((logged cmd 0x0403 .immediate devUnit (.rekey 5 1 (blob 32) (blob 32)) obj).connBlob 5 1 (blob 32) (blob 32)).isSome = true := by
  refine ⟨?_, blob_some (by decide +kernel) 5 1⟩
  rw [commits, acceptable, State.cfgCheck, (blob_ranges (by decide +kernel)).2.1]
  decide +kernel

theorem witness_set_witness : commits cmd 0x0503 .immediate devUnit (.witness wit0) obj = true := by
  rw [commits, acceptable, State.cfgCheck, (blob_ranges (by decide +kernel)).2.2]
  decide +kernel

theorem applied_witness {u : State} (hk : u.cipher.kek = some kek0) : (applyWitness wit0 u).2 = 0 := by
  simp only [applyWitness, applyOpen, wit0, blob_key hk, Option.map_some, Option.isSome_some, if_true]

theorem witness_applied : (applyWitness wit0 (logged cmd 0x0503 .immediate devUnit (.witness wit0) obj)).2 = 0 :=
  applied_witness (by decide +kernel)

theorem witness_objects :
    commits cmd 0x0303 .immediate 7 (.setDrawer 7 true 10) obj = true ∧
    (commits cmd 0x0402 .long devUnit (.closeConn 5) obj = true ∧
      ((logged cmd 0x0402 .long devUnit (.closeConn 5) obj).conn 5).st = .opened) ∧
    (commits cmd 0x0405 .immediate devUnit (.regGrant grant0) obj = true ∧
      (logged cmd 0x0405 .immediate devUnit (.regGrant grant0) obj).freeSlot = some 1) ∧
    (let p := { grant0 with pinned := 1 }
     commits cmd 0x0405 .waiting devUnit (.regGrant p) obj = true ∧ (opened cmd 0x0405 .waiting devUnit obj).freeSlot = some 1 ∧
      (logged cmd 0x0405 .waiting devUnit (.regGrant p) obj).freeSlot = some 1 ∧
      (logged cmd 0x0405 .waiting devUnit (.regGrant p) obj).serving = true) ∧
    (akey0.toNat % 131072 = 0 ∧ commits cmd codeRevoke .waiting devUnit (.revokeGrant 0) obj = true ∧
      (opened cmd codeRevoke .waiting devUnit obj).akey 0 = akey0.toNat) ∧
    commits cmd 0x0504 .immediate devUnit (.twin ⟨none, some 50, none, none⟩) obj = true := by decide +kernel

theorem witness_schedules :
    (commits cmd 0x0701 .immediate devUnit (.schedCreate sched9) obj = true ∧
      lowestFrom 0 64 (fun i => ((logged cmd 0x0701 .immediate devUnit (.schedCreate sched9) obj).sched i).isSome) = some 1) ∧
    commits cmd 0x0702 .immediate devUnit (.schedAppend 0 [(4096, 256)]) obj = true ∧
    commits cmd 0x0703 .immediate devUnit (.schedStart 0) obj = true ∧
    commits cmd 0x0704 .immediate devUnit (.schedDelete 0) obj = true := by decide +kernel

/-- A long command of mailbox 0 that runs. -/
def long0 (marked : Bool) : State := obj.modCtl (fun c => { c with
  running := [{ id := 0, mbx := 0, code := 0x0604, tag := 77, kind := .long, unit := 0, rsv := 1, marked }], nextCmd := 1
  status := [{ mbx := 0, code := 0x0604, tag := 77 }] })

theorem witness_immediate_commands :
    (∀ c ∈ [0x0001, 0x0002, 0x0003, 0x010C, 0x0505, 0x0609, 0x0801, 0x0802, 0x0803, 0x0901, 0x0904, 0x0905],
      takes cmd c .immediate devUnit obj = true) ∧
    (∀ c ∈ [0x0404, 0x0407, 0x0705], takes cmd c .immediate devUnit obj = true) ∧
    takes { cmd with mbx := 6 } 0x0A02 .immediate devUnit obj = true ∧ takes { cmd with mbx := 6 } 0x0A01 .long devUnit obj = true ∧
    ((opened cmd 0x0002 .immediate devUnit (long0 false)).statusOf 0 77).isSome = true ∧ takes cmd 0x0002 .immediate devUnit (long0 false) = true ∧
    ((opened cmd 0x010C .immediate devUnit obj).param 0x11).isSome = true ∧
    (takes cmd 0x0206 .immediate 2 obj = true ∧ ((opened cmd 0x0206 .immediate 2 obj).ns 2).isSome = true) ∧
    (takes cmd 0x0207 .immediate 0 obj = true ∧ 7 < ((opened cmd 0x0207 .immediate 0 obj).grp 0).eg) ∧
    (takes cmd 0x0304 .immediate 7 obj = true ∧ ((opened cmd 0x0304 .immediate 7 obj).drw 7).st ≠ .dfault) ∧
    ((opened cmd 0x0404 .immediate devUnit obj).conn 5).st = .opened ∧
    (let s := { obj with xport := { obj.xport with grants := [(131071, { st := .dead, params := some grant0 })] } }
     takes cmd 0x0407 .immediate devUnit s = true ∧ ((opened cmd 0x0407 .immediate devUnit s).grant 131071).st = .dead ∧
      ((opened cmd 0x0407 .immediate devUnit s).grant 131071).params = some grant0) ∧
    (let s := { chan 143 { sbPres := true, dstat := 1, descPages := [(1, List.replicate 256 0)] } with drawers := [(7, { st := .awake })] }
     let u := opened cmd 0x0608 .immediate 143 s
     takes cmd 0x0608 .immediate 143 s = true ∧ u.chanCheck 143 = none ∧ (u.chan 143).dstat ≠ 0 ∧
      lookupNat 1 (u.chan 143).descPages = some (List.replicate 256 0)) ∧
    ((opened cmd 0x0705 .immediate devUnit obj).sched 0).isSome = true ∧
    (let s := { obj with test := { obj.test with frozen := true, dropped := some (1, 2, 3) } }
     takes cmd 0x0802 .immediate devUnit s = true ∧ (opened cmd 0x0802 .immediate devUnit s).test.frozen = true ∧
      (opened cmd 0x0802 .immediate devUnit s).test.dropped = some (1, 2, 3)) ∧
    (opened cmd 0x0905 .immediate devUnit obj).flash.session = none := by decide +kernel

theorem witness_abort :
    takes cmd 0x0003 .immediate devUnit (long0 false) = true ∧
    (opened cmd 0x0003 .immediate devUnit (long0 false)).abortTarget cmd.mbx.val 78 = none ∧
    (∃ r, (opened cmd 0x0003 .immediate devUnit (long0 false)).abortTarget cmd.mbx.val 77 = some r ∧ r.kind = .long ∧ r.marked = false) ∧
    takes cmd 0x0003 .immediate devUnit (long0 true) = true ∧
    (∃ r, (opened cmd 0x0003 .immediate devUnit (long0 true)).abortTarget cmd.mbx.val 77 = some r ∧ r.kind = .long ∧ r.marked = true ∧
      (∀ q, q ∈ (opened cmd 0x0003 .immediate devUnit (long0 true)).ctl.running → q.id = r.id → q.marked = true)) ∧
    (let s := (long0 false).modCtl (fun c => { c with running := c.running.map (fun r => { r with kind := .waiting }) })
     ∃ r, (opened cmd 0x0003 .immediate devUnit s).abortTarget cmd.mbx.val 77 = some r ∧ r.kind ≠ .long) :=
  ⟨by decide +kernel, by decide +kernel, ⟨_, rfl, by decide +kernel, by decide +kernel⟩, by decide +kernel,
    ⟨_, rfl, by decide +kernel, by decide +kernel, by decide +kernel⟩, ⟨_, rfl, by decide +kernel⟩⟩

/-- The refusals before a command's own checks, each first met in some state. -/
theorem witness_mailbox_order :
    (let s := { obj with test := { obj.test with lc := .endOfLife } }
     leavesFifo cmd 0x0609 s = true ∧ groupLc 0x0609 (fetched cmd 0x0609 s).test.lc = false) ∧
    (leavesFifo { cmd with mbx := 6 } 0x0404 obj = true ∧ groupLc 0x0404 (fetched { cmd with mbx := 6 } 0x0404 obj).test.lc = true ∧
      groupMbx 0x0404 6 = false) ∧
    (let h : CmdHdr := { cmd with tag := 77 }
     leavesFifo h 0x0609 (long0 false) = true ∧ (fetched h 0x0609 (long0 false)).ctl.running.any (fun r => r.mbx == 0 && r.tag == h.tag) = true) ∧
    (let h : CmdHdr := { cmd with mbx := 4 }
     leavesFifo h 0x0609 prime5 = true ∧ groupMbx 0x0609 4 = true ∧ (opened h 0x0609 .immediate devUnit prime5).atRun = false) ∧
    (let s := inRole .standby; leavesFifo cmd 0x0103 s = true ∧ (opened cmd 0x0103 .immediate devUnit s).roleBars 0x0103 = true) ∧
    (takes cmd 0x0609 .immediate devUnit obj = true) := by decide +kernel

/-- Nine modules in group 3, in a drawer that is AWAKE. -/
def nine : State :=
  { obj with
    drawers := [(0, { st := .awake }), (1, { st := .awake })]
    chans := (List.range 9).map (fun p => (grpChan 3 p, { link := .active, sbPres := true, desc := some desc0, health := .inService })) }

theorem witness_long_commands :
    (takes cmd 0x0201 .long 3 nine = true ∧ ((opened cmd 0x0201 .long 3 nine).drw (grpDrawer 3)).st ≠ .dfault ∧
      (opened cmd 0x0201 .long 3 nine).nineModules 3 = true ∧ 1 ≤ ((opened cmd 0x0201 .long 3 nine).formatSize 3).2 ∧
      (∀ e ∈ (opened cmd 0x0201 .long 3 nine).easels, e.1 / 4096 = 3 → e.2.nsid = 0) ∧ ((opened cmd 0x0201 .long 3 nine).grp 3).formatting = false ∧
      (∀ o ∈ (opened cmd 0x0201 .long 3 nine).ops, o.grp = 3 → o.purpose ≠ .metaRow .format)) ∧
    (takes cmd 0x0208 .waiting 2 obj = true ∧ ((opened cmd 0x0208 .waiting 2 obj).ns 2).isSome = true ∧ 0 + 512 ≤ obj.nsSize 2 ∧
      (opened cmd 0x0208 .waiting 2 obj).cwsAsleep 2 ((opened cmd 0x0208 .waiting 2 obj).mediaNeeds 2 0 512) = []) ∧
    (let s := { obj with drawers := [] }
     (opened cmd 0x0208 .waiting 2 s).cwsAsleep 2 ((opened cmd 0x0208 .waiting 2 s).mediaNeeds 2 0 512) ≠ []) ∧
    (takes cmd 0x0209 .waiting 2 obj = true ∧ (opened cmd 0x0209 .waiting 2 obj).cwsAsleep 2 [0 / 256] = [] ∧
      (opened cmd 0x0209 .waiting 2 obj).dura.clow = false ∧ (opened cmd 0x0209 .waiting 2 obj).dura.overBud = false ∧
      (opened cmd 0x0209 .waiting 2 obj).prime.noAdmit = false ∧ (opened cmd 0x0209 .waiting 2 obj).twin.swap = .none ∧
      (opened cmd 0x0209 .waiting 2 obj).heldBack 2 0 64 = false ∧ (opened cmd 0x0209 .waiting 2 obj).lineRoom false 1 = true) ∧
    (let s := dr 4 { st := .awake, parkable := true }
     takes cmd codePark .long 4 s = true ∧ ((opened cmd codePark .long 4 s).drw 4).st = .awake ∧ (opened cmd codePark .long 4 s).parkRefusal 4 = none) ∧
    (let s := dr 4 { st := .waking, parkable := true }
     ((opened cmd codePark .long 4 s).drw 4).st = .waking ∧ ((opened cmd codePark .long 4 s).drw 4).latch = .none) ∧
    takes cmd codeWake .waiting 4 obj = true := by decide +kernel

theorem witness_more_long_commands :
    (let s := twinWith .active (fun t => { t with matchAt := some 0, beat := some { role := 2, health := 0, wit := 0, applied := 0, epoch := 7, time := 0 } })
     takes cmd 0x0501 .long devUnit s = true ∧ (opened cmd 0x0501 .long devUnit s).peerFit = true ∧
      (opened cmd 0x0501 .long devUnit s).twin.swap = .none) ∧
    (takes cmd 0x0502 .waiting devUnit (twin .standby) = true ∧ (opened cmd 0x0502 .waiting devUnit (twin .standby)).twin.witness = none ∧
      (opened cmd 0x0502 .waiting devUnit (twin .standby)).twin.heardAt = none ∧
      (let u := opened cmd 0x0502 .waiting devUnit (twin .standby)
       u.twin.role = .standby ∧
        (takeoverHeld none { u with twin := { u.twin with takeCmd := some (cmdId cmd 0x0502 (twin .standby)) } }).twin.role = .standby)) ∧
    (let s := twinWith .standby (fun t => { t with digestAsk := some (5, 4), rx := [{ lsn := 6, entry := { entry with body := .xport 0 0 0 0 } }] })
     let u := opened cmd 0x0502 .waiting devUnit s
     takes cmd 0x0502 .waiting devUnit s = true ∧ u.twin.role = .standby ∧ u.twin.witness = none ∧ u.twin.heardAt = none ∧
      (takeoverHeld none { u with twin := { u.twin with takeCmd := some (cmdId cmd 0x0502 s) } }).twin.role ≠ .standby) ∧
    (takes cmd codeScrubNow .long 0 obj = true ∧ ((opened cmd codeScrubNow .long 0 obj).drw (grpDrawer 0)).st = .awake ∧
      ((opened cmd codeScrubNow .long 0 obj).grp 0).scrubNow = none ∧ ((opened cmd codeScrubNow .long 0 obj).grp 0).ng ≠ 0) ∧
    (let s := { obj with groups := [(0, { st := .degraded, failPos := some 4, ng := 100, eg := 1 })], chans := [(grpChan 0 4, { health := .rebuildTarget })] }
     takes cmd codeRebuild .long 0 s = true ∧ ((opened cmd codeRebuild .long 0 s).grp 0).st = .degraded ∧
      (∀ p ∈ ((opened cmd codeRebuild .long 0 s).grp 0).lost, ((opened cmd codeRebuild .long 0 s).chan (grpChan 0 p)).health = .rebuildTarget)) ∧
    (takes cmd 0x0604 .long devUnit obj = true ∧ (opened cmd 0x0604 .long devUnit obj).power.cisStep = .none ∧
      (opened cmd 0x0604 .long devUnit obj).power.pwrFail = false ∧ (opened cmd 0x0604 .long devUnit obj).power.cisCmd = none) ∧
    (let s := { inRole .standby with power := { (inRole .standby).power with rails := [(3, { pmbPort := 2, st := .good })] } }
     takes cmd 0x0605 .waiting 3 s = true ∧ (opened cmd 0x0605 .waiting 3 s).serving = false ∧
      ((opened cmd 0x0605 .waiting 3 s).rail 3).pmbPort = 1 + 1 ∧ ((opened cmd 0x0605 .waiting 3 s).rail 3).st = .good ∧
      (opened cmd 0x0605 .waiting 3 s).marginOn 1 = none) ∧
    (let s := chan 0 { sbPres := true, link := .active }
     takes cmd 0x0606 .waiting 0 s = true ∧ ((opened cmd 0x0606 .waiting 0 s).drw (chDrawer 0)).st = .awake ∧
      ((opened cmd 0x0606 .waiting 0 s).chan 0).sbPres = true) ∧
    (let s := chan 0 { sbPres := true, link := .failed }
     takes cmd 0x0607 .waiting 0 s = true ∧ ((opened cmd 0x0607 .waiting 0 s).chan 0).link = .failed) := by decide +kernel

/-- A twin with firmware slot 1 under update by mailbox 0. -/
def fw (f : Flash) : State := { obj with flash := f }

theorem witness_firmware :
    (takes cmd 0x0901 .immediate devUnit obj = true ∧ (opened cmd 0x0901 .immediate devUnit obj).flash.session = none ∧
      (opened cmd 0x0901 .immediate devUnit obj).flash.committing = none ∧
      ((opened cmd 0x0901 .immediate devUnit obj).prime.image ≠ 1 ∨ (opened cmd 0x0901 .immediate devUnit obj).flash.named ≠ 1)) ∧
    (let s := fw { obj.flash with session := some (1, 64, 0), erased := 1 }
     let u := opened cmd 0x0902 .immediate devUnit s
     let d : Bytes := List.replicate 8 3
     takes cmd 0x0902 .immediate devUnit s = true ∧ u.ownSession 0 1 = true ∧ u.flash.committing = none ∧ 56 + 8 ≤ u.sessionLen ∧
      u.slotFailed 1 = false ∧ (∀ k ∈ sectorsOf 56 8, k < u.flash.erased) ∧ u.notErased 1 56 d = false ∧ (u.flash.imageLeft 1 56 d 0).isSome = true) ∧
    (let s := fw { obj.flash with session := some (1, 64, 0), written := [(0, 64)] }
     let u := opened cmd 0x0903 .long devUnit s
     takes cmd 0x0903 .long devUnit s = true ∧ u.ownSession 0 1 = true ∧ u.flash.committing = none ∧ covers u.flash.written 0 u.sessionLen = true ∧
      u.slotFailed 1 = false ∧ u.flash.secMin ≤ u.flash.secver 1) ∧
    (let s := fw { obj.flash with boot := [(0xC1, 1, 1)] }
     takes cmd 0x0904 .immediate devUnit s = true ∧ (opened cmd 0x0904 .immediate devUnit s).flash.valid 1 = true) := by decide +kernel

/-- An authorisation of the right lengths. -/
def auth0 : LcAuth := { key := 4 :: List.replicate 96 1, sig := List.replicate 96 1 }

theorem witness_life_cycle :
    (let s := { obj with test := { obj.test with lc := .deployed, challenge := some 5, ikey := some 6 }, twin := { obj.twin with role := .standby } }
     let h := { cmd with mbx := 6 }
     let u := opened h 0x0A01 .long devUnit s
     takes h 0x0A01 .long devUnit s = true ∧ lcTarget 3 = some .ret ∧ lcStep u.test.lc .ret = true ∧
      lcEncoded 3 auth0 = true ∧
      u.serving = false ∧ u.prime.drain = none ∧ u.hostDraining = false) ∧
    (let s := { obj with test := { obj.test with lc := .provision, challenge := some 5, ikey := some 6 } }
     let h := { cmd with mbx := 6 }
     let u := opened h 0x0A01 .long devUnit s
     takes h 0x0A01 .long devUnit s = true ∧ u.test.lc = .provision ∧ itemShape 3 [] = true ∧ u.test.ikey.isSome = true ∧
      u.itemFused 3 [] = false ∧
      lcEncoded 1 auth0 = true ∧ u.vMinOk 3 [] = true) ∧
    (let s := { run with prime := { run.prime with lcReset := some 3 } }; s.prime.lcReset = some 3) := by decide +kernel

/-! Monitors, drains and the spillway. -/

theorem witness_clock_windows :
    95 * nominalKhz 73 ≤ 100 * 1425000 ∧ 100 * 1425000 ≤ 105 * nominalKhz 73 ∧ 95 * nominalKhz 73 ≤ 100 * 1575000 ∧
    100 * 1575000 ≤ 105 * nominalKhz 73 ∧ 100 * 1424999 < 95 * nominalKhz 73 ∧ 105 * nominalKhz 73 < 100 * 1575001 ∧
    (run.island 73).fault = false ∧
    (let s := { run with ev := { run.ev with islands := [(73, { fault := true, good := 1 })] } }; (s.island 73).fault = true) := by decide +kernel

/-- One dirty line just above SPILL_LOW of 1 %, the other lines in the intent reserve. -/
def spill (dmax : Nat) : State :=
  { rows with
    dura := { rows.dura with dmax }
    dram := { rows.dram with usable := List.range 32 }
    sump := { rows.sump with spillActive := true, spillLow := 1 }
    ops := [{ id := 3, grp := 1, grow := 0, dst := 0, purpose := .replay, phase := .write, rsvLines := 15728 }] }

/-- The oldest codeword has room in the overflow, and its move ends the spillway's work. -/
def lastMove (s : State) : Bool :=
  match oldestCw s.spillable with
  | none => false
  | some (stamp, ns, cw) =>
    match (if (s.ovEntry ns cw).isNone then entryRoom s else some s) with
    | none => false
    | some v =>
      let mine := fun (l : SumpLine) => l.st == .dirty && l.ns == ns && l.line / 4 == cw
      let ls := s.sump.lines.filter mine
      let t := ovMerge
        { ns, cw, stamp, lsn := ls.foldl (fun x l => serialMax x l.lsn) 0, conns := ls.foldl (fun acc l => l.conns.foldl earliestOf acc) []
          img := (List.range 4).flatMap (fun k => match ls.find? (fun l => l.line % 4 == k) with | some l => l.img | none => imgEmpty 64)
          poison := maskOf 4 ((ls.filter (fun l => l.poison)).map (fun l => l.line % 4)) }
        (v.modSump (fun u => { u with lines := u.lines.filter (fun l => !mine l) }))
      !(spillCheck t).sump.spillActive

theorem witness_spillway :
    ((spillCheck (spill 200000000)).sump.spillActive = true ∧ (spillCheck (spill 200000000)).atCeiling = false ∧
      lastMove (spillCheck (spill 200000000)) = true) ∧
    ((spillCheck (spill 0)).sump.spillActive = true ∧ (spillCheck (spill 0)).atCeiling = true) ∧
    (let s := { spill 200000000 with sump := { (spill 200000000).sump with lines := [], spillLow := 0 } }
     (spillCheck s).sump.spillActive = true ∧ oldestCw (spillCheck s).spillable = none) := by decide +kernel

/-- A drain whose markers are on media. -/
def sealedDrain (kind : DrainKind) (p : Power) : State :=
  { pw p with prime := { State.reset.prime with drain := some { kind, since := 0, dirty := 0, sealed := true } } }

theorem witness_drain_ends :
    (let s := sealedDrain .power { wl := 13 }
     ∃ d, s.prime.drain = some d ∧ s.drained = true ∧ d.sealed = true ∧ s.metaOpen = false ∧ d.kind = .power) ∧
    (let s := sealedDrain (.reset .system) { wl := 13 }
     ∃ d c, s.prime.drain = some d ∧ s.drained = true ∧ d.sealed = true ∧ s.metaOpen = false ∧ d.kind = .reset c ∧ d.cmd = none ∧
      s.power.stepTo ≠ some (14, true)) ∧
    (sealedDrain (.reset .system) { wl := 14, stepTo := some (14, true) }).power.stepTo = some (14, true) ∧
    State.reset.prime.drain = none ∧
    (let s := { rows with prime := { rows.prime with drain := some { kind := .power, since := 0, dirty := 0 } } }; s.drained = false) ∧
    (let d : Drain := { kind := .orderly, since := 0, dirty := 0 }
     let s := { rows with sump := { rows.sump with lines := [] }, prime := { rows.prime with drain := some d } }
     s.prime.drain = some d ∧ s.drained = true ∧ d.sealed = false ∧ d.cmd = none ∧
      (sealDrain d { s with prime := { s.prime with drain := some { d with sealed := true } } }).metaOpen = true) :=
  ⟨⟨_, rfl, by decide +kernel, rfl, by decide +kernel, rfl⟩, ⟨_, _, rfl, by decide +kernel, rfl, by decide +kernel, rfl, rfl, by decide +kernel⟩,
    by decide +kernel, by decide +kernel, by decide +kernel, by decide +kernel⟩

theorem witness_low_and_fenced :
    (let s := { State.reset with dura := { State.reset.dura with clow := false } }; s.dura.clow = false ∧ s.dMax s.energy < s.sumpSize) ∧
    (inRole .fenced).twin.role = .fenced := by decide +kernel

/-- An unspilled half of the recorder's ring, with the record of an AWAKE group written or not. -/
def spills (written : Bool) : State :=
  let r : Rec := { seq := 1, ty := 1, src := 0, crit := false, body := List.replicate 9000 0 }
  { rows with
    groups := [(0, { ng := 2000000, eg := 1, st := .sound, awakeRec := written })]
    test := { rows.test with ring := List.replicate 60 r, unspilled := 60 } }

theorem witness_spill_rows : ∀ b, (spills b).spillGroup = some 0 ∧ (spills b).test.frozen = false ∧ (spills b).quietGroup 0 = true ∧
    (spills b).spilling 0 = false ∧ ringSize / 2 < recBytes ((spills b).test.ring.drop ((spills b).test.ring.length - (spills b).test.unspilled)) ∧
    ((spills b).grp 0).awakeRec = b := by
  intro b
  cases b <;> decide +kernel

/-! The block as a whole, general rules, worked values. -/

/-- The invariant holds beyond the state after reset, and a step goes on from there. -/
theorem witness_invariant : run.Inv ∧ ∃ t, step run = .next t :=
  ⟨⟨rfl, rfl, rfl, rfl, fun _ _ => ⟨by simp [run, inRole, State.reset], rfl⟩⟩, _, rfl⟩

theorem witness_queue :
    ({ run with pending := [.unitSelWrite 0] } : State).pending = .unitSelWrite 0 :: [] ∧ run.pending = [] ∧ exec (.unitSelWrite 0) run ≠ .refused (.notModelled "") :=
  ⟨rfl, rfl, fun h => nomatch h⟩

/-- The index ranges of UNIT_SEL at their ends, and a type without units. -/
theorem witness_unit_select :
    (0x0100008F : BitVec 32).toNat / 16777216 = 1 ∧ (0x0100008F : BitVec 32).toNat % 65536 = 143 ∧
    (0x01000090 : BitVec 32).toNat % 65536 = 144 ∧ (0x0B0003FF : BitVec 32).toNat % 65536 = 1023 ∧ (0x0C000000 : BitVec 32).toNat / 16777216 = 12 := by
  decide +kernel

theorem witness_general_rules :
    (0 < 32 ∧ earlier (1 : BitVec 32) 2 = true ∧ ((0x80000001 : BitVec 32).toNat + 2 ^ 32 - (1 : BitVec 32).toNat) % 2 ^ 32 = 2 ^ 31) ∧
    (1048575 < 2 ^ 20 ∧ 1048575 ≤ 1048575 ∧ 1048576 ≤ 1048576) ∧ 7 ≤ 7 ∧
    ((run.mbx (run.winMbx none)).token = 0 ∧ (1 : BitVec 32).getLsbD 0 = true) ∧
    ((List.replicate 256 (0 : Byte)).length = 256 ∧ (List.replicate 8 (List.replicate 288 (0 : Byte))).length = 8) ∧
    ((dramMap [3, 9] 256).isSome = true ∧ [3, 9].Nodup ∧ 131072 ≤ 30064771072 / 256 / 2 / 7 / 16 ∧ dramMap [3, 9] 30064771072 = none) := by decide +kernel

/-- R5's worked example: channel 37 serves group 4, position 1, in drawer 2. -/
theorem test_channel_37 : chGroup 37 = 4 ∧ chPos 37 = 1 ∧ chDrawer 37 = 2 ∧ grpChan 4 1 = 37 := by decide +kernel

/-- R71: row 10 keeps its parity on position 1 and data codeword 7 on position 0. -/
theorem test_positions : parityPos 10 = 1 ∧ dataPos 10 0 = 2 ∧ dataPos 10 7 = 0 := by decide +kernel

/-- R85: with the gap at slot 0 every row moves up by one; the row mapped last wraps. -/
theorem test_start_gap : startGap 0 0 1048576 = 0 ∧ startGap 0 0 0 = 1 ∧ startGap 1048575 1 1048576 = 0 ∧ startGap 1048575 0 5 = 1048576 := by
  decide +kernel

/-- R83's worked example: offset 0x9_8765_4340 of namespace 17. -/
theorem test_decode :
    (let s := { run with
       chans := [(104, { desc := some { desc0 with dieCount := 16 } })]
       ctl := { run.ctl with nss := [(17, { units := List.replicate 19 (0, 0) ++ [(11, 2817)] })] }
       easels := [(easelKey 11 2817, { nsid := 17, unit := 19, key := [0x2B5, 0x0E1, 0x31C, 0x1A6], start := 1047900, gap := 73112, remap := [(5, 100900)] })] }
     s.decodeOff 17 0x987654340 = some { g := 11, e := 2817, grow := 2955067462, pos := 5, chan := 104, die := 6, daddr := 184691716, c := 3 }) := by
  decide +kernel

/-- The worked example of chapter 15: pool address 0x7_3A5C_9E40 over 32 channels. -/
theorem test_pool_line : dramMap (List.range 32) 0x73A5C9E40 = some { ch := 30, rank := 0, bank := 2, row := 33835, slot := 6 } := by decide +kernel

/-- The worked example of chapter 8: the nonce of a host's packet. -/
theorem test_nonce : rxNonce 0x5C3E91D7 false 0x41 0x12F40 = 0x5C3E91D70041000000012F40#96 := by decide +kernel

/-- The worked example of chapter 1: 600 J with 16 groups SOUND give 9.75 × 10^9 bytes; 291 J give 93.75 × 10^6, below S. -/
theorem test_budget :
    (let s := { run with
       dura := { run.dura with pHold := some 2400 }, drawers := (List.range 8).map (fun d => (d, { st := .awake }))
       groups := (List.range 16).map (fun g => (g, { st := .sound, ng := 1, eg := 1 })) }
     s.dMax (600, 1) = 9750000000 ∧ s.dMax (291, 1) = 93750000 ∧ s.dMax (9600, 1) = 17179869184 ∧ s.sumpSize = 100663296) := by decide +kernel

/-- The worked example of chapter 13: a bank of 10 F measures 9,998 mF and 20,002 µΩ, and holds 7,920 J at 48 V. -/
theorem test_cistern : ∃ t, exec (.cisternTestLoadEnd 46828)
      (cis { State.reset.power with wl := 13, cisStep := .m4 48000 47213, rTest := 1200000, tTest := 100, cNom := 10000, esrMax := 50000 }) = .next t ∧
    t.power.cap = 9998 ∧ t.power.esr = 20002 ∧ t.power.cisSt = 2 :=
  ⟨_, rfl, by decide +kernel, by decide +kernel, by decide +kernel⟩

/-- R101: α^8 = α^4 + α^3 + α^2 + 1, and 1 is its own inverse. -/
theorem test_field : gfAlpha 8 = 0x1D ∧ gfAlpha 255 = 1 ∧ gfMul 0x80 2 = 0x1D := by decide +kernel

/-- R312: an epoch 16 ahead of the receiver's reads as 16 behind it. -/
theorem test_epoch : (rxEpoch 100 (BitVec.ofNat 5 115)).1 = 115 ∧ (rxEpoch 100 (BitVec.ofNat 5 116)).1 = 84 := by decide +kernel

/-- The worked example of chapter 18: event 149 routed to vector 37 and core 2 reads 0x0004_0825 at 0x3000. -/
theorem test_event_route :
    ({ run with ev := { run.ev with routes := [(149, { vec := 37, msix := true, cores := 4 })] }
                ctl := { run.ctl with unitType := 0x0B, unitIdx := 0x95 } } : State).barReg 0 0x3000 = 0x00040825 := by decide +kernel

/-- Log entry 3, DESIGN CHOICE: the idle block lets a nanosecond pass. -/
theorem test_idle : ∃ t, step State.reset = .next t ∧ t.now = 1 ∧ t.pending = [] := ⟨_, rfl, rfl, rfl⟩

/-- R454: TYPE 1, INDEX 143 is taken, INDEX 144 sets SELERR. -/
theorem test_unit_sel : ∃ t u, exec (.unitSelWrite 0x0100008F) run = .next t ∧ t.ctl.unitIdx = 143 ∧ t.ctl.selErr = false ∧
    exec (.unitSelWrite 0x01000090) run = .next u ∧ u.ctl.unitIdx = 0 ∧ u.ctl.selErr = true :=
  ⟨_, _, rfl, by decide +kernel, by decide +kernel, rfl, by decide +kernel, by decide +kernel⟩

/-- R612: ECC_FLIP is ignored in END. -/
theorem test_ecc_flip : ∃ t u, exec (.eccFlipWrite 0x00100013) run = .next t ∧ t.test.flipClass = 3 ∧ t.test.flipArm = true ∧
    exec (.eccFlipWrite 0x00100013) { run with test := { run.test with lc := .endOfLife } } = .next u ∧ u.test.flipArm = false :=
  ⟨_, _, rfl, by decide +kernel, by decide +kernel, rfl, by decide +kernel⟩

/-- R426: a claim by the owner renews, one by another is ignored. -/
theorem test_claim : ∃ t, exec (.mbxOwnerClaim none 7) (mbx0 { token := 9 }) = .next t ∧ (t.mbx 0).token = 9 := ⟨_, rfl, by decide +kernel⟩

/-- R639: REC_FREEZE stops the recorder. -/
theorem test_freeze : ∃ t, exec (.recFreeze cmd) run = .next t ∧ t.test.frozen = true := ⟨_, rfl, by decide +kernel⟩

/-- No row of the table has bits. -/
theorem test_no_words : decodeTableWord 32 0 = none ∧ run.withFetchWord 32 0 = run := ⟨rfl, rfl⟩

/-! WellFormed: one ill-formed command for each check, refused; and one that passes. -/

theorem smoke_conn : (Instr.ackDelayTimer 65536).wf = false ∧ (Instr.ackDelayTimer 65535).wf = true := by decide +kernel
theorem smoke_path : (Instr.ecnRateTimer 5 8).wf = false ∧ (Instr.ecnRateTimer 5 7).wf = true := by decide +kernel
theorem smoke_ipv4 : (Instr.arpRequest 0 0 4294967296).wf = false ∧ (Instr.arpRequest 0 0 4294967295).wf = true := by decide +kernel
theorem smoke_ipv6 : (Instr.neighbourSolicitation 0 0 (2 ^ 128)).wf = false ∧ (Instr.echoRequest 0 0 true 5).wf = true := by decide +kernel
theorem smoke_payload : (Instr.write (bare false 0 1 0) (List.replicate 65536 0)).wf = false := by decide +kernel
theorem smoke_easel : (Instr.gapMoveStart 0 4096).wf = false ∧ (Instr.gapMoveStart 0 4095).wf = true := by decide +kernel
theorem smoke_training : (Instr.trn1 0 1 16 0 true true).wf = false ∧ (Instr.trn1 0 1 15 15 true true).wf = true := by decide +kernel
theorem smoke_host_link : (Instr.hostLinkTrained 7 16 true true).wf = false ∧ (Instr.hostLinkTrained 6 3 true true).wf = false
    ∧ (Instr.hostLinkTrained 6 16 true true).wf = true := by decide +kernel
theorem smoke_cxl : (Instr.memRd 65536 0).wf = false ∧ (Instr.memRd 0 1).wf = false ∧ (Instr.memRd 0 64).wf = true := by decide +kernel
theorem smoke_hdm : (Instr.hdmDecoderCommit 0 (2 ^ 64) 0 0).wf = false ∧ (Instr.hdmDecoderCommit 0 0 0 0).wf = true := by decide +kernel
theorem smoke_bar : (Instr.registerWrite 2 0 0).wf = false ∧ (Instr.registerWrite 1048576 0 0).wf = false
    ∧ (Instr.registerWrite 1048572 0 0).wf = true := by decide +kernel
theorem smoke_framing : (Instr.identify { cmd with nent := 0 }).wf = false ∧ (Instr.identify { cmd with nent := 17 }).wf = false
    ∧ (Instr.identify { cmd with nent := 16 }).wf = true := by decide +kernel
theorem smoke_mem_data : (Instr.memWrite cmd 1 0 (List.replicate 897 0)).wf = false ∧ (Instr.memWrite cmd 1 0 (List.replicate 64 0)).wf = true := by
  decide +kernel
theorem smoke_opt : (Instr.setDurability cmd (some 65536) none none).wf = false ∧ (Instr.setDurability cmd (some 65535) none none).wf = true := by
  decide +kernel
/-- OPEN_CONNECTION with any bytes as its blobs. -/
def openWith (b : Blob) : OpenParams := { open9 with blob0 := b, blob1 := b }
theorem smoke_blob : blobOk (List.replicate 73 0) = false ∧ (Instr.openConnection cmd (openWith (List.replicate 73 0))).wf = false
    ∧ (Instr.openConnection cmd (openWith (List.replicate 72 0))).wf = true := by decide +kernel
theorem smoke_auth : authOk { auth0 with key := [4] } = false ∧ (Instr.jtagAuthenticate { auth0 with sig := [] }).wf = false
    ∧ (Instr.lcAdvance cmd 3 { auth0 with sig := List.replicate 97 0 }).wf = false ∧ (Instr.lcFuseItem cmd 1 3 [] { auth0 with key := [] }).wf = false
    ∧ (Instr.lcAdvance cmd 3 auth0).wf = true := by decide +kernel
theorem smoke_tag : (Instr.paletteUnwrapDone (.conn 65536 0) true).wf = false ∧ (Instr.paletteUnwrapDone (.ns 65536) true).wf = false
    ∧ (Instr.paletteUnwrapDone (.conn 65535 255) true).wf = true := by decide +kernel
theorem smoke_entry : (Instr.log (hdr 7 .link) { entry with nsid := 65536 }).wf = false ∧ (Instr.log (hdr 7 .link) entry).wf = true := by decide +kernel
theorem smoke_extents : (Instr.schedAppend cmd 0 [(2 ^ 64, 0)]).wf = false ∧ (Instr.schedAppend cmd 0 [(0, 256)]).wf = true := by decide +kernel
theorem smoke_pool : (Instr.setPool cmd ⟨some 65536, none, none, none, none, none⟩).wf = false
    ∧ (Instr.setPool cmd ⟨some 8192, none, none, none, none, none⟩).wf = true := by decide +kernel
theorem smoke_port : portOk ⟨0, 0, 0, 4096, 3, 0, 0, 0⟩ = false ∧ portOk ⟨0, 0, 0, 4095, 3, 0, 0, 0⟩ = true := by decide +kernel
theorem smoke_xport : xportOk ⟨some 256, none, none, none, none, none, none, none⟩ = false
    ∧ xportOk ⟨some 63, none, none, none, none, none, none, none⟩ = true := by decide +kernel
theorem smoke_create : createOk { create0 with nsid := 65536 } = false ∧ createOk create0 = true := by decide +kernel
theorem smoke_open : openOk { openWith [] with retryMax := 256 } = false ∧ openOk (openWith []) = true := by decide +kernel
theorem smoke_grant : grantOk { grant0 with conns := List.replicate 9 1 } = false ∧ grantOk grant0 = true := by decide +kernel
theorem smoke_twin : twinOk ⟨some 65536, none, none, none⟩ = false ∧ twinOk ⟨some 8192, none, none, none⟩ = true := by decide +kernel
theorem smoke_sched : schedOk { sched9 with leadMs := 65536 } = false ∧ schedOk sched9 = true := by decide +kernel
theorem smoke_roll_call : (Instr.rollCallTrainEnd (List.replicate 17 true)).wf = false ∧ (Instr.rollCallTrainEnd (List.replicate 16 true)).wf = true := by
  decide +kernel
theorem smoke_unit : (Instr.parkDrawer cmd 256).wf = false ∧ (Instr.peerFetchTimeout 65536).wf = false ∧ (Instr.dramReadComplete (2 ^ 37) []).wf = false
    ∧ (Instr.grantDeadTimer 131072).wf = false ∧ (Instr.parkDrawer cmd 7).wf = true := by decide +kernel

/-- Keys of the lengths that CiphersAreUndone asks for. -/
theorem witness_keys : (List.replicate 64 (0 : Byte)).length = 64 ∧ key.bytes.length = 32 := by decide +kernel

/-- R389: Device ID, revision and class code. -/
theorem test_pf0 : run.pf0Word 0x08 = some 0x05021010 ∧ run.pf0Word 0x20 = some 0 := by decide +kernel

end Sys2Proof.Tests
end

section
/-! Serial numbers (R682): both comparisons, told by the two distances between the values. -/

namespace Sys2Proof.Machine

open Sys2Proof

/-- The distance in the words of R682. -/
theorem dist_eq_sub_mod {n : Nat} (a b : BitVec n) : dist a b = (b.toNat + 2 ^ n - a.toNat) % 2 ^ n := by
  have ha := a.isLt
  rw [dist, BitVec.toNat_sub]
  congr 1
  omega

theorem earlier_iff_dist {n : Nat} (a b : BitVec n) : earlier a b = true ↔ 1 ≤ dist a b ∧ dist a b ≤ 2 ^ (n - 1) - 1 := by
  have hp : 0 < 2 ^ (n - 1) := Nat.two_pow_pos _
  simp only [earlier, dist, decide_eq_true_eq]
  omega

theorem later_iff_dist {n : Nat} (a b : BitVec n) : later a b = true ↔ 1 ≤ dist b a ∧ dist b a ≤ 2 ^ (n - 1) - 1 :=
  earlier_iff_dist b a

/-- The two ways round the circle between different values make up the whole of it. -/
theorem dist_add_dist {n : Nat} {a b : BitVec n} (h : a ≠ b) : dist a b + dist b a = 2 ^ n := by
  have ha := a.isLt
  have hb := b.isLt
  have hne : a.toNat ≠ b.toNat := fun e => h (BitVec.eq_of_toNat_eq e)
  simp only [dist_eq_sub_mod]
  rcases Nat.lt_or_gt_of_ne hne with hlt | hgt
  · rw [Nat.mod_eq_sub_mod (by omega), Nat.mod_eq_of_lt (by omega), Nat.mod_eq_of_lt (by omega)]
    omega
  · rw [Nat.mod_eq_of_lt (by omega), Nat.mod_eq_sub_mod (by omega), Nat.mod_eq_of_lt (by omega)]
    omega

theorem dist_self {n : Nat} (a : BitVec n) : dist a a = 0 := by
  simp [dist]

theorem dist_lt {n : Nat} (a b : BitVec n) : dist a b < 2 ^ n := (b - a).isLt

/-- Settles O5: both comparisons are statements about the two distances, which add up to twice the half space. -/
theorem serialNumbersCompare : Obligations.SerialNumbersCompare := by
  intro n a b hn
  have whole : 2 ^ n = 2 * 2 ^ (n - 1) := (Nat.two_pow_pred_mul_two hn).symm.trans (Nat.mul_comm _ _)
  have half_pos : 0 < 2 ^ (n - 1) := Nat.two_pow_pos _
  simp only [← dist_eq_sub_mod]
  refine ⟨earlier_iff_dist a b, later_iff_dist a b, fun half => ?_, fun ne off_half => ?_⟩
  · have ne : a ≠ b := by
      rintro rfl
      exact half_pos.ne (half ▸ dist_self a).symm
    have around := dist_add_dist ne
    simp only [← Bool.not_eq_true, earlier_iff_dist, later_iff_dist]
    omega
  · have around := dist_add_dist ne
    have below := dist_lt a b
    have below' := dist_lt b a
    simp only [← Bool.not_eq_true, earlier_iff_dist, later_iff_dist]
    omega

end Sys2Proof.Machine
end

section
/-! `Keeps` through every command, and from there through every step. A command has a lemma of its own where it chooses
between several outcomes; one whose effect is a single operation, perhaps under a guard, is an arm of `exec_keeps`. -/

namespace Sys2Proof.Machine

open Sys2Proof State

section Commands

variable {s0 s : State}

/-! Cipher. -/

theorem execCipherKatTimer_keeps (e failed keyStore) (h : Keeps s0 s) : KeepsR s0 (execCipherKatTimer e failed keyStore s) :=
  have k := modEngine_keeps _ _ h
  .next (.ite (engineOut_keeps _ k) k)

theorem execCipherAlarm_keeps (inputs) (h : Keeps s0 s) : KeepsR s0 (execCipherAlarm inputs s) :=
  have k := modCipher_keeps _ h rfl
  .ite (.next k) (.next (settle_keeps (relinquishCause_keeps (raise_keeps _ (raiseWith_keeps _ _ _
    (modCipher_keeps _ (eraseKeys_keeps k) rfl))))))

theorem execPaletteUnwrapDone_keeps (tag ok) (h : Keeps s0 s) : KeepsR s0 (execPaletteUnwrapDone tag ok s) :=
  .ite (.next h) (.ite (.next (keyLoad_keeps _ h)) (.next (raise_keeps _ (dropJobs_keeps _ (modCipher_keeps _ h rfl)))))

/-! Connections. -/

theorem execProbe_keeps (p req) (h : Keeps s0 s) : KeepsR s0 (execProbe p req s) :=
  .next (rxControl_keeps _ _ _ _ (fun k => pumpTx_keeps _ (sendAck_keeps _ _ _ (renewCredit_keeps _ (modConn_keeps _ _ k)))) h)

theorem execReadGatherComplete_keeps (id) (h : Keeps s0 s) : KeepsR s0 (execReadGatherComplete id s) := by
  refine .next ?_
  split
  · exact h
  · split
    · exact settle_keeps h
    · refine .ite h (.ite (settle_keeps (regather_keeps _ h)) (.ite (settle_keeps (gatherRun_keeps _ h)) ?_))
      split
      · exact settle_keeps (answerRead_keeps _ _ _ h)
      · exact settle_keeps (endGather_keeps _ h)

theorem execReassemblyTimeout_keeps (conn msg) (h : Keeps s0 s) : KeepsR s0 (execReassemblyTimeout conn msg s) := by
  refine .next ?_
  split
  · exact .ite (settle_keeps (dropEvent_keeps _ (dropAndRelease_keeps _ _ (nakDrop_keeps _ _ _ _ _ _ _ _ h)))) h
  · exact h

theorem execMissingMessageTimeout_keeps (conn) (h : Keeps s0 s) : KeepsR s0 (execMissingMessageTimeout conn s) :=
  .next (.ite (settle_keeps (dropEvent_keeps _ (dropAndRelease_keeps _ _ (nakDrop_keeps _ _ _ _ _ _ _ _ h)))) h)

theorem execRetransmitTimer_keeps (conn psn) (h : Keeps s0 s) : KeepsR s0 (execRetransmitTimer conn psn s) := by
  refine .next ?_
  split
  · exact h
  · exact .ite h (.ite (.ite (settle_keeps (connClosed_keeps _ h)) (settle_keeps (connError_keeps _ h))) (retransmit_keeps _ _ h))

theorem execKeyGenerationDiscard_keeps (conn) (h : Keeps s0 s) : KeepsR s0 (execKeyGenerationDiscard conn s) := by
  refine .next ?_
  split
  · exact erasePalette_keeps _ (modConn_keeps _ _ h)
  · exact h

theorem execSubportLinkChange_keeps (port sub up) (h : Keeps s0 s) : KeepsR s0 (execSubportLinkChange port sub up s) :=
  have k := raiseWith_keeps _ _ _ (modNport_keeps _ _ h)
  have a := Keeps.ite (announceSub_keeps _ _ k) k
  .next (.ite h (.ite (pendingCtl_keeps _ a) a))

theorem execNetworkFecWindow_keeps (port sub corrected uncor) (h : Keeps s0 s) :
    KeepsR s0 (execNetworkFecWindow port sub corrected uncor s) :=
  have k := modSub_keeps _ _ _ h
  .next (.ite h (.ite (raiseWith_keeps _ _ _ k) k))

/-! Mailbox windows and MCTP. -/

theorem execMbxCmdPush_keeps (w v) (h : Keeps s0 s) : KeepsR s0 (execMbxCmdPush w v s) :=
  have k := mbxPush_keeps _ _ (renewLease_keeps _ h)
  .next (.ite h (.ite (noOwner_keeps _ h) (.ite (modMbx_keeps _ _ k) k)))

theorem execMbxRspPop_keeps (w v) (h : Keeps s0 s) : KeepsR s0 (execMbxRspPop w v s) :=
  .next (.ite h (.ite (noOwner_keeps _ h) (framing_keeps _ (modMbx_keeps _ _ (ptrCheck_keeps _ (renewLease_keeps _ h))))))

theorem execMbxOwnerClaim_keeps (w token) (h : Keeps s0 s) : KeepsR s0 (execMbxOwnerClaim w token s) :=
  .next (.ite (renewLease_keeps _ (modMbx_keeps _ _ h)) h)

theorem execMbxOwnerRelease_keeps (w token) (h : Keeps s0 s) : KeepsR s0 (execMbxOwnerRelease w token s) :=
  .next (.ite (mbxRelease_keeps _ h) h)

theorem execMbxSelWrite_keeps (v) (h : Keeps s0 s) : KeepsR s0 (execMbxSelWrite v s) :=
  .next (.ite (modCtl_keeps _ h rfl) (modCtl_keeps _ h rfl))

theorem execUnitSelWrite_keeps (v) (h : Keeps s0 s) : KeepsR s0 (execUnitSelWrite v s) :=
  .next (modCtl_keeps _ h (by split <;> rfl))

theorem execMctpMailboxMessage_keeps (eid pecOk entries) (h : Keeps s0 s) :
    KeepsR s0 (execMctpMailboxMessage eid pecOk entries s) :=
  have k := ptrCheck_keeps _ h
  .next (.ite h (.ite (setOverrun_keeps _ k) (framing_keeps _ (modMbx_keeps _ _ k))))

theorem execSetEndpointId_keeps (eid) (h : Keeps s0 s) : KeepsR s0 (execSetEndpointId eid s) :=
  mctpControl_keeps _ (fun _ k => .fst_ite k (modCtl_keeps (fun c => { c with eid }) k rfl)) h

theorem execGetEndpointId_keeps (h : Keeps s0 s) : KeepsR s0 (execGetEndpointId s) :=
  mctpControl_keeps _ (fun _ k => k) h

theorem execGetMctpVersionSupport_keeps (h : Keeps s0 s) : KeepsR s0 (execGetMctpVersionSupport s) :=
  mctpControl_keeps _ (fun _ k => k) h

theorem execGetMessageTypeSupport_keeps (h : Keeps s0 s) : KeepsR s0 (execGetMessageTypeSupport s) :=
  mctpControl_keeps _ (fun _ k => k) h

theorem execGetVendorDefinedMessageSupport_keeps (h : Keeps s0 s) : KeepsR s0 (execGetVendorDefinedMessageSupport s) :=
  mctpControl_keeps _ (fun _ k => k) h

/-! Media links. -/

theorem execBlockAlignmentLoss_keeps (ch) (h : Keeps s0 s) : KeepsR s0 (execBlockAlignmentLoss ch s) := by
  refine .next ?_
  split
  · exact startRetrain_keeps _ h
  · exact modChan_keeps _ _ h
  · exact modChan_keeps _ _ h
  · exact h

theorem execTrainingStepTimeout_keeps (ch) (h : Keeps s0 s) : KeepsR s0 (execTrainingStepTimeout ch s) := by
  have failed := raiseWith_keeps (4 * ch) ch 0 (modChan_keeps ch (fun k => { k with link := .failed }) h)
  refine .next ?_
  split
  · exact afterLink_keeps _ failed
  · exact afterLink_keeps _ failed
  · exact afterLink_keeps _ failed
  · exact .ite (send_keeps _ (modChan_keeps _ _ h)) (afterLink_keeps _ (linkLost_keeps _ failed))
  · exact h

theorem execSidebandPollTimer_keeps (d answers) (h : Keeps s0 s) : KeepsR s0 (execSidebandPollTimer d answers s) :=
  .next (.ite (settle_keeps (wakeCheck_keeps _ (runEngines_keeps
    (forEach_keeps _ (fun _ _ k => sidebandOne_keeps _ _ (send_keeps _ k)) h)))) h)

theorem execTempPollTimer_keeps (ch) (h : Keeps s0 s) : KeepsR s0 (execTempPollTimer ch s) := by
  refine .next ?_
  split
  · exact .ite (submit_keeps _ _ h) h
  · exact h

/-! Media commands and row work. -/

theorem execWriteCwResponse_keeps (ch tag status) (h : Keeps s0 s) : KeepsR s0 (execWriteCwResponse ch tag status s) :=
  .next (onResponse_keeps _ _ _ _ (fun _ _ k =>
    have m := modOp_keeps _ _ k
    .ite (.ite (failForGood_keeps _ _ m) m) (badStatus_keeps _ _ _ k)) h)

theorem execTempResponse_keeps (ch tag status info) (h : Keeps s0 s) : KeepsR s0 (execTempResponse ch tag status info s) := by
  refine .next (onResponse_keeps _ _ _ _ (fun m t k => .ite ?_ (badStatus_keeps _ _ _ k)) h)
  have read := modChan_keeps ch.val (fun k => { k with temp := info, tempValid := true }) k
  dsimp only
  split
  · exact .ite (raiseWith_keeps _ _ _ read) read
  · exact read

theorem execDieCommandTimeout_keeps (ch tag) (h : Keeps s0 s) : KeepsR s0 (execDieCommandTimeout ch tag s) := by
  refine .next ?_
  split
  · exact .ite h (.ite (afterMedia_keeps _ (moduleFailed_keeps _ h)) (.ite h
      (.ite (modChan_keeps _ _ h) (submit_keeps _ _ (modChan_keeps _ _ h)))))
  · exact h

theorem execDieResetTimeout_keeps (ch tag) (h : Keeps s0 s) : KeepsR s0 (execDieResetTimeout ch tag s) := by
  refine .next ?_
  split
  · exact .ite (afterMedia_keeps _ (moduleFailed_keeps _ h)) h
  · exact h

theorem execDescriptorResponse_keeps (ch tag status data) (h : Keeps s0 s) :
    KeepsR s0 (execDescriptorResponse ch tag status data s) := by
  refine .next ?_
  split
  · rename_i taken
    have k := takeTag_keeps taken h
    refine settle_keeps (wakeCheck_keeps _ (runEngines_keeps (pumpChan_keeps _
      (.ite k (.ite (badStatus_keeps _ _ _ (modChan_keeps _ _ k)) (.ite (modChan_keeps _ _ k) ?_))))))
    split
    · exact descRead_keeps _ _ (modChan_keeps _ _ k)
    · exact modChan_keeps _ _ k
  · exact h

theorem execRowUpdateStart_keeps (g) (h : Keeps s0 s) : KeepsR s0 (execRowUpdateStart g s) := by
  refine .next (.ite h ?_)
  split
  · exact h
  · split
    · exact h
    · exact openOp_keeps _ h

theorem execMergeWaitExpiry_keeps (op) (h : Keeps s0 s) : KeepsR s0 (execMergeWaitExpiry op s) := by
  refine .next ?_
  split
  · exact .ite (settle_keeps (endMerge_keeps _ h)) h
  · exact h

theorem execRowLeaseExpiry_keeps (op ch) (h : Keeps s0 s) : KeepsR s0 (execRowLeaseExpiry op ch s) := by
  refine .next ?_
  split
  · exact .ite (settle_keeps (modOp_keeps _ _ (moduleFailed_keeps _ h))) h
  · exact h

theorem execRebuildRow_keeps (g) (h : Keeps s0 s) : KeepsR s0 (execRebuildRow g s) :=
  have k := modGrp_keeps _ _ h
  .next (.ite h (.ite (finishUnit_keeps _ _ _ _ (modGrp_keeps _ _ k)) (.ite k (settle_keeps (openOp_keeps _ k)))))

/-! Twin frames and timers. -/

theorem execHeartbeat_keeps (hd role health wit applied devtime) (h : Keeps s0 s) :
    KeepsR s0 (execHeartbeat hd role health wit applied devtime s) :=
  have k := linkGate_keeps _ _ h
  .next (.ite (.ite (settle_keeps (primeBeat_keeps _ _ _ k)) k)
    (twinFrame_keeps _ _ _ _ (fun _ k => modTwin_keeps _ k) h))

theorem execTakeoverGapFillTimeout_keeps (h : Keeps s0 s) : KeepsR s0 (execTakeoverGapFillTimeout s) := by
  refine .next ?_
  split
  · exact settle_keeps (takeoverOn_keeps _ (fun _ k => takeoverGo_keeps _ k) (takeoverHeld_keeps _ h))
  · exact h

theorem execTakeoverAnnounceDelay_keeps (h : Keeps s0 s) : KeepsR s0 (execTakeoverAnnounceDelay s) := by
  refine .next ?_
  split
  · exact settle_keeps (takeoverAnnounce_keeps h)
  · exact h

theorem execFetchReq_keeps (hd nsid off lsn ftag) (h : Keeps s0 s) : KeepsR s0 (execFetchReq hd nsid off lsn ftag s) :=
  .next (twinFrame_keeps _ _ _ _ (fun _ k => pumpFetches_keeps (modTwin_keeps _ (fresh_keeps k))) h)

theorem execFetchResp_keeps (hd ftag mask data) (h : Keeps s0 s) : KeepsR s0 (execFetchResp hd ftag mask data s) := by
  refine .next (twinFrame_keeps _ _ _ _ (fun t k => ?_) h)
  split
  · exact fetchDone_keeps _ _ _ k
  · exact k

theorem execPeerFetchTimeout_keeps (ftag) (h : Keeps s0 s) : KeepsR s0 (execPeerFetchTimeout ftag s) := by
  refine .next ?_
  split
  · exact settle_keeps (fetchDone_keeps _ _ _ h)
  · exact h

theorem execHandshake_keeps (hd b) (h : Keeps s0 s) : KeepsR s0 (execHandshake hd b s) :=
  have k := linkGate_keeps _ _ h
  .next (.ite (.ite (settle_keeps (hsFrame_keeps _ k)) k) (twinFrame_keeps _ _ _ _ (fun _ k => k) h))

theorem execTwinPortTrained_keeps (port portNum lanesOk pair) (h : Keeps s0 s) :
    KeepsR s0 (execTwinPortTrained port portNum lanesOk pair s) :=
  have k := modTport_keeps _ _ h
  .next (.ite h (.ite (settle_keeps (pumpLog_keeps (.ite (ctlOn_keeps _ _ k) k)))
    (raiseWith_keeps _ _ _ (modTport_keeps _ _ h))))

theorem execTwinPortLinkLoss_keeps (port) (h : Keeps s0 s) : KeepsR s0 (execTwinPortLinkLoss port s) :=
  .next (.ite h (.ite (settle_keeps (modTport_keeps _ _ (twinPortOut_keeps _ h))) (raiseWith_keeps _ _ _ (modTport_keeps _ _ h))))

theorem execTwinFecWindow_keeps (port corrected uncor) (h : Keeps s0 s) : KeepsR s0 (execTwinFecWindow port corrected uncor s) :=
  have k := modTport_keeps _ _ h
  .next (.ite (raiseWith_keeps _ _ _ k) k)

theorem execTwinCreditWaitTimer_keeps (h : Keeps s0 s) : KeepsR s0 (execTwinCreditWaitTimer s) := by
  refine .next ?_
  split
  · exact .ite (raiseWith_keeps _ _ _ (modTport_keeps _ _ h)) h
  · exact h

theorem execHeartbeatTimer_keeps (h : Keeps s0 s) : KeepsR s0 (execHeartbeatTimer s) := by
  refine .next (.ite h ?_)
  split
  · exact ctlAll_keeps _ h
  · exact ctlAll_keeps _ h

theorem execDigestTimer_keeps (h : Keeps s0 s) : KeepsR s0 (execDigestTimer s) :=
  .next (.ite h (.ite (settle_keeps (digestMismatch_keeps _ h)) (ctlOne_keeps _ (modTwin_keeps _ h))))

theorem execRenewTimer_keeps (h : Keeps s0 s) : KeepsR s0 (execRenewTimer s) :=
  .next (.ite h (askWit_keeps _ (.ite (modTwin_keeps _ h) h)))

theorem execWitnessResendTimer_keeps (h : Keeps s0 s) : KeepsR s0 (execWitnessResendTimer s) := by
  refine .next (forEach_keeps _ (fun _ _ k => transmitWit_keeps _ k) ?_)
  split
  · exact askWit_keeps _ (modTwin_keeps _ h)
  · exact h

theorem execWitnessRetryTimer_keeps (h : Keeps s0 s) : KeepsR s0 (execWitnessRetryTimer s) := by
  refine .next ?_
  split
  · exact askWit_keeps _ (modTwin_keeps _ h)
  · exact h

theorem execWitness_keeps (p b) (h : Keeps s0 s) : KeepsR s0 (execWitness p b s) := by
  have checked := rxChecks_keeps p false (headerOk p false 24 && singleOk p && noTarget p)
    (s.authentic p false 0x0D (witPayload b)) true false h
  have inOrder := seqChecks_keeps p none checked
  have acked (late : Bool) := ackDue_keeps p.conn.toNat late (settlePkt_keeps p inOrder)
  refine .next (.ite checked (.ite inOrder (.ite ?_ (acked _))))
  split
  · exact settle_keeps (witReply_keeps _ _ (acked _))
  · exact settle_keeps (newerReply_keeps _ (acked _))

theorem execSwapS1Timeout_keeps (h : Keeps s0 s) : KeepsR s0 (execSwapS1Timeout s) := by
  refine .next ?_
  split
  · exact settle_keeps (finish_keeps _ _ _ (modTwin_keeps _ h))
  · exact h

theorem execSwapTakeoverTimeout_keeps (h : Keeps s0 s) : KeepsR s0 (execSwapTakeoverTimeout s) := by
  refine .next ?_
  split
  · exact
      have ended := finish_keeps _ _ _ (modTwin_keeps _ h)
      .ite (settle_keeps (announceAll_keeps (memActive_keeps (modTwin_keeps _ ended)))) (settle_keeps (peerSilent_keeps ended))
  · exact h

/-! Rails and drawers. -/

theorem execRailSenseSample_keeps (mv vinMv) (h : Keeps s0 s) : KeepsR s0 (execRailSenseSample mv vinMv s) :=
  .next (settle_keeps (forEach_keeps _ (fun _ _ k => judgeRail_keeps _ (modRail_keeps _ _ k)) (modPower_keeps _ h)))

theorem execRailTOnExpiry_keeps (i) (h : Keeps s0 s) : KeepsR s0 (execRailTOnExpiry i s) := by
  refine .next (.ite ?_ h)
  split
  · exact settle_keeps (drawerFault_keeps _ _ (railFault_keeps _ (modRail_keeps _ _ h)))
  · exact settle_keeps (railsChanged_keeps (railFault_keeps _ (firstFailure_keeps _ _ (modRail_keeps _ _ h))))

theorem execRailTDisExpiry_keeps (i) (h : Keeps s0 s) : KeepsR s0 (execRailTDisExpiry i s) := by
  have failed := railFault_keeps i (noteFailure_keeps i 3 (modRail_keeps i (fun r => { r with st := .failed, noFall := true }) h))
  refine .next (.ite ?_ h)
  split
  · exact settle_keeps (railsChanged_keeps (.ite (fallFrom_keeps _ _ failed) failed))
  · exact settle_keeps (railsChanged_keeps failed)

theorem execDrawerWakeStepTimeout_keeps (d) (h : Keeps s0 s) : KeepsR s0 (execDrawerWakeStepTimeout d s) := by
  have missed (l : List Nat) : Keeps s0 (forEach l missedBound s) := forEach_keeps l (fun _ _ k => missedBound_keeps _ k) h
  refine .next (.ite h ?_)
  split
  · exact settle_keeps (drawerFault_keeps _ _ h)
  · exact settle_keeps (drawerFault_keeps _ _ h)
  · exact settle_keeps (drawerFault_keeps _ _ h)
  · exact settle_keeps (drawerFault_keeps _ _ h)
  · exact settle_keeps (wakeCheck_keeps _ (.ite (wakeNext_keeps _ (missed _)) (missed _)))
  · exact settle_keeps (.ite (markerCheck_keeps _ (missed _)) (missed _))
  · exact h

theorem execEaselStateLoaded_keeps (d) (h : Keeps s0 s) : KeepsR s0 (execEaselStateLoaded d s) :=
  have recovered := forEach_keeps _ (fun _ _ k => recoverGroup_keeps _ _ k) h
  .next (.ite (settle_keeps (forEach_keeps _ (fun _ _ k => startFill_keeps _ k) (modDrw_keeps _ _ recovered))) h)

theorem execDrawerSettleTimer_keeps (d) (h : Keeps s0 s) : KeepsR s0 (execDrawerSettleTimer d s) := by
  refine .next ?_
  split
  · exact .ite (settle_keeps (beginWake_keeps _ _ (modDrw_keeps _ _ h))) h
  · exact h

theorem execDrawerCheckTimer_keeps (d) (h : Keeps s0 s) : KeepsR s0 (execDrawerCheckTimer d s) := by
  refine .next ?_
  split
  · exact .ite (logControl_keeps _ _ _ _ (modTwin_keeps _ h)) (modTwin_keeps _ h)
  · exact h

/-! Durability, resets and clocks. -/

theorem execClockMonitorWindow_keeps (island khz edge) (h : Keeps s0 s) : KeepsR s0 (execClockMonitorWindow island khz edge s) :=
  have seen := modIsland_keeps _ _ h
  have bad := modIsland_keeps _ _ seen
  .next (.ite (.ite bad (settle_keeps (relinquishCause_keeps (raiseWith_keeps _ _ _ bad)))) (.ite (modIsland_keeps _ _ seen) seen))

theorem execGctlRstkey_keeps (key) (h : Keeps s0 s) : KeepsR s0 (execGctlRstkey key s) :=
  .next (.ite h (.ite (modEv_keeps _ h (fun _ q => q)) (startReset_keeps _ h)))

theorem execDirtyBudgetEval_keeps (h : Keeps s0 s) : KeepsR s0 (execDirtyBudgetEval s) :=
  .next (settle_keeps (modDura_keeps _ (lowCheck_keeps (modDura_keeps _ (modPower_keeps _ h)))))

/-! Power. -/

theorem execWindlassRisingEdge_keeps (h : Keeps s0 s) : KeepsR s0 (execWindlassRisingEdge s) :=
  have k := modPower_keeps _ h
  .next (.ite h (.ite k (.ite (windFault_keeps k) (settle_keeps (atState_keeps _ _ (modPower_keeps _ k))))))

theorem execWindlassFallingEdge_keeps (h : Keeps s0 s) : KeepsR s0 (execWindlassFallingEdge s) :=
  have k := modPower_keeps _ h
  .next (.ite (settle_keeps (offRequest_keeps k)) k)

theorem execOffSettleTimer_keeps (h : Keeps s0 s) : KeepsR s0 (execOffSettleTimer s) :=
  have k := modPower_keeps _ h
  .next (.ite (.ite (coldStart_keeps k) k) h)

theorem execAonPinInit_keeps (h : Keeps s0 s) : KeepsR s0 (execAonPinInit s) :=
  .next (powerOff_keeps (modPrime_keeps _ (modPower_keeps _ (forEach_keeps _ (fun _ _ k => modRail_keeps _ _ k) h))))

theorem execCisternSettleTimer_keeps (v0) (h : Keeps s0 s) : KeepsR s0 (execCisternSettleTimer v0 s) := by
  refine .next ?_
  split
  · exact forEach_keeps _ (fun _ _ k => setPast_keeps _ k) (modPower_keeps _ h)
  · exact h

theorem execCisternV1WindowEnd_keeps (v1) (h : Keeps s0 s) : KeepsR s0 (execCisternV1WindowEnd v1 s) := by
  refine .next ?_
  split
  · exact modPower_keeps _ h
  · exact h

theorem execCisternTestLoadEnd_keeps (v2) (h : Keeps s0 s) : KeepsR s0 (execCisternTestLoadEnd v2 s) := by
  refine .next ?_
  split
  · exact judgeCistern_keeps _ _ _ h
  · exact h

theorem execPmbusResponse_keeps (port voutMode) (h : Keeps s0 s) : KeepsR s0 (execPmbusResponse port voutMode s) := by
  refine .next ?_
  split
  · exact h
  · exact
      have sent := send_keeps _ (modPower_keeps _ (modRail_keeps _ _ h))
      .ite (marginRefused_keeps _ h) (settle_keeps (marginDone_keeps _ (.ite (railWarn_keeps _ sent) sent)))

theorem execPmbusTimeout_keeps (port) (h : Keeps s0 s) : KeepsR s0 (execPmbusTimeout port s) := by
  refine .next ?_
  split
  · exact marginRefused_keeps _ h
  · exact h

/-! Mailbox commands. -/

theorem execAbort_keeps (hd target) (h : Keeps s0 s) : KeepsR s0 (execAbort hd target s) := by
  refine takeCommand_keeps _ _ _ _ _ _ (fun id t k => ?_) h
  split
  · exact
      have ended := finish_keeps _ _ _ (modCtl_keeps _ k rfl)
      .ite ended (abortNow_keeps _ ended)
  · exact finish_keeps _ _ _ k

theorem execMemRead_keeps (hd nsid off len) (h : Keeps s0 s) : KeepsR s0 (execMemRead hd nsid off len s) := by
  refine takeCommand_keeps _ _ _ _ _ _ (fun id t k => ?_) h
  split
  · exact gatherRun_keeps _ (fresh_keeps k)
  · exact memBusy_keeps _ _ k

theorem execMemWrite_keeps (hd nsid off data) (h : Keeps s0 s) : KeepsR s0 (execMemWrite hd nsid off data s) := by
  refine takeCommand_keeps _ _ _ _ _ _ (fun id t k => ?_) h
  split
  · exact .ite (finish_keeps _ _ _ k) (.ite (finish_keeps _ _ _ k) (answerLogged_keeps _ _ _ _
      (foldl_keeps (P := fun a : State × Lsn => Keeps s0 a.1) (fun _ _ k => memLine_keeps _ _ _ k) _ (nextStamp_keeps k))))
  · exact memBusy_keeps _ _ k

theorem execCloseConnection_keeps (hd conn) (h : Keeps s0 s) : KeepsR s0 (execCloseConnection hd conn s) :=
  takeCommand_keeps _ _ _ _ _ _ (fun _ _ k => commit_keeps _ _ _ _ (some _) _ (fun _ c =>
    have past := setPast_keeps _ c
    .ite (finish_keeps _ _ _ past) (modConn_keeps _ _ past)) k) h

theorem execRegisterGrant_keeps (hd p) (h : Keeps s0 s) : KeepsR s0 (execRegisterGrant hd p s) :=
  .ite (takeCommand_keeps _ _ _ _ _ _ (fun _ _ k => commit_keeps _ _ _ _ (some _) _
    (fun _ c => pinCheck_keeps _ (modGrant_keeps _ _ c)) k) h) (cfgCommand_keeps _ _ _ _ _ h)

theorem execRevokeGrant_keeps (hd akey) (h : Keeps s0 s) : KeepsR s0 (execRevokeGrant hd akey s) :=
  takeCommand_keeps _ _ _ _ _ _ (fun _ _ k => commit_keeps _ _ _ _ (some _) _
    (fun _ c => .ite (finish_keeps _ _ _ c) (modGrant_keeps _ _ c)) k) h

theorem execGrantStatus_keeps (hd slot) (h : Keeps s0 s) : KeepsR s0 (execGrantStatus hd slot s) :=
  takeCommand_keeps _ _ _ _ _ _ (fun _ _ k => finish_keeps _ _ _ (.ite (freeGrant_keeps _ k) k)) h

theorem execSanitize_keeps (hd nsid) (h : Keeps s0 s) : KeepsR s0 (execSanitize hd nsid s) :=
  takeCommand_keeps _ _ _ _ _ _ (fun _ _ k => commit_keeps _ _ _ _ (some _) _ (fun _ c =>
    have past := setPast_keeps _ c
    .ite past (finish_keeps _ _ _ past)) k) h

theorem execScrubNow_keeps (hd g) (h : Keeps s0 s) : KeepsR s0 (execScrubNow hd g s) :=
  takeCommand_keeps _ _ _ _ _ _ (fun _ _ k =>
    have marked := modGrp_keeps _ _ k
    .ite (finish_keeps _ _ _ k) (.ite (requestWake_keeps _ _ marked) marked)) h

theorem execForceTakeover_keeps (hd) (h : Keeps s0 s) : KeepsR s0 (execForceTakeover hd s) :=
  takeCommand_keeps _ _ _ _ _ _ (fun _ _ k => takeoverOn_keeps _ (fun _ t => takeoverSolo_keeps _ _ t)
    (takeoverHeld_keeps _ (modTwin_keeps _ k))) h

theorem execFwBegin_keeps (hd image len) (h : Keeps s0 s) : KeepsR s0 (execFwBegin hd image len s) :=
  takeCommand_keeps _ _ _ _ _ _ (fun _ _ k => finish_keeps _ _ _ (flashQueue_keeps _ _ (bootWord_keeps _ _ _
    (modFlash_keeps _ k (List.length_map _))))) h

theorem execFwData_keeps (hd image off data) (h : Keeps s0 s) : KeepsR s0 (execFwData hd image off data s) := by
  refine takeCommand_keeps _ _ _ _ _ _ (fun id t k => ?_) h
  split
  · exact imageDone_keeps _ _ _ k
  · exact flashQueue_keeps _ _ k

theorem execFwCommit_keeps (hd image) (h : Keeps s0 s) : KeepsR s0 (execFwCommit hd image s) :=
  takeCommand_keeps _ _ _ _ _ _ (fun _ _ k => bootWord_keeps _ _ _ (modFlash_keeps _ (modFbank_keeps _ _ (freeVal_keeps k)) rfl)) h

theorem execLcAdvance_keeps (hd target auth) (h : Keeps s0 s) : KeepsR s0 (execLcAdvance hd target auth s) := by
  refine takeCommand_keeps _ _ _ _ _ _ (fun id t k => ?_) h
  have dropped := dropChallenge_keeps k
  dsimp only
  split
  · exact finish_keeps _ _ _ dropped
  · exact startDrain_keeps _ _ (modTest_keeps _ dropped (Nat.le_refl _))
  · exact dropped

theorem execLcFuseItem_keeps (hd target item data auth) (h : Keeps s0 s) :
    KeepsR s0 (execLcFuseItem hd target item data auth s) := by
  refine takeCommand_keeps _ _ _ _ _ _ (fun id t k => ?_) h
  have dropped := dropChallenge_keeps k
  dsimp only
  split
  · exact finish_keeps _ _ _ dropped
  · exact finish_keeps _ _ _ (fuseItem_keeps _ _ dropped)

theorem execLcStatus_keeps (hd) (h : Keeps s0 s) : KeepsR s0 (execLcStatus hd s) :=
  takeCommand_keeps _ _ _ _ _ _ (fun _ _ k => finish_keeps _ _ _ (modTest_keeps _ (draw_keeps k) (Nat.le_refl _))) h

theorem execJtagAuthenticate_keeps (auth) (h : Keeps s0 s) : KeepsR s0 (execJtagAuthenticate auth s) :=
  .next (dropChallenge_keeps (.ite (modTest_keeps _ h (Nat.le_refl _)) h))

/-! DRAM. -/

theorem execDramRefreshTimer_keeps (ch behind) (h : Keeps s0 s) : KeepsR s0 (execDramRefreshTimer ch behind s) :=
  .next (.ite h (.ite (modDrch_keeps _ _ h) (issueRefresh_keeps _ h)))

theorem execDramMr4Poll_keeps (ch rank mult temp hot) (h : Keeps s0 s) : KeepsR s0 (execDramMr4Poll ch rank mult temp hot s) :=
  have polled := modDrch_keeps _ _ h
  have warned := Keeps.ite (raiseWith_keeps _ _ _ polled) polled
  .ite (.next h) (.next (.ite (zqRun_keeps _ _ warned) warned))

theorem execDramReadComplete_keeps (addr words) (h : Keeps s0 s) : KeepsR s0 (execDramReadComplete addr words s) := by
  unfold execDramReadComplete
  split
  · exact .next h
  · exact
      have drawn := freeVal_keeps (modDrch_keeps _ _ (selfExit_keeps _ h))
      .next (forEach_keeps _ (fun _ _ k => wordRead_keeps _ _ k) (.ite (activate_keeps _ drawn) drawn))

/-! Priming. -/

theorem execStandbyPowerGood_keeps (h : Keeps s0 s) : KeepsR s0 (execStandbyPowerGood s) :=
  have k := modPrime_keeps _ h
  .next (.ite (modPrime_keeps _ k) k)

theorem execCrystalStable_keeps (r) (h : Keeps s0 s) : KeepsR s0 (execCrystalStable r s) :=
  .next (.ite h (.ite (readFuses_keeps (coldStart_keeps h)) (modPrime_keeps _ h)))

theorem execHsWaitExpiry_keeps (h : Keeps s0 s) : KeepsR s0 (execHsWaitExpiry s) :=
  .next (.ite h (.ite (modPrime_keeps _ h) (.ite (askWit_keeps _ h) (settle_keeps (primeStandby_keeps _ h)))))

theorem execSuspectRowSettle_keeps (g) (h : Keeps s0 s) : KeepsR s0 (execSuspectRowSettle g s) := by
  refine .next (.ite h ?_)
  split
  · exact settle_keeps (openSettle_keeps _ _ h)
  · exact h

/-! Host port. -/

theorem execPowerstateWrite_keeps (d3) (h : Keeps s0 s) : KeepsR s0 (execPowerstateWrite d3 s) :=
  have d0 := modHost_keeps _ h rfl
  .next (.ite (.ite h (modHost_keeps _ h rfl)) (.ite (sendPending_keeps _ d0) d0))

theorem execHdmDecoderCommit_keeps (k base size ways) (h : Keeps s0 s) : KeepsR s0 (execHdmDecoderCommit k base size ways s) :=
  .next (.ite h (rebuildCdat_keeps (modHost_keeps _ h (modAt_length _ _ _))))

theorem execMemSpecRd_keeps (tag hpa) (h : Keeps s0 s) : KeepsR s0 (execMemSpecRd tag hpa s) := by
  refine cxlRequest_keeps _ (fun t k => ?_) h
  split
  · exact cxlServe_keeps _ _ k
  · exact k

theorem execGpfTimeout_keeps (h : Keeps s0 s) : KeepsR s0 (execGpfTimeout s) := by
  refine .next ?_
  split
  · exact h
  · exact send_keeps _ (record_keeps _ _ _ _ (modHost_keeps _ h rfl))

theorem execPerstAssert_keeps (h : Keeps s0 s) : KeepsR s0 (execPerstAssert s) :=
  have k := modHost_keeps _ h rfl
  .next (.ite h (settle_keeps (.ite (startReset_keeps _ (hostLinkDown_keeps k)) (hostReset_keeps k))))

theorem execPerstDeassert_keeps (h : Keeps s0 s) : KeepsR s0 (execPerstDeassert s) :=
  have k := modHost_keeps _ h rfl
  .next (.ite h (.ite k (hostTrainNow_keeps k)))

theorem execPoisonedTlp_keeps (isWrite) (h : Keeps s0 s) : KeepsR s0 (execPoisonedTlp isWrite s) :=
  have k := modHost_keeps _ h rfl
  .next (.ite k (send_keeps _ k))

/-! Self-test and recorder. -/

theorem execTransparentTestRegion_keeps (place outcome spareFree) (h : Keeps s0 s) :
    KeepsR s0 (execTransparentTestRegion place outcome spareFree s) := by
  unfold execTransparentTestRegion
  split
  · exact .next h
  · have tested (cls : Nat) : Keeps s0 (if isRegion place then regionTested cls s else s) := .ite (regionTested_keeps _ h) h
    have fixed (cls : Nat) := modTest_keeps (fun t => { t with ce := sat16 t.ce }) (tested cls) (Nat.le_refl _)
    refine .ite (.next h) (.next (settle_keeps ?_))
    split
    · exact regionPassed_keeps _ (tested _)
    · exact regionPassed_keeps _ (fixed _)
    · exact .ite (regionPassed_keeps _ (softRepair_keeps _ _ (fixed _))) (redirect_keeps _ _ (fixed _))
    · exact sramFault_keeps _ _ _ (tested _)

theorem execRecorderSpill_keeps (h : Keeps s0 s) : KeepsR s0 (execRecorderSpill s) := by
  refine .next ?_
  split
  · exact h
  · exact .ite h (.ite (settle_keeps (awakeRecord_keeps _ h)) (settle_keeps (spillRow_keeps _ _ (modTest_keeps _ h (Nat.le_refl _)))))

/-! Events and registers. -/

theorem execEvStatusClear_keeps (w mask raised) (h : Keeps s0 s) : KeepsR s0 (execEvStatusClear w mask raised s) := by
  have cleared : Keeps s0 (if s.host.d3 then s else clearStatus w mask s) := .ite h (clearStatus_keeps _ _ h)
  refine .next ?_
  split
  · exact raise_keeps _ cleared
  · exact cleared

theorem execReg64LowRead_keeps (off) (h : Keeps s0 s) : KeepsR s0 (execReg64LowRead off s) := by
  refine .ite (.next h) ?_
  split
  · exact .next (send_keeps _ (modEv_keeps _ h (fun _ q => q)))
  · split
    · exact .next (send_keeps _ (modEv_keeps _ h (fun _ q => q)))
    · exact .next (send_keeps _ h)
    · exact .next (send_keeps _ (freeVal_keeps h))

theorem execJunctionTempSample_keeps (t) (h : Keeps s0 s) : KeepsR s0 (execJunctionTempSample t s) :=
  have k := Keeps.withPlat _ (modPower_keeps _ h)
  .next (.ite (raiseWith_keeps _ _ _ k) k)

/-! Flash. -/

theorem execFlashProgramPulseDone_keeps (bank verified) (h : Keeps s0 s) : KeepsR s0 (execFlashProgramPulseDone bank verified s) := by
  refine .next ?_
  split
  · exact h
  · exact .ite h (.ite (settle_keeps (wordDone_keeps _ _ h)) (.ite (settle_keeps (pulseFail_keeps _ _ h)) (boundary_keeps _ _ h)))

theorem execFlashErasePulseDone_keeps (bank verified) (h : Keeps s0 s) : KeepsR s0 (execFlashErasePulseDone bank verified s) := by
  refine .next ?_
  split
  · exact h
  · exact
      have done := sectorDone_keeps _ _ h
      .ite h (.ite (boundary_keeps _ _ h) (.ite (.ite (settle_keeps (pulseFail_keeps _ _ h)) (boundary_keeps _ _ h))
        (.ite (settle_keeps (bankFree_keeps _ (opEffect_keeps _ _ (modFbank_keeps _ _ done)))) (boundary_keeps _ _ done))))

theorem execFlashBusFaultRead_keeps (sector uncor) (h : Keeps s0 s) : KeepsR s0 (execFlashBusFaultRead sector uncor s) :=
  .next (.ite (send_keeps _ (raiseWith_keeps _ _ _ (modFbank_keeps _ _ h))) (.ite (send_keeps _ (raiseWith_keeps _ _ _ h)) h))

theorem mbxWrite_keeps (w off v) (h : Keeps s0 s) : KeepsR s0 (mbxWrite w off v s) := by
  unfold mbxWrite
  split
  · exact .next (modMbx_keeps _ _ h)
  · exact execMbxCmdPush_keeps _ _ h
  · exact execMbxRspPop_keeps _ _ h
  · exact .ite (execMbxOwnerRelease_keeps _ _ h) (execMbxOwnerClaim_keeps _ _ h)
  · exact .next (.ite (modMbx_keeps _ _ h) h)

theorem execEccFlipWrite_keeps (v) (h : Keeps s0 s) : KeepsR s0 (execEccFlipWrite v s) :=
  .next (.ite h (modTest_keeps _ h (Nat.le_refl _)))

theorem execMirrorCtlFlush_keeps (h : Keeps s0 s) : KeepsR s0 (execMirrorCtlFlush s) :=
  .next (settle_keeps (flushStart_keeps h))

theorem execPwrCtlOffreq_keeps (h : Keeps s0 s) : KeepsR s0 (execPwrCtlOffreq s) :=
  .next (settle_keeps (offRequest_keeps h))

/-- R19, R20: every register that a write can reach, by its offset. -/
theorem barWrite_keeps (off v) (h : Keeps s0 s) : KeepsR s0 (barWrite off v s) := by
  unfold barWrite
  split
  · exact execGctlRstkey_keeps _ (modEv_keeps _ h (fun _ q => q))
  · exact .next (modEv_keeps _ (modCtl_keeps _ h rfl) (fun _ q => q))
  · exact .ite (execMirrorCtlFlush_keeps (modDura_keeps _ h)) (.next (modDura_keeps _ h))
  · exact .next (modCipher_keeps _ h rfl)
  · exact .ite (execPwrCtlOffreq_keeps h) (.next h)
  · exact .next (modPower_keeps _ h)
  · exact .next (modFbank_keeps _ _ h)
  · exact .next (modFbank_keeps _ _ h)
  · exact execEccFlipWrite_keeps _ h
  · exact execMbxSelWrite_keeps _ h
  · exact execUnitSelWrite_keeps _ h
  · exact .next (modTest_keeps _ h (Nat.le_refl _))
  · exact .ite (mbxWrite_keeps _ _ _ h) (.ite (mbxWrite_keeps _ _ _ h) (.ite (.next (unitWrite_keeps _ _ h))
      (.ite (.next (clearStatus_keeps _ _ h)) (.ite (.next (msixWrite_keeps _ _ h)) (.next h)))))

theorem execRegisterWrite_keeps (off enables v) (h : Keeps s0 s) : KeepsR s0 (execRegisterWrite off enables v s) :=
  .ite (.next h) (.ite (.next (modHost_keeps _ h rfl)) (barWrite_keeps _ _ h))

/-- What no command undoes: every command is put together from operations that keep it. -/
theorem exec_keeps (c : Instr) (h : Keeps s0 s) : KeepsR s0 (exec c s) := by
  cases c with
  | write | writeDurable | readReq | flush | atomicCas | atomicFadd => exact .next (rxHost_keeps _ _ _ _ _ _ _ h)
  | ack => exact .next (rxControl_keeps _ _ _ _ (fun k => ackBody_keeps _ _ k) h)
  | probe => exact execProbe_keeps _ _ h
  | witness => exact execWitness_keeps _ _ h
  | readGatherComplete => exact execReadGatherComplete_keeps _ h
  | reassemblyTimeout => exact execReassemblyTimeout_keeps _ _ h
  | missingMessageTimeout => exact execMissingMessageTimeout_keeps _ h
  | ackDelayTimer => exact .next (.ite (sendAck_keeps _ _ _ h) h)
  | retransmitTimer => exact execRetransmitTimer_keeps _ _ h
  | creditIdleTimer => exact .next (.ite (xportChanged_keeps _ (lowerCredit_keeps _ h)) h)
  | hostCreditWaitTimer => exact .next (.ite (portEvent_keeps _ _ _ h) h)
  | pathLivenessTimer => exact .next (modConn_keeps _ _ h)
  | ecnRateTimer => exact .next (.ite (pumpTx_keeps _ (modConn_keeps _ _ h)) h)
  | keyGenerationDiscard => exact execKeyGenerationDiscard_keeps _ h
  | takeoverNoticeRepeat => exact .next (.ite (sendNotice_keeps _ (modConn_keeps _ _ h)) h)
  | arpRequest | neighbourSolicitation => exact .next (.ite (send_keeps _ h) h)
  | echoRequest => exact .next (.ite (send_keeps _ (modSub_keeps _ _ _ h)) h)
  | nonVorwiriFrame => exact .next h
  | subportLinkChange => exact execSubportLinkChange_keeps _ _ _ h
  | networkFecWindow => exact execNetworkFecWindow_keeps _ _ _ _ h
  | log => exact .next (twinFrame_keeps _ _ _ _ (fun _ k => logFrame_keeps _ _ k) h)
  | applyAck => exact .next (twinFrame_keeps _ _ _ _ (fun _ k => applyAckFrame_keeps _ _ k) h)
  | heartbeat => exact execHeartbeat_keeps _ _ _ _ _ _ h
  | digest => exact .next (twinFrame_keeps _ _ _ _ (fun _ k => digestFrame_keeps _ _ _ k) h)
  | relinquish => exact .next (twinFrame_keeps _ _ _ _ (fun _ k => relinquishFrame_keeps _ _ _ k) h)
  | takeoverGapFillTimeout => exact execTakeoverGapFillTimeout_keeps h
  | takeoverAnnounceDelay => exact execTakeoverAnnounceDelay_keeps h
  | takeover => exact .next (twinFrame_keeps _ _ _ _ (fun _ k => takeoverFrame_keeps _ _ k) h)
  | fetchReq => exact execFetchReq_keeps _ _ _ _ _ h
  | fetchResp => exact execFetchResp_keeps _ _ _ _ h
  | mailbox => exact .next (twinFrame_keeps _ _ _ _ (fun _ k => mbxPush_keeps _ _ k) h)
  | resyncReq => exact .next (twinFrame_keeps _ _ _ _ (fun _ k => resyncReqFrame_keeps _ _ k) h)
  | resyncEntrySend => exact .next (.ite (settle_keeps (walkStep_keeps h)) h)
  | handshake => exact execHandshake_keeps _ _ h
  | link => exact .next (twinFrame_keeps _ _ _ _ (fun _ k => k) h)
  | twinPortTrained => exact execTwinPortTrained_keeps _ _ _ _ h
  | twinLinkAckTimer => exact .next (.ite (sendLink_keeps _ _ (modTport_keeps _ _ h)) h)
  | twinReplayTimer => exact .next (.ite (twinReplay_keeps _ _ h) h)
  | twinPortStallTimer => exact .next (.ite (settle_keeps (twinPortOut_keeps _ h)) h)
  | twinFecWindow => exact execTwinFecWindow_keeps _ _ _ h
  | applyAckTimer => exact .next (.ite (sendApplyAck_keeps h) h)
  | twinCreditWaitTimer => exact execTwinCreditWaitTimer_keeps h
  | heartbeatTimer => exact execHeartbeatTimer_keeps h
  | peerSilentTimer => exact .next (.ite h (settle_keeps (peerSilent_keeps h)))
  | digestTimer => exact execDigestTimer_keeps h
  | renewTimer => exact execRenewTimer_keeps h
  | witnessResendTimer => exact execWitnessResendTimer_keeps h
  | witnessRetryTimer => exact execWitnessRetryTimer_keeps h
  | leaseLapseTimer => exact .next (.ite (settle_keeps (leaseCheck_keeps (modTwin_keeps _ h))) h)
  | swapS1Timeout => exact execSwapS1Timeout_keeps h
  | swapTakeoverTimeout => exact execSwapTakeoverTimeout_keeps h
  | resyncTakeoverRepeat => exact .next (.ite (resyncTakeover_keeps h) h)
  | coreWatchdogTimeout => exact .next (settle_keeps (startReset_keeps _ (relinquishCause_keeps (raise_keeps _ h))))
  | clockMonitorWindow => exact execClockMonitorWindow_keeps _ _ _ h
  | mediaStallTimer => exact .next (.ite (settle_keeps (mediaStalled_keeps h)) h)
  | readCwResponse =>
    exact .next (onResponse_keeps _ _ _ _ (fun _ _ k => .ite (readDone_keeps _ _ _ k) (badStatus_keeps _ _ _ k)) h)
  | peerFetchTimeout => exact execPeerFetchTimeout_keeps _ h
  | writeCwResponse => exact execWriteCwResponse_keeps _ _ _ h
  | dieStatusResponse | dieResetResponse =>
    exact .next (onResponse_keeps _ _ _ _ (fun _ _ k => .ite k (badStatus_keeps _ _ _ k)) h)
  | tempResponse => exact execTempResponse_keeps _ _ _ _ h
  | descriptorResponse => exact execDescriptorResponse_keeps _ _ _ _ h
  | dieCommandTimeout => exact execDieCommandTimeout_keeps _ _ h
  | dieResetTimeout => exact execDieResetTimeout_keeps _ _ h
  | rowUpdateStart => exact execRowUpdateStart_keeps _ h
  | mergeWaitExpiry => exact execMergeWaitExpiry_keeps _ h
  | rowLeaseExpiry => exact execRowLeaseExpiry_keeps _ _ h
  | gapMoveStart | gapMoveYieldTimeout => exact .next (.ite (startMove_keeps _ _ h) h)
  | scrubRead => exact .next (.ite (settle_keeps (scrubNowNext_keeps _ (patrolNext_keeps _ h))) h)
  | parkScrubDue => exact .next (.ite (settle_keeps (requestWake_keeps _ _ (modDrw_keeps _ _ h))) h)
  | rebuildRow => exact execRebuildRow_keeps _ h
  | ceWindowTimer => exact .next (modChan_keeps _ _ h)
  | flitReceive | lctl => exact .next (afterLink_keeps _ (anyFlit_keeps _ _ h))
  | linkAckTimer => exact .next (.ite (modChan_keeps _ _ (sendLctl_keeps _ _ _ _ _ h)) h)
  | linkReplayTimer => exact .next (.ite (replayFrom_keeps _ _ h) h)
  | blockAlignmentLoss => exact execBlockAlignmentLoss_keeps _ h
  | trn1 => exact .next (.ite (trn1Rx_keeps _ _ _ _ _ h) h)
  | trn2 => exact .next (.ite (modChan_keeps _ _ h) h)
  | trainingStepTimeout => exact execTrainingStepTimeout_keeps _ h
  | confirmPeriodExpiry => exact .next (.ite (afterLink_keeps _ (linkUp_keeps _ h)) h)
  | sidebandPollTimer => exact execSidebandPollTimer_keeps _ _ h
  | tempPollTimer => exact execTempPollTimer_keeps _ h
  | drawerRailGood => exact .next (.ite (settle_keeps (railNowGood_keeps _ h)) h)
  | drawerRailOff => exact .next (.ite (settle_keeps (railNowOff_keeps _ h)) h)
  | drawerWakeStepTimeout => exact execDrawerWakeStepTimeout_keeps _ h
  | easelStateLoaded => exact execEaselStateLoaded_keeps _ h
  | wakePeerTimeout => exact .next (.ite (settle_keeps (wakeFinish_keeps _ (modDrw_keeps _ _ h))) h)
  | parkStepTimeout => exact .next (.ite (settle_keeps (parkBack_keeps _ (finishAll_keeps _ _ _ h))) h)
  | drawerSettleTimer => exact execDrawerSettleTimer_keeps _ h
  | parkIdleTimer => exact .next (.ite (settle_keeps (beginPark_keeps _ _ h)) h)
  | drawerCheckTimer => exact execDrawerCheckTimer_keeps _ h
  | schedRateTick => exact .next (.ite (settle_keeps (schedWake_keeps _ h)) h)
  | spillwayMove => exact .next (settle_keeps (spillAll_keeps h))
  | dirtyBudgetEval => exact execDirtyBudgetEval_keeps h
  | mirrorLagAgeLimit => exact .next (.ite (modDura_keeps _ h) h)
  | mirrorCtlFlush => exact execMirrorCtlFlush_keeps h
  | drainComplete => exact .next (settle_keeps (drainComplete_keeps h))
  | gctlRstkey => exact execGctlRstkey_keeps _ h
  | hostLinkTrained => exact .next (.ite h (settle_keeps (modHost_keeps _ h rfl)))
  | powerstateWrite => exact execPowerstateWrite_keeps _ h
  | hdmDecoderCommit => exact execHdmDecoderCommit_keeps _ _ _ _ h
  | memRd | memRdData => exact cxlRequest_keeps _ (fun _ k => cxlRead_keeps _ _ k) h
  | memSpecRd => exact execMemSpecRd_keeps _ _ h
  | memInv | memInvNT | memClnEvct => exact cxlRequest_keeps _ (fun _ k => cxlNoop_keeps _ _ k) h
  | memWr | memWrPtl => exact cxlRequest_keeps _ (fun _ k => cxlStore_keeps _ _ _ _ k) h
  | gpfPhase2 => exact .next (settle_keeps (flushStart_keeps (modHost_keeps _ h rfl)))
  | gpfTimeout => exact execGpfTimeout_keeps h
  | perstAssert => exact execPerstAssert_keeps h
  | hotReset | dlDown => exact .next (settle_keeps (hostReset_keeps (modHost_keeps _ h rfl)))
  | flr => exact .next (emptyHostMbx_keeps (modEv_keeps _ (modHost_keeps _ h rfl) (fun _ q => q)))
  | hostDrainH3Timeout => exact .next (.ite (settle_keeps (hostPortReset_keeps h)) h)
  | poisonedTlp => exact execPoisonedTlp_keeps _ h
  | doeRequest => exact .next (.ite (send_keeps _ h) (send_keeps _ h))
  | getEventRecords | getFwInfo | getTimestamp | getSupportedLogs | getLog | identifyMemoryDevice | getPartitionInfo |
    getHealthInfo | cxlUnsupportedCommand =>
    exact cxlCommand_keeps _ (fun _ k => send_keeps _ k) h
  | clearEventRecords | setTimestamp => exact cxlCommand_keeps _ (fun _ k => send_keeps _ (modHost_keeps _ k rfl)) h
  | mbxSelWrite => exact execMbxSelWrite_keeps _ h
  | mbxCmdPush => exact execMbxCmdPush_keeps _ _ h
  | mbxRspPop => exact execMbxRspPop_keeps _ _ h
  | mbxOwnerClaim => exact execMbxOwnerClaim_keeps _ _ h
  | mbxOwnerRelease => exact execMbxOwnerRelease_keeps _ _ h
  | mbxLeaseExpiry => exact .next (.ite h (mbxRelease_keeps _ h))
  | unitSelWrite => exact execUnitSelWrite_keeps _ h
  | setEndpointId => exact execSetEndpointId_keeps _ h
  | getEndpointId => exact execGetEndpointId_keeps h
  | getMctpVersionSupport => exact execGetMctpVersionSupport_keeps h
  | getMessageTypeSupport => exact execGetMessageTypeSupport_keeps h
  | getVendorDefinedMessageSupport => exact execGetVendorDefinedMessageSupport_keeps h
  | mctpMailboxMessage => exact execMctpMailboxMessage_keeps _ _ _ h
  | identify | getStatus | getConfig | nsStatus | readEasel | drawerStatus | connStatus | twinStatus | maintStatus |
    schedStatus | recRead | fwStatus =>
    exact readCommand_keeps _ _ _ _ _ h
  | abort => exact execAbort_keeps _ _ h
  | setDurability | setIntegrity | setPool | setPort | setXport | setHostport | setHdm | clearHdm | setEventRoute |
    setCompat | setMbx | createNs | deleteNs | resizeNs | setDrawer | openConnection | rekey | schedCreate | schedAppend |
    schedStart | schedDelete | setWitness | setTwin =>
    exact cfgCommand_keeps _ _ _ _ _ h
  | formatGroup => exact takeCommand_keeps _ _ _ _ _ _ (fun _ _ k => openFormat_keeps _ k) h
  | setNsAttr => exact takeCommand_keeps _ _ _ _ _ _ (fun _ _ k => commit_keeps _ _ _ _ none _ trivial k) h
  | memRead => exact execMemRead_keeps _ _ _ _ h
  | memWrite => exact execMemWrite_keeps _ _ _ _ h
  | parkDrawer => exact takeCommand_keeps _ _ _ _ _ _ (fun _ _ k => requestPark_keeps _ _ k) h
  | wakeDrawer => exact takeCommand_keeps _ _ _ _ _ _ (fun _ _ k => requestWake_keeps _ _ k) h
  | closeConnection => exact execCloseConnection_keeps _ _ h
  | registerGrant => exact execRegisterGrant_keeps _ _ h
  | revokeGrant => exact execRevokeGrant_keeps _ _ h
  | grantStatus => exact execGrantStatus_keeps _ _ h
  | swapRoles => exact takeCommand_keeps _ _ _ _ _ _ (fun _ _ k => modTwin_keeps _ k) h
  | forceTakeover => exact execForceTakeover_keeps _ h
  | scrubNow => exact execScrubNow_keeps _ _ h
  | rebuild => exact takeCommand_keeps _ _ _ _ _ _ (fun _ _ k => modGrp_keeps _ _ k) h
  | sanitize => exact execSanitize_keeps _ _ h
  | cisternTest => exact takeCommand_keeps _ _ _ _ _ _ (fun _ _ k => tryMeasure_keeps (modPower_keeps _ k)) h
  | margin => exact takeCommand_keeps _ _ _ _ _ _ (fun _ _ k => startMargin_keeps _ _ _ k) h
  | chRetrain => exact takeCommand_keeps _ _ _ _ _ _ (fun _ _ k => startRetrain_keeps _ k) h
  | chSbreset => exact takeCommand_keeps _ _ _ _ _ _ (fun _ _ k => send_keeps _ k) h
  | chDesc => exact takeCommand_keeps _ _ _ _ _ _ (fun _ _ k => finish_keeps _ _ _ k) h
  | recFreeze => exact takeCommand_keeps _ _ _ _ _ _ (fun _ _ k => finish_keeps _ _ _ (modTest_keeps _ k (Nat.le_refl _))) h
  | recUnfreeze => exact takeCommand_keeps _ _ _ _ _ _ (fun _ _ k => finish_keeps _ _ _ (unfreeze_keeps k)) h
  | fwBegin => exact execFwBegin_keeps _ _ _ h
  | fwData => exact execFwData_keeps _ _ _ _ h
  | fwCommit => exact execFwCommit_keeps _ _ h
  | fwActivate => exact takeCommand_keeps _ _ _ _ _ _ (fun _ _ k => finish_keeps _ _ _ (bootWord_keeps _ _ _ k)) h
  | lcAdvance => exact execLcAdvance_keeps _ _ _ h
  | lcFuseItem => exact execLcFuseItem_keeps _ _ _ _ _ h
  | lcStatus => exact execLcStatus_keeps _ h
  | lcResetTimer => exact .next (.ite h (startReset_keeps _ (modPrime_keeps _ h)))
  | jtagAuthenticate => exact execJtagAuthenticate_keeps _ h
  | cipherKatTimer => exact execCipherKatTimer_keeps _ _ _ h
  | cipherAlarm => exact execCipherAlarm_keeps _ h
  | paletteUnwrapDone => exact execPaletteUnwrapDone_keeps _ _ h
  | railSenseSample => exact execRailSenseSample_keeps _ _ h
  | cisternSample => exact .next (modPower_keeps _ h)
  | railWarnTimer => exact .next (.ite (railWarn_keeps _ (modRail_keeps _ _ h)) h)
  | railPgChange => exact .next (settle_keeps (judgeRail_keeps _ (modRail_keeps _ _ h)))
  | railTOnExpiry => exact execRailTOnExpiry_keeps _ h
  | railTOffExpiry => exact .next (.ite (modPower_keeps _ (modRail_keeps _ _ h)) h)
  | railTDisExpiry => exact execRailTDisExpiry_keeps _ h
  | windlassRisingEdge => exact execWindlassRisingEdge_keeps h
  | windlassFallingEdge => exact execWindlassFallingEdge_keeps h
  | cascadeWaitExpiry => exact .next (.ite (settle_keeps (windCheck_keeps (actStep_keeps h))) h)
  | windlassStepTimeout => exact .next (.ite h (settle_keeps (railsChanged_keeps (windFault_keeps (modPrime_keeps _ h)))))
  | windlassFaultExit => exact .next (.ite (powerOff_keeps (modPower_keeps _ h)) h)
  | stuckLineTimeout => exact .next (.ite (settle_keeps (soloStart_keeps h)) h)
  | cascadeTrainEnd | cascadeTimeout => exact .next (.ite (cascadeEnd_keeps _ h) h)
  | rollCallTrainEnd | rollCallTimeout => exact .next (.ite (rollCallEnd_keeps _ h) h)
  | pwrEnRise => exact .next (settle_keeps (onRequest_keeps (modPower_keeps _ h)))
  | pwrEnFall => exact .next (settle_keeps (offRequest_keeps (modPower_keeps _ h)))
  | pwrCtlOffreq => exact execPwrCtlOffreq_keeps h
  | pwrfailNLow | vinFail => exact .next (settle_keeps (powerFailure_keeps _ _ h))
  | offSettleTimer => exact execOffSettleTimer_keeps h
  | cisternMeasureDue => exact .next (tryMeasure_keeps h)
  | cisternPostponeTimer => exact .next (.ite (tryMeasure_keeps h) h)
  | cisternSettleTimer => exact execCisternSettleTimer_keeps _ h
  | cisternV1WindowEnd => exact execCisternV1WindowEnd_keeps _ h
  | cisternTestLoadEnd => exact execCisternTestLoadEnd_keeps _ h
  | cisternChargeTimeout => exact .next (.ite (powerLog_keeps _ (modPower_keeps _ h)) h)
  | pmbusResponse => exact execPmbusResponse_keeps _ _ h
  | pmbusTimeout => exact execPmbusTimeout_keeps _ h
  | aonPinInit => exact execAonPinInit_keeps h
  | standbyPowerGood => exact execStandbyPowerGood_keeps h
  | crystalStable r => exact execCrystalStable_keeps r h
  | primingStepComplete => exact .next (settle_keeps (stepDone_keeps _ h))
  | primingStepTimeout => exact .next (settle_keeps (stepLate_keeps _ h))
  | hsHelloTimer => exact .next (.ite (sendHandshake_keeps h) h)
  | hsDecideRetryTimer => exact .next (.ite (sendHandshake_keeps (modTwin_keeps _ h)) h)
  | hsWaitExpiry => exact execHsWaitExpiry_keeps h
  | waitpeerRenewTimer => exact .next (.ite (askWit_keeps _ h) h)
  | regionClearTimer => exact .next (.ite h (settle_keeps (regionRecord_keeps _ _ h)))
  | suspectRowSettle => exact execSuspectRowSettle_keeps _ h
  | dramRefreshTimer => exact execDramRefreshTimer_keeps _ _ h
  | dramMr4Poll => exact execDramMr4Poll_keeps _ _ _ _ _ h
  | zqCalibrationTimer => exact .next (.ite (zqRun_keeps _ _ h) h)
  | selfRefreshIdle => exact .next (.ite (send_keeps _ (modDrch_keeps _ _ h)) h)
  | activationTableClear | dramCeWindow => exact .next (modDrch_keeps _ _ h)
  | dramPatrolRead => exact .next (.ite (modDrch_keeps _ _ (selfExit_keeps _ h)) h)
  | dramReadComplete => exact execDramReadComplete_keeps _ _ h
  | flashProgramPulseDone => exact execFlashProgramPulseDone_keeps _ _ h
  | flashErasePulseDone => exact execFlashErasePulseDone_keeps _ _ h
  | flashBusFaultRead => exact execFlashBusFaultRead_keeps _ _ h
  | eccFlipWrite => exact execEccFlipWrite_keeps _ h
  | eccInjectionApply => exact .next (.ite (raiseWith_keeps _ _ _ (modTest_keeps _ h (Nat.le_refl _))) h)
  | transparentTestRegion => exact execTransparentTestRegion_keeps _ _ _ h
  | recorderSpill => exact execRecorderSpill_keeps h
  | recFreezeTimeout => exact .next (.ite (raiseWith_keeps _ _ _ (unfreeze_keeps h)) h)
  | evStatusClear => exact execEvStatusClear_keeps _ _ _ h
  | msixMaskChange => exact .next (.ite h (maskChange_keeps _ _ h))
  | reg64LowRead => exact execReg64LowRead_keeps _ h
  | registerWrite => exact execRegisterWrite_keeps _ _ _ h
  | junctionTempSample => exact execJunctionTempSample_keeps _ h
  | thermalCriticalTimer => exact .next (.ite (settle_keeps (relinquishCause_keeps (raiseWith_keeps _ _ _ h))) h)
  | thermalShutdownTimer => exact .next (.ite (settle_keeps (offRequest_keeps h)) h)
  | grantDeadTimer => exact .next (.ite (freeGrant_keeps _ h) h)
  | revocationDropTimer => exact .next (.ite (settle_keeps (revocationDrop_keeps _ h)) h)
  | probeResendTimer => exact .next (.ite (sendCtl_keeps _ _ _ (modConn_keeps _ _ h)) h)
  | xportEntryTimer => exact .next (.ite (logXport_keeps _ h) h)
  | idleOs => exact .next (.ite (settle_keeps (checkP4_keeps _ (modChan_keeps _ _ h))) h)
  | perstDeassert => exact execPerstDeassert_keeps h
  | twinPortLinkLoss => exact execTwinPortLinkLoss_keeps _ h
  | cipherAlarmDeassert => exact .next (modCipher_keeps _ h rfl)
  | primingDrawerWakeStagger => exact .next (.ite (settle_keeps (requestWake_keeps _ _ (modPrime_keeps _ h))) h)

/-- The invariant does not speak of the queue or of the clock. -/
theorem State.Inv.withQueueAndClock (i : s.Inv) (p : List Instr) (n : Nat) : ({ s with pending := p, now := n } : State).Inv :=
  ⟨i.mbx, i.engines, i.banks, i.hdm, i.reserved⟩

/-- Every step is one command on the rest of the queue, or the idle filling of the lanes; neither undoes anything. -/
theorem step_keeps (s : State) : ∃ p n, KeepsR { s with pending := p, now := n } (step s) := by
  unfold step
  split
  case h_1 c rest _ => exact ⟨rest, s.now, exec_keeps c (.refl _)⟩
  case h_2 => exact ⟨s.pending, s.now + 1, .next (fillLanes_keeps (idleFlits_keeps (.refl _)))⟩

end Commands

/-- Settles O17: the state after reset has its units, and no event is pending or counted in it. -/
theorem resetMeetsTheInvariant : Obligations.ResetMeetsTheInvariant where
  mbx := rfl
  engines := rfl
  banks := rfl
  hdm := rfl
  reserved _ _ := ⟨BitVec.getLsbD_zero, rfl⟩

/-- Settles O18: the invariant is part of what no step undoes. -/
theorem everyStepKeepsTheInvariant : Obligations.EveryStepKeepsTheInvariant := by
  intro s t inv stepped
  obtain ⟨p, n, keeps⟩ := step_keeps s
  exact (keeps t stepped).inv (inv.withQueueAndClock p n)

end Sys2Proof.Machine
end

section
/-! Media layout: positions within a row (R71), the permutation of rows (R84) and the start-gap map (R85). Each map has a left
inverse in the model, and that it is one-to-one is read off the left inverse. -/

namespace Sys2Proof.Machine

open Sys2Proof

/-! Positions of a row. -/

theorem dataPos_ne_parityPos {grow c : Nat} (hc : c < 8) : dataPos grow c ≠ parityPos grow := by
  simp only [dataPos, parityPos]
  omega

theorem posData_parityPos (grow : Nat) : posData grow (parityPos grow) = none := if_pos rfl

theorem posData_dataPos {grow c : Nat} (hc : c < 8) : posData grow (dataPos grow c) = some c := by
  refine (if_neg (dataPos_ne_parityPos hc)).trans (congrArg some ?_)
  rw [dataPos]
  omega

theorem dataPos_injective {grow c c' : Nat} (hc : c < 8) (hc' : c' < 8) (h : dataPos grow c' = dataPos grow c) : c' = c :=
  Option.some.inj (by rw [← posData_dataPos hc', h, posData_dataPos hc])

/-- Settles O10: the position names the codeword, so no two codewords share one. -/
theorem rowPositionsRotate : Obligations.RowPositionsRotate := by
  intro G c hc
  have hc := Nat.lt_succ_of_le hc
  exact ⟨rfl, rfl, dataPos_ne_parityPos hc, posData_dataPos hc, posData_parityPos G,
    fun _ hc' h => dataPos_injective hc (Nat.lt_succ_of_le hc') h⟩

/-! The start-gap map. None of its facts needs a bound on start or gap. -/

theorem startGap_le (x start gap : Nat) : startGap x start gap ≤ ringRows := by
  have hs : (x + start) % ringRows < ringRows := Nat.mod_lt _ (by decide)
  rw [startGap]
  split <;> omega

theorem startGap_ne_gap (x start gap : Nat) : startGap x start gap ≠ gap := by
  rw [startGap]
  split <;> omega

/-- Stepping over the gap is undone by stepping back over it. -/
theorem startGap_stepBack (x start gap : Nat) :
    (if startGap x start gap > gap then startGap x start gap - 1 else startGap x start gap) = (x + start) % ringRows := by
  by_cases past : (x + start) % ringRows ≥ gap
  · rw [startGap, if_pos past, if_pos (by omega), Nat.add_sub_cancel]
  · rw [startGap, if_neg past, if_neg (by omega)]

theorem startGapInv_startGap {x : Nat} (start gap : Nat) (hx : x < ringRows) :
    startGapInv (startGap x start gap) start gap = some x := by
  simp only [startGapInv, if_neg (startGap_ne_gap x start gap), startGap_stepBack]
  simp only [ringRows] at hx ⊢
  congr 1
  omega

theorem startGap_injective {x y start gap : Nat} (hx : x < ringRows) (hy : y < ringRows)
    (h : startGap y start gap = startGap x start gap) : y = x :=
  Option.some.inj (by rw [← startGapInv_startGap start gap hy, h, startGapInv_startGap start gap hx])

/-- Settles O9: the map steps over the gap, and stepping back over it finds the row again. -/
theorem startGapAvoidsTheGap : Obligations.StartGapAvoidsTheGap := by
  intro x start gap hx _ _
  exact ⟨rfl, startGap_le x start gap, startGap_ne_gap x start gap, startGapInv_startGap start gap hx,
    fun _ hy h => startGap_injective hx hy h⟩

/-! The permutation of rows: a round on the two halves, and the round undone. -/

/-- One round of R84 on the halves (l, r), as `feistel` folds it over the key. -/
def feistelRound (lr : Nat × Nat) (k : BitVec 10) : Nat × Nat := (lr.2, lr.1 ^^^ feistelF lr.2 k)

/-- The round undone, as `feistelInv` folds it over the reversed key. -/
def feistelUnround (lr : Nat × Nat) (k : BitVec 10) : Nat × Nat := (lr.2 ^^^ feistelF lr.1 k, lr.1)

/-- The row of two halves. -/
def joinHalves (lr : Nat × Nat) : Nat := lr.1 * 1024 + lr.2

/-- The two halves of a row. -/
def splitRow (x : Nat) : Nat × Nat := (x / 1024, x % 1024)

/-- Both halves have ten bits. -/
def TenBitHalves (lr : Nat × Nat) : Prop := lr.1 < 1024 ∧ lr.2 < 1024

theorem feistel_eq_foldl (x : Nat) (key : List (BitVec 10)) : feistel x key = joinHalves (key.foldl feistelRound (splitRow x)) := rfl

theorem feistelInv_eq_foldl (y : Nat) (key : List (BitVec 10)) :
    feistelInv y key = joinHalves (key.reverse.foldl feistelUnround (splitRow y)) := rfl

theorem joinHalves_splitRow (x : Nat) : joinHalves (splitRow x) = x := Nat.div_add_mod' x 1024

theorem splitRow_joinHalves {lr : Nat × Nat} (h : TenBitHalves lr) : splitRow (joinHalves lr) = lr := by
  obtain ⟨_, hr⟩ := h
  apply Prod.ext <;> simp only [splitRow, joinHalves] <;> omega

theorem splitRow_tenBit {x : Nat} (hx : x < 2 ^ 20) : TenBitHalves (splitRow x) :=
  ⟨Nat.div_lt_of_lt_mul hx, Nat.mod_lt x (by decide)⟩

theorem joinHalves_lt {lr : Nat × Nat} (h : TenBitHalves lr) : joinHalves lr < 2 ^ 20 := by
  obtain ⟨hl, hr⟩ := h
  rw [joinHalves]
  omega

/-- R84 puts the row together by a shift and an or. -/
theorem joinHalves_eq_or {lr : Nat × Nat} (h : TenBitHalves lr) : joinHalves lr = (lr.1 <<< 10) ||| lr.2 := by
  obtain ⟨_, hr⟩ := h
  rw [← Nat.shiftLeft_add_eq_or_of_lt (b := lr.2) (i := 10) hr, Nat.shiftLeft_eq, joinHalves]

/-- R84 takes the row apart by a shift and a mask. -/
theorem splitRow_eq_shift_and (x : Nat) : splitRow x = (x >>> 10, x &&& 0x3FF) :=
  Prod.ext (Nat.shiftRight_eq_div_pow x 10).symm (Nat.and_two_pow_sub_one_eq_mod x 10).symm

theorem feistelF_lt (v : Nat) (k : BitVec 10) : feistelF v k < 1024 := Nat.mod_lt _ (by decide)

theorem feistelRound_tenBit {lr : Nat × Nat} (k : BitVec 10) (h : TenBitHalves lr) : TenBitHalves (feistelRound lr k) :=
  ⟨h.2, Nat.xor_lt_two_pow (n := 10) h.1 (feistelF_lt lr.2 k)⟩

theorem feistelRounds_tenBit (key : List (BitVec 10)) {lr : Nat × Nat} (h : TenBitHalves lr) :
    TenBitHalves (key.foldl feistelRound lr) := by
  induction key generalizing lr with
  | nil => exact h
  | cons k key ih => exact ih (feistelRound_tenBit k h)

/-- The half that a round leaves alone gives f again, and its xor cancels. -/
theorem feistelUnround_feistelRound (lr : Nat × Nat) (k : BitVec 10) : feistelUnround (feistelRound lr k) k = lr := by
  simp only [feistelUnround, feistelRound, Nat.xor_xor_cancel_right]

theorem feistelUnrounds_feistelRounds (key : List (BitVec 10)) (lr : Nat × Nat) :
    key.reverse.foldl feistelUnround (key.foldl feistelRound lr) = lr := by
  induction key generalizing lr with
  | nil => rfl
  | cons k key ih =>
    rw [List.reverse_cons, List.foldl_append, List.foldl_cons (f := feistelRound), ih]
    exact feistelUnround_feistelRound lr k

theorem feistel_lt {x : Nat} (key : List (BitVec 10)) (hx : x < 2 ^ 20) : feistel x key < 2 ^ 20 :=
  joinHalves_lt (feistelRounds_tenBit key (splitRow_tenBit hx))

theorem feistelInv_feistel {x : Nat} (key : List (BitVec 10)) (hx : x < 2 ^ 20) : feistelInv (feistel x key) key = x := by
  rw [feistelInv_eq_foldl, feistel_eq_foldl, splitRow_joinHalves (feistelRounds_tenBit key (splitRow_tenBit hx)),
    feistelUnrounds_feistelRounds, joinHalves_splitRow]

theorem feistel_injective {x y : Nat} (key : List (BitVec 10)) (hx : x < 2 ^ 20) (hy : y < 2 ^ 20)
    (h : feistel x key = feistel y key) : x = y := by
  rw [← feistelInv_feistel key hx, h, feistelInv_feistel key hy]

/-- The procedure of R84: shift and mask, the rounds, shift and or. -/
theorem feistel_eq_or {x : Nat} (key : List (BitVec 10)) (hx : x < 2 ^ 20) :
    feistel x key = ((key.foldl feistelRound (x >>> 10, x &&& 0x3FF)).1 <<< 10) |||
      (key.foldl feistelRound (x >>> 10, x &&& 0x3FF)).2 := by
  rw [← splitRow_eq_shift_and]
  exact joinHalves_eq_or (feistelRounds_tenBit key (splitRow_tenBit hx))

/-- Settles O8: a round is undone by the half it leaves alone, and so are four of them. -/
theorem feistelPermutesRows : Obligations.FeistelPermutesRows := by
  intro k0 k1 k2 k3
  exact ⟨fun x hx => ⟨feistel_eq_or [k0, k1, k2, k3] hx, feistel_lt _ hx⟩, fun x y hx hy => feistel_injective _ hx hy,
    fun x hx => feistelInv_feistel _ hx⟩

end Sys2Proof.Machine
end

section
/-! The XOR of byte strings, and the sectors of a row (R106, R107): padded XOR is commutative and associative, so the XOR of a
row does not depend on the order of its sectors. -/

namespace Sys2Proof.Machine

open Sys2Proof

theorem xorBytes_comm : ∀ a b : Bytes, xorBytes a b = xorBytes b a
  | [], [] => rfl
  | [], _ :: _ => rfl
  | _ :: _, [] => rfl
  | x :: a, y :: b => congrArg₂ List.cons (BitVec.xor_comm x y) (xorBytes_comm a b)

theorem xorBytes_assoc : ∀ a b c : Bytes, xorBytes (xorBytes a b) c = xorBytes a (xorBytes b c)
  | [], _, _ => rfl
  | _ :: _, [], _ => rfl
  | _ :: _, _ :: _, [] => rfl
  | x :: a, y :: b, z :: c => congrArg₂ List.cons (BitVec.xor_assoc x y z) (xorBytes_assoc a b c)

theorem xorBytes_left_comm (a b c : Bytes) : xorBytes a (xorBytes b c) = xorBytes b (xorBytes a c) := by
  rw [← xorBytes_assoc, xorBytes_comm a b, xorBytes_assoc]

theorem xorBytes_self : ∀ a : Bytes, xorBytes a a = List.replicate a.length 0
  | [] => rfl
  | _ :: a => congrArg₂ List.cons BitVec.xor_self (xorBytes_self a)

theorem xorBytes_zeros : ∀ (n : Nat) (a : Bytes), n ≤ a.length → xorBytes (List.replicate n 0) a = a
  | 0, _, _ => rfl
  | n + 1, _ :: a, h => congrArg₂ List.cons BitVec.zero_xor (xorBytes_zeros n a (Nat.le_of_succ_le_succ h))

/-- Past the end of a string its bytes read as 0, as XOR takes them. -/
theorem xorBytes_getD : ∀ (a b : Bytes) (k : Nat), (xorBytes a b).getD k 0 = a.getD k 0 ^^^ b.getD k 0
  | [], _, _ => by simp [xorBytes]
  | _ :: _, [], _ => by simp [xorBytes]
  | _ :: _, _ :: _, 0 => rfl
  | _ :: a, _ :: b, k + 1 => xorBytes_getD a b k

theorem xorAll_eq_foldr (l : List Bytes) : xorAll l = l.foldr xorBytes (List.replicate 288 0) :=
  haveI : Std.Commutative xorBytes := ⟨xorBytes_comm⟩
  haveI : Std.Associative xorBytes := ⟨xorBytes_assoc⟩
  List.foldl_eq_foldr

@[simp] theorem xorAll_nil : xorAll [] = List.replicate 288 0 := rfl

@[simp] theorem xorAll_cons (x : Bytes) (l : List Bytes) : xorAll (x :: l) = xorBytes x (xorAll l) := by
  simp only [xorAll_eq_foldr, List.foldr_cons]

theorem xorAll_perm {l l' : List Bytes} (h : l.Perm l') : xorAll l = xorAll l' := by
  simp only [xorAll_eq_foldr]
  exact h.foldr_eq' (fun x _ y _ z => xorBytes_left_comm y x z) _

theorem xorAll_length {l : List Bytes} (h : ∀ x ∈ l, x.length = 288) : (xorAll l).length = 288 := by
  induction l with
  | nil => exact List.length_replicate
  | cons x l ih =>
    obtain ⟨hx, hl⟩ := List.forall_mem_cons.mp h
    rw [xorAll_cons, xorBytes_length, hx, ih hl]
    rfl

theorem xorAll_getD (l : List Bytes) (k : Nat) :
    (xorAll l).getD k 0 = (l.map (fun x => x.getD k 0)).foldr (· ^^^ ·) 0 := by
  induction l with
  | nil => exact List.getD_eq_getElem?_getD.trans (List.getElem?_getD_replicate_default_eq 0 288 k)
  | cons x l ih => rw [xorAll_cons, xorBytes_getD, ih, List.map_cons, List.foldr_cons]

/-- The row with its parity sector cancels: the parity is once the XOR of the data and once itself. -/
theorem xorAll_row {data : List Bytes} (h : ∀ x ∈ data, x.length = 288) :
    xorAll (data ++ [xorAll data]) = List.replicate 288 0 := by
  rw [xorAll_perm (List.perm_append_singleton _ _), xorAll_cons, xorBytes_self, xorAll_length h]

/-- R107: where sectors of full length cancel, each is the XOR of the others. -/
theorem xorAll_eraseIdx {row : List Bytes} {i : Nat} {x : Bytes} (hrow : ∀ y ∈ row, y.length = 288)
    (cancels : xorAll row = List.replicate 288 0) (hx : row[i]? = some x) : xorAll (row.eraseIdx i) = x := by
  obtain ⟨hi, rfl⟩ := List.getElem?_eq_some_iff.mp hx
  have hlen : row[i].length = 288 := hrow _ (row.getElem_mem hi)
  have hrest : (xorAll (row.eraseIdx i)).length = 288 :=
    xorAll_length fun y hy => hrow y (List.mem_of_mem_eraseIdx hy)
  have split : xorBytes row[i] (xorAll (row.eraseIdx i)) = List.replicate 288 0 := by
    rw [← xorAll_cons, xorAll_perm (List.getElem_cons_eraseIdx_perm hi), cancels]
  calc xorAll (row.eraseIdx i)
      = xorBytes (xorBytes (xorAll (row.eraseIdx i)) row[i]) row[i] :=
        (xorBytes_undone _ _ (by rw [hlen, hrest])).symm
    _ = xorBytes (List.replicate 288 0) row[i] := by rw [xorBytes_comm (xorAll _), split]
    _ = row[i] := xorBytes_zeros _ _ hlen.ge

/-- Settles O22: the parity sector makes the row cancel, and where a row cancels each sector is the XOR of the others. -/
theorem parityRebuildsAnySector : Obligations.ParityRebuildsAnySector := by
  intro data _ hdata
  have hpar := xorAll_length hdata
  refine ⟨hpar, fun k hk => ?_, ?_⟩
  · rw [← xorAll_getD, List.getD_eq_getElem _ _ (hpar.symm ▸ hk), List.getElem?_eq_getElem]
  · rintro _ i x rfl hx
    exact xorAll_eraseIdx (List.forall_mem_append.mpr ⟨hdata, List.forall_mem_singleton.mpr hpar⟩) (xorAll_row hdata) hx

end Sys2Proof.Machine
end

section
/-! The codeword code (R102, R103, R105). Multiplication in GF(2^8) distributes over XOR and is associative; so the shift register of
the encoder holds x^16 d(x) at each root of g, and a stored interleave is 0 there. -/

namespace Sys2Proof.Machine

open Sys2Proof

/-! The field. A map that respects XOR is known from the eight bytes of one bit. -/

/-- A map of bytes that respects XOR. -/
def XorLinear (f : Byte → Byte) : Prop := ∀ a b, f (a ^^^ b) = f a ^^^ f b

theorem XorLinear.zero {f : Byte → Byte} (hf : XorLinear f) : f 0 = 0 := by
  have h := hf 0 0
  rwa [BitVec.xor_self, BitVec.xor_self] at h

theorem XorLinear.comp {f g : Byte → Byte} (hf : XorLinear f) (hg : XorLinear g) : XorLinear fun a => f (g a) :=
  fun a b => (congrArg f (hg a b)).trans (hf _ _)

/-- The bytes of one bit. -/
def bitBytes : List Byte := (List.range 8).map (BitVec.twoPow 8)

/-- The bits of a byte, each as a byte of its own. -/
theorem byte_eq_xor_bits : ∀ c : Byte, (bitBytes.filter fun b => b &&& c == b).foldr (· ^^^ ·) 0 = c := by
  decide +kernel

theorem XorLinear.foldr {f : Byte → Byte} (hf : XorLinear f) (l : List Byte) :
    f (l.foldr (· ^^^ ·) 0) = (l.map f).foldr (· ^^^ ·) 0 := by
  induction l with
  | nil => exact hf.zero
  | cons b l ih => rw [List.foldr_cons, hf, ih, List.map_cons, List.foldr_cons]

theorem XorLinear.ext {f g : Byte → Byte} (hf : XorLinear f) (hg : XorLinear g) (h : ∀ b ∈ bitBytes, f b = g b) (c : Byte) :
    f c = g c := by
  rw [← byte_eq_xor_bits c, hf.foldr, hg.foldr, List.map_congr_left fun b hb => h b (List.mem_of_mem_filter hb)]

theorem xor_xor_xor_common (a b c : Byte) : (a ^^^ c) ^^^ (b ^^^ c) = a ^^^ b :=
  calc (a ^^^ c) ^^^ (b ^^^ c) = (a ^^^ b) ^^^ (c ^^^ c) := by ac_rfl
    _ = a ^^^ b := by rw [BitVec.xor_self, BitVec.xor_zero]

theorem xor_right_comm (a b c : Byte) : (a ^^^ b) ^^^ c = (a ^^^ c) ^^^ b := by ac_rfl

theorem xorLinear_gfDouble : XorLinear gfDouble := by
  intro a b
  simp only [gfDouble, BitVec.msb_xor, BitVec.shiftLeft_xor_distrib]
  cases a.msb <;> cases b.msb
  case false.false => rfl
  case false.true => exact BitVec.xor_assoc ..
  case true.false => exact xor_right_comm ..
  case true.true => exact (xor_xor_xor_common ..).symm

theorem gfMulAux_xor_left (a a' b : Byte) : ∀ (n : Nat) (s s' : Byte),
    gfMulAux (a ^^^ a') b n (s ^^^ s') = gfMulAux a b n s ^^^ gfMulAux a' b n s'
  | 0, _, _ => rfl
  | n + 1, s, s' => by
    simp only [gfMulAux, ← gfMulAux_xor_left a a' b n, xorLinear_gfDouble s s']
    cases b.getLsbD n
    · rfl
    · exact congrArg _ (by simp only [if_true]; ac_rfl)

theorem gfMulAux_xor_right (a b b' : Byte) : ∀ (n : Nat) (s s' : Byte),
    gfMulAux a (b ^^^ b') n (s ^^^ s') = gfMulAux a b n s ^^^ gfMulAux a b' n s'
  | 0, _, _ => rfl
  | n + 1, s, s' => by
    simp only [gfMulAux, ← gfMulAux_xor_right a b b' n, xorLinear_gfDouble s s', BitVec.getLsbD_xor]
    refine congrArg _ ?_
    cases b.getLsbD n <;> cases b'.getLsbD n
    case false.false => rfl
    case false.true => exact BitVec.xor_assoc ..
    case true.false => exact xor_right_comm ..
    case true.true => exact (xor_xor_xor_common ..).symm

theorem gfMul_xor_left (b a a' : Byte) : gfMul (a ^^^ a') b = gfMul a b ^^^ gfMul a' b := gfMulAux_xor_left a a' b 8 0 0

theorem gfMul_xor_right (a b b' : Byte) : gfMul a (b ^^^ b') = gfMul a b ^^^ gfMul a b' := gfMulAux_xor_right a b b' 8 0 0

theorem xorLinear_gfMul_left (b : Byte) : XorLinear (gfMul · b) := gfMul_xor_left b

theorem xorLinear_gfMul_right (a : Byte) : XorLinear (gfMul a) := gfMul_xor_right a

@[simp] theorem gfMul_one (a : Byte) : gfMul a 1 = a := by decide +revert +kernel

theorem gfMul_gfDouble_bits : ∀ a ∈ bitBytes, ∀ b ∈ bitBytes, gfMul a (gfDouble b) = gfDouble (gfMul a b) := by
  decide +kernel

/-- Both sides are linear in each factor, so they agree when they do on single bits. -/
theorem gfMul_gfDouble (a b : Byte) : gfMul a (gfDouble b) = gfDouble (gfMul a b) := by
  refine (xorLinear_gfMul_left (gfDouble b)).ext (xorLinear_gfDouble.comp (xorLinear_gfMul_left b)) (fun a ha => ?_) a
  exact ((xorLinear_gfMul_right a).comp xorLinear_gfDouble).ext (xorLinear_gfDouble.comp (xorLinear_gfMul_right a))
    (gfMul_gfDouble_bits a ha) b

theorem gfMulAux_gfMul (a b c : Byte) : ∀ (n : Nat) (s : Byte), gfMulAux (gfMul a b) c n (gfMul a s) = gfMul a (gfMulAux b c n s)
  | 0, _ => rfl
  | n + 1, s => by
    simp only [gfMulAux, ← gfMulAux_gfMul a b c n, ← gfMul_gfDouble]
    cases c.getLsbD n
    · rfl
    · exact congrArg _ (gfMul_xor_right a (gfDouble s) b).symm

theorem gfMul_assoc (a b c : Byte) : gfMul (gfMul a b) c = gfMul a (gfMul b c) := by
  have h := gfMulAux_gfMul a b c 8 0
  rwa [(xorLinear_gfMul_right a).zero] at h

/-- a x^n. -/
def timesPow (x : Byte) : Nat → Byte → Byte
  | 0, a => a
  | n + 1, a => gfMul (timesPow x n a) x

theorem xorLinear_timesPow (x : Byte) : ∀ n, XorLinear (timesPow x n)
  | 0 => fun _ _ => rfl
  | n + 1 => (xorLinear_gfMul_left x).comp (xorLinear_timesPow x n)

theorem timesPow_gfMul (x k a : Byte) : ∀ n, timesPow x n (gfMul k a) = gfMul k (timesPow x n a)
  | 0 => rfl
  | n + 1 => by rw [timesPow, timesPow_gfMul x k a n, gfMul_assoc, timesPow]

theorem timesPow_gfMul_self (x a : Byte) : ∀ n, timesPow x n (gfMul a x) = gfMul (timesPow x n a) x
  | 0 => rfl
  | n + 1 => by rw [timesPow, timesPow_gfMul_self x a n, timesPow]

/-! Polynomials from the highest power down, at a point. -/

@[simp] theorem polyEval_concat (x : Byte) (p : List Byte) (c : Byte) : polyEval x (p ++ [c]) = gfMul (polyEval x p) x ^^^ c := by
  simp only [polyEval, List.foldl_append, List.foldl_cons, List.foldl_nil]

@[simp] theorem polyEval_singleton (x c : Byte) : polyEval x [c] = c :=
  (congrArg (· ^^^ c) (xorLinear_gfMul_left x).zero).trans BitVec.zero_xor

/-- x^n p(x) + q(x), for n coefficients of q. -/
theorem polyEval_append (x : Byte) (p q : List Byte) :
    polyEval x (p ++ q) = timesPow x q.length (polyEval x p) ^^^ polyEval x q := by
  induction q using List.reverseRecOn with
  | nil => rw [List.append_nil]; exact BitVec.xor_zero.symm
  | append_singleton q c ih =>
    rw [← List.append_assoc, polyEval_concat, polyEval_concat, ih, gfMul_xor_left, List.length_append, List.length_singleton,
      timesPow, BitVec.xor_assoc]

theorem polyEval_cons (x c : Byte) (p : List Byte) : polyEval x (c :: p) = timesPow x p.length c ^^^ polyEval x p := by
  rw [← List.singleton_append, polyEval_append, polyEval_singleton]

theorem polyEval_zeros (x : Byte) : ∀ n, polyEval x (List.replicate n 0) = 0
  | 0 => rfl
  | n + 1 => by
    rw [List.replicate_succ, polyEval_cons, polyEval_zeros x n, (xorLinear_timesPow x _).zero]
    rfl

theorem polyEval_polyScale (x k : Byte) (p : List Byte) : polyEval x (polyScale k p) = gfMul k (polyEval x p) := by
  induction p with
  | nil => exact (xorLinear_gfMul_right k).zero.symm
  | cons c p ih =>
    rw [polyEval_cons, gfMul_xor_right, ← timesPow_gfMul, ← ih, polyScale, polyScale, List.map_cons, polyEval_cons, List.length_map]

theorem polyEval_xorBytes (x : Byte) : ∀ {p q : List Byte}, p.length = q.length →
    polyEval x (xorBytes p q) = polyEval x p ^^^ polyEval x q
  | [], [], _ => BitVec.xor_zero.symm
  | a :: p, b :: q, h => by
    have h : p.length = q.length := Nat.succ.inj h
    have hlen : (xorBytes p q).length = q.length := by rw [xorBytes_length, h]; exact Nat.max_self _
    rw [xorBytes, polyEval_cons, polyEval_cons, polyEval_cons, polyEval_xorBytes x h, hlen, h, xorLinear_timesPow x]
    ac_rfl

/-! The encoder. -/

/-- The coefficients of g below x^16, from x^15 down: what `rsCheck` feeds back. -/
def rsTaps : List Byte := ((rsGen 16).take 16).reverse

theorem rsTaps_length : rsTaps.length = 16 := by decide +kernel

/-- The coefficient of x^16 in g is 1. -/
theorem rsGen_reverse : (rsGen 16).reverse = 1 :: rsTaps := by decide +kernel

/-- R102: α^0 to α^15 are roots of g. -/
theorem polyEval_rsGen : ∀ j < 16, polyEval (gfAlpha j) (rsGen 16).reverse = 0 := by decide +kernel

theorem rsCheck_eq_foldl (data : List Byte) : rsCheck data = data.foldl (rsStep rsTaps) (List.replicate 16 0) := rfl

theorem rsCheck_concat (data : List Byte) (d : Byte) : rsCheck (data ++ [d]) = rsStep rsTaps (rsCheck data) d := by
  simp only [rsCheck_eq_foldl, List.foldl_append, List.foldl_cons, List.foldl_nil]

theorem polyScale_length (k : Byte) (p : List Byte) : (polyScale k p).length = p.length := List.length_map _

theorem rsStep_length {gen reg : List Byte} (d : Byte) (h : reg.length = gen.length) : (rsStep gen reg d).length = reg.length := by
  cases reg with
  | nil => rfl
  | cons r t => rw [rsStep, xorBytes_length, polyScale_length, ← h, List.length_append]; exact Nat.max_self _

theorem rsCheck_length (data : List Byte) : (rsCheck data).length = 16 := by
  induction data using List.reverseRecOn with
  | nil => exact List.length_replicate
  | append_singleton data d ih => rw [rsCheck_concat, rsStep_length d (ih.trans rsTaps_length.symm), ih]

/-- At a root of x^n + gen(x) the register of n symbols is multiplied by x and takes x^n d in. -/
theorem polyEval_rsStep {x : Byte} {gen reg : List Byte} (d : Byte) (root : polyEval x (1 :: gen) = 0) (hne : reg ≠ [])
    (hlen : reg.length = gen.length) :
    polyEval x (rsStep gen reg d) = gfMul (polyEval x reg) x ^^^ timesPow x gen.length d := by
  obtain ⟨r, t, rfl⟩ := List.exists_cons_of_ne_nil hne
  have hgen : polyEval x gen = timesPow x gen.length 1 := by
    rw [polyEval_cons] at root
    exact (BitVec.xor_eq_zero_iff.mp root).symm
  have feedback : polyEval x (polyScale (r ^^^ d) gen) = timesPow x gen.length r ^^^ timesPow x gen.length d := by
    rw [polyEval_polyScale, hgen, ← timesPow_gfMul, gfMul_one, xorLinear_timesPow x]
  have shifted : gfMul (polyEval x (r :: t)) x = timesPow x gen.length r ^^^ polyEval x (t ++ [0]) := by
    rw [polyEval_cons, gfMul_xor_left, ← hlen, List.length_cons, timesPow, polyEval_concat]
    exact congrArg _ BitVec.xor_zero.symm
  rw [rsStep, polyEval_xorBytes x (by simpa [polyScale_length] using hlen), feedback, shifted]
  ac_rfl

/-- The remainder of x^16 d(x) by g takes its value at every root of g. -/
theorem polyEval_rsCheck {x : Byte} (root : polyEval x (rsGen 16).reverse = 0) (data : List Byte) :
    polyEval x (rsCheck data) = timesPow x 16 (polyEval x data) := by
  induction data using List.reverseRecOn with
  | nil => exact (polyEval_zeros x 16).trans (xorLinear_timesPow x 16).zero.symm
  | append_singleton data d ih =>
    have hlen := rsCheck_length data
    rw [rsCheck_concat, polyEval_rsStep d (rsGen_reverse ▸ root) (List.ne_nil_of_length_eq_add_one hlen)
      (hlen.trans rsTaps_length.symm), ih, rsTaps_length, polyEval_concat, xorLinear_timesPow x, timesPow_gfMul_self]

/-- R103: data and check bytes together are a multiple of g. -/
theorem polyEval_codeword {x : Byte} (root : polyEval x (rsGen 16).reverse = 0) (data : List Byte) :
    polyEval x (data ++ rsCheck data) = 0 := by
  rw [polyEval_append, rsCheck_length, polyEval_rsCheck root]
  exact BitVec.xor_self

/-! The stored sector. -/

/-- Every second byte, n of them from byte i. -/
def symbols (n i : Nat) (l : Bytes) : List Byte := (List.range n).map fun j => l.getD (2 * j + i) 0

@[simp] theorem symbols_length (n i : Nat) (l : Bytes) : (symbols n i l).length = n := by
  rw [symbols, List.length_map, List.length_range]

@[simp] theorem symbols_zero_cons (n : Nat) (x y : Byte) (l : Bytes) : symbols (n + 1) 0 (x :: y :: l) = x :: symbols n 0 l := by
  rw [symbols, List.range_succ_eq_map, List.map_cons, List.map_map]
  rfl

@[simp] theorem symbols_one_cons (n : Nat) (x y : Byte) (l : Bytes) : symbols (n + 1) 1 (x :: y :: l) = y :: symbols n 1 l := by
  rw [symbols, List.range_succ_eq_map, List.map_cons, List.map_map]
  rfl

theorem mergeSym_length : ∀ {a b : List Byte}, a.length = b.length → (mergeSym a b).length = 2 * a.length
  | [], [], _ => rfl
  | _ :: a, _ :: b, h => by
    rw [mergeSym, List.length_cons, List.length_cons, mergeSym_length (Nat.succ.inj h), List.length_cons]
    omega

/-- Merged symbols are found again. -/
theorem symbols_mergeSym : ∀ {n : Nat} {a b : List Byte}, a.length = n → b.length = n →
    symbols n 0 (mergeSym a b) = a ∧ symbols n 1 (mergeSym a b) = b
  | 0, [], [], _, _ => ⟨rfl, rfl⟩
  | n + 1, x :: a, y :: b, ha, hb => by
    obtain ⟨even, odd⟩ := symbols_mergeSym (Nat.succ.inj ha) (Nat.succ.inj hb)
    rw [mergeSym, symbols_zero_cons, symbols_one_cons, even, odd]
    exact ⟨rfl, rfl⟩

/-- The two symbol strings of a byte string merge to it. -/
theorem mergeSym_symbols : ∀ {n : Nat} {l : Bytes}, l.length = 2 * n → mergeSym (symbols n 0 l) (symbols n 1 l) = l
  | 0, [], _ => rfl
  | n + 1, x :: y :: l, h => by
    have hl : l.length = 2 * n := by simp only [List.length_cons] at h; omega
    rw [symbols_zero_cons, symbols_one_cons, mergeSym, mergeSym_symbols hl]

/-- R103: the data symbols of an interleave, then its check symbols. -/
theorem interleave_eq_symbols {i : Nat} (hi : i < 2) (sec : Bytes) :
    interleave i sec = symbols 128 i (sec.take 256) ++ symbols 16 i (sec.drop 256) := by
  refine congrArg₂ _ (List.map_congr_left fun j hj => ?_) (List.map_congr_left fun j _ => ?_)
  · have hj := List.mem_range.mp hj
    rw [List.getD_eq_getElem?_getD, List.getD_eq_getElem?_getD, List.getElem?_take_of_lt (by omega)]
  · rw [List.getD_eq_getElem?_getD, List.getD_eq_getElem?_getD, List.getElem?_drop, Nat.add_assoc]

theorem deinterleave_interleave {sec : Bytes} (h : sec.length = 288) : deinterleave (interleave 0 sec) (interleave 1 sec) = sec := by
  rw [interleave_eq_symbols (by decide), interleave_eq_symbols (by decide), deinterleave]
  simp only [List.take_left', List.drop_left', symbols_length]
  rw [mergeSym_symbols (by rw [List.length_take, h]; rfl), mergeSym_symbols (by rw [List.length_drop, h]), List.take_append_drop]

theorem slice_append_drop {l : Bytes} {off n : Nat} (h : off + n ≤ l.length) : slice l off n ++ l.drop (off + n) = l.drop off := by
  have hlen : ((l.drop off).take n).length = n := by rw [List.length_take, List.length_drop]; omega
  simp only [slice, hlen, Nat.sub_self, List.replicate_zero, List.append_nil]
  rw [← List.drop_drop, List.take_append_drop]

/-- Four lines make the data bytes. -/
theorem zeroLines_none {data : Bytes} (h : data.length = 256) : zeroLines 0 data = data :=
  calc zeroLines 0 data
      = slice data 0 64 ++ (slice data 64 64 ++ (slice data 128 64 ++ (slice data 192 64 ++ []))) := rfl
    _ = slice data 0 64 ++ (slice data 64 64 ++ (slice data 128 64 ++ (slice data 192 64 ++ data.drop 256))) := by
        rw [List.drop_of_length_le h.le]
    _ = data := by
        rw [slice_append_drop (off := 192), slice_append_drop (off := 128), slice_append_drop (off := 64), slice_append_drop] <;>
          simp [h]

theorem addMarker_none {sec : Bytes} (h : sec.length = 288) : addMarker 0 sec = sec := by
  have hzeros : markerOffset 0 = List.replicate 32 0 := rfl
  rw [addMarker, hzeros, xorBytes_comm, xorBytes_zeros 32 _ (by rw [List.length_drop, h]), List.take_append_drop]

/-- The check bytes of both interleaves, as they are stored. -/
def checkBytes (data : Bytes) : Bytes := mergeSym (rsCheck (symbols 128 0 data)) (rsCheck (symbols 128 1 data))

theorem checkBytes_length (data : Bytes) : (checkBytes data).length = 32 := by
  rw [checkBytes, mergeSym_length, rsCheck_length]
  rw [rsCheck_length, rsCheck_length]

theorem symbols_checkBytes {i : Nat} (hi : i < 2) (data : Bytes) : symbols 16 i (checkBytes data) = rsCheck (symbols 128 i data) := by
  obtain ⟨even, odd⟩ := symbols_mergeSym (rsCheck_length (symbols 128 0 data)) (rsCheck_length (symbols 128 1 data))
  match i, hi with
  | 0, _ => exact even
  | 1, _ => exact odd

theorem encodeSector_none {data : Bytes} (h : data.length = 256) : encodeSector 0 data = data ++ checkBytes data := by
  simp only [encodeSector, zeroLines_none h]
  exact addMarker_none (by rw [List.length_append, h]; exact congrArg (256 + ·) (checkBytes_length data))

theorem encodeSector_none_length {data : Bytes} (h : data.length = 256) : (encodeSector 0 data).length = 288 := by
  rw [encodeSector_none h, List.length_append, checkBytes_length, h]

theorem interleave_encodeSector {data : Bytes} {i : Nat} (h : data.length = 256) (hi : i < 2) :
    interleave i (encodeSector 0 data) = symbols 128 i data ++ rsCheck (symbols 128 i data) := by
  rw [interleave_eq_symbols hi, encodeSector_none h, List.take_left' h, List.drop_left' h, symbols_checkBytes hi]

theorem polyEval_interleave {data : Bytes} {i j : Nat} (h : data.length = 256) (hi : i < 2) (hj : j < 16) :
    polyEval (gfAlpha j) (interleave i (encodeSector 0 data)) = 0 := by
  rw [interleave_encodeSector h hi, polyEval_codeword (polyEval_rsGen j hj)]

/-- Settles O20: the register of the encoder holds the remainder by g, so data and check bytes are 0 at its roots. -/
theorem checkBytesMakeCodewords : Obligations.CheckBytesMakeCodewords := by
  intro data h
  refine ⟨encodeSector_none_length h, ?_, fun i hi j hj => polyEval_interleave h hi hj⟩
  rw [encodeSector_none h, List.take_left' h]

/-- R105: symbols without a syndrome need no correction. -/
theorem rsDecode_codeword (t : Nat) {r : List Byte} (h : ∀ j < 16, polyEval (gfAlpha j) r = 0) : rsDecode t r = some (r, 0) := by
  have clean : (rsSyndromes r).all (· == 0) = true := by
    simpa [rsSyndromes] using h
  rw [rsDecode, if_pos clean]

theorem decodeAs_none {t : Nat} {sec : Bytes} (h : sec.length = 288)
    (codewords : ∀ i < 2, ∀ j < 16, polyEval (gfAlpha j) (interleave i sec) = 0) :
    decodeAs t 0 sec = some { sec, mask := 0, fixes := 0 } := by
  simp only [decodeAs, addMarker_none h, rsDecode_codeword t (codewords 0 (by decide)), rsDecode_codeword t (codewords 1 (by decide)),
    deinterleave_interleave h]
  rfl

/-- Settles O21: both interleaves are codewords, so the first offset that the decoder tries fits as it stands. -/
theorem cleanSectorsDecodeUnchanged : Obligations.CleanSectorsDecodeUnchanged := by
  intro data h
  rw [decodeSector, decodeAs_none (encodeSector_none_length h) fun i hi j hj => polyEval_interleave h hi hj]

end Sys2Proof.Machine
end

section
/-! The scrambler of the media link (R144). Its keystream and its register depend on the register alone, never on the bytes; so a
second pass from one register XORs the same keystream in again. -/

namespace Sys2Proof.Machine

open Sys2Proof

/-- The register's course does not depend on the byte, and what is XORed into the byte before comes out after. -/
theorem scrByte_xor (r : BitVec 31) (b m : Byte) : scrByte r (b ^^^ m) = Prod.map (· ^^^ m) id (scrByte r b) := by
  unfold scrByte
  refine List.foldl_hom (Prod.map (· ^^^ m) id) (init := (b, r)) fun acc i => ?_
  obtain ⟨a, r⟩ := acc
  cases hk : (scrBit r).1 with
  | false => simp [hk]
  | true => simp [hk, BitVec.xor_assoc, BitVec.xor_comm m]

/-- The keystream byte of a register: what it makes of a byte of zeros. -/
def scrKey (r : BitVec 31) : Byte := (scrByte r 0).1

/-- The register after one byte, whatever the byte. -/
def scrNext (r : BitVec 31) : BitVec 31 := (scrByte r 0).2

theorem scrByte_eq (r : BitVec 31) (b : Byte) : scrByte r b = (scrKey r ^^^ b, scrNext r) := by
  simpa [scrKey, scrNext, Prod.map] using scrByte_xor r 0 b

@[simp] theorem scramble_nil (r : BitVec 31) : scramble r [] = ([], r) := rfl

@[simp] theorem scramble_cons (r : BitVec 31) (b : Byte) (t : Bytes) :
    scramble r (b :: t) = ((scrKey r ^^^ b) :: (scramble (scrNext r) t).1, (scramble (scrNext r) t).2) := by
  rw [scramble, scrByte_eq]

theorem scramble_length (r : BitVec 31) (b : Bytes) : (scramble r b).1.length = b.length := by
  induction b generalizing r with
  | nil => rfl
  | cons x t ih => simp [ih]

theorem scramble_scramble (r : BitVec 31) (b : Bytes) : scramble r (scramble r b).1 = (b, (scramble r b).2) := by
  induction b generalizing r with
  | nil => rfl
  | cons x t ih => simp [ih]

/-- Settles O36: the keystream of one register, XORed in twice, cancels, and the register's course does not depend on the bytes. -/
theorem scramblerIsUndone : Obligations.ScramblerIsUndone := by
  intro r b
  rw [scramble_scramble]
  exact ⟨rfl, rfl, scramble_length r b⟩

end Sys2Proof.Machine
end

section
/-! The ciphers undone (R310, R462, R463). A block of AES-XTS is the AES of the block between two XORs of one tweak value; GCM's
text is the XOR of the data with as many bytes of a key stream. -/

namespace Sys2Proof.Machine

open Sys2Proof

/-! Blocks as numbers. -/

theorem leVal_leBytes : ∀ (n : Nat) {v : Nat}, v < 256 ^ n → leVal (leBytes n v) = v
  | 0, v, h => by
    obtain rfl : v = 0 := by simpa using h
    rfl
  | n + 1, v, h => by
    have rest : leVal (leBytes n (v / 256)) = v / 256 := leVal_leBytes n (by rw [pow_succ] at h; omega)
    simp only [leBytes, leVal, rest, BitVec.toNat_ofNat]
    omega

theorem leBytes_leVal : ∀ b : Bytes, leBytes b.length (leVal b) = b
  | [] => rfl
  | x :: b => by
    have hx := x.isLt
    have first : BitVec.ofNat 8 (leVal (x :: b)) = x := BitVec.eq_of_toNat_eq (by simp only [leVal, BitVec.toNat_ofNat]; omega)
    have rest : leVal (x :: b) / 256 = leVal b := by simp only [leVal]; omega
    rw [List.length_cons, leBytes, first, rest, leBytes_leVal b]

theorem leVal_lt : ∀ b : Bytes, leVal b < 256 ^ b.length
  | [] => Nat.one_pos
  | x :: b => by
    have hx := x.isLt
    have rest := leVal_lt b
    simp only [leVal, List.length_cons, pow_succ]
    omega

theorem ofNat_leVal_leBytes (p : BitVec 128) : BitVec.ofNat 128 (leVal (leBytes 16 p.toNat)) = p := by
  rw [leVal_leBytes 16 p.isLt, BitVec.ofNat_toNat, BitVec.setWidth_eq]

theorem leBytes_ofNat_leVal {b : Bytes} (h : b.length = 16) : leBytes 16 (BitVec.ofNat 128 (leVal b)).toNat = b := by
  have small : leVal b < 2 ^ 128 := by simpa [h] using leVal_lt b
  rw [BitVec.toNat_ofNat, Nat.mod_eq_of_lt small, ← h, leBytes_leVal]

/-! XTS. -/

theorem tweakAt_length {t : Bytes} (h : t.length = 16) : ∀ j, (tweakAt t j).length = 16
  | 0 => h
  | _ + 1 => leBytes_length 16 _

theorem xtsTweak_length (key : Bytes) (n j : Nat) : (xtsTweak key n j).length = 16 :=
  tweakAt_length (aesEncrypt_length _ _ (by rw [slice_length]; decide)) j

theorem xorBytes_length_of_eq {a b : Bytes} {n : Nat} (ha : a.length = n) (hb : b.length = n) : (xorBytes a b).length = n := by
  rw [xorBytes_length, ha, hb]
  exact Nat.max_self n

theorem xtsDecrypt_xtsEncrypt (key : Bytes) (n j : Nat) (p : BitVec 128) : xtsDecrypt key n j (xtsEncrypt key n j p) = p := by
  have tweak := xtsTweak_length key n j
  have half : 4 ≤ (slice key 0 32).length := by rw [slice_length]; decide
  unfold xtsDecrypt xtsEncrypt
  generalize xtsTweak key n j = t at tweak
  have plain := leBytes_length 16 p.toNat
  have masked := xorBytes_length_of_eq plain tweak
  have block := aesEncrypt_length (slice key 0 32) (xorBytes (leBytes 16 p.toNat) t) half
  simp only
  rw [leBytes_ofNat_leVal (xorBytes_length_of_eq block tweak), xorBytes_undone _ t (by rw [block, tweak]),
    aesDecrypt_aesEncrypt _ _ half masked, xorBytes_undone _ t (by rw [plain, tweak]), ofNat_leVal_leBytes]

/-! GCM. -/

theorem xorBytes_append : ∀ {a c : Bytes} (b d : Bytes), a.length = c.length → xorBytes (a ++ b) (c ++ d) = xorBytes a c ++ xorBytes b d
  | [], [], _, _, _ => rfl
  | _ :: _, _ :: _, b, d, h => congrArg (_ :: ·) (xorBytes_append b d (Nat.succ.inj h))

/-- XOR block by block with blocks of 16, the last cut where the data ends, is XOR with the blocks in a row. -/
theorem flatMap_xorBytes (n : Nat) (ks : Nat → Bytes) (data : Bytes) (hks : ∀ i, (ks i).length = 16) (h : data.length ≤ 16 * n) :
    ((List.range n).flatMap fun i => xorBytes ((data.drop (16 * i)).take 16) ((ks i).take (data.length - 16 * i)))
      = xorBytes data (((List.range n).flatMap ks).take data.length) := by
  induction n generalizing ks data with
  | zero =>
    obtain rfl : data = [] := List.eq_nil_of_length_eq_zero (by omega)
    rfl
  | succ n ih =>
    have rest := ih (fun i => ks (i + 1)) (data.drop 16) (fun i => hks _) (by rw [List.length_drop]; omega)
    simp only [List.drop_drop, List.length_drop] at rest
    have shift (i : Nat) : 16 * (i + 1) = 16 + 16 * i := by omega
    simp only [List.range_succ_eq_map, List.flatMap_cons, List.flatMap_map, Nat.succ_eq_add_one, shift, ← Nat.sub_sub, rest]
    rw [List.take_append, hks, Nat.mul_zero, List.drop_zero, Nat.sub_zero, ← xorBytes_append _ _ (by simp [hks, Nat.min_comm]), List.take_append_drop]

/-- `n` blocks of the key stream of a nonce. -/
def gcmStream (key : Bytes) (nonce : BitVec 96) (n : Nat) : Bytes :=
  (List.range n).flatMap fun i => aesEncrypt key (gcmCounter nonce (2 + i))

theorem gcmCrypt_eq_xorBytes {key : Bytes} (nonce : BitVec 96) (data : Bytes) (hk : 4 ≤ key.length) :
    gcmCrypt key nonce data = xorBytes data ((gcmStream key nonce (ceilDiv data.length 16)).take data.length) := by
  unfold gcmCrypt
  exact flatMap_xorBytes _ _ data (fun _ => aesEncrypt_length _ _ hk) (by rw [ceilDiv]; omega)

theorem gcmCrypt_length {key : Bytes} (nonce : BitVec 96) (data : Bytes) (hk : 4 ≤ key.length) :
    (gcmCrypt key nonce data).length = data.length := by
  rw [gcmCrypt_eq_xorBytes nonce data hk, xorBytes_length]
  exact Nat.max_eq_left (List.length_take_le _ _)

theorem gcmCrypt_gcmCrypt {key : Bytes} (nonce : BitVec 96) (data : Bytes) (hk : 4 ≤ key.length) :
    gcmCrypt key nonce (gcmCrypt key nonce data) = data := by
  rw [gcmCrypt_eq_xorBytes nonce _ hk, gcmCrypt_length nonce data hk, gcmCrypt_eq_xorBytes nonce data hk]
  exact xorBytes_undone _ _ (List.length_take_le _ _)

/-- Settles O28: XTS undoes its outer XOR, the cipher and its inner XOR in turn, and the key stream of a nonce depends on the data's
length alone, so that a second XOR with it cancels. -/
theorem ciphersAreUndone : Obligations.CiphersAreUndone := by
  refine ⟨fun key n j p _ => xtsDecrypt_xtsEncrypt key n j p, fun key nonce data hk => ?_⟩
  have words : 4 ≤ key.length := by omega
  exact ⟨gcmCrypt_length nonce data words, gcmCrypt_gcmCrypt nonce data words⟩

end Sys2Proof.Machine
end

section
/-! The sender's epoch and the nonce of a packet (R311, R312). A nonce is its fields in a row. -/

namespace Sys2Proof.Machine

open Sys2Proof

/-! The sender's epoch. -/

/-- How far the reconstructed epoch lies from the receiver's own. -/
def epochOffset (own : Epoch) (epl : BitVec 5) : Int :=
  let d := (epl.toNat + 32 - own.toNat % 32) % 32
  if d < 16 then d else (d : Int) - 32

theorem epochOffset_range (own : Epoch) (epl : BitVec 5) : -16 ≤ epochOffset own epl ∧ epochOffset own epl ≤ 15 := by
  simp only [epochOffset]
  split <;> omega

theorem rxEpoch_eq_add_offset (own : Epoch) (epl : BitVec 5) : (rxEpoch own epl).1 = own + BitVec.ofInt 32 (epochOffset own epl) := by
  simp only [rxEpoch, epochOffset]
  generalize hd : (epl.toNat + 32 - own.toNat % 32) % 32 = d
  have below : d < 32 := hd ▸ Nat.mod_lt _ (by decide)
  by_cases same : d = 0
  · simp [same]
  by_cases newer : d < 16
  · simp [same, newer]
  · simp only [if_neg same, if_neg newer, BitVec.sub_eq_add_neg]
    congr 1
    apply BitVec.eq_of_toNat_eq
    simp only [BitVec.toNat_neg, BitVec.toNat_ofNat, BitVec.toNat_ofInt]
    omega

/-- The low 5 bits of an epoch move with the offset, round the circle of 32. -/
theorem low5_add_ofInt (own : Epoch) (epl : BitVec 5) (d : Int) :
    (own + BitVec.ofInt 32 d).toNat % 32 = epl.toNat ↔ (own.toNat + d) % 32 = epl.toNat := by
  simp only [BitVec.toNat_add, BitVec.toNat_ofInt]
  omega

theorem epochOffset_low5 (own : Epoch) (epl : BitVec 5) : (own.toNat + epochOffset own epl) % 32 = epl.toNat := by
  have := epl.isLt
  simp only [epochOffset]
  split <;> omega

/-- Settles O6: two offsets of the range that give the same low bits differ by a multiple of 32, so they are one. -/
theorem senderEpochIsReconstructed : Obligations.SenderEpochIsReconstructed := by
  intro own epl
  obtain ⟨low, high⟩ := epochOffset_range own epl
  have bits := epochOffset_low5 own epl
  refine ⟨epochOffset own epl, low, high, rxEpoch_eq_add_offset own epl, ?_, fun d' low' high' bits' => ?_⟩
  · rw [rxEpoch_eq_add_offset, low5_add_ofInt]
    exact bits
  · rw [low5_add_ofInt] at bits'
    omega

/-! The nonce. -/

/-- The 64-bit packet number: D, the control bit, bits 13:0 of the epoch and the PSN. -/
def packetNumber (fromController ctl : Bool) (e : Epoch) (psn : Psn) : BitVec 64 :=
  BitVec.ofBool fromController ++ BitVec.ofBool ctl ++ e.extractLsb' 0 14 ++ psn

theorem toNat_append_eq_add {m n : Nat} (a : BitVec m) (b : BitVec n) : (a ++ b).toNat = a.toNat * 2 ^ n + b.toNat := by
  rw [BitVec.toNat_append, ← Nat.shiftLeft_add_eq_or_of_lt b.isLt, Nat.shiftLeft_eq]

theorem packetNumber_toNat (d ctl : Bool) (e : Epoch) (psn : Psn) :
    (packetNumber d ctl e psn).toNat = d.toNat * 2 ^ 63 + ctl.toNat * 2 ^ 62 + e.toNat % 16384 * 2 ^ 48 + psn.toNat := by
  simp only [packetNumber, toNat_append_eq_add, BitVec.toNat_ofBool, BitVec.extractLsb'_toNat, Nat.shiftRight_zero]
  omega

/-- R311: the salt and the packet number in a row. -/
def nonceOf (fromController : Bool) (salt : BitVec 32) (ctl : Bool) (e : Epoch) (psn : Psn) : BitVec 96 :=
  salt ++ packetNumber fromController ctl e psn

theorem txNonce_eq (salt : BitVec 32) (ctl : Bool) (e : Epoch) (psn : Psn) : txNonce salt ctl e psn = nonceOf true salt ctl e psn := by
  refine congrArg (salt ++ ·) (BitVec.eq_of_toNat_eq ?_)
  rw [BitVec.toNat_ofNat, packetNumber_toNat]
  cases ctl <;> simp <;> omega

theorem rxNonce_eq (salt : BitVec 32) (ctl : Bool) (e : Epoch) (psn : Psn) : rxNonce salt ctl e psn = nonceOf false salt ctl e psn := by
  refine congrArg (salt ++ ·) (BitVec.eq_of_toNat_eq ?_)
  rw [BitVec.toNat_ofNat, packetNumber_toNat]
  cases ctl <;> simp <;> omega

section Fields

variable (d : Bool) (salt : BitVec 32) (ctl : Bool) (e : Epoch) (psn : Psn)

theorem nonceOf_salt : (nonceOf d salt ctl e psn).extractLsb' 64 32 = salt := BitVec.extractLsb'_append_eq_left

theorem nonceOf_direction : (nonceOf d salt ctl e psn).getLsbD 63 = d := by
  simp only [nonceOf, packetNumber, BitVec.getLsbD_append]
  simp

theorem nonceOf_control : (nonceOf d salt ctl e psn).getLsbD 62 = ctl := by
  simp only [nonceOf, packetNumber, BitVec.getLsbD_append]
  simp

theorem nonceOf_epoch : (nonceOf d salt ctl e psn).extractLsb' 48 14 = e.extractLsb' 0 14 := by
  rw [nonceOf, BitVec.extractLsb'_append_eq_of_add_le (by decide), packetNumber, BitVec.extractLsb'_append_eq_of_le (by decide)]
  exact BitVec.extractLsb'_append_eq_right

theorem nonceOf_psn : (nonceOf d salt ctl e psn).extractLsb' 0 48 = psn := by
  rw [nonceOf, BitVec.extractLsb'_append_eq_of_add_le (by decide)]
  exact BitVec.extractLsb'_append_eq_right

end Fields

/-- Settles O7: a nonce is its fields in a row, so each field is read back from it, and equal nonces have equal fields. -/
theorem nonceFieldsAreDistinct : Obligations.NonceFieldsAreDistinct := by
  simp only [Obligations.NonceFieldsAreDistinct, txNonce_eq, rxNonce_eq]
  refine ⟨fun salt ctl e psn => ⟨?_, nonceOf_direction .., nonceOf_direction ..⟩, fun salt c c' e e' p p' => ⟨fun eq => ?_, fun eq => ?_⟩⟩
  · rintro n (rfl | rfl) <;> exact ⟨nonceOf_salt .., nonceOf_control .., nonceOf_epoch .., nonceOf_psn ..⟩
  · have direction := congrArg (·.getLsbD 63) eq
    simp only [nonceOf_direction] at direction
    exact Bool.noConfusion direction
  · have control := congrArg (·.getLsbD 62) eq
    have epoch := congrArg (fun n => (n.extractLsb' 48 14).toNat) eq
    have psn := congrArg (·.extractLsb' 0 48) eq
    simp only [nonceOf_control, nonceOf_epoch, nonceOf_psn, BitVec.extractLsb'_toNat, Nat.shiftRight_zero] at control epoch psn
    exact ⟨control, epoch, psn⟩

end Sys2Proof.Machine
end

section
/-! Forged packets (R313, R316). The tag is looked at once checks 1 to 5 are passed, and a tag that does not verify ends the packet's
course there; neither its kind nor its payload has a part in it. -/

namespace Sys2Proof.Machine

open Sys2Proof

/-- A host's packet passes the checks of R316 before the tag, its header's own aside: KG names generation `gen` with this key. -/
structure ReachesTag (p : Pkt) (gen : Nat) (key : ConnKey) (s : State) : Prop where
  serving : s.serving = true
  frame : s.frameOk p = true
  isOpen : (s.conn p.conn.toNat).st ≠ .closed
  host : (s.conn p.conn.toNat).wit = false
  keysKept : s.cipher.erased = false
  keyed : (s.conn p.conn.toNat).kgGen p.kg = some (gen, key)

/-- R311, R312: the nonce under which a packet's tag is verified. -/
def verifyNonce (p : Pkt) (ctl : Bool) (s : State) : BitVec 96 :=
  rxNonce (s.conn p.conn.toNat).salt ctl (rxEpoch s.twin.epoch p.epl).1 p.psn

/-- R316 check 6: the GCM job that finds the tag wrong, and the drop. -/
def dropForged (p : Pkt) (ctl : Bool) (gen : Nat) (s : State) : State :=
  dropAuth p 0 (gcmJob true p.port p.conn.toNat gen (verifyNonce p ctl s) p.plen.toNat s)

section Forged

variable {p : Pkt} {gen : Nat} {key : ConnKey} {s : State} (h : ReachesTag p gen key s)

include h

theorem authentic_eq_false {ctl : Bool} {opcode : Nat} {payload : Bytes}
    (forged : p.tag ≠ sealTag p opcode key (verifyNonce p ctl s) payload) : s.authentic p ctl opcode payload = false := by
  rw [State.authentic, h.keyed]
  exact beq_false_of_ne forged

theorem rxChecks_forged (ctl both : Bool) : rxChecks p ctl true false false both s = (dropForged p ctl gen s, false) := by
  simp [rxChecks, dropForged, verifyNonce, h.serving, h.frame, h.isOpen, h.host, h.keysKept, h.keyed]

theorem rxHost_forged {hdr : Bool} {opcode : Nat} {payload : Bytes} (op : NetOp) (body : Bool) (data : Bytes) (rlen : Nat)
    (header : hdr = true) (forged : p.tag ≠ sealTag p opcode key (verifyNonce p false s) payload) :
    rxHost p op hdr (s.authentic p false opcode payload) body data rlen s = dropForged p false gen s := by
  simp only [rxHost, header, authentic_eq_false h forged, rxChecks_forged h, Bool.not_false, if_true]

theorem rxControl_forged {n opcode : Nat} {payload : Bytes} (body : Bool) (act : State → State) (header : headerOk p true n = true)
    (unused : controlOk p = true) (forged : p.tag ≠ sealTag p opcode key (verifyNonce p true s) payload) :
    rxControl p n (s.authentic p true opcode payload) body act s = dropForged p true gen s := by
  simp only [rxControl, header, unused, Bool.and_self, authentic_eq_false h forged, rxChecks_forged h, Bool.not_false, if_true]

end Forged

/-- Settles O27: a tag other than the sealed one is not authentic, and every command of a host hands that verdict to the same checks. -/
theorem forgedPacketsAreDropped : Obligations.ForgedPacketsAreDropped := by
  intro p s gen key k nonce dropped serving frame isOpen host keysKept keyed
  have h : ReachesTag p gen key s := ⟨serving, frame, isOpen, host, keysKept, keyed⟩
  refine ⟨fun d hdr filled forged => ?write, fun d hdr filled forged => ?writeDurable, fun n r hdr single forged => ?readReq,
    fun hdr single unused forged => ?flush, fun c w hdr single forged => ?cas, fun a r hdr single forged => ?fadd,
    fun b hdr unused forged => ?ack, fun r hdr unused forged => ?probe⟩
  case write => exact congrArg _ (rxHost_forged h .write true d 0 (by simp [hdr, filled]) forged)
  case writeDurable => exact congrArg _ (rxHost_forged h .writeDurable true d 0 (by simp [hdr, filled]) forged)
  case readReq => exact congrArg _ (rxHost_forged h .readReq (r == 0) [] n.toNat (by simp [hdr, single]) forged)
  case flush => exact congrArg _ (rxHost_forged h .flush true [] 0 (by simp [hdr, single, unused]) forged)
  case cas => exact congrArg _ (rxHost_forged h .cas true (c.toList ++ w.toList) 0 (by simp [hdr, single]) forged)
  case fadd => exact congrArg _ (rxHost_forged h .fadd _ (a.toList ++ r.toList) 0 (by simp [hdr, single]) forged)
  case ack => exact congrArg _ (rxControl_forged h (b.rsv == 0) (ackBody p b) hdr unused forged)
  case probe => exact congrArg _ (rxControl_forged h true _ hdr unused forged)

end Sys2Proof.Machine
end

section
/-! The mailbox and unit-select windows (R427, R454). -/

namespace Sys2Proof.Machine

open Sys2Proof

section Unowned

variable {w : Option (Fin 4)} {v : BitVec 32} {s : State} (unowned : (s.mbx (s.winMbx w)).token = 0) (go : v.getLsbD 0 = true)

include unowned go

theorem execMbxCmdPush_unowned : execMbxCmdPush w v s = .next (noOwner (s.winMbx w) s) := by
  simp only [execMbxCmdPush, go, Bool.not_true, Bool.false_eq_true, ↓reduceIte, if_pos unowned]

theorem execMbxRspPop_unowned : execMbxRspPop w v s = .next (noOwner (s.winMbx w) s) := by
  simp only [execMbxRspPop, go, Bool.not_true, Bool.false_eq_true, ↓reduceIte, if_pos unowned]

end Unowned

/-- Settles O11: neither command looks at more of a mailbox without an owner than its TOKEN. -/
theorem pushAndPopNeedAnOwner : Obligations.PushAndPopNeedAnOwner :=
  fun _ _ _ unowned go => ⟨execMbxCmdPush_unowned unowned go, execMbxRspPop_unowned unowned go⟩

section Unit

variable {v : BitVec 32} {s : State}

theorem execUnitSelWrite_inside (inside : v.toNat % 65536 < unitCount (v.toNat / 16777216)) : execUnitSelWrite v s =
    .next (s.modCtl fun c => { c with unitType := v.toNat / 16777216, unitIdx := v.toNat % 65536 }) := by
  simp only [execUnitSelWrite, if_pos inside]

theorem execUnitSelWrite_outside (outside : ¬ v.toNat % 65536 < unitCount (v.toNat / 16777216)) : execUnitSelWrite v s =
    .next (s.modCtl fun c => { c with selErr := true }) := by
  simp only [execUnitSelWrite, if_neg outside]

end Unit

/-- R454: the unit types, each with its last INDEX. -/
def unitTable : List (Nat × Nat) :=
  [(0x01, 143), (0x02, 15), (0x03, 7), (0x04, 7), (0x05, 3), (0x06, 31), (0x07, 47), (0x08, 7), (0x09, 7), (0x0A, 99), (0x0B, 1023)]

/-- The model counts the units of a type where R454 names the last of them. -/
theorem unitCount_of_mem : ∀ e ∈ unitTable, unitCount e.1 = e.2 + 1 := by decide

theorem mem_unitTable_of_unitCount_pos {ty : Nat} : 0 < unitCount ty → ∃ e ∈ unitTable, ty = e.1 := by
  unfold unitCount
  split <;> simp [unitTable]

theorem lt_unitCount_iff (ix ty : Nat) : ix < unitCount ty ↔ ∃ e ∈ unitTable, ty = e.1 ∧ ix ≤ e.2 := by
  constructor
  · intro inside
    obtain ⟨e, mem, rfl⟩ := mem_unitTable_of_unitCount_pos (Nat.zero_lt_of_lt inside)
    rw [unitCount_of_mem e mem] at inside
    exact ⟨e, mem, rfl, Nat.le_of_lt_succ inside⟩
  · rintro ⟨e, mem, rfl, last⟩
    rw [unitCount_of_mem e mem]
    exact Nat.lt_succ_of_le last

/-- Settles O12: UNIT_SEL takes an INDEX below the count of its TYPE, and the counts are those of the table. -/
theorem unitSelectTakesTheTable : Obligations.UnitSelectTakesTheTable := by
  intro v s ix ty table
  have counted : ix < unitCount ty ↔ ∃ e ∈ table, ty = e.1 ∧ ix ≤ e.2 := lt_unitCount_iff ix ty
  rw [← counted]
  exact ⟨execUnitSelWrite_inside, execUnitSelWrite_outside⟩

end Sys2Proof.Machine
end

section
/-! The checks on a mailbox command that leaves its FIFO (R431, R432), and ABORT (R438). -/

namespace Sys2Proof.Machine

open Sys2Proof

/-! Verdicts of a command's own checks. -/

@[simp] theorem firstFail_nil : firstFail [] = none := rfl

@[simp] theorem firstFail_none_cons (t : List Verdict) : firstFail (none :: t) = firstFail t := rfl

@[simp] theorem firstFail_some_cons (r : Nat × Bytes) (t : List Verdict) : firstFail (some r :: t) = some r := rfl

@[simp] theorem exists_true : exists_ true = none := rfl

@[simp] theorem exists_false : exists_ false = some (stNotFound, []) := rfl

@[simp] theorem refuse_need_true (reason unit : Nat) : refuse (need true reason unit) = none := rfl

@[simp] theorem refuse_need_false (reason unit : Nat) : refuse (need false reason unit) = some (stRefused, blkRefused reason unit) := rfl

theorem blobEvent_notFound (block : Bytes) (s : State) : blobEvent (stNotFound, block) s = s :=
  if_neg (by simp [stNotFound, stRefused])

/-- R472: a refusal for a reason that names no blob raises nothing. -/
theorem blobEvent_blkRefused {reason : Nat} (fits : reason < 65536) (other : blobReason reason = false) (unit : Nat) (s : State) :
    blobEvent (stRefused, blkRefused reason unit) s = s := by
  have read : leVal ((blkRefused reason unit).take 2) = reason := leVal_leBytes 2 fits
  simp [blobEvent, read, other]

section Order

variable {h : CmdHdr} {code unit : Nat} {kind : CmdKind} {check : State → Verdict} {run : Nat → State → State} {s : State}

/-- R432 from the priming check on, in the words in which the statements speak of a command that is fetched. -/
theorem runCommand_fetched : runCommand h.mbx.val code h.tag kind unit check run (fetched h code s) =
    let u := opened h code kind unit s
    let id := cmdId h code s
    if decide (h.mbx.val = 4) && !u.atRun && !([0x00, 0x08, 0x09].contains (code / 256)) then finish id stBusy (blkBusy 100000) u
    else if u.roleBars code then finish id stRole u.blkRole u
    else (check u).elim
      (if kind ≠ .immediate ∧ 8 ≤ (fetched h code s).longOn h.mbx.val then finish id stBusy (blkBusy 1000) u else run id u)
      (fun v => finish id v.1 v.2 (blobEvent v u)) := by
  have numbered : openCmd h.mbx.val code h.tag kind unit (fetched h code s) = (cmdId h code s, opened h code kind unit s) := rfl
  simp only [runCommand, numbered, Bool.and_eq_true, decide_eq_true_eq, bne_iff_ne, and_assoc]
  cases check (opened h code kind unit s) <;> rfl

/-- R432: a command that leaves its FIFO meets the checks on life cycle, mailbox and tag, and then those of `runCommand`. -/
theorem takeCommand_leavesFifo (leaves : leavesFifo h code s = true) : takeCommand h code kind unit check run s = .next (
    let early := fun (st : Nat) (b : Bytes) => respond h.mbx.val
      { code, tag := h.tag, status := st, rflags := 2 * bit (kind == .long), block := b } (fetched h code s)
    if !groupLc code (fetched h code s).test.lc then early stLifecycle []
    else if !groupMbx code h.mbx.val then early stRefused (blkRefused 0x0002 devUnit)
    else if (fetched h code s).ctl.running.any (fun r => r.mbx == h.mbx.val && r.tag == h.tag) then
      early stRefused (blkRefused 0x0001 devUnit)
    else settle (runCommand h.mbx.val code h.tag kind unit check run (fetched h code s))) := by
  simp only [leavesFifo, Bool.and_eq_true, decide_eq_true_eq, Bool.not_eq_true'] at leaves
  obtain ⟨⟨served, room⟩, idle⟩ := leaves
  exact congrArg Host.Outcome.next (if_neg (by simp [served, idle, room]))

end Order

/-- Settles O16: the command meets the checks one after the other, each only where those before it let it pass. -/
theorem mailboxChecksComeInOrder : Obligations.MailboxChecksComeInOrder := by
  intro h code kind unit check run s leaves
  dsimp only
  rw [takeCommand_leavesFifo leaves, runCommand_fetched]
  refine ⟨fun lc => ?lifeCycle, fun lc mbx => ?mailbox, fun lc mbx held => ?tag, fun lc mbx free soon => ?priming,
    fun lc mbx free late barred => ?role, fun lc mbx free late allowed => ⟨fun v failed => ?own, fun passed lasting full => ?limit,
      fun passed room => ?run⟩⟩
  case lifeCycle => simp only [lc, Bool.not_false, ↓reduceIte]
  case mailbox => simp only [lc, mbx, Bool.not_true, Bool.not_false, Bool.false_eq_true, ↓reduceIte]
  case tag => simp only [lc, mbx, held, Bool.not_true, Bool.false_eq_true, ↓reduceIte]
  case priming => simp only [lc, mbx, free, soon, Bool.not_true, Bool.false_eq_true, ↓reduceIte]
  case role => simp only [lc, mbx, free, late, barred, Bool.not_true, Bool.false_eq_true, ↓reduceIte]
  case own => simp only [lc, mbx, free, late, allowed, failed, Bool.not_true, Bool.false_eq_true, ↓reduceIte, Option.elim_some]
  case limit =>
    simp only [lc, mbx, free, late, allowed, passed, Bool.not_true, Bool.false_eq_true, ↓reduceIte, Option.elim_none,
      if_pos (And.intro lasting full)]
  case run =>
    have below : ¬(kind ≠ .immediate ∧ 8 ≤ (fetched h code s).longOn h.mbx.val) := fun ⟨lasting, full⟩ =>
      room.elim lasting (Nat.not_lt.mpr full)
    simp only [lc, mbx, free, late, allowed, passed, Bool.not_true, Bool.false_eq_true, ↓reduceIte, Option.elim_none, if_neg below]

/-! ABORT. -/

/-- R438: the command of number `id` is marked for abort. -/
def markAbort (id : Nat) (s : State) : State :=
  s.modCtl (fun c => { c with running := c.running.map (fun q => if q.id = id then { q with marked := true } else q) })

/-- A mark that stands is set again without effect. -/
theorem markAbort_of_marked {id : Nat} {s : State} (marked : ∀ q ∈ s.ctl.running, q.id = id → q.marked = true) : markAbort id s = s := by
  have same : s.ctl.running.map (fun q => if q.id = id then { q with marked := true } else q) = s.ctl.running := by
    refine (List.map_congr_left fun q mem => ?_).trans (List.map_id _)
    by_cases named : q.id = id
    · rw [if_pos named, ← marked q mem named]
      rfl
    · exact if_neg named
  simp only [markAbort, State.modCtl, same]

/-- ABORT, taken and admitted, is answered by what its TAG names. -/
theorem exec_abort {h : CmdHdr} {tag : BitVec 16} {s : State} (taken : takes h 0x0003 .immediate devUnit s = true) :
    exec (.abort h tag) s = .next (settle (
      let u := opened h 0x0003 .immediate devUnit s
      let id := cmdId h 0x0003 s
      (u.abortTarget h.mbx.val tag).elim (finish id stNotFound [] u) (fun r =>
        if r.kind = .long then
          if r.marked then finish id stOk [] (markAbort r.id u)
          else abortNow { r with marked := true } (finish id stOk [] (markAbort r.id u))
        else finish id stRefused (blkRefused 0x0003 devUnit) u))) := by
  refine (takeCommand_takes _ _ taken).trans ?_
  dsimp only
  cases (opened h 0x0003 .immediate devUnit s).abortTarget h.mbx.val tag with
  | none => simp [blobEvent_notFound]
  | some r =>
    by_cases long : r.kind = .long
    · simp [long, markAbort]
    · have short : (r.kind == .long) = false := by simp [long]
      simp [long, short, blobEvent_blkRefused, blobReason]

/-- Settles O13: the four outcomes are those of `exec_abort`, and marking a marked command changes nothing. -/
theorem abortMarksOnceAtMost : Obligations.AbortMarksOnceAtMost := by
  intro h tag s taken
  dsimp only
  rw [exec_abort taken]
  refine ⟨fun none => ?notFound, fun r found short => ?refused, fun r found long fresh => ?first, fun r found long marked again => ?second⟩
  case notFound => simp only [none, Option.elim_none]
  case refused => simp only [found, Option.elim_some, if_neg short]
  case first =>
    simp only [found, Option.elim_some, if_pos long, fresh, Bool.false_eq_true, ↓reduceIte]
    rfl
  case second => simp only [found, Option.elim_some, if_pos long, marked, ↓reduceIte, markAbort_of_marked again]

end Sys2Proof.Machine
end

section
/-! The DRAM map (R552, R553): where a pool address lies, and that different 256-byte units lie apart. -/

namespace Sys2Proof.Machine

open Sys2Proof

/-- R553's procedure as an equivalence: the place of an address, digit by digit. -/
theorem dramMap_eq_some_iff (chans : List Nat) (a : Nat) (p : DramAddr) :
    dramMap chans a = some p ↔
      chans[a / 256 % chans.length]? = some p.ch ∧ p.slot = a / 256 / chans.length % 7 ∧ p.bank = a / 256 / chans.length / 7 % 8 ∧
      p.rank = a / 256 / chans.length / 7 / 8 % 2 ∧ p.row = a / 256 / chans.length / 7 / 16 ∧ p.row < 131072 := by
  obtain ⟨ch, rank, bank, row, slot⟩ := p
  rw [dramMap]
  cases chans[a / 256 % chans.length]? with
  | none => simp
  | some c =>
    by_cases inDie : a / 256 / chans.length / 7 / 16 < 131072
    · simp only [if_pos inDie, Option.some.injEq, DramAddr.mk.injEq]
      constructor
      · rintro ⟨rfl, rfl, rfl, rfl, rfl⟩
        exact ⟨rfl, rfl, rfl, rfl, rfl, inDie⟩
      · rintro ⟨rfl, rfl, rfl, rfl, rfl, -⟩
        exact ⟨rfl, rfl, rfl, rfl, rfl⟩
    · simp only [if_neg inDie, reduceCtorEq, false_iff]
      rintro ⟨-, -, -, -, rfl, inside⟩
      exact inDie inside

/-- R552: an address has no place exactly when its row lies past the die. -/
theorem dramMap_eq_none_iff {chans : List Nat} (usable : chans ≠ []) (a : Nat) :
    dramMap chans a = none ↔ 131072 ≤ a / 256 / chans.length / 7 / 16 := by
  have found : a / 256 % chans.length < chans.length := Nat.mod_lt _ (List.length_pos_iff.mpr usable)
  simp [dramMap, List.getElem?_eq_getElem found]

/-- Slot, bank, rank and row are the digits of a unit's number within its channel. -/
theorem unitInChannel_eq_of_digits {v w : Nat} (slot : v % 7 = w % 7) (bank : v / 7 % 8 = w / 7 % 8)
    (rank : v / 7 / 8 % 2 = w / 7 / 8 % 2) (row : v / 7 / 16 = w / 7 / 16) : v = w := by
  omega

/-- Two addresses at one place lie in one 256-byte unit. -/
theorem dramMap_injective_on_units {chans : List Nat} (distinct : chans.Nodup) (usable : chans ≠ []) {a b : Nat} {p : DramAddr}
    (atA : dramMap chans a = some p) (atB : dramMap chans b = some p) : a / 256 = b / 256 := by
  obtain ⟨chA, slotA, bankA, rankA, rowA, -⟩ := (dramMap_eq_some_iff chans a p).mp atA
  obtain ⟨chB, slotB, bankB, rankB, rowB, -⟩ := (dramMap_eq_some_iff chans b p).mp atB
  have found : a / 256 % chans.length < chans.length := Nat.mod_lt _ (List.length_pos_iff.mpr usable)
  have sameChannel : a / 256 % chans.length = b / 256 % chans.length :=
    (List.getElem?_inj found distinct).mp (chA.trans chB.symm)
  have sameUnit : a / 256 / chans.length = b / 256 / chans.length :=
    unitInChannel_eq_of_digits (slotA.symm.trans slotB) (bankA.symm.trans bankB) (rankA.symm.trans rankB) (rowA.symm.trans rowB)
  rw [← Nat.div_add_mod (a / 256) chans.length, ← Nat.div_add_mod (b / 256) chans.length, sameUnit, sameChannel]

/-- Settles O23: the ranges are those of R553's remainders, and the digits of a place give its unit back. -/
theorem dramMapPlacesUnitsApart : Obligations.DramMapPlacesUnitsApart := by
  intro chans a usable
  refine ⟨fun p placed => ?ranges, dramMap_eq_none_iff usable a, fun distinct b p => dramMap_injective_on_units distinct usable⟩
  obtain ⟨ch, slot, bank, rank, row, inDie⟩ := (dramMap_eq_some_iff chans a p).mp placed
  exact ⟨List.mem_of_getElem? ch, by omega, by omega, inDie, by omega, ch, slot, bank, rank, row⟩

end Sys2Proof.Machine
end

section
/-! The (72,64) code of a DRAM word (R555, R557), for every choice of its columns (log entry 138). -/

namespace Sys2Proof.Machine

open Sys2Proof

/-! Weights of bytes. -/

/-- Of an exclusive or, the number of places where it holds has the parity of the two numbers together. -/
theorem countP_xor_mod_two {α : Type} (p q : α → Bool) (l : List α) :
    l.countP (fun x => p x ^^ q x) % 2 = (l.countP p + l.countP q) % 2 := by
  induction l with
  | nil => rfl
  | cons x l ih =>
    simp only [List.countP_cons]
    cases p x <;> cases q x <;> simp <;> omega

theorem weight8_eq_countP (b : BitVec 8) : weight8 b = (List.range 8).countP b.getLsbD :=
  List.countP_eq_length_filter.symm

/-- The parity of the weight is additive: two columns of odd weight add to even weight. -/
theorem weight8_xor_mod_two (a b : BitVec 8) : weight8 (a ^^^ b) % 2 = (weight8 a + weight8 b) % 2 := by
  have bits : (a ^^^ b).getLsbD = fun i => a.getLsbD i ^^ b.getLsbD i := funext fun _ => BitVec.getLsbD_xor
  simp only [weight8_eq_countP, bits, countP_xor_mod_two]

/-- A check bit stands for the column of weight 1 with its one. -/
theorem weight8_one_shiftLeft {k : Nat} (inByte : k < 8) : weight8 (1#8 <<< k) = 1 := by
  revert k
  decide

theorem one_shiftLeft_injective {k l : Nat} (kByte : k < 8) (lByte : l < 8) (same : 1#8 <<< k = 1#8 <<< l) : k = l := by
  have table : ∀ k < 8, ∀ l < 8, 1#8 <<< k = 1#8 <<< l → k = l := by decide
  exact table k kByte l lByte same

theorem weight8_of_mem_ofWeight {w : Nat} {b : BitVec 8} (mem : b ∈ ofWeight w) : weight8 b = w :=
  beq_iff_eq.mp (List.mem_filter.mp mem).2

theorem ofWeight_nodup (w : Nat) : (ofWeight w).Nodup := by
  refine List.Nodup.filter _ (List.nodup_range.map_on fun x hx y hy same => ?_)
  have values : x % 2 ^ 8 = y % 2 ^ 8 := congrArg BitVec.toNat same
  exact (Nat.mod_eq_of_lt (List.mem_range.mp hx)).symm.trans (values.trans (Nat.mod_eq_of_lt (List.mem_range.mp hy)))

/-! Drawing members of a list. -/

/-- What is drawn is a part of the list, no member more often than there. -/
theorem draw_subperm (pick : Nat → Nat) (n : Nat) (l : List (BitVec 8)) : (draw pick n l).Subperm l := by
  induction n generalizing l with
  | zero => exact List.nil_subperm
  | succ n ih =>
    rw [draw]
    split
    next b found =>
      exact ((List.subperm_cons b).mpr (ih (l.erase b))).trans (List.perm_cons_erase (List.mem_of_getElem? found)).symm.subperm
    next => exact List.nil_subperm

/-- As many are drawn as asked for, where there are as many. -/
theorem length_draw (pick : Nat → Nat) {n : Nat} {l : List (BitVec 8)} (enough : n ≤ l.length) : (draw pick n l).length = n := by
  induction n generalizing l with
  | zero => rfl
  | succ n ih =>
    have inside : pick n % l.length < l.length := Nat.mod_lt _ (Nat.lt_of_lt_of_le n.succ_pos enough)
    have left : (l.erase l[pick n % l.length]).length = l.length - 1 := List.length_erase_of_mem (List.getElem_mem inside)
    simp only [draw, List.getElem?_eq_getElem inside, List.length_cons]
    rw [ih (by omega)]

/-- Of a list without repetition, no member is drawn twice. -/
theorem draw_nodup (pick : Nat → Nat) (n : Nat) {l : List (BitVec 8)} (distinct : l.Nodup) : (draw pick n l).Nodup := by
  obtain ⟨part, perm, sub⟩ := draw_subperm pick n l
  exact perm.nodup_iff.mp (distinct.sublist sub)

/-! The columns of the matrix: 64 different bytes of weight 3 or 5. -/

theorem length_hsiaoColumns : hsiaoColumns.length = 64 := by
  have three : (ofWeight 3).length = 56 := by decide +kernel
  have five : (ofWeight 5).length = 56 := by decide +kernel
  refine length_draw _ ?_
  rw [List.length_append, three, length_draw _ (by omega)]

theorem weight8_of_mem_hsiaoColumns {b : BitVec 8} (mem : b ∈ hsiaoColumns) : weight8 b = 3 ∨ weight8 b = 5 :=
  (List.mem_append.mp ((draw_subperm _ _ _).subset mem)).imp weight8_of_mem_ofWeight
    fun drawn => weight8_of_mem_ofWeight ((draw_subperm _ _ _).subset drawn)

theorem hsiaoColumns_nodup : hsiaoColumns.Nodup := by
  refine draw_nodup _ _ (List.Nodup.append (ofWeight_nodup 3) (draw_nodup _ _ (ofWeight_nodup 5)) fun b three five => ?_)
  have weight3 := weight8_of_mem_ofWeight three
  have weight5 := weight8_of_mem_ofWeight ((draw_subperm _ _ _).subset five)
  omega

/-! The check bits are linear, and one data bit gives its column. -/

theorem columnSum_xor (d e : BitVec 64) (l : List (BitVec 8)) (i : Nat) :
    columnSum (d ^^^ e) l i = columnSum d l i ^^^ columnSum e l i := by
  induction l generalizing i with
  | nil => exact (BitVec.xor_self (x := 0#8)).symm
  | cons c l ih =>
    have column : (if d.getLsbD i ^^ e.getLsbD i then c else 0) = (if d.getLsbD i then c else 0) ^^^ (if e.getLsbD i then c else 0) := by
      cases d.getLsbD i <;> cases e.getLsbD i <;> simp
    simp only [columnSum, ih, BitVec.getLsbD_xor, column]
    ac_rfl

theorem getLsbD_one_shiftLeft {i : Nat} (inWord : i < 64) (j : Nat) : (1#64 <<< i).getLsbD j = decide (i = j) := by
  rw [← BitVec.twoPow_eq, BitVec.getLsbD_twoPow, decide_eq_true inWord, Bool.true_and]

/-- The columns above the one set bit add nothing. -/
theorem columnSum_one_shiftLeft_above {i : Nat} (inWord : i < 64) (l : List (BitVec 8)) {j : Nat} (above : i < j) :
    columnSum (1#64 <<< i) l j = 0 := by
  induction l generalizing j with
  | nil => rfl
  | cons c l ih =>
    simp [columnSum, getLsbD_one_shiftLeft inWord, above.ne, ih (Nat.lt_succ_of_lt above)]

/-- From column `j` on, the sum of one bit is the column that stands at its place. -/
theorem columnSum_one_shiftLeft {l : List (BitVec 8)} {j n : Nat} (inWord : j + n < 64) (found : n < l.length) :
    columnSum (1#64 <<< (j + n)) l j = l[n] := by
  induction l generalizing j n with
  | nil => exact absurd found (Nat.not_lt_zero n)
  | cons c l ih =>
    cases n with
    | zero =>
      rw [Nat.add_zero] at inWord ⊢
      simp [columnSum, getLsbD_one_shiftLeft inWord, columnSum_one_shiftLeft_above inWord l (Nat.lt_succ_self j)]
    | succ n =>
      have place : j + (n + 1) = j + 1 + n := by omega
      rw [place] at inWord ⊢
      have later : j + 1 + n ≠ j := by omega
      simp [columnSum, getLsbD_one_shiftLeft inWord, later, ih inWord (Nat.lt_of_succ_lt_succ found)]

theorem hsiaoCheck_xor (d e : BitVec 64) : hsiaoCheck (d ^^^ e) = hsiaoCheck d ^^^ hsiaoCheck e := columnSum_xor d e hsiaoColumns 0

theorem hsiaoCheck_zero : hsiaoCheck 0#64 = 0#8 := by
  rw [← BitVec.xor_self (x := 0#64), hsiaoCheck_xor, BitVec.xor_self]

/-- The check bits of one data bit: the column of the matrix at its place. -/
theorem exists_column_of_dataBit {i : Nat} (inWord : i < 64) :
    ∃ found : i < hsiaoColumns.length, hsiaoCheck (1#64 <<< i) = hsiaoColumns[i] := by
  have found : i < hsiaoColumns.length := length_hsiaoColumns ▸ inWord
  refine ⟨found, ?_⟩
  have column := columnSum_one_shiftLeft ((Nat.zero_add i).symm ▸ inWord) found
  rwa [Nat.zero_add] at column

theorem hsiaoCheck_dataBit_mem {i : Nat} (inWord : i < 64) : hsiaoCheck (1#64 <<< i) ∈ hsiaoColumns := by
  obtain ⟨found, column⟩ := exists_column_of_dataBit inWord
  exact column ▸ List.getElem_mem found

theorem idxOf_hsiaoCheck_dataBit {i : Nat} (inWord : i < 64) : hsiaoColumns.idxOf (hsiaoCheck (1#64 <<< i)) = i := by
  obtain ⟨found, column⟩ := exists_column_of_dataBit inWord
  rw [column, hsiaoColumns_nodup.idxOf_getElem i found]

theorem hsiaoCheck_dataBit_injective {i j : Nat} (iWord : i < 64) (jWord : j < 64)
    (same : hsiaoCheck (1#64 <<< i) = hsiaoCheck (1#64 <<< j)) : i = j := by
  rw [← idxOf_hsiaoCheck_dataBit iWord, same, idxOf_hsiaoCheck_dataBit jWord]

theorem weight8_hsiaoCheck_dataBit {i : Nat} (inWord : i < 64) : weight8 (hsiaoCheck (1#64 <<< i)) = 3 ∨ weight8 (hsiaoCheck (1#64 <<< i)) = 5 :=
  weight8_of_mem_hsiaoColumns (hsiaoCheck_dataBit_mem inWord)

/-! The syndrome decides what the check of a word finds. -/

/-- The sum that `checkWord` judges a word and its check byte by. -/
def syndrome (d : BitVec 64) (c : BitVec 8) : BitVec 8 := hsiaoCheck d ^^^ ~~~c

/-- The flips of a stored word alone make its syndrome, whatever the word. -/
theorem syndrome_flips (d e : BitVec 64) (f : BitVec 8) : syndrome (d ^^^ e) (storedCheck d ^^^ f) = hsiaoCheck e ^^^ f := by
  have complement : ~~~(storedCheck d ^^^ f) = hsiaoCheck d ^^^ f := by rw [BitVec.not_xor_left, storedCheck, BitVec.not_not]
  calc hsiaoCheck (d ^^^ e) ^^^ ~~~(storedCheck d ^^^ f)
      = (hsiaoCheck d ^^^ hsiaoCheck d) ^^^ (hsiaoCheck e ^^^ f) := by rw [hsiaoCheck_xor, complement]; ac_rfl
    _ = hsiaoCheck e ^^^ f := by rw [BitVec.xor_self, BitVec.zero_xor]

theorem syndrome_dataFlips (d e : BitVec 64) : syndrome (d ^^^ e) (storedCheck d) = hsiaoCheck e := by
  simpa using syndrome_flips d e 0

theorem syndrome_checkFlips (d : BitVec 64) (f : BitVec 8) : syndrome d (storedCheck d ^^^ f) = f := by
  simpa [hsiaoCheck_zero] using syndrome_flips d 0 f

section Verdicts

variable {d : BitVec 64} {c : BitVec 8}

theorem checkWord_of_zero (zero : syndrome d c = 0) : checkWord d c = .clean := if_pos zero

theorem checkWord_of_even (flipped : syndrome d c ≠ 0) (even : weight8 (syndrome d c) % 2 = 0) : checkWord d c = .uncorrectable :=
  (if_neg flipped).trans (if_pos even)

/-- A syndrome of weight 1 is that of a check bit: the data stands. -/
theorem checkWord_of_weight_one (one : weight8 (syndrome d c) = 1) : checkWord d c = .corrected d := by
  have flipped : syndrome d c ≠ 0 := fun zero => by rw [zero] at one; exact absurd one (by decide)
  have odd : ¬weight8 (syndrome d c) % 2 = 0 := by omega
  exact (if_neg flipped).trans ((if_neg odd).trans (if_pos one))

/-- A syndrome that is a column is that of the data bit at its place. -/
theorem checkWord_of_column (column : syndrome d c ∈ hsiaoColumns) :
    checkWord d c = .corrected (d ^^^ (1#64 <<< hsiaoColumns.idxOf (syndrome d c))) := by
  have weight := weight8_of_mem_hsiaoColumns column
  have flipped : syndrome d c ≠ 0 := fun zero => by rw [zero] at weight; exact absurd weight (by decide)
  have odd : ¬weight8 (syndrome d c) % 2 = 0 := by omega
  have notOne : ¬weight8 (syndrome d c) = 1 := by omega
  exact (if_neg flipped).trans ((if_neg odd).trans ((if_neg notOne).trans (if_pos (List.contains_iff_mem.mpr column))))

/-- Two flipped bits: two different vectors of odd weight add to one of even weight that is not zero. -/
theorem checkWord_of_two_odd {a b : BitVec 8} (sum : syndrome d c = a ^^^ b) (apart : a ≠ b) (oddA : weight8 a % 2 = 1)
    (oddB : weight8 b % 2 = 1) : checkWord d c = .uncorrectable := by
  refine checkWord_of_even (sum ▸ mt BitVec.xor_eq_zero_iff.mp apart) ?_
  rw [sum, weight8_xor_mod_two]
  omega

end Verdicts

/-- Settles O37: a flip's syndrome is its column, every column has odd weight, and no two of the 72 are the same. -/
theorem dramCodeCorrectsOneBit : Obligations.DramCodeCorrectsOneBit := by
  refine ⟨fun d => ?clean, fun d i iWord => ?dataBit, fun d k kByte => ?checkBit, fun d i j iWord jWord apart => ?twoData,
    fun d i k iWord kByte => ?dataAndCheck, fun d k l kByte lByte apart => ?twoCheck, ?allZeros⟩
  case clean => exact checkWord_of_zero (by simpa [hsiaoCheck_zero] using syndrome_dataFlips d 0)
  case dataBit =>
    have syn := syndrome_dataFlips d (1#64 <<< i)
    rw [checkWord_of_column (syn ▸ hsiaoCheck_dataBit_mem iWord), syn, idxOf_hsiaoCheck_dataBit iWord, BitVec.xor_assoc,
      BitVec.xor_self, BitVec.xor_zero]
  case checkBit => exact checkWord_of_weight_one (by rw [syndrome_checkFlips, weight8_one_shiftLeft kByte])
  case twoData =>
    have weightI := weight8_hsiaoCheck_dataBit iWord
    have weightJ := weight8_hsiaoCheck_dataBit jWord
    rw [BitVec.xor_assoc]
    exact checkWord_of_two_odd ((syndrome_dataFlips d _).trans (hsiaoCheck_xor _ _))
      (fun same => apart (hsiaoCheck_dataBit_injective iWord jWord same)) (by omega) (by omega)
  case dataAndCheck =>
    have weightI := weight8_hsiaoCheck_dataBit iWord
    have weightK := weight8_one_shiftLeft kByte
    exact checkWord_of_two_odd (syndrome_flips d _ _) (fun same => by rw [same] at weightI; omega) (by omega) (by omega)
  case twoCheck =>
    have weightK := weight8_one_shiftLeft kByte
    have weightL := weight8_one_shiftLeft lByte
    rw [BitVec.xor_assoc]
    exact checkWord_of_two_odd (syndrome_checkFlips d _) (fun same => apart (one_shiftLeft_injective kByte lByte same))
      (by omega) (by omega)
  case allZeros =>
    have syn : syndrome 0 0 = 0xFF := congrArg (· ^^^ ~~~0#8) hsiaoCheck_zero
    exact checkWord_of_even (by rw [syn]; decide) (by rw [syn]; decide)

end Sys2Proof.Machine
end

section
/-! What no command undoes (R624, log entry 2). -/

namespace Sys2Proof.Machine

/-- Settles O19: each command keeps the state it begins in, the invariant apart. -/
theorem noCommandUndoesWhatIsDone : Obligations.NoCommandUndoesWhatIsDone := by
  intro c s t done
  obtain ⟨pending, now, draws, out, lcFuses, _⟩ := exec_keeps c (Keeps.refl s) t done
  exact ⟨pending, now, draws, out, lcFuses⟩

end Sys2Proof.Machine
end

section
/-! Writes of ECC_FLIP (R612). -/

namespace Sys2Proof.Machine

/-- R612: the life-cycle states and words that the controller ignores. -/
def eccFlipIgnored (v : BitVec 32) (s : State) : Prop :=
  s.test.lc = .endOfLife ∨ (s.test.lc = .deployed ∧ v.getLsbD 19 = true)

section Write

variable {v : BitVec 32} {s : State}

theorem execEccFlipWrite_ignored (ignored : eccFlipIgnored v s) : execEccFlipWrite v s = .next s :=
  congrArg _ (if_pos ignored)

theorem execEccFlipWrite_armed (heeded : ¬ eccFlipIgnored v s) : execEccFlipWrite v s = .next { s with test := { s.test with
    flipClass := v.toNat % 8, flipBit0 := v.toNat / 16 % 128, flipBit1 := v.toNat / 4096 % 128
    flipTwo := v.getLsbD 19, flipArm := v.getLsbD 20 } } :=
  congrArg _ (if_neg heeded)

end Write

/-- Settles O15: END and DEPLOYED with TWO are the two ways to be ignored, and every other write arms. -/
theorem eccFlipIsGuarded : Obligations.EccFlipIsGuarded := by
  intro v s
  refine ⟨fun ended => execEccFlipWrite_ignored (.inl ended),
    fun deployed two => execEccFlipWrite_ignored (.inr ⟨deployed, two⟩), fun notEnded single => execEccFlipWrite_armed ?_⟩
  rintro (ended | ⟨deployed, two⟩)
  · exact notEnded ended
  · exact Bool.false_ne_true ((single deployed).symm.trans two)

end Sys2Proof.Machine
end

section
/-! What a raise sends (R644, R645, R647). -/

namespace Sys2Proof.Machine

open Sys2Proof

/-- A loop that sends appends one item for each turn. -/
theorem forEach_send {α : Type} (f : α → Out) (l : List α) (s : State) :
    forEach l (fun a s => s.send (f a)) s = { s with out := s.out ++ l.map f } := by
  induction l generalizing s with
  | nil => simp
  | cons a l ih => simp [ih]

section Vector

variable {v : Nat} {s : State}

theorem sendVector_masked (masked : s.vecMasked v = true) :
    sendVector v s = s.modEv (fun e => { e with pba := e.pba ||| (1#2048 <<< v) }) :=
  if_pos masked

theorem sendVector_unmasked (unmasked : s.vecMasked v = false) :
    sendVector v s = s.send (.msix v (s.ev.entry v).addr (s.ev.entry v).data) :=
  if_neg (ne_true_of_eq_false unmasked)

theorem sendVector_status (v : Nat) (s : State) : (sendVector v s).ev.status = s.ev.status := by
  cases masked : s.vecMasked v with
  | true => rw [sendVector_masked masked, State.modEv_ev]
  | false => rw [sendVector_unmasked masked, State.send_ev]

end Vector

/-- R644: the registers after a raise of event x, its vector aside. -/
def Events.raised (x : Nat) (e : Events) : Events :=
  { e with
    status := e.status ||| (1#1024 <<< x)
    counts := tabMod 0 e.counts x sat32
    last := x
    total := e.total + 1
    drop := if e.status.getLsbD x then sat32 e.drop else e.drop }

/-- A raise of event x up to its vector: the registers hold it and its cores have heard it. -/
def raiseHeard (x : Nat) (s : State) : State :=
  { s with ev := s.ev.raised x, out := s.out ++ (setBits 4 (s.ev.route x).cores).map (fun n => Out.core n x) }

/-- R645: the raise calls for the message of the vector that its route names. -/
def raiseFires (x : Nat) (s : State) : Bool :=
  !s.ev.status.getLsbD x && (s.ev.route x).msix && s.ev.evMsix

theorem raiseBits_eq (x : Nat) (s : State) :
    raiseBits x s = if raiseFires x s then sendVector (s.ev.route x).vec (raiseHeard x s) else raiseHeard x s := by
  simp only [raiseBits, forEach_send]
  rfl

section Raise

variable {x : Nat} {s : State}

theorem raiseBits_of_silent (silent : raiseFires x s = false) : raiseBits x s = raiseHeard x s :=
  (raiseBits_eq x s).trans (if_neg (ne_true_of_eq_false silent))

theorem raiseBits_of_fires (fires : raiseFires x s = true) : raiseBits x s = sendVector (s.ev.route x).vec (raiseHeard x s) :=
  (raiseBits_eq x s).trans (if_pos fires)

/-- A raise masks and unmasks no vector, so the mask before it decides. -/
theorem raiseBits_of_fires_masked (fires : raiseFires x s = true) (masked : s.vecMasked (s.ev.route x).vec = true) :
    raiseBits x s = (raiseHeard x s).modEv (fun e => { e with pba := e.pba ||| (1#2048 <<< (s.ev.route x).vec) }) :=
  (raiseBits_of_fires fires).trans (sendVector_masked masked)

theorem raiseBits_of_fires_unmasked (fires : raiseFires x s = true) (unmasked : s.vecMasked (s.ev.route x).vec = false) :
    raiseBits x s = (raiseHeard x s).send
      (.msix (s.ev.route x).vec (s.ev.entry (s.ev.route x).vec).addr (s.ev.entry (s.ev.route x).vec).data) :=
  (raiseBits_of_fires fires).trans (sendVector_unmasked unmasked)

end Raise

theorem raiseBits_status (x : Nat) (s : State) : (raiseBits x s).ev.status = s.ev.status ||| (1#1024 <<< x) := by
  cases fires : raiseFires x s with
  | true => exact (congrArg (·.ev.status) (raiseBits_of_fires fires)).trans (sendVector_status _ _)
  | false => exact congrArg (·.ev.status) (raiseBits_of_silent fires)

/-- A raise sets the bit of its event, where EV_STATUS has one, and leaves the others. -/
theorem raiseBits_status_getLsbD (x y : Nat) (s : State) :
    (raiseBits x s).ev.status.getLsbD y = (s.ev.status.getLsbD y || (decide (x < 1024) && decide (x = y))) := by
  rw [raiseBits_status, BitVec.getLsbD_or, ← BitVec.twoPow_eq, BitVec.getLsbD_twoPow]

/-- Settles O14: by whether the raise fires and whether its vector is masked; the status bits are the same either way. -/
theorem raiseSendsItsMessageOnce : Obligations.RaiseSendsItsMessageOnce := by
  intro x s route cores fires
  refine ⟨fun sends unmasked => ?message, fun sends masked => ?pendingBit, fun silent => ?silent, fun hasBit => ?own,
    fun y other => ?others⟩
  case message => rw [raiseBits_of_fires_unmasked sends unmasked]; rfl
  case pendingBit => rw [raiseBits_of_fires_masked sends masked]; exact ⟨rfl, rfl⟩
  case silent => rw [raiseBits_of_silent silent]; exact ⟨rfl, rfl⟩
  case own => simp [raiseBits_status_getLsbD, hasBit]
  case others => simp [raiseBits_status_getLsbD, other.symm]

end Sys2Proof.Machine
end

section
/-! The queue and the clock (log entry 3), totality of the commands, and the register values at reset. -/

namespace Sys2Proof.Machine

open Sys2Proof

/-- Settles O1: `step` looks at the front of the queue. -/
theorem stepRunsTheFrontCommand : Obligations.StepRunsTheFrontCommand := by
  intro c rest s front
  simp only [step, front]

/-- Settles O2: with no front there is the idle tick. -/
theorem emptyQueueIdles : Obligations.EmptyQueueIdles := by
  intro s empty
  simp only [step, empty]

/-! Totality. A command whose definition branches before its `.next` has a lemma of its own; of the others the definition is a
`.next` as it stands. -/

/-- The outcome is a next state. -/
def GoesOn (r : Res) : Prop := ∃ t, r = .next t

theorem GoesOn.next (t : State) : GoesOn (.next t) := ⟨t, rfl⟩

theorem GoesOn.ite {c : Prop} [Decidable c] {a b : Res} (ha : GoesOn a) (hb : GoesOn b) : GoesOn (if c then a else b) := by
  split <;> assumption

variable (s : State)

theorem execRegisterGrant_goesOn (h : CmdHdr) (p : GrantParams) : GoesOn (execRegisterGrant h p s) :=
  .ite (.next _) (.next _)

theorem execCipherAlarm_goesOn (i : BitVec 4) : GoesOn (execCipherAlarm i s) := .ite (.next _) (.next _)

theorem execPaletteUnwrapDone_goesOn (t : KeyTag) (ok : Bool) : GoesOn (execPaletteUnwrapDone t ok s) :=
  .ite (.next _) (.ite (.next _) (.next _))

theorem execDramMr4Poll_goesOn (c : Fin 32) (r : Fin 2) (mult temp : Nat) (hot : Bool) : GoesOn (execDramMr4Poll c r mult temp hot s) :=
  .ite (.next _) (.next _)

theorem execDramReadComplete_goesOn (a : Nat) (ws : List (BitVec 64 × BitVec 8)) : GoesOn (execDramReadComplete a ws s) := by
  unfold execDramReadComplete
  split <;> exact .next _

theorem execTransparentTestRegion_goesOn (p : SramPlace) (o : EccOutcome) (spare : Bool) :
    GoesOn (execTransparentTestRegion p o spare s) := by
  unfold execTransparentTestRegion
  split
  · exact .next _
  · exact .ite (.next _) (.next _)

theorem execReg64LowRead_goesOn (off : Nat) : GoesOn (execReg64LowRead off s) := by
  refine .ite (.next _) ?_
  split
  · exact .next _
  · split <;> exact .next _

theorem mbxWrite_goesOn (w : Option (Fin 4)) (off : Nat) (v : BitVec 32) : GoesOn (mbxWrite w off v s) := by
  unfold mbxWrite
  split
  case h_4 => exact .ite (.next _) (.next _)
  all_goals exact .next _

theorem barWrite_goesOn (off : Nat) (v : BitVec 32) : GoesOn (barWrite off v s) := by
  unfold barWrite
  split
  case h_3 => exact .ite (.next _) (.next _)
  case h_5 => exact .ite (.next _) (.next _)
  case h_13 => exact .ite (mbxWrite_goesOn ..) (.ite (mbxWrite_goesOn ..) (.ite (.next _) (.ite (.next _) (.ite (.next _) (.next _)))))
  all_goals exact .next _

theorem exec_goesOn (c : Instr) : GoesOn (exec c s) := by
  cases c
  case registerGrant => exact execRegisterGrant_goesOn ..
  case cipherAlarm => exact execCipherAlarm_goesOn ..
  case paletteUnwrapDone => exact execPaletteUnwrapDone_goesOn ..
  case dramMr4Poll => exact execDramMr4Poll_goesOn ..
  case dramReadComplete => exact execDramReadComplete_goesOn ..
  case transparentTestRegion => exact execTransparentTestRegion_goesOn ..
  case reg64LowRead => exact execReg64LowRead_goesOn ..
  case registerWrite => exact .ite (.next _) (.ite (.next _) (barWrite_goesOn ..))
  all_goals exact .next _

/-- Settles O3: a step runs one command or idles, and both go on. -/
theorem everyCommandAnswersNext : Obligations.EveryCommandAnswersNext := by
  refine ⟨fun c s => exec_goesOn s c, fun s => ?_⟩
  cases queue : s.pending with
  | nil => exact ⟨_, emptyQueueIdles s queue⟩
  | cons c rest =>
    obtain ⟨t, done⟩ := exec_goesOn { s with pending := rest } c
    exact ⟨t, (stepRunsTheFrontCommand c rest s queue).trans done⟩

/-! Reset. -/

theorem barReg_devId (free : Nat) : s.barReg free 0x000 = 0x2144 + 65536 * Config.vendorId.toNat := rfl

/-- Settles O4: the part number is the low half of DEV_ID, and the other registers read what the state after reset holds. -/
theorem resetRegisterValues : Obligations.ResetRegisterValues := by
  dsimp only [Obligations.ResetRegisterValues]
  refine ⟨?part, ?others⟩
  case part =>
    rw [barReg_devId]
    omega
  case others => decide +kernel

end Sys2Proof.Machine
end

section
/-! The first packet of a host's message (R324 to R333, R365, R371): what it brings about follows from what admission decides. -/

namespace Sys2Proof.Machine

open Sys2Proof

section Begins

variable {p : Pkt} {op : NetOp} {data : Bytes} {rlen : Nat} {t : State} (first : begins p op data rlen t = true)

include first

theorem hostPacket_granted {g : Nat} {q : GrantParams} {span : List Nat} (places : op ≠ .readReq)
    (granted : t.admission p.conn.toNat op p.akey p.raddr.toNat (extent op p.msgOff.toNat data.length rlen) rlen = .grant g q span) :
    hostPacket p op data rlen t = placePacket p true data ((takeRefs g span t).modConn p.conn.toNat
      (fun k => { k with msgs := insMsg { begun p op rlen t with ns := q.nsid, grant := some (g, q.off, q.len), span } k.msgs })) := by
  rw [hostPacket_begins first, granted]
  exact if_neg places

theorem hostPacket_refused {r : Refuse} {wake : List Nat}
    (refused : t.admission p.conn.toNat op p.akey p.raddr.toNat (extent op p.msgOff.toNat data.length rlen) rlen = .refuse r wake) :
    hostPacket p op data rlen t = refuseMsg p r (wakeSpan wake t) := by
  rw [hostPacket_begins first, refused]

theorem hostPacket_free
    (free : t.admission p.conn.toNat op p.akey p.raddr.toNat (extent op p.msgOff.toNat data.length rlen) rlen = .free) :
    hostPacket p op data rlen t = settlePkt p (advanceConn p.conn.toNat (t.modConn p.conn.toNat
      (fun k => { k with msgs := insMsg { begun p op rlen t with st := .complete } k.msgs }))) := by
  rw [hostPacket_begins first, free]

end Begins

/-- R371: a granted read is complete with its one packet. -/
theorem hostPacket_granted_read {p : Pkt} {rlen : Nat} {t : State} {g : Nat} {q : GrantParams} {span : List Nat}
    (first : begins p .readReq [] rlen t = true)
    (granted : t.admission p.conn.toNat .readReq p.akey p.raddr.toNat rlen rlen = .grant g q span) :
    hostPacket p .readReq [] rlen t = settlePkt p (advanceConn p.conn.toNat ((takeRefs g span t).modConn p.conn.toNat
      (fun k => { k with
        msgs := insMsg { begun p .readReq rlen t with ns := q.nsid, grant := some (g, q.off, q.len), span, st := .complete } k.msgs }))) := by
  have extent_eq : extent .readReq p.msgOff.toNat ([] : Bytes).length rlen = rlen := rfl
  rw [hostPacket_begins first, extent_eq, granted]
  exact if_pos rfl

/-- The accepted packet of a host, told by what the packet itself does. -/
theorem rxHost_of_hostPacket {p : Pkt} {op : NetOp} {hdr auth : Bool} {data : Bytes} {rlen : Nat} {s after : State}
    (accepted : hostAccepts p op hdr auth s = true) (done : hostPacket p op data rlen (hostAt p op hdr auth s) = after) :
    rxHost p op hdr auth true data rlen s = pktClose p (hostAt p op hdr auth s) after :=
  done ▸ rxHost_accepts accepted

/-- R42, R365: a FLUSH needs no grant. -/
theorem admission_flush {s : State} {c : Nat} (akey : BitVec 32) (raddr ext rlen : Nat) (high : s.dura.clow = false)
    (isOpen : (s.conn c).st = .opened) (noSwap : s.twin.swap = .none) : s.admission c .flush akey raddr ext rlen = .free := by
  simp [State.admission, high, isOpen, noSwap]

/-- Settles O24: a granted write or atomic is placed, a granted read and a FLUSH are complete, and a refused message is refused. -/
theorem hostPacketsBeginMessages : Obligations.HostPacketsBeginMessages := by
  refine ⟨fun p d s _ acc first => ⟨fun g q span granted => ?write, fun r wake refused => ?refused⟩,
    fun p d s _ acc first g q span granted => ?durable, fun p n s acc first g q span granted => ?read,
    fun p s acc first high isOpen noSwap => ?flush, fun p c w s acc first g q span granted => ?cas,
    fun p a z s zero acc first g q span granted => ?fadd⟩
  case write => exact congrArg Host.Outcome.next (rxHost_of_hostPacket acc (hostPacket_granted first (by decide) granted))
  case refused => exact congrArg Host.Outcome.next (rxHost_of_hostPacket acc (hostPacket_refused first refused))
  case durable => exact congrArg Host.Outcome.next (rxHost_of_hostPacket acc (hostPacket_granted first (by decide) granted))
  case read => exact congrArg Host.Outcome.next (rxHost_of_hostPacket acc (hostPacket_granted_read first granted))
  case flush => exact congrArg Host.Outcome.next (rxHost_of_hostPacket acc (hostPacket_free first (admission_flush _ _ _ _ high isOpen noSwap)))
  case cas => exact congrArg Host.Outcome.next (rxHost_of_hostPacket acc (hostPacket_granted first (by decide) granted))
  case fadd =>
    have unused : (z.toList == List.replicate 8 0) = true := by simp [zero]
    rw [show exec (.atomicFadd p a z) s = .next (rxHost p .fadd _ _ (z.toList == List.replicate 8 0) _ 0 s) from rfl, unused]
    exact congrArg Host.Outcome.next (rxHost_of_hostPacket acc (hostPacket_granted first (by decide) granted))

end Sys2Proof.Machine
end

section
/-! A host's control packets, reads that are gathered, and the transport's timers (R34 to R36, R314 to R349, R362, R370 to R373). -/

namespace Sys2Proof.Machine

open Sys2Proof

section Gather

variable {id c : Nat} {m : MsgId} {g : Gather} {x : Msg} {s : State} (found : s.xport.gathers.find? (fun g => g.id == id) = some g)
  (net : g.net = some (c, m)) (whole : g.needs = []) (fresh : g.stale = false)

include found net whole fresh

/-- R37, R371: a gather one of whose codewords is read only now goes on with it. -/
theorem execReadGatherComplete_again (late : s.gatherLate g = true) :
    execReadGatherComplete id s = .next (settle (gatherRun g s)) := by
  simp [execReadGatherComplete, found, net, whole, fresh, late]

theorem execReadGatherComplete_answers (kept : (s.conn c).msg m = some x) (ready : s.gatherLate g = false) :
    execReadGatherComplete id s = .next (settle (answerRead c x g s)) := by
  simp [execReadGatherComplete, found, net, whole, fresh, ready, kept]

end Gather

section Retransmit

variable {c : Nat} {psn : Psn} {t : TxPkt} {s : State} (kept : (s.conn c).txBuf.find? (fun t => t.psn == psn) = some t)
  (sends : s.maySend (s.conn c) = true)

include kept sends

theorem execRetransmitTimer_again (left : t.retries < (s.conn c).retryMax) : execRetransmitTimer c psn s = .next (retransmit c t s) := by
  simp [execRetransmitTimer, kept, sends, Nat.not_le.mpr left]

/-- R344, R356: a packet sent RETRY_MAX times ends its connection, by the state that it is in. -/
theorem execRetransmitTimer_ends (spent : (s.conn c).retryMax ≤ t.retries) : execRetransmitTimer c psn s = .next
    (if (s.conn c).st = .closing then settle (connClosed c s) else settle (connError c s)) := by
  simp [execRetransmitTimer, kept, sends, spent]

end Retransmit

/-- Settles O25: an accepted control packet is acted on, and an armed timer takes its one branch. -/
theorem controlPacketsAndTransportTimers : Obligations.ControlPacketsAndTransportTimers := by
  refine ⟨fun p b s rsv acc => ?ack, fun p r s acc => ?probe,
    fun id c m g x s found net whole fresh kept => ⟨fun ready => execReadGatherComplete_answers found net whole fresh kept ready,
      fun late => execReadGatherComplete_again found net whole fresh late⟩,
    fun c id m s kept part serving admits => ?reassembly, fun c s missing => ?missing, fun c s => ⟨fun owed => ?owed, fun none => ?notOwed⟩,
    fun c psn t s kept sends => ⟨fun left => execRetransmitTimer_again kept sends left, fun spent closing => ?closes,
      fun spent opened => ?errs⟩,
    fun c s isOpen more => ?idle, fun c s waits => ?creditWait, fun c s waits queued => ?probeAgain, fun c q s => rfl,
    fun c q s react => ?ecn, fun c g s old => ?discard, fun c s on left => ?notice, fun c s isOpen logs => ?entry,
    fun g s dead => ?dead, fun g s revoking serving => ?drop⟩
  case ack =>
    have unused : (b.rsv == 0) = true := beq_iff_eq.mpr rsv
    rw [show exec (.ack p b) s = .next (rxControl p 56 _ (b.rsv == 0) (ackBody p b) s) from rfl, unused, rxControl_accepts acc]
  case probe => exact congrArg Host.Outcome.next (rxControl_accepts acc)
  case reassembly =>
    show execReassemblyTimeout c id s = _
    simp [execReassemblyTimeout, kept, part, serving, admits]
  case missing => exact congrArg Host.Outcome.next (if_pos missing)
  case owed => exact congrArg Host.Outcome.next (if_pos owed)
  case notOwed => exact congrArg Host.Outcome.next (if_neg (not_not.mpr none))
  case closes => exact (execRetransmitTimer_ends kept sends spent).trans (congrArg Host.Outcome.next (if_pos closing))
  case errs => exact (execRetransmitTimer_ends kept sends spent).trans (congrArg Host.Outcome.next (if_neg (by simp [opened])))
  case idle => exact congrArg Host.Outcome.next (if_pos ⟨isOpen, more⟩)
  case creditWait => exact congrArg Host.Outcome.next (if_pos waits)
  case probeAgain => exact congrArg Host.Outcome.next (if_pos ⟨waits, by simpa using queued⟩)
  case ecn => exact congrArg Host.Outcome.next (if_pos react)
  case discard =>
    show execKeyGenerationDiscard c s = _
    simp only [execKeyGenerationDiscard, old]
  case notice => exact congrArg Host.Outcome.next (if_pos ⟨on, left⟩)
  case entry => exact congrArg Host.Outcome.next (if_pos ⟨isOpen, logs⟩)
  case dead => exact congrArg Host.Outcome.next (if_pos dead)
  case drop => exact congrArg Host.Outcome.next (if_pos ⟨revoking, serving⟩)

end Sys2Proof.Machine
end

section
/-! The Ethernet side of the network ports (R299 to R301, R352). -/

namespace Sys2Proof.Machine

open Sys2Proof

section Answers

variable {p : Fin 8} {q : Fin 4} {a : Nat} {s : State}

/-- R2, R286: a port that may not send, or that has another address, answers nothing. -/
theorem not_answers_of_silent {ip : Nat} (h : s.mayAnswer p q = false ∨ ip ≠ a) : ¬ (s.mayAnswer p q ∧ a ≠ 0 ∧ ip = a) := by
  rintro ⟨answers, -, own⟩
  rcases h with silent | other
  · exact Bool.noConfusion (silent.symm.trans answers)
  · exact other own

end Answers

section Link

variable {p : Fin 8} {q : Fin 4} {s : State} (inMode : q.val < modeSubs (s.nport p).mode)

include inMode

/-- R352: the link of a sub-port is lost. -/
theorem execSubportLinkChange_down (up : (s.subPort p q).up = true) : execSubportLinkChange p q false s =
    .next (raiseWith (576 + 8 * p.val) p q.val (s.modNport p (fun n => { n with
      subs := modAt n.subs q (fun x => { x with up := false }), flaps := sat8 n.flaps }))) := by
  simp [execSubportLinkChange, Nat.not_le.mpr inMode, up]

/-- R301, R352: a sub-port gains link. -/
theorem execSubportLinkChange_up (down : (s.subPort p q).up = false) (good : p.val ∉ s.test.badNet) :
    execSubportLinkChange p q true s = .next (
      let t := raiseWith (576 + 8 * p.val) p q.val (s.modNport p (fun n => { n with
        subs := modAt n.subs q (fun x => { x with up := true }), flaps := sat8 n.flaps }))
      pendingCtl p (if t.serving ∧ t.twin.hostTx then announceSub p q t else t)) := by
  simp [execSubportLinkChange, Nat.not_le.mpr inMode, down, good]

/-- R352: FECDEG follows the window; its rise raises the event. -/
theorem execNetworkFecWindow_inMode (n : Nat) (u : Bool) : execNetworkFecWindow p q n u s = .next (
    let deg := decide (n > 1000000) || u
    let t := s.modSub p q (fun x => { x with fecDeg := deg })
    if deg ∧ !(s.subPort p q).fecDeg then raiseWith (576 + 8 * p.val + 1) p q.val t else t) :=
  congrArg Host.Outcome.next (if_neg (Nat.not_le.mpr inMode))

end Link

/-- Settles O26: each answer and each report is one branch of its command. -/
theorem networkPortsAnswerAndReport : Obligations.NetworkPortsAnswerAndReport := by
  refine ⟨fun p q a s => ⟨fun answers named own => ?arp, fun silent => ?noArp⟩,
    fun p q a s => ⟨fun answers named own => ?neighbour, fun silent => ?noNeighbour⟩,
    fun p q a s answers named own => ⟨fun room => ?echo, fun full => ?noEcho⟩, fun p q s => rfl,
    fun p q s inMode up => execSubportLinkChange_down inMode up, fun p q s inMode down good => execSubportLinkChange_up inMode down good,
    fun p q n u s inMode => ⟨fun bad was => ?degrades, fun few clean => ?recovers⟩⟩
  case arp => exact congrArg Host.Outcome.next (if_pos ⟨answers, named, own⟩)
  case noArp => exact congrArg Host.Outcome.next (if_neg (not_answers_of_silent silent))
  case neighbour => exact congrArg Host.Outcome.next (if_pos ⟨answers, named, own⟩)
  case noNeighbour => exact congrArg Host.Outcome.next (if_neg (not_answers_of_silent silent))
  case echo => exact congrArg Host.Outcome.next (if_pos ⟨answers, named, own, room⟩)
  case noEcho => exact congrArg Host.Outcome.next (if_neg fun ⟨_, _, _, room⟩ => Nat.not_lt.mpr full room)
  case degrades =>
    have deg : (decide (n > 1000000) || u) = true := by simpa using bad
    exact (execNetworkFecWindow_inMode inMode n u).trans (by simp [deg, was])
  case recovers =>
    have deg : (decide (n > 1000000) || u) = false := by simp [Nat.not_lt.mpr few, clean]
    exact (execNetworkFecWindow_inMode inMode n u).trans (by simp [deg])

end Sys2Proof.Machine
end

section
/-! Twin frames (R243 to R293, R541 to R547): one at the present epoch is acted on, and one of another epoch is judged by it. -/

namespace Sys2Proof.Machine

open Sys2Proof

section Gates

variable {h : TwinHdr} {b : TwinBody} {assigned : Option (Nat × Lsn)} {act : State → State} {s : State}
  (passed : (linkGate h b s).2 = true)

include passed

/-- R250: a frame that passes its port's checks goes to the check of its epoch. -/
theorem twinFrame_passed : twinFrame h b assigned act s =
    settle (if (epochGate h assigned (linkGate h b s).1).2 then act (epochGate h assigned (linkGate h b s).1).1
      else (epochGate h assigned (linkGate h b s).1).1) := by
  simp [twinFrame, passed]

variable (ready : (linkGate h b s).1.twin.role ≠ .priming) (other : h.epoch ≠ (linkGate h b s).1.twin.epoch)

include ready other

theorem twinFrame_newer (newer : later h.epoch (linkGate h b s).1.twin.epoch = true) :
    twinFrame h b assigned act s = settle (newerFrame h.epoch assigned (linkGate h b s).1) := by
  simp [twinFrame_passed passed, epochGate, ready, other, newer]

theorem twinFrame_stale (older : later h.epoch (linkGate h b s).1.twin.epoch = false) :
    twinFrame h b assigned act s = settle (staleFrame h.port (linkGate h b s).1) := by
  simp [twinFrame_passed passed, epochGate, ready, other, older]

end Gates

/-! What an accepted frame does at the present epoch. -/

section Acts

variable {s : State}

theorem applyAckFrame_acts {a : Lsn} (c : BitVec 32) (logs : s.logging = true) (known : atOrBefore a s.twin.sent = true) :
    applyAckFrame a c s = pumpFetches (pumpLog (clearTiles a (s.modTwin (fun t => { t with
      applied := serialMax t.applied a, unacked := t.unacked.filter (fun e => later e.lsn a)
      creditIn := serialMax t.creditIn c
      resyncLive := t.resyncLive || (match t.resyncFrom with | some f => atOrBefore f a | none => false) })))) :=
  if_neg (by simp [logs, known])

/-- R267: the active compares a DIGEST with its own of that LSN. -/
theorem digestFrame_compares {l : Lsn} {own : BitVec 64} (port : Nat) (v : BitVec 64) (inStep : s.twin.resync = false)
    (active : s.twin.role = .active) (kept : s.twin.digests.find? (fun e => e.1 == l) = some (l, own)) :
    digestFrame port l v s = if own = v then digestMatch l s else digestMismatch port s := by
  simp [digestFrame, inStep, active, kept]

theorem relinquishFrame_standby {port cause : Nat} (last : Lsn)
    (standby : (relinquishEvent port s).twin.role = .standby) (inStep : (relinquishEvent port s).twin.resync = false)
    (calm : (relinquishEvent port s).twin.take = .none) (low : cause < 3) :
    relinquishFrame port last cause s = takeoverK1 ((relinquishEvent port s).modTwin (fun t => { t with
      take := .k1 last (cause == 1), witReqs := t.witReqs.filter (fun r => r.wtype == 1) })) := by
  simp [relinquishFrame, standby, inStep, calm, Nat.not_le.mpr low]

theorem relinquishFrame_active {port cause : Nat} (last : Lsn) (active : (relinquishEvent port s).twin.role = .active)
    (gone : cause = 2 ∨ cause = 3) :
    relinquishFrame port last cause s = enterSolo ((relinquishEvent port s).twin.epoch + 1) (relinquishEvent port s) := by
  simp [relinquishFrame, active, gone]

theorem newerFrame_standby_assigned {e : Epoch} {f : Lsn} (standby : s.twin.role = .standby) :
    newerFrame e (some (2, f)) s = standbyEpoch e (heard s) := by
  simp [newerFrame, standby]

theorem resyncReqFrame_full (tiles : List Nat) (solo : s.twin.role = .solo) (idle : s.twin.resync = false) :
    resyncReqFrame true tiles s = startResync { s with twin := { s.twin with
      bitmap := [], bitmapAll := true, tileLsn := [], resyncFull := true } } := by
  simp [resyncReqFrame, solo, idle, State.modTwin]

end Acts

/-- Settles O29: the gates let the frame through, and what it does there is that of its kind; the bounds that follow are one branch each. -/
theorem twinFramesAreActedOn : Obligations.TwinFramesAreActedOn := by
  refine ⟨fun h e s acc => ?log, fun h a c s acc logs known => ?applyAck, fun h role health wit a dt s ready acc => ?heartbeat,
    fun h role health wit a dt s priming passed => ?primeBeat,
    fun h l v own s acc inStep active kept => ⟨fun same => ?digestMatch, fun differs => ?digestMismatch⟩,
    fun h l c s acc => ⟨fun standby inStep calm low => ?relinquishStandby, fun active gone => ?relinquishActive⟩,
    fun l w s k1 => ?gapFill, fun w s waits => ?announce, fun h f p s acc => ?takeover,
    fun h f s passed standby newer other => ?takeoverNewer, fun h ns ft off l s acc => ?fetchReq,
    fun h ft m d f s acc asked => ?fetchResp, fun ft f s asked => ?fetchTimeout, fun h e s acc => ?mailbox, fun h s acc => ?link,
    fun h s passed ready other => ⟨fun older => ?stale, fun newer => ?newer⟩, fun h tiles s acc solo idle => ?resyncReq,
    fun s solo resyncs => ⟨fun empty => ?walks, fun waits => ?yields⟩, fun f s solo resyncs quiet from_ => ?repeats,
    fun h b s priming passed runs => ?handshake⟩
  case log => exact congrArg Host.Outcome.next (twinFrame_accepts acc)
  case applyAck =>
    exact congrArg Host.Outcome.next ((twinFrame_accepts acc).trans (congrArg settle (applyAckFrame_acts c logs known)))
  case heartbeat =>
    exact congrArg Host.Outcome.next ((if_neg ready).trans (twinFrame_accepts acc))
  case primeBeat =>
    exact congrArg Host.Outcome.next ((if_pos priming).trans (if_pos passed))
  case digestMatch =>
    exact congrArg Host.Outcome.next ((twinFrame_accepts acc).trans
      (congrArg settle ((digestFrame_compares _ v inStep active kept).trans (if_pos same))))
  case digestMismatch =>
    exact congrArg Host.Outcome.next ((twinFrame_accepts acc).trans
      (congrArg settle ((digestFrame_compares _ v inStep active kept).trans (if_neg differs))))
  case relinquishStandby =>
    exact congrArg Host.Outcome.next ((twinFrame_accepts acc).trans
      (congrArg settle (relinquishFrame_standby l standby inStep calm low)))
  case relinquishActive =>
    exact congrArg Host.Outcome.next ((twinFrame_accepts acc).trans (congrArg settle (relinquishFrame_active l active gone)))
  case gapFill =>
    show execTakeoverGapFillTimeout s = _
    simp only [execTakeoverGapFillTimeout, k1]
  case announce =>
    show execTakeoverAnnounceDelay s = _
    simp only [execTakeoverAnnounceDelay, waits]
  case takeover => exact congrArg Host.Outcome.next (twinFrame_accepts acc)
  case takeoverNewer =>
    exact congrArg Host.Outcome.next ((twinFrame_newer passed (by simp [standby]) other newer).trans
      (congrArg settle (newerFrame_standby_assigned standby)))
  case fetchReq => exact congrArg Host.Outcome.next (twinFrame_accepts acc)
  case fetchResp =>
    refine congrArg Host.Outcome.next ((twinFrame_accepts acc).trans (congrArg settle ?_))
    simp only [asked]
  case fetchTimeout =>
    show execPeerFetchTimeout ft s = _
    simp only [execPeerFetchTimeout, asked]
  case mailbox => exact congrArg Host.Outcome.next (twinFrame_accepts acc)
  case link => exact congrArg Host.Outcome.next (twinFrame_accepts acc)
  case stale => exact congrArg Host.Outcome.next (twinFrame_stale passed ready other older)
  case newer => exact congrArg Host.Outcome.next (twinFrame_newer passed ready other newer)
  case resyncReq =>
    exact congrArg Host.Outcome.next ((twinFrame_accepts acc).trans (congrArg settle (resyncReqFrame_full tiles solo idle)))
  case walks => exact congrArg Host.Outcome.next (if_pos ⟨solo, resyncs, by simp [empty]⟩)
  case yields => exact congrArg Host.Outcome.next (if_neg fun ⟨_, _, empty⟩ => waits (List.isEmpty_iff.mp empty))
  case repeats =>
    refine congrArg Host.Outcome.next ((if_pos ⟨solo, resyncs, by simp [quiet]⟩).trans ?_)
    simp only [resyncTakeover, from_]
  case handshake =>
    exact congrArg Host.Outcome.next ((if_pos priming).trans (if_pos ⟨passed, runs⟩))

end Sys2Proof.Machine
end

section
/-! Twin ports, the twin engine's timers, and the witness (R245 to R288, R298, R548). -/

namespace Sys2Proof.Machine

open Sys2Proof

/-! Twin ports. -/

section Trained

variable {p : Fin 4} {n : Nat} {ok : Bool} {pair : BitVec 64} {s : State} (usable : s.test.badTwin.contains p = false)

include usable

/-- R247: a port that finds its own number, its lanes in order and its own pair goes into service. -/
theorem execTwinPortTrained_fits (own : n = p.val) (lanes : ok = true) (paired : pair = s.twin.pair) :
    execTwinPortTrained p n ok pair s = .next (
      let t := s.modTport p (fun k => { k with
        st := 2, lane := [], pieces := 0, txSeq := 0, txBuf := [], rxExp := 0, rxNak := false, rxUnacked := 0, ackAt := s.now, ackDue := false })
      settle (pumpLog (if (s.tport p).ackDue && s.twin.role == .standby
        then ctlOn p (.applyAck t.twin.applied t.twin.creditOut) t else t))) :=
  congrArg Host.Outcome.next ((if_neg (by simpa using usable)).trans (if_pos ⟨own, lanes, paired⟩))

theorem execTwinPortTrained_misfits (wrong : n ≠ p.val ∨ ok = false ∨ pair ≠ s.twin.pair) :
    execTwinPortTrained p n ok pair s = .next (raiseWith (640 + 8 * p.val) p n (s.modTport p (fun k => { k with st := 3 }))) := by
  refine congrArg Host.Outcome.next ((if_neg (by simpa using usable)).trans (if_neg ?_))
  rintro ⟨own, lanes, paired⟩
  simp [own, lanes, paired] at wrong

end Trained

section Ports

variable {p : Fin 4} {s : State}

theorem execTwinPortLinkLoss_inService (up : (s.tport p).st = 2) :
    execTwinPortLinkLoss p s = .next (settle ((twinPortOut p s).modTport p (fun k => { k with st := 0 }))) := by
  simp [execTwinPortLinkLoss, up]

theorem execTwinPortLinkLoss_outOfService (out : (s.tport p).st = 1 ∨ (s.tport p).st = 3) :
    execTwinPortLinkLoss p s = .next (raiseWith (640 + 8 * p.val) p 0 (s.modTport p (fun k => { k with st := 0 }))) := by
  rcases out with out | out <;> simp [execTwinPortLinkLoss, out]

end Ports

/-! Timers. -/

section Timers

variable {s : State}

/-- R261: the log's first waiting entry has no credit. -/
theorem execTwinCreditWaitTimer_stalls {e : Logged} {l : List Logged} {t : Nat} (waits : s.twin.waiting = e :: l) (up : s.twinUp = some t)
    (short : dist s.twin.creditUsed s.twin.creditIn < entryUnits e.entry) : execTwinCreditWaitTimer s =
      .next (raiseWith (640 + 8 * t + 6) t 0 (s.modTport t (fun k => { k with cstall := sat16 k.cstall }))) := by
  simp [execTwinCreditWaitTimer, waits, up, short]

theorem execDigestTimer_first (active : s.twin.role = .active) (none : s.twin.digestAt = none) :
    execDigestTimer s = .next (ctlOne (.digest s.twin.sent s.twin.digest) { s with twin := { s.twin with
      digestMiss := 0, digestAt := some s.twin.sent, digests := (s.twin.sent, s.twin.digest) :: s.twin.digests.take 1023 } }) := by
  simp [execDigestTimer, active, none, State.modTwin]

theorem execDigestTimer_third {l : Lsn} (active : s.twin.role = .active) (heard : s.twin.silent = false)
    (sent : s.twin.digestAt = some l) (missed : 2 ≤ s.twin.digestMiss) :
    execDigestTimer s = .next (settle (digestMismatch (s.twinUp.getD 0) s)) := by
  simp [execDigestTimer, active, sent, heard, missed]

end Timers

/-! Silence (R265, R279 to R282). -/

section Silence

variable {s : State}

theorem peerSilent_active_alone (active : s.twin.role = .active) (alone : s.twin.witness = none) :
    peerSilent s = soloOn (s.twin.epoch + 1) (s.modTwin (fun t => { t with silent := true })) := by
  simp [peerSilent, active, alone]

theorem peerSilent_active_witnessed {w : WitnessParams} (active : s.twin.role = .active) (witnessed : s.twin.witness = some w) :
    peerSilent s = leaseCheck (askWit 3 (s.modTwin (fun t => { t with silent := true, askSolo := true }))) := by
  simp [peerSilent, active, witnessed, State.modTwin]

theorem peerSilent_standby (standby : s.twin.role = .standby) (inStep : s.twin.resync = false) (calm : s.twin.take = .none) :
    peerSilent s = askWit 2 (s.modTwin (fun t => { t with silent := true })) := by
  simp [peerSilent, standby, inStep, calm]

end Silence

/-! The planned swap (R287, R288). -/

section Swap

variable {c : Nat} {s : State} (swapping : s.twin.swap = .s2 c)

include swapping

theorem execSwapTakeoverTimeout_unheard (unheard : s.twin.beat = none) : execSwapTakeoverTimeout s = .next (settle (peerSilent
    (finish c stTimeout [] { s with twin := { s.twin with swap := .none, relinquished := none } }))) := by
  simp [execSwapTakeoverTimeout, swapping, unheard, State.modTwin]

theorem execSwapTakeoverTimeout_resumes {b : PeerBeat} (beat : s.twin.beat = some b) (standby : b.role = 2) (present : b.epoch = s.twin.epoch)
    (heard : s.twin.silent = false) : execSwapTakeoverTimeout s = .next (settle (announceAll (memActive
      ((finish c stTimeout [] { s with twin := { s.twin with swap := .none, relinquished := none } }).modTwin
        (fun t => { t with hostTx := true }))))) := by
  simp [execSwapTakeoverTimeout, swapping, beat, standby, present, heard, State.modTwin]

end Swap

/-- R276: a reply that passes the receive checks, and whose fields and sequence number name a request, is taken. -/
theorem execWitness_replies {p : Pkt} {b : WitBody} {s t u : State} {r : WitReq}
    (checked : rxChecks p false (headerOk p false 24 && singleOk p && noTarget p) (s.authentic p false 0x0D (witPayload b)) true false s = (t, true))
    (inSequence : seqChecks p none t = (u, true))
    (fits : (ackDue p.conn.toNat (p.psn != (u.conn p.conn.toNat).cumPsn + 1) (settlePkt p u)).replyOk b = true)
    (asked : (ackDue p.conn.toNat (p.psn != (u.conn p.conn.toNat).cumPsn + 1) (settlePkt p u)).twin.witReqs.find?
      (fun r => r.wseq == b.wseq) = some r) :
    execWitness p b s = .next (settle (witReply r b (ackDue p.conn.toNat (p.psn != (u.conn p.conn.toNat).cumPsn + 1) (settlePkt p u)))) := by
  simp only [execWitness, checked, inSequence, fits, asked, Bool.not_true, Bool.false_eq_true, if_false, if_true]

/-- Settles O30: each port event, timer and reply takes the branch that its state names. -/
theorem twinTimersAndWitness : Obligations.TwinTimersAndWitness := by
  refine ⟨fun p n ok pair s usable => ⟨fun own lanes paired => execTwinPortTrained_fits usable own lanes paired,
      fun wrong => execTwinPortTrained_misfits usable wrong⟩,
    fun p s => ⟨fun up => execTwinPortLinkLoss_inService up, fun out => execTwinPortLinkLoss_outOfService out⟩,
    fun p s up => ⟨fun owed => ?ack, fun none => ?noAck, fun kept open_ => ?replay, fun ⟨c, sent⟩ => ?noReplay, fun kept => ?stall⟩,
    fun p n u s => ⟨fun bad => ?fecBad, fun few clean => ?fecGood⟩, fun s standby owed admits => ?applyAck,
    fun e l t s waits up short => execTwinCreditWaitTimer_stalls waits up short,
    fun s ready => ⟨fun open_ => ?beat, fun c sent => ?relinquish⟩,
    fun s active heard => ⟨fun none => execDigestTimer_first active none,
      fun l sent missed => execDigestTimer_third active heard sent missed⟩,
    fun s heard => ⟨fun active alone => ?soloOn, fun w active witnessed => ?askSolo, fun standby inStep calm => ?askTake⟩,
    fun w s witnessed ready answered => ?renew, fun s none => ?resend, fun w s waits => ?retry, fun e s lease => ?lapse,
    fun c t s s1 => ?swapS1, fun c s s2 => ⟨fun unheard => execSwapTakeoverTimeout_unheard s2 unheard,
      fun b beat standby present heard => execSwapTakeoverTimeout_resumes s2 beat standby present heard⟩,
    fun p b s t u r checked inSequence fits asked => execWitness_replies checked inSequence fits asked⟩
  case ack => exact congrArg Host.Outcome.next (if_pos ⟨up, owed⟩)
  case noAck => exact congrArg Host.Outcome.next (if_neg fun ⟨_, owed⟩ => owed none)
  case replay => exact congrArg Host.Outcome.next (if_pos ⟨up, by simpa using kept, by simp [open_]⟩)
  case noReplay => exact congrArg Host.Outcome.next (if_neg (by simp [sent]))
  case stall => exact congrArg Host.Outcome.next (if_pos ⟨up, by simpa using kept⟩)
  case fecBad => exact congrArg Host.Outcome.next (if_pos (by simpa using bad))
  case fecGood => exact congrArg Host.Outcome.next (if_neg (by simp [few, clean]))
  case applyAck => exact congrArg Host.Outcome.next (if_pos ⟨standby, owed, by simp [admits]⟩)
  case beat =>
    show execHeartbeatTimer s = _
    simp only [execHeartbeatTimer, if_neg ready, open_]
  case relinquish =>
    show execHeartbeatTimer s = _
    simp only [execHeartbeatTimer, if_neg ready, sent]
  case soloOn =>
    exact congrArg Host.Outcome.next ((if_neg (by simp [heard])).trans (congrArg settle (peerSilent_active_alone active alone)))
  case askSolo =>
    exact congrArg Host.Outcome.next ((if_neg (by simp [heard])).trans (congrArg settle (peerSilent_active_witnessed active witnessed)))
  case askTake =>
    exact congrArg Host.Outcome.next ((if_neg (by simp [heard])).trans (congrArg settle (peerSilent_standby standby inStep calm)))
  case renew =>
    refine congrArg Host.Outcome.next ((if_neg (by simp [witnessed, ready])).trans ?_)
    simp only [answered, Bool.false_eq_true, if_false]
  case resend =>
    show execWitnessResendTimer s = _
    simp only [execWitnessResendTimer, none]
  case retry =>
    show execWitnessRetryTimer s = _
    simp only [execWitnessRetryTimer, waits, State.modTwin]
  case lapse =>
    refine congrArg Host.Outcome.next ((if_pos (.inl (by simp [lease]))).trans ?_)
    simp only [State.modTwin, lease, Option.getD_some]
  case swapS1 =>
    show execSwapS1Timeout s = _
    simp only [execSwapS1Timeout, s1, State.modTwin]

end Sys2Proof.Machine
end

section
/-! Responses of modules and the row work of the stripe engines (R88 to R91, R105 to R140, R157 to R170, R216, R217). -/

namespace Sys2Proof.Machine

open Sys2Proof

/-- A response is acted on when its tag is outstanding and its module has not failed. -/
theorem onResponse_taken {c tag : Nat} {op : MOp} {f : MCmd → State → State} {t : TagRec} {s u : State}
    (taken : takeTag c tag op s = some (t, u)) (kept : t.lost = false) : onResponse c tag op f s = afterMedia c (f t.cmd u) := by
  simp only [onResponse, taken, kept, Bool.false_eq_true, if_false]

/-! R165, R166: what a status other than OK and WRITE_FAIL calls for. -/

theorem badStatus_aborted (c : Nat) (m : MCmd) (s : State) :
    badStatus c m 4 s = s.modChan c (fun k => { k with waiting := k.waiting ++ [{ m with reissued := true }] }) := if_pos rfl

theorem badStatus_dieFailed (c : Nat) (m : MCmd) (s : State) : badStatus c m 3 s = moduleFailed c (loseCommand c m s) := by
  simp [badStatus]

section Responses

variable {c : Fin 144} {tag : Fin 1024} {t : TagRec} {s u : State} (kept : t.lost = false)

include kept

theorem execReadCwResponse_ok (d : Sector) (taken : takeTag c tag .readCw s = some (t, u)) :
    execReadCwResponse c tag 0 d s = .next (afterMedia c (readDone c t.cmd d.toList u)) :=
  congrArg Host.Outcome.next (onResponse_taken taken kept)

theorem execReadCwResponse_aborted (d : Sector) (taken : takeTag c tag .readCw s = some (t, u)) :
    execReadCwResponse c tag 4 d s = .next (afterMedia c (u.modChan c (fun k => { k with
      waiting := k.waiting ++ [{ t.cmd with reissued := true }] }))) := by
  have other : ¬ (4 : BitVec 16) = 0 := by decide
  have four : (4 : BitVec 16).toNat = 4 := rfl
  simp only [execReadCwResponse, onResponse_taken taken kept, if_neg other, four, badStatus_aborted]

theorem execWriteCwResponse_ok (taken : takeTag c tag .writeCw s = some (t, u)) : execWriteCwResponse c tag 0 s =
    .next (afterMedia c (modOp t.cmd.rowOp (fun o => { o with await := o.await.filter (fun p => p != chPos c) }) u)) :=
  congrArg Host.Outcome.next (onResponse_taken taken kept)

/-- R112: WRITE_FAIL fails the row's sector for good. -/
theorem execWriteCwResponse_fails (taken : takeTag c tag .writeCw s = some (t, u)) : execWriteCwResponse c tag 1 s = .next (afterMedia c
    (failForGood c t.cmd.grow (modOp t.cmd.rowOp (fun o => { o with await := o.await.filter (fun p => p != chPos c) }) u))) := by
  have written : (1 : BitVec 16).toNat ≤ 1 := by decide
  simp only [execWriteCwResponse, onResponse_taken taken kept, if_pos written, if_true]

theorem execDieResetResponse_fails (taken : takeTag c tag .dieReset s = some (t, u)) :
    execDieResetResponse c tag 3 s = .next (afterMedia c (moduleFailed c (loseCommand c t.cmd u))) := by
  have other : ¬ (3 : BitVec 16) = 0 := by decide
  have three : (3 : BitVec 16).toNat = 3 := rfl
  simp only [execDieResetResponse, onResponse_taken taken kept, if_neg other, three, badStatus_dieFailed]

/-- R170: a temperature is kept, and reported above the module's T_WARN. -/
theorem execTempResponse_ok {i : BitVec 16} {d : Descriptor} (taken : takeTag c tag .temp s = some (t, u))
    (desc : ((u.modChan c (fun k => { k with temp := i, tempValid := true })).chan c).desc = some d) : execTempResponse c tag 0 i s =
      .next (afterMedia c (if i.toInt > d.tWarn then raiseWith 992 c i.toNat (u.modChan c (fun k => { k with temp := i, tempValid := true }))
        else u.modChan c (fun k => { k with temp := i, tempValid := true }))) := by
  simp only [execTempResponse, onResponse_taken taken kept, desc, if_true]

section Descriptor

variable (d : Sector) (taken : takeTag c tag .descriptor s = some (t, u))

include taken

theorem execDescriptorResponse_whole {b : Bytes}
    (whole : descSettled ((u.modChan c (fun k => { k with descPages := tabPut k.descPages t.cmd.arg (slice d.toList 0 256) })).chan c) = true)
    (bytes : ((u.modChan c (fun k => { k with descPages := tabPut k.descPages t.cmd.arg (slice d.toList 0 256) })).chan c).descBytes = some b) :
    execDescriptorResponse c tag 0 d s = .next (settle (wakeCheck (chDrawer c) (runEngines (pumpChan c
      (descRead c b (u.modChan c (fun k => { k with descPages := tabPut k.descPages t.cmd.arg (slice d.toList 0 256) }))))))) := by
  simp only [execDescriptorResponse, taken, kept, whole, bytes, ne_eq, not_true_eq_false, Bool.not_true, Bool.false_eq_true, if_false]

theorem execDescriptorResponse_half
    (half : descSettled ((u.modChan c (fun k => { k with descPages := tabPut k.descPages t.cmd.arg (slice d.toList 0 256) })).chan c) = false) :
    execDescriptorResponse c tag 0 d s = .next (settle (wakeCheck (chDrawer c) (runEngines (pumpChan c
      (u.modChan c (fun k => { k with descPages := tabPut k.descPages t.cmd.arg (slice d.toList 0 256) })))))) := by
  simp only [execDescriptorResponse, taken, kept, half, ne_eq, not_true_eq_false, Bool.not_false, Bool.false_eq_true, if_false, if_true]

end Descriptor

end Responses

section Timeouts

variable {c : Fin 144} {tag : Fin 1024} {t : TagRec} {s : State} (out : (s.chan c).tags.find? (fun t => t.tag == tag.val) = some t)
  (kept : t.lost = false)

include out kept

theorem execDieCommandTimeout_reissued (die : t.cmd.op.dieQueue = true) (again : t.cmd.reissued = true) :
    execDieCommandTimeout c tag s = .next (afterMedia c (moduleFailed c s)) := by
  simp [execDieCommandTimeout, out, kept, die, again]

/-- R165: the first late command of a die has it reset. -/
theorem execDieCommandTimeout_first (die : t.cmd.op.dieQueue = true) (first : t.cmd.reissued = false) (unsent : t.resetSent = false)
    (idle : (s.chan c).tags.any (fun r => r.cmd.op == .dieReset && r.cmd.die == t.cmd.die) = false) :
    execDieCommandTimeout c tag s = .next (submit c { op := .dieReset, die := t.cmd.die, fg := false } (s.modChan c (fun k => { k with
      tags := k.tags.map (fun r => if r.tag = tag.val then { r with resetSent := true } else r), timeouts := sat16 k.timeouts }))) := by
  simp only [execDieCommandTimeout, out, kept, die, first, unsent, idle, Bool.not_true, Bool.or_self, Bool.false_eq_true, if_false]

theorem execDieResetTimeout_late (reset : t.cmd.op = .dieReset) :
    execDieResetTimeout c tag s = .next (afterMedia c (moduleFailed c s)) := by
  simp [execDieResetTimeout, out, kept, reset]

end Timeouts

/-! Row work. -/

theorem execRowUpdateStart_locks {g : Fin 16} {st ns cw : Nat} {p : Place} {s : State} (works : s.grpWorks g = true)
    (room : s.reserveRoom g = true) (chosen : s.chooseCw g = some (st, ns, cw)) (place : s.decodeOff ns (256 * cw) = some p) :
    execRowUpdateStart g s = .next (openOp { id := 0, grp := g, grow := p.grow, dst := p.grow, purpose := .host ns (cw / 8 * 2048) []
                                             phase := .merge, locked := true } s) := by
  simp [execRowUpdateStart, works, room, chosen, place]

theorem execRebuildRow_next {g : Fin 16} {s : State} (rebuilds : (s.grp g).st = .rebuilding) (works : s.grpWorks g = true)
    (goes : s.rebuildHeld = false) (kept : (s.modGrp g (fun k => { k with paused := s.rebuildHeld })).unitAborted codeRebuild g = false)
    (idle : (s.modGrp g (fun k => { k with paused := s.rebuildHeld })).ops.any (fun o => o.grp == g.val && o.purpose == .rebuild) = false) :
    execRebuildRow g s = .next (
      let t := s.modGrp g (fun k => { k with paused := s.rebuildHeld })
      settle (openOp { id := 0, grp := g, grow := (t.grp g).rebuildPtr, dst := (t.grp g).rebuildPtr
                       purpose := .rebuild, phase := .read } t)) := by
  have running : ((s.modGrp g (fun k => { k with paused := s.rebuildHeld })).grp g).paused = false := by simp [goes]
  refine congrArg Host.Outcome.next ((if_neg (by simp [rebuilds, works])).trans ((if_neg (by simp [kept])).trans (if_neg ?_)))
  rw [running, idle]
  decide

/-- Settles O31: a response does what its status calls for, and row work begins where its conditions hold. -/
theorem mediaResponsesAndRowWork : Obligations.MediaResponsesAndRowWork := by
  refine ⟨fun c tag d t u s taken kept => ⟨execReadCwResponse_ok kept d taken, execReadCwResponse_aborted kept d taken⟩,
    fun c tag t u s taken kept => ⟨execWriteCwResponse_ok kept taken, execWriteCwResponse_fails kept taken⟩,
    fun c tag i t u s taken kept => ?dieStatus, fun c tag t u s taken kept => ⟨?dieReset, execDieResetResponse_fails kept taken⟩,
    fun c tag i t d u s taken kept desc => ⟨fun cool => ?cool, fun warm => ?warm⟩,
    fun c tag d t u s taken kept => ⟨fun b whole bytes => execDescriptorResponse_whole kept d taken whole bytes,
      fun half => execDescriptorResponse_half kept d taken half⟩,
    fun c tag t s out die kept => ⟨fun again => execDieCommandTimeout_reissued out kept die again,
      fun first unsent idle => execDieCommandTimeout_first out kept die first unsent idle⟩,
    fun c tag t s out reset kept => execDieResetTimeout_late out kept reset,
    fun g st ns cw p s works room chosen place => execRowUpdateStart_locks works room chosen place,
    fun id o s is_ => ⟨fun merges => ?merged, fun later => ?notMerged⟩, fun id c o s is_ writes here late => ?lease,
    fun g e s due => ⟨fun quiet => ?moves, fun busy => ?yields, ?proceeds⟩, fun g s live awake quiet rows => ?scrub,
    fun d s asleep formatted => ?parkScrub, fun g s rebuilds works goes kept idle => execRebuildRow_next rebuilds works goes kept idle⟩
  case dieStatus => exact congrArg Host.Outcome.next (onResponse_taken taken kept)
  case dieReset => exact congrArg Host.Outcome.next (onResponse_taken taken kept)
  case cool => exact (execTempResponse_ok kept taken desc).trans (by rw [if_neg (not_lt.mpr cool)])
  case warm => exact (execTempResponse_ok kept taken desc).trans (by rw [if_pos warm])
  case merged =>
    show execMergeWaitExpiry id s = _
    simp only [execMergeWaitExpiry, is_, if_pos merges]
  case notMerged =>
    show execMergeWaitExpiry id s = _
    simp only [execMergeWaitExpiry, is_, if_neg later]
  case lease =>
    show execRowLeaseExpiry id c s = _
    simp only [execRowLeaseExpiry, is_, if_pos (And.intro writes (And.intro here late))]
  case moves => exact congrArg Host.Outcome.next (if_pos (by simp [due, quiet]))
  case yields => exact congrArg Host.Outcome.next (if_neg (by simp [busy]))
  case proceeds => exact congrArg Host.Outcome.next (if_pos due)
  case scrub => exact congrArg Host.Outcome.next (if_pos (by simp [live, awake, quiet, rows]))
  case parkScrub => exact congrArg Host.Outcome.next (if_pos ⟨asleep, by simpa using formatted⟩)

end Sys2Proof.Machine
end

section
/-! The media link: flits, retry, training, sideband and temperature (R144 to R156, R170 to R175). -/

namespace Sys2Proof.Machine

open Sys2Proof

theorem anyFlit_active {c : Nat} {s : State} (b : Bytes) (active : (s.chan c).link = .active) :
    anyFlit c b s = flitRx c (scramble (s.chan c).rxScr b).1 (s.modChan c (fun k => { k with rxScr := (scramble (s.chan c).rxScr b).2 })) := by
  simp only [anyFlit, active]

theorem anyFlit_confirm {c : Nat} {s : State} (b : Bytes) (confirm : (s.chan c).link = .confirm) : anyFlit c b s =
    confirmFlit c (scramble (s.chan c).rxScr b).1 (s.modChan c (fun k => { k with rxScr := (scramble (s.chan c).rxScr b).2 })) := by
  simp only [anyFlit, confirm]

/-- Only the value at the channel counts in a change of it. -/
theorem modChan_congr {c : Nat} {f g : Chan → Chan} {s : State} (same : f (s.chan c) = g (s.chan c)) :
    s.modChan c f = s.modChan c g :=
  congrArg (fun k => { s with chans := tabSet {} s.chans c k }) same

/-- R145: a set of the module before EQUALISE sets its preset, and counts when it is locked. -/
theorem trn1Rx_detect {c pr : Nat} {s : State} (rq : Nat) (e : Bool) (detect : (s.chan c).link = .detect) (preset : pr ≤ 10)
    (full : (s.chan c).shortTrain = false) (fresh : (s.chan c).eqTry = none) (undone : (s.chan c).eqDone = false) :
    trn1Rx c pr rq true e s =
      if (s.chan c).trn1Lock + 1 ≥ 8 then
        equalise c ((s.modChan c (fun k => { k with trn1Lock := (s.chan c).trn1Lock + 1, mPreset := pr })).modChan c
          (fun k => { k with link := if k.link = .detect then .equalise else k.link }))
      else s.modChan c (fun k => { k with trn1Lock := (s.chan c).trn1Lock + 1, mPreset := pr }) := by
  have counted : s.modChan c (fun k => { k with
      trn1Lock := (s.chan c).trn1Lock + 1, mPreset := if pr ≤ 10 then pr else k.mPreset
      cPreset := if rq ≤ 10 ∧ !k.shortTrain ∧ k.equalising then rq else k.cPreset }) =
      s.modChan c (fun k => { k with trn1Lock := (s.chan c).trn1Lock + 1, mPreset := pr }) :=
    modChan_congr (by simp [preset, fresh, undone, Chan.equalising])
  simp only [trn1Rx, detect, full, counted, if_true]
  simp [fresh, undone, Chan.equalising]

/-- Settles O32: per command, its branch under the clause's hypotheses. -/
theorem mediaLinksTrainAndCarry : Obligations.MediaLinksTrainAndCarry := by
  refine ⟨fun c f s active => ?flit, fun c f s confirm => ?confirmFlit, fun c s active => ?retry, fun c s => ?loss,
    fun c pr rq e s detect preset full fresh undone => ?trn1, fun c x pr rq l e s own => ?own, fun c s confirm => ?trn2,
    fun c s training => ?late, fun c s retrain => ?lateAgain, fun c s confirm => ?expiry, fun c s active closing => ?idle,
    fun d a s => ?sideband, fun c x s desc sensor active => ?temp, fun c s => rfl⟩
  case flit =>
    have received := congrArg (fun u : State => (Host.Outcome.next (afterLink c u) : Res)) (anyFlit_active f.toList active)
    exact ⟨received, received⟩
  case confirmFlit =>
    have received := congrArg (fun u : State => (Host.Outcome.next (afterLink c u) : Res)) (anyFlit_confirm f.toList confirm)
    exact ⟨fun bad => received.trans (congrArg (fun u : State => (Host.Outcome.next (afterLink c u) : Res)) (if_pos bad)),
      fun good => received.trans (congrArg (fun u : State => (Host.Outcome.next (afterLink c u) : Res)) (if_neg (not_not_intro good)))⟩
  case retry =>
    exact ⟨fun owed => congrArg Host.Outcome.next (if_pos ⟨active, owed⟩),
      fun none => congrArg Host.Outcome.next (if_neg (by simp [none])),
      fun kept => congrArg Host.Outcome.next (if_pos ⟨active, by simpa using kept⟩),
      fun none => congrArg Host.Outcome.next (if_neg (by simp [none]))⟩
  case loss =>
    constructor <;> intro link
    · show execBlockAlignmentLoss c s = _
      simp only [execBlockAlignmentLoss, link]
    · show execBlockAlignmentLoss c s = _
      simp only [execBlockAlignmentLoss, link]
  case trn1 =>
    have set := trn1Rx_detect rq e detect preset full fresh undone
    constructor <;> intro locked
    · exact congrArg Host.Outcome.next (set.trans (if_neg (by omega)))
    · refine congrArg Host.Outcome.next (set.trans ((if_pos (by omega)).trans (congrArg (equalise c) ?_)))
      exact modChan_congr (by simp [detect])
  case own => exact congrArg Host.Outcome.next (if_neg own)
  case trn2 => exact congrArg Host.Outcome.next (if_pos ⟨rfl, Or.inl confirm⟩)
  case late =>
    show execTrainingStepTimeout c s = _
    rcases training with link | link | link <;> simp only [execTrainingStepTimeout, link]
  case lateAgain =>
    constructor <;> intro second
    · show execTrainingStepTimeout c s = _
      simp only [execTrainingStepTimeout, retrain, second, Bool.not_false, if_true]
    · show execTrainingStepTimeout c s = _
      simp only [execTrainingStepTimeout, retrain, second, Bool.not_true, Bool.false_eq_true, if_false]
  case expiry =>
    exact ⟨fun clean seen => congrArg Host.Outcome.next (if_pos ⟨Or.inl confirm, by simp [clean], seen⟩),
      fun bad => congrArg Host.Outcome.next (if_neg (by rintro ⟨-, clean, seen⟩; simp at clean; simp [clean] at bad; omega))⟩
  case idle => exact congrArg Host.Outcome.next (if_pos ⟨active, closing⟩)
  case sideband =>
    exact ⟨fun on => congrArg Host.Outcome.next (if_pos on), fun off => congrArg Host.Outcome.next (if_neg (by simp [off]))⟩
  case temp =>
    show execTempPollTimer c s = _
    simp only [execTempPollTimer, desc, sensor, active, and_self, if_true]

end Sys2Proof.Machine
end

section
/-! Timers of drawers and schedules (R184 to R205, R505, R527, R538, R687). -/

namespace Sys2Proof.Machine

open Sys2Proof

section Drawer

variable {d : Fin 8} {s : State}

theorem execDrawerWakeStepTimeout_early (waking : (s.drw d).st = .waking)
    (early : (s.drw d).step = .w1 ∨ (s.drw d).step = .w2 ∨ (s.drw d).step = .w3 ∨ (s.drw d).step = .w4) :
    execDrawerWakeStepTimeout d s = .next (settle (drawerFault d true s)) := by
  rcases early with step | step | step | step <;> simp only [execDrawerWakeStepTimeout, waking, step, ne_eq, not_true_eq_false, if_false]

/-- R184: with every descriptor settled the bound of W6 leads on to the markers. -/
theorem execDrawerWakeStepTimeout_settled (waking : (s.drw d).st = .waking) (step : (s.drw d).step = .w6)
    (settled : ∀ i, i < 18 → descSettled (s.chan (18 * d + i)) = true) :
    execDrawerWakeStepTimeout d s = .next (settle (markerCheck d s)) := by
  have none_late : ((List.range 18).map (fun i => 18 * d.val + i)).filter (fun c => !descSettled (s.chan c)) = [] := by
    rw [List.filter_eq_nil_iff]
    intro c among
    obtain ⟨i, below, rfl⟩ := List.mem_map.1 among
    simp [settled i (List.mem_range.1 below)]
  simp only [execDrawerWakeStepTimeout, waking, step, none_late, forEach, List.foldl_nil, ne_eq, not_true_eq_false, and_self,
    if_false, if_true]

/-- R538: nothing to recover and no fill under way: the load is all that W7 does. -/
theorem execEaselStateLoaded_clean (waking : (s.drw d).st = .waking) (step : (s.drw d).step = .w7) (first : (s.drw d).loaded = false)
    (clean : (s.drw d).recovering = []) (filled : ∀ e ∈ s.easels, e.2.filling = false) :
    execEaselStateLoaded d s = .next (settle (s.modDrw d (fun k => { k with loaded := true }))) := by
  have no_fill : s.easels.filter (fun e => e.2.filling && (e.1 / 4096) / 2 == d.val) = [] := by
    rw [List.filter_eq_nil_iff]
    intro e among
    simp [filled e among]
  simp only [execEaselStateLoaded, waking, step, first, clean, forEach, List.foldl_nil, no_fill, List.map_nil, Bool.not_false,
    and_self, if_true]

/-- R205: with the acknowledgement waited for no more, a wake whose own part is done ends. -/
theorem wakeFinish_unwaited (waking : (s.drw d).st = .waking) : wakeFinish d (s.modDrw d (fun k => { k with wakeLsn := none })) =
    if (s.drw d).wakeDone then becomeAwake d (s.modDrw d (fun k => { k with wakeLsn := none }))
    else s.modDrw d (fun k => { k with wakeLsn := none }) := by
  simp [wakeFinish, waking]

theorem parkBack_unlatched (latch : (s.drw d).latch = .none) : parkBack d s =
    s.modDrw d (fun k => { k with st := .awake, step := .none, draining := false, cmds := [], latch := .none }) := by
  simp only [parkBack, latch]

theorem execDrawerSettleTimer_wakes {ws : List Nat} (latch : (s.drw d).latch = .wake ws) (parked : (s.drw d).st = .parked)
    (rest : (s.drw d).step = .none) (off : ∀ i, i < 4 → (s.rail (drawerRail d i)).down = true) :
    execDrawerSettleTimer d s = .next (settle (beginWake d ws (s.modDrw d (fun k => { k with latch := .none })))) := by
  have fallen : (List.range 4).all (fun i => (s.rail (drawerRail d i)).down) = true := by
    rw [List.all_eq_true]
    exact fun i below => off i (List.mem_range.1 below)
  simp only [execDrawerSettleTimer, latch, parked, rest, fallen, true_or, and_self, if_true]

theorem execDrawerCheckTimer_logs {t : Nat} (check : s.twin.checks = [(d.val, t)]) (logs : s.logging = true) :
    execDrawerCheckTimer d s = .next (logControl 0x0304 0 (s.drw d).st.code (.drawerCheck d (s.drw d).st.code)
      { s with twin := { s.twin with checks := [] } }).1 := by
  have found : s.twin.checks.find? (fun c => c.1 == d.val) = some (d.val, t) := by simp [check]
  have left : s.twin.checks.erase (d.val, t) = [] := by simp [check]
  have still : { s with twin := { s.twin with checks := [] } }.logging = true := logs
  simp only [execDrawerCheckTimer, found, State.modTwin, left, still, if_true]
  rfl

/-- R527: step 11 begins a wake of a parked drawer. -/
theorem requestWake_parked (parked : (s.drw d).st = .parked) (rest : (s.drw d).step = .none) (cold : (s.drw d).fellAt = 0) :
    requestWake d none s = beginWake d [] s := by
  simp [requestWake, parked, rest, cold]

end Drawer

/-- Settles O33: per timer, its branch under the clause's hypotheses. -/
theorem drawerTimersMoveTheDrawer : Obligations.DrawerTimersMoveTheDrawer := by
  refine ⟨fun s d waking early => execDrawerWakeStepTimeout_early waking early,
    fun s d waking step settled => execDrawerWakeStepTimeout_settled waking step settled,
    fun s d waking step first clean filled => execEaselStateLoaded_clean waking step first clean filled,
    fun s d waking own => ?done, fun s d waking open_ => ?undone, fun s d parking early idle latch => ?parkStep,
    fun s d ws latch parked rest off => execDrawerSettleTimer_wakes latch parked rest off,
    fun s d serving awake timed free able => ?parkIdle, fun s d t check logs => execDrawerCheckTimer_logs check logs,
    fun s d step wakes parked rest cold => ?stagger, fun s h serving => ?tick⟩
  case done =>
    exact congrArg Host.Outcome.next ((if_pos waking).trans (congrArg settle ((wakeFinish_unwaited waking).trans (if_pos own))))
  case undone =>
    exact congrArg Host.Outcome.next ((if_pos waking).trans (congrArg settle ((wakeFinish_unwaited waking).trans
      (if_neg (by simp [open_])))))
  case parkStep =>
    show execParkStepTimeout d s = _
    simp only [execParkStepTimeout, if_pos (And.intro parking early), idle, finishAll, forEach, List.foldl_nil, parkBack_unlatched latch]
  case parkIdle => exact congrArg Host.Outcome.next (if_pos ⟨serving, awake, timed, free, by simp [able]⟩)
  case stagger =>
    show execPrimingDrawerWakeStagger d s = _
    have none_left : s.prime.wakes.filter (fun x => x != d.val) = [] := by simp [wakes]
    have now_ : s.prime.step = 11 ∧ s.prime.wakes.contains d.val = true := ⟨step, by simp [wakes]⟩
    simp only [execPrimingDrawerWakeStagger, if_pos now_, State.modPrime, none_left]
    exact congrArg (fun u : State => (Host.Outcome.next (settle u) : Res)) (requestWake_parked parked rest cold)
  case tick => exact congrArg Host.Outcome.next (if_pos serving)

end Sys2Proof.Machine
end

section
/-! The dirty budget, the spillway, drains, resets and monitors (R51 to R66, R219 to R222, R236, R268, R653, R655). -/

namespace Sys2Proof.Machine

open Sys2Proof

/-! The dirty budget. -/

theorem lowCheck_stays {s : State} (low : s.dura.clow = true) (short : 2 * s.dura.dmax < 3 * s.sumpSize) : lowCheck s = s := by
  have below : ¬ 2 * s.dura.dmax ≥ 3 * s.sumpSize := by omega
  simp only [lowCheck, low, below, Bool.not_true, Bool.false_eq_true, and_false, false_and, if_false]

theorem lowCheck_enters {s : State} (high : s.dura.clow = false) (short : s.dura.dmax < s.sumpSize) :
    lowCheck s = raise 997 (s.modDura (fun d => { d with clow := true })) :=
  if_pos ⟨short, by simp [high]⟩

/-- The state that an evaluation judges: the energy and the budget that it has measured (R55, R514). -/
def budgetTaken (s : State) : State := { s with
  power := { s.power with emeas := s.energy.1 / s.energy.2 }, dura := { s.dura with dmax := s.dMax s.energy } }

theorem budgetTaken_sumpSize (s : State) : (budgetTaken s).sumpSize = s.sumpSize := rfl
theorem budgetTaken_dirtyTotal (s : State) : (budgetTaken s).dirtyTotal = s.dirtyTotal := rfl
theorem budgetTaken_dmax (s : State) : (budgetTaken s).dura.dmax = s.dMax s.energy := rfl
theorem budgetTaken_clow (s : State) : (budgetTaken s).dura.clow = s.dura.clow := rfl
theorem budgetTaken_overBud (s : State) : (budgetTaken s).dura.overBud = s.dura.overBud := rfl

/-- R59: whether the dirty total is over budget, held over at the budget itself. -/
def budgetHeld (s : State) : State := { s with dura := { s.dura with
  overBud := decide (s.dirtyTotal > s.dura.dmax) || (s.dura.overBud && decide (s.dirtyTotal = s.dura.dmax)) } }

theorem execDirtyBudgetEval_eq (s : State) : execDirtyBudgetEval s = .next (settle (budgetHeld (lowCheck (budgetTaken s)))) := rfl

/-! The spillway. -/

theorem spillCheck_lines (s : State) : (spillCheck s).sump.lines = s.sump.lines := by
  simp only [spillCheck, State.modSump]
  split
  · rfl
  · split <;> rfl

theorem untilNone_none {σ : Type} {f : σ → Option σ} {s : σ} (n : Nat) (stop : f s = none) : untilNone f n s = s := by
  cases n with
  | zero => rfl
  | succ n => simp only [untilNone, stop]

theorem spillMove_inactive {s : State} (still : (spillCheck s).sump.spillActive = false) : spillMove s = none := by
  simp [spillMove, still]

theorem spillMove_active {s : State} (active : (spillCheck s).sump.spillActive = true) : spillMove s = spillOne (spillCheck s) := by
  simp [spillMove, active]

theorem spillOne_stuck {s : State} (stuck : s.atCeiling = true ∨ oldestCw s.spillable = none) : spillOne s = none := by
  rcases stuck with full | empty
  · exact if_pos full
  · simp only [spillOne, empty, ite_self]

theorem spillAll_stuck {s : State} (stuck : spillMove s = none) : spillAll s = spillCheck s :=
  congrArg spillCheck (untilNone_none _ stuck)

/-- R220: a codeword moved, and the spillway no longer active after it. -/
theorem spillAll_once {s t : State} (lines : s.sump.lines ≠ []) (moved : spillMove s = some t) (stop : spillMove t = none) :
    spillAll s = spillCheck t := by
  obtain ⟨n, len⟩ := Nat.exists_eq_succ_of_ne_zero (fun none_ => lines (List.length_eq_zero_iff.1 none_))
  simp only [spillAll, len, untilNone, moved, untilNone_none n stop]

theorem lines_ne_nil_of_oldest {s : State} {x : Nat × Nat × Nat} (oldest : oldestCw s.spillable = some x) : s.sump.lines ≠ [] := by
  intro none_
  simp [State.spillable, none_, oldestCw] at oldest

theorem spillMove_moves {s v : State} {stamp ns cw : Nat} (active : (spillCheck s).sump.spillActive = true)
    (room : (spillCheck s).atCeiling = false) (oldest : oldestCw (spillCheck s).spillable = some (stamp, ns, cw))
    (entry : (if ((spillCheck s).ovEntry ns cw).isNone then entryRoom (spillCheck s) else some (spillCheck s)) = some v) :
    let mine := fun (l : SumpLine) => l.st == .dirty && l.ns == ns && l.line / 4 == cw
    let ls := (spillCheck s).sump.lines.filter mine
    spillMove s = some (ovMerge
      { ns, cw, stamp, lsn := ls.foldl (fun x l => serialMax x l.lsn) 0, conns := ls.foldl (fun acc l => l.conns.foldl earliestOf acc) []
        img := (List.range 4).flatMap (fun k => match ls.find? (fun l => l.line % 4 == k) with | some l => l.img | none => imgEmpty 64)
        poison := maskOf 4 ((ls.filter (fun l => l.poison)).map (fun l => l.line % 4)) }
      (v.modSump (fun u => { u with lines := u.lines.filter (fun l => !mine l) }))) := by
  rw [spillMove_active active]
  simp only [spillOne, room, oldest, entry, Bool.false_eq_true, if_false] <;> rfl

/-! The lag. -/

theorem State.lagFull_of_aged {s : State} {r : LagRec} (kept : r ∈ s.dura.lag) (aged : r.time + 64000 ≤ s.now) : s.lagFull = true := by
  simp only [State.lagFull, Bool.or_eq_true, List.any_eq_true]
  exact Or.inr ⟨r, kept, decide_eq_true aged⟩

/-- R52: a FLUSH_MIRROR with a write the peer has not applied goes on. -/
theorem flushStart_waits {s : State} {r : LagRec} (kept : r ∈ s.dura.lag) (active : s.twin.role = .active)
    (open_ : s.ackedTo r.lsn = false) (full : s.dura.clow = false) :
    flushStart s = { s with dura := { s.dura with busy := true, cover := (s.dura.lag.map (·.lsn)).filter (fun l => !s.ackedTo l) } } := by
  have left : ((s.dura.lag.map (·.lsn)).filter (fun l => !s.ackedTo l)).isEmpty = false := by
    rw [List.isEmpty_eq_false_iff_exists_mem]
    exact ⟨r.lsn, List.mem_filter.2 ⟨List.mem_map.2 ⟨r, kept, rfl⟩, by simp [open_]⟩⟩
  have acked (l : Lsn) : (s.modDura (fun d => { d with busy := true, cover := d.lag.map (·.lsn) })).ackedTo l = s.ackedTo l := rfl
  simp only [flushStart, flushCheck, acked]
  simp [State.modDura, full, active, left]

/-! Drains and resets. -/

theorem State.hostDraining_of_none {s : State} (idle : s.host.drain = .none) : s.hostDraining = false := by
  simp only [State.hostDraining, idle]

theorem drainComplete_waits {s : State} (waits : s.prime.drain = none ∨ s.drained = false) : drainComplete s = s := by
  rcases waits with none_ | open_
  · simp only [drainComplete, none_]
  · simp only [drainComplete, open_, Bool.false_eq_true, if_false]
    split <;> rfl

section Drain

variable {s : State} {d : Drain} (drain : s.prime.drain = some d) (drained : s.drained = true)

include drain drained

theorem drainComplete_drained : drainComplete s = if (sealOnce d s).metaOpen then sealOnce d s else endDrain d (sealOnce d s) := by
  simp only [drainComplete, drain, drained, if_true]

theorem drainComplete_sealed (sealed : d.sealed = true) (closed : s.metaOpen = false) : drainComplete s = endDrain d s := by
  have once : sealOnce d s = s := if_pos (by simp [sealed])
  simp only [drainComplete_drained drain drained, once, closed, Bool.false_eq_true, if_false]

end Drain

theorem sealOnce_first {d : Drain} (first : d.sealed = false) (own : d.cmd = none) (s : State) :
    sealOnce d s = sealDrain d { s with prime := { s.prime with drain := some { d with sealed := true } } } :=
  if_neg (by simp [first, own])

theorem endDrain_orderly {d : Drain} (orderly : d.kind = .orderly) (s : State) :
    endDrain d s = releaseLine (s.modPrime (fun p => { p with drain := none })) := by
  simp only [endDrain, orderly]

theorem endDrain_power {d : Drain} (power : d.kind = .power) (s : State) : endDrain d s =
    let t := (powerLogF 3 (if s.leftBytes = 0 then 1 else 2) s).modPrime (fun p => { p with drain := none })
    if t.power.stepTo = some (14, true) then releaseLine t
    else if t.power.wl = 15 then soloDown 12 { t with power := { t.power with soloUp := false, solo := true, goingDown := true } }
    else goDown t := by
  simp only [endDrain, power]
  rfl

/-- R526: a reset that advances no life cycle begins a warm priming once its line is let go. -/
theorem endDrain_reset {d : Drain} {c : ResetCause} (reset : d.kind = .reset c) (own : d.cmd = none) (s : State) : endDrain d s =
    let t := s.modPrime (fun p => { p with drain := none, heldReset := [], heldHost := false })
    if s.power.stepTo = some (14, true) then releaseLine (t.modPrime (fun p => { p with warmDue := true })) else beginPriming true t := by
  simp only [endDrain, reset, own]
  rfl

theorem startReset_inRun {s : State} (cause : ResetCause) (idle : s.prime.drain = none) (host : s.host.drain = .none)
    (run : s.power.wl = 13) : startReset cause s = pullLine 14 true (startDrain (.reset cause) none s) := by
  simp only [startReset, idle, State.hostDraining_of_none host, run, Option.isSome_none, Bool.or_self, Bool.false_eq_true, if_false,
    if_true]

/-! Clock islands. -/

/-- Only the value at the island counts in a change of it. -/
theorem modIsland_congr {i : Nat} {f g : Island → Island} {s : State} (same : f (s.island i) = g (s.island i)) :
    s.modIsland i f = s.modIsland i g :=
  congrArg (fun k => { s with ev := { s.ev with islands := tabSet {} s.ev.islands i k } }) same

theorem windowCause_good {nom khz : Nat} (low : 95 * nom ≤ 100 * khz) (high : 100 * khz ≤ 105 * nom) : windowCause nom khz true = 0 := by
  have not_low : ¬ 100 * khz < 95 * nom := by omega
  have not_high : ¬ 100 * khz > 105 * nom := by omega
  simp [windowCause, not_low, not_high]

theorem windowCause_bad {nom khz cause : Nat} {e : Bool} (bad : (e = false ∧ cause = 1) ∨ (e = true ∧ 100 * khz < 95 * nom ∧ cause = 2) ∨
    (e = true ∧ 105 * nom < 100 * khz ∧ cause = 3)) : windowCause nom khz e = cause ∧ cause ≠ 0 := by
  rcases bad with ⟨rfl, rfl⟩ | ⟨rfl, low, rfl⟩ | ⟨rfl, high, rfl⟩
  · simp [windowCause]
  · simp [windowCause, low]
  · have above : ¬ 100 * khz < 95 * nom := by omega
    simp [windowCause, high, above]

section Island

variable {s : State} {i : Fin 100} {khz : Nat}

theorem execClockMonitorWindow_good (low : 95 * nominalKhz i ≤ 100 * khz) (high : 100 * khz ≤ 105 * nominalKhz i) :
    execClockMonitorWindow i khz true s = .next (if (s.island i).fault then
      (s.modIsland i (fun x => { x with khz := khz, running := true })).modIsland i
        (fun x => if 2 ≤ x.good then { x with fault := false, good := 0 } else { x with good := x.good + 1 })
      else s.modIsland i (fun x => { x with khz := khz, running := true })) := by
  simp only [execClockMonitorWindow, windowCause_good low high, ne_eq, not_true_eq_false, if_false]

variable {cause : Nat} {e : Bool} (shown : windowCause (nominalKhz i) khz e = cause) (bad : cause ≠ 0)

include shown bad

/-- R655: an island in fault keeps its count of faults. -/
theorem execClockMonitorWindow_stays (fault : (s.island i).fault = true) : execClockMonitorWindow i khz e s =
    .next ((s.modIsland i (fun x => { x with khz := khz, running := e })).modIsland i
      (fun x => { x with fault := true, cause := cause, good := 0 })) := by
  simp only [execClockMonitorWindow, shown, ne_eq, bad, not_false_eq_true, fault, if_true]

theorem execClockMonitorWindow_enters (sound : (s.island i).fault = false) : execClockMonitorWindow i khz e s =
    .next (settle (relinquishCause (raiseWith 994 i cause
      ((s.modIsland i (fun x => { x with khz := khz, running := e })).modIsland i
        (fun x => { x with fault := true, cause := cause, good := 0, faults := sat16 x.faults }))))) := by
  simp only [execClockMonitorWindow, shown, ne_eq, bad, not_false_eq_true, sound, Bool.false_eq_true, if_true, if_false]

end Island

/-- R236: a stalled medium, by role. -/
theorem mediaStalled_of_role (s : State) :
    (s.twin.role = .active → mediaStalled s = enterFenced 5 (sendRelinquish 0 s)) ∧
    (s.twin.role = .standby → mediaStalled s = enterFenced 5 (sendRelinquish 3 s)) ∧
    (s.twin.role = .solo → mediaStalled s = enterFenced 5 s) ∧
    (s.twin.role = .fenced ∨ s.twin.role = .priming → mediaStalled s = s) := by
  refine ⟨fun role => ?_, fun role => ?_, fun role => ?_, fun role => ?_⟩
  · simp only [mediaStalled, role]
  · simp only [mediaStalled, role]
  · simp only [mediaStalled, role]
  · rcases role with role | role <;> simp only [mediaStalled, role]

theorem execMediaStallTimer_stuck {s : State} (stuck : s.mediaStuck = true) :
    execMediaStallTimer s = .next (settle (mediaStalled s)) := congrArg Host.Outcome.next (if_pos stuck)

/-- Settles O34: per command, its branch under the clause's hypotheses. -/
theorem budgetDrainsAndMonitors : Obligations.BudgetDrainsAndMonitors := by
  refine ⟨fun s low short => ?budget, fun s still => ?still, fun s v stamp ns cw active room oldest entry => ?moves,
    fun s r kept aged => ?aged, fun s r kept active open_ full => ?flush, fun s d drain drained => ⟨fun first own => ?seals, ?ends⟩,
    fun s key other => ?otherKey, fun s serving deployed => ?refused, fun s unserved role idle host run => ?reset, fun s => rfl,
    fun s free => ?free, fun s stuck => ?stuck, fun s i khz fault low high good => ?good, fun s i khz fault => ?noEdge⟩
  case budget =>
    have kept := lowCheck_stays (s := budgetTaken s) (budgetTaken_clow s ▸ low)
      (by rw [budgetTaken_dmax, budgetTaken_sumpSize]; exact short)
    refine (execDirtyBudgetEval_eq s).trans ?_
    rw [kept, budgetHeld, budgetTaken_dirtyTotal, budgetTaken_dmax, budgetTaken_overBud]
    rfl
  case still => exact congrArg (fun t : State => (Host.Outcome.next (settle t) : Res)) (spillAll_stuck (spillMove_inactive still))
  case moves =>
    intro mine ls t stop
    exact congrArg (fun t : State => (Host.Outcome.next (settle t) : Res)) (spillAll_once
      (spillCheck_lines s ▸ lines_ne_nil_of_oldest oldest) (spillMove_moves active room oldest entry) (spillMove_inactive stop))
  case aged => exact congrArg Host.Outcome.next (if_pos (State.lagFull_of_aged kept aged))
  case flush => exact congrArg (fun t : State => (Host.Outcome.next (settle t) : Res)) (flushStart_waits kept active open_ full)
  case seals =>
    have done := (drainComplete_drained drain drained).trans (by rw [sealOnce_first first own])
    exact ⟨fun waits => congrArg (fun t : State => (Host.Outcome.next (settle t) : Res)) (done.trans (if_pos waits)),
      fun closed orderly => congrArg (fun t : State => (Host.Outcome.next (settle t) : Res)) (done.trans
        ((if_neg (by simp [closed])).trans (endDrain_orderly orderly _)))⟩
  case ends =>
    intro sealed closed orderly
    exact congrArg (fun t : State => (Host.Outcome.next (settle t) : Res))
      ((drainComplete_sealed drain drained sealed closed).trans (endDrain_orderly orderly s))
  case otherKey => exact congrArg Host.Outcome.next (if_pos other)
  case refused =>
    show execGctlRstkey 0xA5 s = _
    simp only [execGctlRstkey, ne_eq, not_true_eq_false, serving, deployed, and_self, if_false, if_true]
    rfl
  case reset =>
    show execGctlRstkey 0xA5 s = _
    simp only [execGctlRstkey, ne_eq, not_true_eq_false, unserved, Bool.false_eq_true, false_and, if_neg role, if_false,
      startReset_inRun .system idle host run]
  case free => exact congrArg Host.Outcome.next (if_neg (by simp [free]))
  case stuck =>
    obtain ⟨active, standby, solo, -⟩ := mediaStalled_of_role s
    have acts := execMediaStallTimer_stuck stuck
    exact ⟨fun role => acts.trans (by rw [active role]), fun role => acts.trans (by rw [standby role]),
      fun role => acts.trans (by rw [solo role])⟩
  case good =>
    refine (execClockMonitorWindow_good low high).trans (congrArg Host.Outcome.next ((if_pos fault).trans (modIsland_congr (if_pos ?_))))
    simpa using good
  case noEdge => exact execClockMonitorWindow_stays rfl (by decide) fault

/-- Settles O35: per command, its branch under the clause's hypotheses. -/
theorem monitorsAndDrainsComplete : Obligations.MonitorsAndDrainsComplete := by
  refine ⟨fun s => rfl, fun s stuck => ?stuck, fun s i khz low high => ⟨fun sound => ?sound, fun fault => ?recovers⟩,
    fun s i khz cause e bad => ⟨fun fault => ?stays, fun sound => ?enters⟩, fun s active stuck => ?noMove,
    fun s d drain drained sealed closed => ⟨fun power => ?power, fun c reset own => ?reset⟩, fun s waits => ?waits,
    fun s high short => ?budget, fun s fenced => ?fenced⟩
  case stuck =>
    obtain ⟨active, standby, solo, other⟩ := mediaStalled_of_role s
    have acts := execMediaStallTimer_stuck stuck
    exact ⟨fun role => acts.trans (by rw [active role]), fun role => acts.trans (by rw [standby role]),
      fun role => acts.trans (by rw [solo role]), fun role => acts.trans (by rw [other role])⟩
  case sound => exact (execClockMonitorWindow_good low high).trans (congrArg Host.Outcome.next (if_neg (by simp [sound])))
  case recovers => exact (execClockMonitorWindow_good low high).trans (congrArg Host.Outcome.next (if_pos fault))
  case stays =>
    obtain ⟨shown, ill⟩ := windowCause_bad bad
    exact execClockMonitorWindow_stays shown ill fault
  case enters =>
    obtain ⟨shown, ill⟩ := windowCause_bad bad
    exact execClockMonitorWindow_enters shown ill sound
  case noMove =>
    exact congrArg (fun t : State => (Host.Outcome.next (settle t) : Res))
      (spillAll_stuck ((spillMove_active active).trans (spillOne_stuck stuck)))
  case power =>
    exact congrArg (fun t : State => (Host.Outcome.next (settle t) : Res))
      ((drainComplete_sealed drain drained sealed closed).trans (endDrain_power power s))
  case reset =>
    have done := (drainComplete_sealed drain drained sealed closed).trans (endDrain_reset reset own s)
    exact ⟨fun off => congrArg (fun t : State => (Host.Outcome.next (settle t) : Res)) (done.trans (if_neg off)),
      fun on => congrArg (fun t : State => (Host.Outcome.next (settle t) : Res)) (done.trans (if_pos on))⟩
  case waits => exact congrArg (fun t : State => (Host.Outcome.next (settle t) : Res)) (drainComplete_waits waits)
  case budget =>
    have entered := lowCheck_enters (s := budgetTaken s) (budgetTaken_clow s ▸ high)
      (by rw [budgetTaken_dmax, budgetTaken_sumpSize]; exact short)
    refine (execDirtyBudgetEval_eq s).trans ?_
    rw [entered]
    rfl
  case fenced =>
    have unserved : s.serving = false := by simp [State.serving, fenced]
    show execGctlRstkey 0xA5 s = _
    simp only [execGctlRstkey, ne_eq, not_true_eq_false, unserved, Bool.false_eq_true, false_and, fenced, if_false, if_true]

end Sys2Proof.Machine
end

section
/-! The host port: link, decoders, resets, CXL.mem, GPF and the CXL mailbox (R385 to R416). -/

namespace Sys2Proof.Machine

open Sys2Proof

/-! Link and power state. -/

theorem execHostLinkTrained_up {s : State} {rate width : Nat} (flit cxl : Bool) (up : s.host.perst = false) (sound : s.test.badHost = false)
    (idle : s.host.drain = .none) (primed : s.prime.primeAt.isSome = true) (rest : s.prime.step = 0) (low : 1 ≤ rate) (high : rate ≤ 6)
    (lanes : width ∈ [1, 2, 4, 8, 16]) : execHostLinkTrained rate width flit cxl s = .next (settle (s.modHost (fun h => { h with
      rate := Nat.min rate s.host.maxRateNext, width := width, maxRate := h.maxRateNext
      flit := flit || Nat.min rate s.host.maxRateNext == 6, cxl := cxl, l1 := false
      memEn := cxl && decide (Nat.min rate s.host.maxRateNext ≥ 5) && decide (width ≥ 4) }))) := by
  have trains : ((s.host.perst || s.test.badHost || s.host.drain != .none || s.prime.primeAt.isNone
      || (decide (0 < s.prime.step) && decide (s.prime.step < 13))) || rate == 0 || decide (rate > 6)
      || !([1, 2, 4, 8, 16].contains width)) = false := by
    have nonzero : rate ≠ 0 := by omega
    have below : ¬ rate > 6 := by omega
    simp [up, sound, idle, primed, rest, nonzero, below, lanes]
  simp only [execHostLinkTrained, trains, Bool.false_eq_true, if_false]

theorem execPowerstateWrite_sleeps (s : State) : execPowerstateWrite true s =
    .next (if s.host.hdm.any (·.committed) then s else s.modHost (fun h => { h with d3 := true, l1 := true })) := rfl

theorem State.hdmOk_iff {s : State} {k base size ways : Nat} : s.hdmOk k base size ways = true ↔ (s.hdm k).nsid ≠ 0 ∧
    size = s.nsSize (s.hdm k).nsid ∧ base % 268435456 = 0 ∧ ways = 0 ∧ ∀ j, j < k → (s.hdm j).committed = true := by
  simp [State.hdmOk, and_assoc]

/-- R411: the host-port drain begins at once when nothing else drains. -/
theorem hostReset_begins {s : State} (idle : s.prime.drain = none) (host : s.host.drain = .none) : hostReset s =
    drainHeld ((hostLinkDown s).modHost (fun h => { h with drain := .h3 s.now, drainAt := s.now })) := by
  have open_ : (hostLinkDown s).hostDraining = false := State.hostDraining_of_none host
  have none_ : (hostLinkDown s).prime.drain = none := idle
  simp only [hostReset, none_, open_, Bool.false_eq_true, if_false]
  rfl

theorem State.hostDraining_of_h3 {s : State} {t : Nat} (drains : s.host.drain = .h3 t) : s.hostDraining = true := by
  simp only [State.hostDraining, drains]

theorem hostTrainNow_trains {s : State} (up : s.host.perst = false) (sound : s.test.badHost = false)
    (primed : s.prime.primeAt.isSome = true) (rest : s.prime.step = 0) : hostTrainNow s = s.send .hostTrain := by
  have some_ : s.prime.primeAt ≠ none := by simpa [Option.isSome_iff_ne_none] using primed
  simp [hostTrainNow, up, sound, some_, rest]

/-- Settles O38: per command, its branch under the clause's hypotheses. -/
theorem hostLinkDecodersAndResets : Obligations.HostLinkDecodersAndResets := by
  refine ⟨fun s rate width flit cxl up sound idle primed rest low high lanes r capped => ?trained, fun s free => ?sleeps,
    fun s d kept committed => ?held, fun s awake => ?wakes, fun s k base size ways ok awake idle fits => ?commit,
    fun s up own idle host => ?perst, fun s c reset idle host => ?reset, fun s => rfl, fun s t drains => ?bound,
    fun s down host sound primed rest => ?deassert, fun s => ⟨rfl, rfl⟩⟩
  case trained =>
    subst capped
    exact execHostLinkTrained_up flit cxl up sound idle primed rest low high lanes
  case sleeps => exact (execPowerstateWrite_sleeps s).trans (congrArg Host.Outcome.next (if_neg (by simpa using free)))
  case held => exact (execPowerstateWrite_sleeps s).trans (congrArg Host.Outcome.next (if_pos (List.any_eq_true.2 ⟨d, kept, committed⟩)))
  case wakes =>
    show execPowerstateWrite false s = _
    simp only [execPowerstateWrite, awake, Bool.false_eq_true, if_false]
    rfl
  case commit =>
    have judged : s.hdmOk k base size ways = ok := Bool.eq_iff_iff.2 (State.hdmOk_iff.trans fits.symm)
    refine ⟨rebuildCdat (s.modHost (fun h => { h with
      hdm := modAt h.hdm k (fun d => { d with committed := ok, err := !ok, base, size }) })), ?_, rfl, rfl, rfl⟩
    show execHdmDecoderCommit k base size ways s = _
    simp only [execHdmDecoderCommit, awake, State.hostDraining_of_none idle, judged, Bool.false_eq_true, or_self, if_false]
  case perst =>
    have begins := hostReset_begins (s := s.modHost (fun h => { h with perst := true, persts := sat8 h.persts })) idle host
    refine congrArg Host.Outcome.next ((if_neg (by simp [up])).trans (congrArg settle ((if_neg ?_).trans begins)))
    simpa using own
  case reset =>
    have begins := hostReset_begins (s := s.modHost (fun h => { h with hotRst := sat8 h.hotRst })) idle host
    rcases reset with rfl | rfl <;> exact congrArg (fun t : State => (Host.Outcome.next (settle t) : Res)) begins
  case bound => exact congrArg Host.Outcome.next (if_pos (State.hostDraining_of_h3 drains))
  case deassert =>
    have open_ : (s.modHost (fun h => { h with perst := false })).hostDraining = false := State.hostDraining_of_none host
    exact congrArg Host.Outcome.next ((if_neg (by simp [down])).trans ((if_neg (by simp [open_])).trans
      (hostTrainNow_trains (s := s.modHost (fun h => { h with perst := false })) rfl sound primed rest)))

/-! CXL.mem. -/

section Request

variable {s : State} {tag hpa : Nat}

theorem cxlRequest_served (idle : s.host.drain = .none) (f : State → State) :
    cxlRequest f s = .next (settle (f { s with host := { s.host with l1 := false } })) := by
  simp only [cxlRequest, State.hostDraining_of_none idle, Bool.false_eq_true, if_false]
  rfl

/-- The link state has no part in what a request hits. -/
theorem State.cxlHit_awake (s : State) (hpa : Nat) : { s with host := { s.host with l1 := false } }.cxlHit hpa = s.cxlHit hpa := rfl

theorem cxlServe_gathers (ns off : Nat) (s : State) : cxlServe tag (ns, off) s =
    gatherRun { id := s.nextId, cxl := some tag, ns, off, len := 64 } { s with nextId := s.nextId + 1 } := rfl

theorem cxlRead_hit {ns off : Nat} (hit : s.cxlHit hpa = some (ns, off)) : cxlRead tag hpa s = cxlServe tag (ns, off) s := by
  simp only [cxlRead, hit]

theorem cxlRead_miss (miss : s.cxlHit hpa = none) : cxlRead tag hpa s = cxlReadRefused tag s := by
  simp only [cxlRead, miss]

theorem cxlNoop_hit (hit : (s.cxlHit hpa).isSome = true) : cxlNoop tag hpa s = s.send (.cxlCmp tag) := by
  have found : ¬ (s.cxlHit hpa).isNone = true := by simpa [Option.isSome_iff_ne_none] using hit
  simp only [cxlNoop, if_neg found]

theorem cxlStore_hit {ns off : Nat} (hit : s.cxlHit hpa = some (ns, off)) (img : Img) (poison : Bool) :
    cxlStore tag hpa img poison s = cxlWrite { tag, ns, off, img, poison }
      (if poison then s.modHost (fun h => { h with poisonWr := sat16 h.poisonWr }) else s) := by
  simp only [cxlStore, hit]

theorem cxlStore_miss (miss : s.cxlHit hpa = none) (img : Img) (poison : Bool) :
    cxlStore tag hpa img poison s = cxlWriteRefused tag s := by
  simp only [cxlStore, miss]

theorem cxlWrite_places {w : HeldWrite} (first : s.dura.held = []) (able : s.canPlace w = true) : cxlWrite w s = placeCxl w s := by
  simp only [cxlWrite, first, able, List.isEmpty_nil, Bool.and_self, if_true]

theorem cxlWrite_waits {w : HeldWrite} (behind : s.dura.held ≠ []) :
    cxlWrite w s = { s with dura := { s.dura with held := s.dura.held ++ [w] } } := by
  have others : s.dura.held.isEmpty = false := by simpa using behind
  simp only [cxlWrite, others, Bool.false_and, Bool.false_eq_true, if_false]
  rfl

end Request

/-- R409: what the bound of a GPF request reports stands beside what it changes of the host port. -/
theorem execGpfTimeout_answers {s : State} {g : Gpf} {l : List Gpf} (waits : s.host.gpfWait = g :: l) :
    ∃ t u, execGpfTimeout s = .next t ∧ Reports s u ∧ t = { u with out := u.out ++ [.gpfDone], host := { s.host with
      gpfWait := l, gpfFail := true, gpfLocal := false, events := s.host.events ++ [.gpfFail] } } := by
  let v := s.modHost (fun h => { h with gpfWait := l, gpfFail := true, gpfLocal := false, events := h.events ++ [.gpfFail] })
  let r := record 0x0009 0 false (leBytes 8 v.lagBytes) v
  refine ⟨r.send .gpfDone, { s with ev := r.ev, test := r.test, flash := r.flash, out := r.out }, ?_, rfl, ?_⟩
  · simp only [execGpfTimeout, waits]
    rfl
  · have kept : r = { v with ev := r.ev, test := r.test, flash := r.flash, out := r.out } := record_reports _ _ _ _ v
    calc r.send Out.gpfDone = { v with ev := r.ev, test := r.test, flash := r.flash, out := r.out ++ [Out.gpfDone] } :=
          congrArg (fun t : State => { t with out := r.out ++ [Out.gpfDone] }) kept
      _ = _ := rfl

/-- Settles O39: a request by what it hits, a write by what withholds it. -/
theorem cxlMemRequestsAreServed : Obligations.CxlMemRequestsAreServed := by
  refine ⟨fun s tag hpa ns off c read idle hit => ?hit, fun s tag hpa c read idle miss => ?miss, fun s tag hpa idle miss => ?dropped,
    fun s tag hpa c leaves idle hit => ?noop, fun s tag hpa ns off c img write idle hit first able => ?places,
    fun s tag hpa ns off c img write idle hit behind => ?waits, fun s tag hpa d p idle miss => ?discards,
    fun s t tag hpa drains => ?drained, fun s => rfl, fun s g l waits => execGpfTimeout_answers waits⟩
  case hit =>
    have hit' := (State.cxlHit_awake s hpa).trans hit
    have served (t : State) (at_ : t.cxlHit hpa = some (ns, off)) : cxlRead tag hpa t = gatherRun
        { id := t.nextId, cxl := some tag, ns, off, len := 64 } { t with nextId := t.nextId + 1 } :=
      (cxlRead_hit at_).trans (cxlServe_gathers ns off t)
    rcases read with rfl | rfl | rfl
    · exact (cxlRequest_served idle (cxlRead tag hpa)).trans (by rw [served _ hit'])
    · exact (cxlRequest_served idle (cxlRead tag hpa)).trans (by rw [served _ hit'])
    · show execMemSpecRd tag hpa s = _
      simp only [execMemSpecRd, cxlRequest_served idle, hit', cxlServe_gathers]
  case miss =>
    have miss' := (State.cxlHit_awake s hpa).trans miss
    rcases read with rfl | rfl <;>
      exact (cxlRequest_served idle (cxlRead tag hpa)).trans (by rw [cxlRead_miss miss']; rfl)
  case dropped =>
    have miss' := (State.cxlHit_awake s hpa).trans miss
    show execMemSpecRd tag hpa s = _
    simp only [execMemSpecRd, cxlRequest_served idle, miss']
  case noop =>
    have hit' : ({ s with host := { s.host with l1 := false } }.cxlHit hpa).isSome = true := hit
    rcases leaves with rfl | rfl | rfl <;> exact (cxlRequest_served idle (cxlNoop tag hpa)).trans (by rw [cxlNoop_hit hit']; rfl)
  case places =>
    have hit' := (State.cxlHit_awake s hpa).trans hit
    have placed := cxlWrite_places (s := { s with host := { s.host with l1 := false } }) first able
    rcases write with ⟨d, rfl, rfl⟩ | ⟨m, d, rfl, rfl⟩
    · exact (cxlRequest_served idle (cxlStore tag hpa (imgOf d.toList) false)).trans (by rw [cxlStore_hit hit']; simp only [Bool.false_eq_true, if_false, placed])
    · exact (cxlRequest_served idle (cxlStore tag hpa (maskImg m d.toList) false)).trans (by rw [cxlStore_hit hit']; simp only [Bool.false_eq_true, if_false, placed])
  case waits =>
    have hit' := (State.cxlHit_awake s hpa).trans hit
    have held := cxlWrite_waits (s := { s with host := { s.host with l1 := false, poisonWr := sat16 s.host.poisonWr } })
      (w := { tag, ns, off, img, poison := true }) behind
    rcases write with ⟨d, rfl, rfl⟩ | ⟨m, d, rfl, rfl⟩
    · exact (cxlRequest_served idle (cxlStore tag hpa (imgOf d.toList) true)).trans (by
        rw [cxlStore_hit hit', if_pos rfl]
        exact congrArg (fun t : State => (Host.Outcome.next (settle t) : Res)) held)
    · exact (cxlRequest_served idle (cxlStore tag hpa (maskImg m d.toList) true)).trans (by
        rw [cxlStore_hit hit', if_pos rfl]
        exact congrArg (fun t : State => (Host.Outcome.next (settle t) : Res)) held)
  case discards =>
    have miss' := (State.cxlHit_awake s hpa).trans miss
    exact (cxlRequest_served idle (cxlStore tag hpa (imgOf d.toList) p)).trans (by rw [cxlStore_miss miss']; rfl)
  case drained => exact congrArg Host.Outcome.next (if_pos (State.hostDraining_of_h3 drains))

/-! The CXL mailbox. -/

theorem cxlCommand_answers {s : State} (awake : s.host.d3 = false) (f : State → State) : cxlCommand f s = .next (f s) :=
  congrArg Host.Outcome.next (if_neg (by simp [awake]))

theorem State.capacity_eq (s : State) : s.capacity =
    (s.nsSize (s.hdm 0).nsid + s.nsSize (s.hdm 1).nsid + s.nsSize (s.hdm 2).nsid + s.nsSize (s.hdm 3).nsid) / 268435456 := by
  simp [State.capacity, State.dpaBase, List.range_succ]

/-- Settles O40: each answer is the one of its opcode, in D0 alone. -/
theorem cxlMailboxAnswers : Obligations.CxlMailboxAnswers := by
  refine ⟨fun s => ⟨rfl, rfl⟩, fun s awake => ?answers, fun s op asleep => ?silent⟩
  case answers =>
    have off : ¬ s.host.d3 = true := by simp [awake]
    refine ⟨?records, fun n => congrArg Host.Outcome.next (if_neg off), fun first second => ?firmware, fun unset => ?unset,
      fun t set_ => ?grown, fun v => congrArg Host.Outcome.next (if_neg off), congrArg Host.Outcome.next (if_neg off),
      congrArg Host.Outcome.next (if_neg off), congrArg Host.Outcome.next (if_neg off), fun c cap => ?capacity,
      congrArg Host.Outcome.next (if_neg off), fun op => congrArg Host.Outcome.next (if_neg off)⟩
    case records =>
      have values : CxlEvent.values = (fun e => match e with
        | .gpfFail => [1, 0, 0] | .raError => [2, 0, 0] | .poison n o => [3, n, o]) := funext fun e => by cases e <;> rfl
      show execGetEventRecords s = _
      rw [execGetEventRecords, cxlCommand_answers awake, values]
      rfl
    case firmware =>
      show execGetFwInfo s = _
      simp only [execGetFwInfo, cxlCommand_answers awake, first, second, if_true, Bool.false_eq_true, if_false, List.append_nil]
      rfl
    case unset =>
      show execGetTimestamp s = _
      simp only [execGetTimestamp, cxlCommand_answers awake, unset]
      rfl
    case grown =>
      show execGetTimestamp s = _
      simp only [execGetTimestamp, cxlCommand_answers awake, set_]
      rfl
    case capacity =>
      constructor
      · show execIdentifyMemoryDevice s = _
        rw [execIdentifyMemoryDevice, cxlCommand_answers awake, State.capacity_eq, ← cap]
        rfl
      · show execGetPartitionInfo s = _
        rw [execGetPartitionInfo, cxlCommand_answers awake, State.capacity_eq, ← cap]
        rfl
  case silent => exact ⟨congrArg Host.Outcome.next (if_pos asleep), congrArg Host.Outcome.next (if_pos asleep)⟩

end Sys2Proof.Machine
end

section
/-! Mailbox and unit-select windows and the BMC's endpoint (R419 to R428, R449 to R454). -/

namespace Sys2Proof.Machine

open Sys2Proof

section Window

variable {w : Option (Fin 4)} {v : BitVec 32} {s : State}

theorem execMbxCmdPush_pushes (go : v.getLsbD 0 = true) (owned : (s.mbx (s.winMbx w)).token ≠ 0)
    (room : (mbxPush (s.winMbx w) (s.mbx (s.winMbx w)).stage (renewLease (s.winMbx w) s)).2 = true) : execMbxCmdPush w v s = .next
      ((mbxPush (s.winMbx w) (s.mbx (s.winMbx w)).stage (renewLease (s.winMbx w) s)).1.modMbx (s.winMbx w)
        (fun b => { b with stage := List.replicate 64 0 })) := by
  simp only [execMbxCmdPush, go, Bool.not_true, Bool.false_eq_true, if_false, if_neg owned, if_pos room]

theorem execMbxRspPop_pops (go : v.getLsbD 0 = true) (owned : (s.mbx (s.winMbx w)).token ≠ 0) : execMbxRspPop w v s =
    .next (framing (s.winMbx w) ((ptrCheck (s.winMbx w) (renewLease (s.winMbx w) s)).modMbx (s.winMbx w)
      (fun b => { b with rsps := b.rsps.drop 1 }))) := by
  simp only [execMbxRspPop, go, Bool.not_true, Bool.false_eq_true, if_false, if_neg owned]

end Window

section Endpoint

variable {s : State} (up : s.bmcUp = true)

include up

theorem mctpControl_answers (f : State → State × Bytes) : mctpControl f s = .next ((f s).1.send (.mctp 0x00 (f s).2)) :=
  congrArg Host.Outcome.next (if_pos up)

theorem execMctpMailboxMessage_checked (eid : Nat) (l : List MbxEntry) : execMctpMailboxMessage eid true l s =
    .next (if ((ptrCheck 4 s).mbx 4).cmds.length + l.length > fifoSize then setOverrun 4 (ptrCheck 4 s)
      else framing 4 ((ptrCheck 4 s).modMbx 4 (fun b => { b with eid, cmds := b.cmds ++ l.map (·.toList) }))) := by
  simp only [execMctpMailboxMessage, up, Bool.not_true, Bool.false_eq_true, or_self, if_false]

end Endpoint

/-- Settles O41: per command, its branch under the clause's hypotheses. -/
theorem mailboxWindowsAndEndpoint : Obligations.MailboxWindowsAndEndpoint := by
  refine ⟨fun v s => ⟨fun low => ?select, fun bad => ?selectBad⟩,
    fun a v s go => ⟨fun unowned => execMbxCmdPush_unowned unowned go, fun owned room => execMbxCmdPush_pushes go owned room⟩,
    fun a v s go owned => execMbxRspPop_pops go owned, fun a t s some_ => ⟨fun free => ?claim, fun taken other => ?claimed,
      fun own => ?release, fun other => ?kept⟩, fun m s owned => ?lease,
    fun v s => ⟨fun inside => execUnitSelWrite_inside inside, fun outside => execUnitSelWrite_outside (by omega)⟩,
    fun s up => ⟨fun e low high => ?setId, fun e bad => ?badId, congrArg Host.Outcome.next (if_pos up), congrArg Host.Outcome.next (if_pos up),
      congrArg Host.Outcome.next (if_pos up), congrArg Host.Outcome.next (if_pos up)⟩, fun e l s up => ⟨?badPec, fun room => ?taken, fun full => ?overrun⟩⟩
  case select => exact congrArg Host.Outcome.next (if_pos (Or.inl low))
  case selectBad => exact congrArg Host.Outcome.next (if_neg (by rintro (low | ⟨high, -⟩) <;> omega))
  case claim => exact congrArg Host.Outcome.next (if_pos ⟨some_, free⟩)
  case claimed => exact congrArg Host.Outcome.next (if_neg (fun own => own.2.elim taken other))
  case release => exact congrArg Host.Outcome.next (if_pos ⟨some_, own⟩)
  case kept => exact congrArg Host.Outcome.next (if_neg (by simp [other]))
  case lease => exact congrArg Host.Outcome.next (if_neg owned)
  case setId =>
    have own : ¬ (e = 0 ∨ e ≥ 255) := by omega
    show execSetEndpointId e s = _
    rw [execSetEndpointId, mctpControl_answers up, if_neg own]
    rfl
  case badId =>
    show execSetEndpointId e s = _
    rw [execSetEndpointId, mctpControl_answers up, if_pos bad]
    rfl
  case badPec => exact congrArg Host.Outcome.next (if_pos (Or.inl rfl))
  case taken => exact (execMctpMailboxMessage_checked up e l).trans (congrArg Host.Outcome.next (if_neg (by omega)))
  case overrun => exact (execMctpMailboxMessage_checked up e l).trans (congrArg Host.Outcome.next (if_pos full))

end Sys2Proof.Machine
end

section
/-! Configuration commands that commit a record (R432 to R435): the parameters of group 0x01. -/

namespace Sys2Proof.Machine

open Sys2Proof

/-- R432: a record whose objects and ranges pass has a value in range. -/
theorem State.cfgRange_of_cfgCheck {s : State} {c : Cfg} (passed : s.cfgCheck c = none) : s.cfgRange c = none := by
  cases range : s.cfgRange c with
  | none => rfl
  | some r => cases missing : s.cfgMissing c <;> simp [State.cfgCheck, missing, range, refuse] at passed

theorem acceptable_cfgCheck {c : Cfg} {u : State} (ok : acceptable c u = true) : u.cfgCheck c = none := by
  simp only [acceptable, Bool.and_eq_true, Option.isNone_iff_eq_none] at ok
  exact ok.1.1

theorem commits_takes {h : CmdHdr} {code unit : Nat} {kind : CmdKind} {c : Cfg} {s : State} (ok : commits h code kind unit c s = true) :
    takes h code kind unit s = true := by
  simp only [commits, Bool.and_eq_true] at ok
  exact ok.1

theorem commits_acceptable {h : CmdHdr} {code unit : Nat} {kind : CmdKind} {c : Cfg} {s : State}
    (ok : commits h code kind unit c s = true) : acceptable c (opened h code kind unit s) = true := by
  simp only [commits, Bool.and_eq_true] at ok
  exact ok.2

/-- Parameters of SET_INTEGRITY have the numbers 0 to 14. -/
theorem integrityParam_none_of_ge {param : Nat} (beyond : 15 ≤ param) : integrityParam param = none := by
  obtain ⟨n, rfl⟩ := Nat.exists_eq_add_of_le' beyond
  rfl

theorem integrity_param_le {s : State} {scope unit param v : Nat} (ok : acceptable (.integrity scope unit param v) s = true) :
    param ≤ 14 := by
  by_contra beyond
  have range := State.cfgRange_of_cfgCheck (acceptable_cfgCheck ok)
  simp [State.cfgRange, integrityParam_none_of_ge (by omega : 15 ≤ param)] at range

/-- Settles O42: each record's change is what `applyCfg` does with it; an acceptable SET_INTEGRITY names one of fifteen parameters. -/
theorem deviceParametersAreCommitted : Obligations.DeviceParametersAreCommitted := by
  refine ⟨fun h p k t s ok => cfgCommand_commits ok rfl, fun h scope unit param v s ok => ?integrity,
    fun h p s ok => cfgCommand_commits ok rfl, fun h p s ok => cfgCommand_commits ok rfl,
    fun h p s ok => cfgCommand_commits ok rfl, fun h r q v w s ok => cfgCommand_commits ok rfl,
    fun h k n s ok => cfgCommand_commits ok rfl, fun h k s ok => cfgCommand_commits ok rfl,
    fun h x vec cores m s ok => cfgCommand_commits ok rfl, fun h m s ok => cfgCommand_commits ok rfl,
    fun h l a s ok => cfgCommand_commits ok rfl⟩
  case integrity =>
    have known := integrity_param_le (commits_acceptable ok)
    interval_cases param <;> exact cfgCommand_commits ok rfl

end Sys2Proof.Machine
end

section
/-! Configuration commands that commit a record: namespaces, drawers, connections, grants, schedules and the twin (R442 to R445). -/

namespace Sys2Proof.Machine

open Sys2Proof

/-! What a record changes. -/

section Namespaces

variable {u t : State} {n : Nat} {l : List (Nat × Nat)}

theorem applyCfg_createNs {p : CreateNsParams} (pick : u.pickNs p.nsid = some n)
    (units : allocUnits p.units n 0 p.psi p.parkable u = some (l, t)) : applyCfg (.createNs p) u = (tableCopies { t with
      ctl := { t.ctl with nss := tabPut t.ctl.nss n {
        units := l, psi := p.psi, parkable := p.parkable, visVarnish := p.visVarnish, cacheFill := p.cacheFill, encrypted := p.encrypted
        blob := if t.twin.num = 0 then p.blob0 else p.blob1, peerBlob := if t.twin.num = 0 then p.blob1 else p.blob0 } } }, 0) := by
  simp only [applyCfg, applyCreate, pick, units, tableChange, if_true]
  rfl

theorem applyCfg_deleteNs {x : Ns} (found : u.ns n = some x) : applyCfg (.deleteNs n) u =
    (tableCopies (erasePalette (fun t => t == .ns n)
      ((forEach x.units (fun u s => freeEasel (easelKey u.1 u.2) s) (dropData n 0 u)).modCtl (fun c => { c with nss := tabDel c.nss n }))),
     0) := by
  simp only [applyCfg, applyDelete, found, tableChange, if_true]

theorem applyCfg_resizeNs_shrinks {x : Ns} {units : Nat} (found : u.ns n = some x) (shrinks : units ≤ x.units.length) :
    applyCfg (.resizeNs n units) u = (tableCopies (
      (forEach (x.units.drop units) (fun u s => freeEasel (easelKey u.1 u.2) s) (dropData n (units * 2147483648) u)).modNs n
        (fun k => { k with units := k.units.take units })), 0) := by
  simp only [applyCfg, applyResize, found, tableChange, if_pos shrinks, if_true]

theorem applyCfg_resizeNs_grows {x : Ns} {units : Nat} (found : u.ns n = some x) (grows : x.units.length < units)
    (more : allocUnits (units - x.units.length) n x.units.length x.psi x.parkable u = some (l, t)) :
    applyCfg (.resizeNs n units) u = (tableCopies (t.modNs n (fun k => { k with units := k.units ++ l })), 0) := by
  simp only [applyCfg, applyResize, found, tableChange, if_neg (Nat.not_le.2 grows), more, if_true]

end Namespaces

theorem applyCfg_openConn {u : State} {p : OpenParams} {k : ConnKey} (key : u.connBlob p.conn 0 p.blob0 p.blob1 = some k) :
    applyCfg (.openConn p) u = (keyKeep (.conn p.conn 0) (setReserve p.conn p.creditWin (u.modConn p.conn (fun _ =>
      openedConn p (some (k, u.ownBlob p.blob0 p.blob1, u.peerBlob p.blob0 p.blob1)) u.twin.epoch))), 0) := by
  simp only [applyCfg, applyOpen, key, Option.map_some, Option.isSome_some, if_true]

theorem applyCfg_rekey {u : State} {c g : Nat} {b0 b1 : Blob} {k : ConnKey} (key : u.connBlob c g b0 b1 = some k) :
    applyCfg (.rekey c g b0 b1) u = (keyKeep (.conn c g) (u.modConn c (fun x => { x with
      keys := x.keys ++ [(g, k, u.ownBlob b0 b1, u.peerBlob b0 b1)], keyEpoch := u.twin.epoch })), 0) := by
  simp only [applyCfg, applyRekey, key]

theorem applyClose_opened {u : State} {c : Nat} (opened_ : (u.conn c).st = .opened) :
    applyClose c u = u.modConn c (fun k => { k with st := .closing }) := by
  simp only [applyClose, opened_]

theorem applyCfg_regGrant_unpinned {u : State} {p : GrantParams} {g : Nat} (free : u.freeSlot = some g) (unpinned : p.pinned ≠ 1) :
    applyCfg (.regGrant p) u = (u.modGrant g (fun k => { k with st := .live, params := some p, conns := p.conns, pinWait := false }), 0) := by
  have none_ : (p.pinned == 1 && u.serving) = false := by simp [unpinned]
  simp only [applyCfg, applyGrant, free, none_, Bool.false_eq_true, if_false]

theorem applyCfg_regGrant_pinned {u : State} {p : GrantParams} {g : Nat} (free : u.freeSlot = some g) (pinned : p.pinned = 1)
    (serves : u.serving = true) : applyCfg (.regGrant p) u =
      (let v := u.modGrant g (fun k => { k with st := .live, params := some p, conns := p.conns, pinWait := true })
       wakeSpan (v.rangeDrawers p.nsid p.off p.len) v, 0) := by
  have waits : (p.pinned == 1 && u.serving) = true := by simp [pinned, serves]
  simp only [applyCfg, applyGrant, free, waits, if_true]

theorem applyCfg_schedCreate {u : State} {p : SchedParams} {k : Nat} (free : lowestFrom 0 64 (fun i => (u.sched i).isSome) = some k) :
    applyCfg (.schedCreate p) u = ({ u with ctl := { u.ctl with
      scheds := tabPut u.ctl.scheds k { nsid := p.nsid, conn := p.conn, leadMs := p.leadMs, lookahead := p.lookahead } } }, 0) := by
  simp only [applyCfg, free]
  rfl

/-! Commands whose own checks go beyond their record's, or that go on after the commit. -/

section Commands

variable {h : CmdHdr} {s : State}

/-- An immediate command that commits, whatever further checks it passes. -/
theorem takeCommand_committed {code unit : Nat} {c : Cfg} {check : State → Verdict} {block : State → Bytes} {change : State → State}
    (ok : commits h code .immediate unit c s = true) (passed : check (opened h code .immediate unit s) = none)
    (applied : applyCfg c (logged h code .immediate unit c s) = (change (logged h code .immediate unit c s), 0)) :
    takeCommand h code .immediate unit check (commit code h.tag c block none) s = .next (committed h code unit c block change s) := by
  rw [takeCommand_runs (commits_takes ok) passed, commit_logged block none _ (commits_acceptable ok) (by rw [applied]), applied]
  rfl

theorem execSetNsAttr_commits {n : Nat} {pk cf vv en : Option Bool} {x : Ns} (found : s.ns n = some x)
    (visible : vv.getD x.visVarnish = x.visVarnish) (cipher : en.getD x.encrypted = x.encrypted)
    (ok : commits h 0x0205 .immediate n (.nsAttr n (pk.getD x.parkable) (cf.getD x.cacheFill)) s = true) :
    execSetNsAttr h n pk cf vv en s = .next (committed h 0x0205 n (.nsAttr n (pk.getD x.parkable) (cf.getD x.cacheFill)) (fun _ => [])
      (fun v => tableCopies (v.modNs n (fun k => { k with parkable := pk.getD x.parkable, cacheFill := cf.getD x.cacheFill }))) s) := by
  simp only [execSetNsAttr, found, Option.getD_some]
  refine takeCommand_committed ok ?_ rfl
  simp [acceptable_cfgCheck (commits_acceptable ok), visible, cipher]

theorem execRevokeGrant_commits {a : BitVec 32}
    (ok : commits h codeRevoke .waiting devUnit (.revokeGrant (a.toNat % 131072)) s = true)
    (named : (opened h codeRevoke .waiting devUnit s).akey (a.toNat % 131072) = a.toNat) : execRevokeGrant h a s =
      let g := a.toNat % 131072
      let v := revoke g (logged h codeRevoke .waiting devUnit (.revokeGrant g) s)
      .next (settle (if (v.grant g).st = .dead then finish (cmdId h codeRevoke s) stOk [] v
        else v.modGrant g (fun k => { k with waiters := k.waiters ++ [(cmdId h codeRevoke s, false)] }))) := by
  refine (takeCommand_runs (commits_takes ok) ?_).trans (congrArg (fun u : State => (Host.Outcome.next (settle u) : Res))
    (commit_logged (fun _ => []) (some _) _ (commits_acceptable ok) rfl))
  simp [acceptable_cfgCheck (commits_acceptable ok), named]

theorem execRegisterGrant_pinned {p : GrantParams} {g : Nat} (pinned : p.pinned = 1)
    (ok : commits h 0x0405 .waiting devUnit (.regGrant p) s = true) (slot : (opened h 0x0405 .waiting devUnit s).freeSlot = some g)
    (free : (logged h 0x0405 .waiting devUnit (.regGrant p) s).freeSlot = some g)
    (serves : (logged h 0x0405 .waiting devUnit (.regGrant p) s).serving = true) : execRegisterGrant h p s =
      let v := (logged h 0x0405 .waiting devUnit (.regGrant p) s).modGrant g
        (fun k => { k with st := .live, params := some p, conns := p.conns, pinWait := true })
      let v := wakeSpan (v.rangeDrawers p.nsid p.off p.len) v
      .next (settle (pinCheck g (v.modGrant g (fun k => { k with pinCmd := some (cmdId h 0x0405 s) })))) := by
  have applied := applyCfg_regGrant_pinned free pinned serves
  refine (if_pos pinned).trans ((takeCommand_runs (commits_takes ok) (acceptable_cfgCheck (commits_acceptable ok))).trans ?_)
  simp only [slot, Option.getD_some]
  rw [commit_logged (fun _ => []) (some _) _ (commits_acceptable ok) (by rw [applied]), applied]

theorem execRegisterGrant_unpinned {p : GrantParams} (unpinned : p.pinned ≠ 1) : execRegisterGrant h p s =
    cfgCommand h 0x0405 devUnit (.regGrant p) (fun s => leBytes 4 (s.akey (s.freeSlot.getD 0))) s := if_neg unpinned

theorem execCloseConnection_commits {c : Nat} (ok : commits h 0x0402 .long devUnit (.closeConn c) s = true)
    (opened_ : ((logged h 0x0402 .long devUnit (.closeConn c) s).conn c).st = .opened) : execCloseConnection h c s =
      let v := setPast (cmdId h 0x0402 s) ((logged h 0x0402 .long devUnit (.closeConn c) s).modConn c (fun k => { k with st := .closing }))
      .next (settle (v.modConn c (fun k => { k with closers := k.closers ++ [cmdId h 0x0402 s] }))) := by
  refine (takeCommand_runs (commits_takes ok) (acceptable_cfgCheck (commits_acceptable ok))).trans
    (congrArg (fun u : State => (Host.Outcome.next (settle u) : Res))
      ((commit_logged (fun _ => []) (some _) _ (commits_acceptable ok) rfl).trans ?_))
  have closes : (applyCfg (.closeConn c) (logged h 0x0402 .long devUnit (.closeConn c) s)).1 =
    (logged h 0x0402 .long devUnit (.closeConn c) s).modConn c (fun k => { k with st := .closing }) := applyClose_opened opened_
  have waits : ¬ ((setPast (cmdId h 0x0402 s) ((logged h 0x0402 .long devUnit (.closeConn c) s).modConn c
    (fun k => { k with st := .closing }))).conn c).st = .closed := by simp [setPast]
  simp only [closes, if_neg waits]

theorem execSanitize_commits {n : Nat} {x : Ns} (ok : commits h codeSanitize .long n (.sanitize n) s = true)
    (found : (setPast (cmdId h codeSanitize s) (applySanitize n (logged h codeSanitize .long n (.sanitize n) s))).ns n = some x) :
    execSanitize h n s =
      let v := setPast (cmdId h codeSanitize s) (applySanitize n (logged h codeSanitize .long n (.sanitize n) s))
      .next (settle (if x.units.any (fun u => (v.easel (easelKey u.1 u.2)).filling) then v
        else finish (cmdId h codeSanitize s) stOk [] v)) := by
  refine (takeCommand_runs (commits_takes ok) (acceptable_cfgCheck (commits_acceptable ok))).trans
    (congrArg (fun u : State => (Host.Outcome.next (settle u) : Res))
      ((commit_logged (fun _ => []) (some _) _ (commits_acceptable ok) rfl).trans ?_))
  have sanitizes : (applyCfg (.sanitize n) (logged h codeSanitize .long n (.sanitize n) s)).1 =
    applySanitize n (logged h codeSanitize .long n (.sanitize n) s) := rfl
  simp only [sanitizes, found]

end Commands

/-- Settles O43: each record's change is what `applyCfg` does with it. -/
theorem objectsAreCommitted : Obligations.ObjectsAreCommitted := by
  refine ⟨fun h p s n l t ok pick units => cfgCommand_commits ok (applyCfg_createNs pick units),
    fun h n s x ok found => cfgCommand_commits ok (applyCfg_deleteNs found),
    fun h n units s x ok found shrinks => cfgCommand_commits ok (applyCfg_resizeNs_shrinks found shrinks),
    fun h n units s x l t ok found grows more => cfgCommand_commits ok (applyCfg_resizeNs_grows found grows more),
    fun h n pk cf vv en s x _ visible cipher found ok => execSetNsAttr_commits found visible cipher ok,
    fun h d p i s ok => cfgCommand_commits ok rfl, fun h p s k ok key => cfgCommand_commits ok (applyCfg_openConn key),
    fun h c s ok opened_ => execCloseConnection_commits ok opened_,
    fun h c g b0 b1 s k ok key => cfgCommand_commits ok (applyCfg_rekey key),
    fun h p s g unpinned ok free => (execRegisterGrant_unpinned unpinned).trans
      (cfgCommand_commits ok (applyCfg_regGrant_unpinned free unpinned)),
    fun h p s g pinned ok slot free serves => execRegisterGrant_pinned pinned ok slot free serves,
    fun h a s ok named => execRevokeGrant_commits ok named,
    fun h p s ok fits => ⟨cfgCommand_commits ok (Prod.ext rfl fits), rfl⟩, fun h p s ok => cfgCommand_commits ok rfl,
    fun h n s x ok found => execSanitize_commits ok found,
    fun h p s k ok free => cfgCommand_commits ok (applyCfg_schedCreate free), fun h k l s ok => cfgCommand_commits ok rfl,
    fun h k s ok => cfgCommand_commits ok rfl, fun h k s ok => cfgCommand_commits ok rfl⟩

end Sys2Proof.Machine
end

section
/-! Commands that are answered at once (R361, R362, R422, R437 to R440, R444, R445, R603, R626, R639, R640). -/

namespace Sys2Proof.Machine

open Sys2Proof

@[simp] theorem refuse_none : refuse none = none := rfl

/-! When a command's own check passes. -/

@[simp] theorem firstFail_cons_eq_none (v : Verdict) (t : List Verdict) : firstFail (v :: t) = none ↔ v = none ∧ firstFail t = none := by
  cases v <;> simp

@[simp] theorem encoded_eq_none (ok : Bool) : encoded ok = none ↔ ok = true := by
  cases ok <;> simp [encoded]

@[simp] theorem exists_eq_none (ok : Bool) : exists_ ok = none ↔ ok = true := by
  cases ok <;> simp

@[simp] theorem refuse_need_eq_none (ok : Bool) (reason unit : Nat) : refuse (need ok reason unit) = none ↔ ok = true := by
  cases ok <;> simp

section

variable {h : CmdHdr} {s : State}

/-- An admitted command that only reads is answered with what its block is in the state at hand. -/
theorem readCommand_answers_as {code unit : Nat} {check : State → Verdict} {block : State → Bytes} (block' : State → Bytes)
    (taken : takes h code .immediate unit s = true) (passed : check (opened h code .immediate unit s) = none)
    (same : block (opened h code .immediate unit s) = block' (opened h code .immediate unit s)) :
    readCommand h code unit check block s = .next (answered h code unit block' s) := by
  rw [readCommand_answers taken passed, answered, answered, same]

theorem execGrantStatus_dead {g : Nat} {p : GrantParams} (taken : takes h 0x0407 .immediate devUnit s = true) (slot : g < 131072)
    (dead : ((opened h 0x0407 .immediate devUnit s).grant g).st = .dead)
    (params : ((opened h 0x0407 .immediate devUnit s).grant g).params = some p) : execGrantStatus h g s =
      let u := opened h 0x0407 .immediate devUnit s
      .next (settle (finish (cmdId h 0x0407 s) stOk (leBytes 1 3 ++ leBytes 1 p.rights.toNat ++ leBytes 2 p.nsid
        ++ leBytes 4 (u.grant g).gen ++ leBytes 4 (u.grant g).refs ++ leBytes 8 p.off ++ leBytes 8 p.len) (freeGrant g u))) := by
  refine (takeCommand_runs taken (by simp [slot])).trans ?_
  simp only [dead, params, if_true]

theorem unfreeze_dropped {u : State} {a b : BitVec 64} {n : Nat} (frozen : u.test.frozen = true) (dropped : u.test.dropped = some (a, b, n)) :
    unfreeze u = record 0x0002 0xFFFF false (dropBody n a b) { u with test := { u.test with frozen := false, dropped := none } } := by
  simp only [unfreeze, frozen, dropped, Bool.not_true, Bool.false_eq_true, if_false]
  rfl

end

/-- Settles O44: the block of each command, with the object that it names present. -/
theorem immediateCommandsAnswer : Obligations.ImmediateCommandsAnswer := by
  refine ⟨fun h s taken => readCommand_answers taken rfl, fun h m tag e s taken found => ?status, fun h tag r s taken found long first => ?abort,
    fun h id v s taken found => ?config, fun h n x s taken found => ?ns, fun h g e s taken group easel => ?easel,
    fun h d s taken below sound => ?drawer, fun h c s taken below open_ => ?conn,
    fun h g p s taken slot dead params => execGrantStatus_dead taken slot dead params, fun h s taken => readCommand_answers taken rfl,
    fun h c page d s taken below half fit read found => ?desc, fun h s taken => readCommand_answers taken rfl,
    fun h k x s taken found => ?sched, fun h s taken => takeCommand_runs taken rfl, fun h a b n s taken frozen dropped => ?unfreeze,
    fun h source start count s taken known least most => ?recorder, fun h s taken idle => ?firmware,
    fun h s taken => takeCommand_runs taken rfl⟩
  case status =>
    show execGetStatus h m tag s = _
    exact readCommand_answers_as _ taken (by simp [found]) (by simp only [found])
  case abort =>
    rw [exec_abort taken]
    simp only [found, Option.elim_some, if_pos long, first, Bool.false_eq_true, if_false]
    rfl
  case config =>
    show execGetConfig h id s = _
    exact readCommand_answers_as _ taken (by simp [found]) (by simp only [found, Option.getD_some])
  case ns =>
    show execNsStatus h n s = _
    exact readCommand_answers_as _ taken (by simp [found]) (by simp only [found])
  case easel =>
    show execReadEasel h g e s = _
    exact readCommand_answers_as _ taken (by simp [group, easel]) rfl
  case drawer =>
    show execDrawerStatus h d s = _
    exact readCommand_answers_as _ taken (by simp [below, sound]) rfl
  case conn =>
    show execConnStatus h c s = _
    exact readCommand_answers_as _ taken (by simp [below, open_]) (by simp only [open_])
  case desc =>
    show execChDesc h c page s = _
    refine (takeCommand_runs taken (by simp [half, fit, read])).trans ?_
    simp only [found, Option.getD_some]
  case sched =>
    show execSchedStatus h k s = _
    exact readCommand_answers_as _ taken (by simp [found]) (by simp only [found])
  case unfreeze =>
    show execRecUnfreeze h s = _
    refine (takeCommand_runs taken rfl).trans ?_
    rw [unfreeze_dropped frozen dropped]
  case recorder =>
    show execRecRead h source start count s = _
    exact readCommand_answers_as _ taken (by simp [known, least, most]) rfl
  case firmware =>
    show execFwStatus h s = _
    refine readCommand_answers_as _ taken rfl ?_
    simp only [idle]
    rfl

end Sys2Proof.Machine
end

section
/-! Waiting and long-running commands that begin their work (R73 to R75, R140, R146, R172, R173, R184 to R206, R287, R444, R445,
R515 to R518). -/

namespace Sys2Proof.Machine

open Sys2Proof

theorem State.memRange_eq_none {s : State} {n off len : Nat} (named : (s.ns n).isSome = true) (aligned : off % 64 = 0)
    (lines : len % 64 = 0) (least : 64 ≤ len) (most : len ≤ 512) (inside : off + len ≤ s.nsSize n) : s.memRange n off len = none := by
  simp [State.memRange, named, aligned, lines, least, most, inside]

theorem State.chanCheck_eq_none {s : State} {c : Nat} (below : c < 144) (awake : (s.drw (chDrawer c)).st = .awake)
    (present : (s.chan c).sbPres = true) : s.chanCheck c = none := by
  simp [State.chanCheck, below, awake, present]

/-- Only the value at the drawer counts in a change of it. -/
theorem modDrw_congr {d : Nat} {f g : Drawer → Drawer} {s : State} (same : f (s.drw d) = g (s.drw d)) : s.modDrw d f = s.modDrw d g :=
  congrArg (fun k => { s with drawers := tabSet {} s.drawers d k }) same

section

variable {h : CmdHdr} {s : State}

theorem execFormatGroup_opens {g : Nat} (taken : takes h 0x0201 .long g s = true) (below : g < 16)
    (sound : ((opened h 0x0201 .long g s).drw (grpDrawer g)).st ≠ .dfault) (modules : (opened h 0x0201 .long g s).nineModules g = true)
    (size : 1 ≤ ((opened h 0x0201 .long g s).formatSize g).2)
    (free : ∀ e ∈ (opened h 0x0201 .long g s).easels, e.1 / 4096 = g → e.2.nsid = 0)
    (idle : ((opened h 0x0201 .long g s).grp g).formatting = false)
    (first : ∀ o ∈ (opened h 0x0201 .long g s).ops, o.grp = g → o.purpose ≠ .metaRow .format) :
    execFormatGroup h g s = .next (settle (openFormat g (opened h 0x0201 .long g s))) := by
  refine takeCommand_runs taken ?_
  have unused : (opened h 0x0201 .long g s).easels.any (fun e => e.1 / 4096 == g && e.2.nsid != 0) = false := by
    rw [List.any_eq_false]
    intro e among
    by_cases of_group : e.1 / 4096 = g <;> simp [of_group, free e among]
  have unopened : (opened h 0x0201 .long g s).ops.any (fun o => o.grp == g && o.purpose == .metaRow .format) = false := by
    rw [List.any_eq_false]
    intro o among
    by_cases of_group : o.grp = g <;> simp [of_group, first o among]
  simp [below, sound, modules, size, unused, idle, unopened]

section MemRead

variable {n off len : Nat} (taken : takes h 0x0208 .waiting n s = true)
  (range : (opened h 0x0208 .waiting n s).memRange n off len = none)

include taken range

theorem execMemRead_gathers
    (awake : (opened h 0x0208 .waiting n s).cwsAsleep n ((opened h 0x0208 .waiting n s).mediaNeeds n off len) = []) :
    execMemRead h n off len s = .next (settle (gatherRun { id := (opened h 0x0208 .waiting n s).fresh.1, cmd := some (cmdId h 0x0208 s)
                                                           ns := n, off, len } (opened h 0x0208 .waiting n s).fresh.2)) := by
  refine (takeCommand_runs taken range).trans ?_
  simp only [awake]

theorem execMemRead_wakes {d : Nat} {ds : List Nat}
    (asleep : (opened h 0x0208 .waiting n s).cwsAsleep n ((opened h 0x0208 .waiting n s).mediaNeeds n off len) = d :: ds) :
    execMemRead h n off len s = .next (settle (memBusy (cmdId h 0x0208 s) (d :: ds) (opened h 0x0208 .waiting n s))) := by
  refine (takeCommand_runs taken range).trans ?_
  simp only [asleep]

end MemRead

/-- R445: one line, with nothing that puts it off. -/
theorem execMemWrite_line {n off : Nat} {d : Bytes} (taken : takes h 0x0209 .waiting n s = true) (line : d.length = 64)
    (range : (opened h 0x0209 .waiting n s).memRange n off 64 = none)
    (awake : (opened h 0x0209 .waiting n s).cwsAsleep n [off / 256] = []) (full : (opened h 0x0209 .waiting n s).dura.clow = false)
    (budget : (opened h 0x0209 .waiting n s).dura.overBud = false) (admits : (opened h 0x0209 .waiting n s).prime.noAdmit = false)
    (settled : (opened h 0x0209 .waiting n s).twin.swap = .none) (free : (opened h 0x0209 .waiting n s).heldBack n off 64 = false)
    (room : (opened h 0x0209 .waiting n s).lineRoom false 1 = true) : execMemWrite h n off d s =
      let p := memLine n off d (nextStamp (opened h 0x0209 .waiting n s))
      .next (settle (answerLogged (cmdId h 0x0209 s) p.2 stOk [] p.1)) := by
  have whole : slice d 0 64 = d := by
    simp [slice, ← line]
  refine (takeCommand_runs taken (by rw [line]; exact range)).trans ?_
  simp only [awake, full, budget, admits, settled, line, free, room, Bool.false_eq_true, or_self, ne_eq, not_true_eq_false,
    Bool.not_true, if_false, show (64 : Nat) / 64 = 1 from rfl, List.range_one,
    List.map_cons, List.map_nil, List.foldl_cons, List.foldl_nil, Nat.mul_zero, Nat.add_zero, whole]

theorem requestPark_waking {d id : Nat} {u : State} (waking : (u.drw d).st = .waking) (latch : (u.drw d).latch = .none) :
    requestPark d id u = u.modDrw d (fun k => { k with latch := .park [id] }) := by
  simp only [requestPark, waking]
  exact modDrw_congr (by simp [latch, Latch.cmds])

theorem execForceTakeover_begins (taken : takes h 0x0502 .waiting devUnit s = true)
    (standby : (opened h 0x0502 .waiting devUnit s).twin.role = .standby) (alone : (opened h 0x0502 .waiting devUnit s).twin.witness = none)
    (silent : ∀ t, (opened h 0x0502 .waiting devUnit s).twin.heardAt = some t → t + 5000000 ≤ (opened h 0x0502 .waiting devUnit s).now) :
    execForceTakeover h s = .next (settle (takeoverOn (takeoverSolo ((opened h 0x0502 .waiting devUnit s).twin.epoch + 1) false)
      (takeoverHeld none ((opened h 0x0502 .waiting devUnit s).modTwin (fun t => { t with takeCmd := some (cmdId h 0x0502 s) }))))) := by
  refine takeCommand_runs taken ?_
  cases heard : (opened h 0x0502 .waiting devUnit s).twin.heardAt with
  | none => simp [standby, alone]
  | some t => simp [standby, alone, silent t heard]

theorem execRebuild_starts {g : Nat} (taken : takes h codeRebuild .long g s = true) (below : g < 16)
    (broken : ((opened h codeRebuild .long g s).grp g).st = .degraded
      ∨ ((opened h codeRebuild .long g s).grp g).st = .failed ∧ (opened h codeRebuild .long g s).twin.role ≠ .solo)
    (targets : ∀ p ∈ ((opened h codeRebuild .long g s).grp g).lost,
      ((opened h codeRebuild .long g s).chan (grpChan g p)).health = .rebuildTarget) :
    execRebuild h g s = .next (settle ((opened h codeRebuild .long g s).modGrp g (fun k => { k with
      st := .rebuilding, rebuildPtr := 0, rebuildOfFailed := k.st == .failed, paused := false }))) := by
  refine takeCommand_runs taken ?_
  have fits : ((opened h codeRebuild .long g s).grp g).lost.any
      (fun p => ((opened h codeRebuild .long g s).chan (grpChan g p)).health == .tooSmall) = false := by
    rw [List.any_eq_false]
    intro p among
    simp [targets p among]
  have ready : ((opened h codeRebuild .long g s).grp g).lost.all
      (fun p => ((opened h codeRebuild .long g s).chan (grpChan g p)).health == .rebuildTarget) = true := by
    rw [List.all_eq_true]
    intro p among
    simp [targets p among]
  rcases broken with degraded | ⟨failed, paired⟩
  · simp [below, degraded, fits, ready]
  · simp [below, failed, paired, fits, ready]

end

/-- Settles O45: per command, what it begins once admitted and not refused. -/
theorem longCommandsBegin : Obligations.LongCommandsBegin := by
  refine ⟨fun h g s taken below sound modules size free idle first => execFormatGroup_opens taken below sound modules size free idle first,
    fun h n off len s taken named aligned lines least most inside => ?memRead,
    fun h n off d s taken line named aligned inside awake full budget admits settled free room => ?memWrite,
    fun h d s taken below => ⟨fun awake able => ?park, fun waking latch => ?parkLatched⟩, fun h d s taken below => ?wake,
    fun h s taken active fit rest => ?swap, fun h s taken standby alone silent => ?takeover,
    fun h g s taken below awake first rows => ?scrub, fun h g s taken below broken targets => execRebuild_starts taken below broken targets,
    fun h s taken rest powered first => ?cistern, fun h port rail step s taken below least most idle onPort good first => ?margin,
    fun h c s taken below awake present active => ?retrain, fun h c s taken below awake present down => ?reset⟩
  case memRead =>
    have range := State.memRange_eq_none named aligned lines least most inside
    exact ⟨fun awake => execMemRead_gathers taken range awake, fun d ds asleep => execMemRead_wakes taken range asleep⟩
  case memWrite =>
    exact execMemWrite_line taken line (State.memRange_eq_none named aligned rfl (le_refl 64) (by decide) inside) awake full budget admits
      settled free room
  case park =>
    show execParkDrawer h d s = _
    refine (takeCommand_runs taken (by simp [below, awake, able])).trans ?_
    simp only [requestPark, awake]
  case parkLatched =>
    show execParkDrawer h d s = _
    refine (takeCommand_runs taken (by simp [below, waking])).trans ?_
    rw [requestPark_waking waking latch]
  case wake => exact takeCommand_runs taken (by simp [below])
  case swap => exact takeCommand_runs taken (by simp [active, fit, rest])
  case takeover =>
    have begins := execForceTakeover_begins taken standby alone silent
    exact ⟨fun still => begins.trans (congrArg (fun u : State => (Host.Outcome.next (settle u) : Res)) (if_pos still)),
      fun gone => begins.trans (congrArg (fun u : State => (Host.Outcome.next (settle u) : Res)) (if_neg gone))⟩
  case scrub =>
    show execScrubNow h g s = _
    refine (takeCommand_runs taken (by simp [below, awake, first])).trans ?_
    simp [if_neg rows, awake]
  case cistern => exact takeCommand_runs taken (by simp [rest, powered, first])
  case margin => exact takeCommand_runs taken (by simp [below, least, most, idle, onPort, good, first])
  case retrain => exact takeCommand_runs taken (by simp [State.chanCheck_eq_none below awake present, active])
  case reset => exact takeCommand_runs taken (by simpa [State.chanCheck_eq_none below awake present] using down)

end Sys2Proof.Machine
end

section
/-! Firmware update and the life cycle (R529, R583, R586, R600 to R606, R624 to R632). -/

namespace Sys2Proof.Machine

open Sys2Proof

section Firmware

variable {h : CmdHdr} {i : Nat} {s : State}

theorem execFwBegin_opens {len : Nat} (taken : takes h 0x0901 .immediate devUnit s = true) (known : i < 2) (fits : len ≤ slotSize)
    (words : len % 8 = 0) (unopened : (opened h 0x0901 .immediate devUnit s).flash.session = none)
    (rest : (opened h 0x0901 .immediate devUnit s).flash.committing = none)
    (other : (opened h 0x0901 .immediate devUnit s).prime.image ≠ i ∨ (opened h 0x0901 .immediate devUnit s).flash.named ≠ i) :
    execFwBegin h i len s =
      let u := opened h 0x0901 .immediate devUnit s
      let v : State := { u with flash := { u.flash with
        session := some (i, len, h.mbx.val), written := [], erased := 0
        banks := u.flash.banks.map (fun b => { b with queue := b.queue.filter (fun o => !isSlotErase o) }) } }
      .next (settle (finish (cmdId h 0x0901 s) stOk [] (flashQueue i
        { erase := true, sector := i * 512, left := 127, purpose := .slotErase i } (bootWord 0xB1 i (cmdId h 0x0901 s) v)))) := by
  refine takeCommand_runs taken ?_
  have apart : (!((opened h 0x0901 .immediate devUnit s).prime.image == i && (opened h 0x0901 .immediate devUnit s).flash.named == i
      && !(opened h 0x0901 .immediate devUnit s).prime.bootFail)) = true := by
    rcases other with other | other <;> simp [other]
  simp only [firstFail_cons_eq_none, encoded_eq_none, refuse_need_eq_none, apart]
  simp [known, unopened, rest, fits, words]

theorem execFwData_queues {off l : Nat} {d : Bytes} (taken : takes h 0x0902 .immediate devUnit s = true) (known : i < 2)
    (aligned : off % 8 = 0) (words : d.length % 8 = 0) (fits : d.length ≤ 848)
    (own : (opened h 0x0902 .immediate devUnit s).ownSession h.mbx.val i = true)
    (rest : (opened h 0x0902 .immediate devUnit s).flash.committing = none)
    (inside : off + d.length ≤ (opened h 0x0902 .immediate devUnit s).sessionLen)
    (sound : (opened h 0x0902 .immediate devUnit s).slotFailed i = false)
    (ready : ∀ k ∈ sectorsOf off d.length, k < (opened h 0x0902 .immediate devUnit s).flash.erased)
    (blank : (opened h 0x0902 .immediate devUnit s).notErased i off d = false)
    (left : (opened h 0x0902 .immediate devUnit s).flash.imageLeft i off d (d.length / 8 - 1) = some l) :
    execFwData h i off d s = .next (settle (flashQueue i
      { erase := false, sector := imageSector i off d l, left := l, purpose := .image i off d (cmdId h 0x0902 s) }
      (opened h 0x0902 .immediate devUnit s))) := by
  refine (takeCommand_runs taken ?_).trans ?_
  · have erased : (sectorsOf off d.length).any (fun k => decide (k ≥ (opened h 0x0902 .immediate devUnit s).flash.erased)) = false := by
      rw [List.any_eq_false]
      intro k among
      simp [ready k among]
    simp [known, aligned, words, fits, own, rest, inside, sound, erased, blank]
  · simp only [left]

/-- R602: of an image that could be committed, whether it verifies decides. -/
theorem execFwCommit_verifies (taken : takes h 0x0903 .long devUnit s = true) (known : i < 2)
    (own : (opened h 0x0903 .long devUnit s).ownSession h.mbx.val i = true)
    (rest : (opened h 0x0903 .long devUnit s).flash.committing = none)
    (written : covers (opened h 0x0903 .long devUnit s).flash.written 0 (opened h 0x0903 .long devUnit s).sessionLen = true)
    (sound : (opened h 0x0903 .long devUnit s).slotFailed i = false)
    (secure : (opened h 0x0903 .long devUnit s).flash.secMin ≤ (opened h 0x0903 .long devUnit s).flash.secver i) :
    execFwCommit h i s =
      let u := opened h 0x0903 .long devUnit s
      .next (settle (if u.flash.imageOk i = true
        then bootWord 0xC1 i (cmdId h 0x0903 s) ((u.freeVal.2.modFbank i (fun k => { k with
          ce := Nat.min 255 (k.ce + u.freeVal.1.toNat % 256) })).modFlash (fun f => { f with committing := some (cmdId h 0x0903 s) }))
        else finish (cmdId h 0x0903 s) stRefused (blkRefused 0x0054 devUnit) u)) := by
  refine (takeCommand_takes _ _ taken).trans ?_
  cases verified : (opened h 0x0903 .long devUnit s).flash.imageOk i with
  | true =>
    have passed : firstFail [encoded (decide (i < 2)),
        refuse (need ((opened h 0x0903 .long devUnit s).ownSession h.mbx.val i
          && (opened h 0x0903 .long devUnit s).flash.committing.isNone) 0x0055 devUnit),
        refuse (need (covers (opened h 0x0903 .long devUnit s).flash.written 0 (opened h 0x0903 .long devUnit s).sessionLen) 0x0054 devUnit),
        refuse (need (!(opened h 0x0903 .long devUnit s).slotFailed i) 0x0057 devUnit), refuse (need true 0x0054 devUnit),
        refuse (need (decide ((opened h 0x0903 .long devUnit s).flash.secver i ≥ (opened h 0x0903 .long devUnit s).flash.secMin))
          0x0056 devUnit)] = none := by
      simp [known, own, rest, written, sound, secure]
    simp only [verified, passed, if_true]
  | false =>
    have first : encoded (decide (i < 2)) = none := by simp [known]
    have allowed : ((opened h 0x0903 .long devUnit s).ownSession h.mbx.val i
      && (opened h 0x0903 .long devUnit s).flash.committing.isNone) = true := by simp [own, rest]
    simp only [verified, first, allowed, written, sound, Bool.not_false, refuse_need_true, refuse_need_false, firstFail_none_cons,
      firstFail_some_cons, Bool.false_eq_true, if_false, blobEvent_blkRefused (by decide : 0x0054 < 65536) (by decide) devUnit]

theorem execFwActivate_names (taken : takes h 0x0904 .immediate devUnit s = true) (known : i < 2)
    (valid : (opened h 0x0904 .immediate devUnit s).flash.valid i = true) : execFwActivate h i s =
      .next (settle (finish (cmdId h 0x0904 s) stOk [] (bootWord 0xA1 i (cmdId h 0x0904 s) (opened h 0x0904 .immediate devUnit s)))) :=
  takeCommand_runs taken (by simp [known, valid])

end Firmware

/-! The life cycle. -/

/-- R625, R641: of a transition that could be made, the signature decides. -/
theorem State.lcRefusal_of_step {u : State} {target : Nat} {t : LcState} (a : LcAuth) (named : lcTarget target = some t)
    (step : lcStep u.test.lc t = true) (secret : t = .deployed → u.test.secret.isSome = true)
    (idle : u.test.lc = .deployed → u.serving = false) (undrained : u.prime.drain = none) (host : u.hostDraining = false) :
    u.lcRefusal target a = refuse (need (u.authOk t 0 [] a) 0x0061 devUnit) := by
  have kept : (!(t == .deployed && u.test.secret.isNone)) = true := by
    cases fused : u.test.secret with
    | none =>
      have apart : t ≠ .deployed := fun same => by simpa [fused] using secret same
      simp [apart]
    | some _ => simp
  have quiet : (!(u.test.lc == .deployed && u.serving)) = true := by
    by_cases lc : u.test.lc = .deployed
    · simp [idle lc]
    · simp [lc]
  simp only [State.lcRefusal, named, step, kept, quiet, undrained, host, Option.isSome_none, Bool.or_self, Bool.false_eq_true, if_false,
    refuse_need_true, firstFail_none_cons]
  cases u.authOk t 0 [] a <;> simp

section LifeCycle

variable {h : CmdHdr} {a : LcAuth} {s : State} (taken : takes h 0x0A01 .long devUnit s = true)

include taken

theorem execLcAdvance_steps {target : Nat} {t : LcState} (coded : lcEncoded target a = true) (named : lcTarget target = some t)
    (refusal : (opened h 0x0A01 .long devUnit s).lcRefusal target a
      = refuse (need ((opened h 0x0A01 .long devUnit s).authOk t 0 [] a) 0x0061 devUnit)) : execLcAdvance h target a s =
      let u := opened h 0x0A01 .long devUnit s
      .next (settle (if u.authOk t 0 [] a = true
        then startDrain (.reset .lifeCycle) (some (cmdId h 0x0A01 s))
          { u with test := { u.test with challenge := none, advancing := some (cmdId h 0x0A01 s, t) } }
        else finish (cmdId h 0x0A01 s) stRefused (blkRefused 0x0061 devUnit) { u with test := { u.test with challenge := none } })) := by
  refine (takeCommand_runs taken (by simp [coded])).trans ?_
  cases signed : (opened h 0x0A01 .long devUnit s).authOk t 0 [] a with
  | true => simp only [refusal, signed, named, refuse_need_true, dropChallenge, State.modTest, if_true]
  | false => simp only [refusal, signed, refuse_need_false, dropChallenge, State.modTest, Bool.false_eq_true, if_false]

theorem execLcFuseItem_fuses {item : Nat} {d : Bytes} (coded : lcEncoded 1 a = true)
    (provision : (opened h 0x0A01 .long devUnit s).test.lc = .provision) (shape : itemShape item d = true)
    (keyed : (opened h 0x0A01 .long devUnit s).test.ikey.isSome = true ∨ item = 4)
    (fresh : (opened h 0x0A01 .long devUnit s).itemFused item d = false) (volts : (opened h 0x0A01 .long devUnit s).vMinOk item d = true) :
    execLcFuseItem h 1 item d a s =
      let u := opened h 0x0A01 .long devUnit s
      .next (settle (if u.authOk .provision item d a = true
        then finish (cmdId h 0x0A01 s) stOk [] (fuseItem item d { u with test := { u.test with challenge := none } })
        else finish (cmdId h 0x0A01 s) stRefused (blkRefused 0x0061 devUnit) { u with test := { u.test with challenge := none } })) := by
  have listed : item ≤ 4 := by
    by_contra beyond
    obtain ⟨n, rfl⟩ := Nat.exists_eq_add_of_lt (Nat.lt_of_not_le beyond)
    rw [show 4 + n + 1 = n + 5 by omega] at shape
    exact absurd shape (by simp [itemShape])
  have target : lcTarget 1 = some .provision := rfl
  have allowed : ((opened h 0x0A01 .long devUnit s).test.lc == .provision && lcTarget 1 == some .provision && itemShape item d
      && ((opened h 0x0A01 .long devUnit s).test.ikey.isSome || item == 4) && !(opened h 0x0A01 .long devUnit s).itemFused item d
      && (opened h 0x0A01 .long devUnit s).vMinOk item d) = true := by
    simpa [provision, target, shape, fresh, volts] using keyed
  refine (takeCommand_runs taken (by simp [coded, listed])).trans ?_
  cases signed : (opened h 0x0A01 .long devUnit s).authOk .provision item d a with
  | true => simp only [allowed, signed, refuse_need_true, firstFail_none_cons, firstFail_nil, dropChallenge, State.modTest, if_true]
  | false =>
    simp only [allowed, signed, refuse_need_true, refuse_need_false, firstFail_none_cons, firstFail_some_cons, dropChallenge,
      State.modTest, Bool.false_eq_true, if_false]

end LifeCycle

theorem execLcResetTimer_resets {s : State} {t : Nat} (due : s.prime.lcReset = some t) :
    execLcResetTimer s = .next (startReset .lifeCycle { s with prime := { s.prime with lcReset := none } }) :=
  congrArg Host.Outcome.next (if_neg (by simp [due]))

theorem execJtagAuthenticate_eq (a : LcAuth) (s : State) : execJtagAuthenticate a s = .next { s with test := { s.test with
    jtag := s.test.jtag || s.jtagOk a, challenge := none } } := by
  cases passes : s.jtagOk a <;> simp [execJtagAuthenticate, passes, dropChallenge, State.modTest]

/-- Settles O46: per command, what it does once admitted and not refused. -/
theorem firmwareAndLifeCycleAdvance : Obligations.FirmwareAndLifeCycleAdvance :=
  ⟨fun _ _ _ _ taken known fits words unopened rest other => execFwBegin_opens taken known fits words unopened rest other,
    fun _ _ _ _ _ _ taken known aligned words fits own rest inside sound ready blank left =>
      execFwData_queues taken known aligned words fits own rest inside sound ready blank left,
    fun _ _ _ taken known own rest written sound secure => execFwCommit_verifies taken known own rest written sound secure,
    fun _ _ _ taken known valid => execFwActivate_names taken known valid,
    fun _ _ _ a _ taken coded named step secret idle undrained host =>
      execLcAdvance_steps taken coded named (State.lcRefusal_of_step a named step secret idle undrained host),
    fun _ _ _ _ _ taken coded provision shape keyed fresh volts =>
      execLcFuseItem_fuses taken coded provision shape keyed fresh volts,
    fun _ _ due => execLcResetTimer_resets due, execJtagAuthenticate_eq⟩

end Sys2Proof.Machine
end

section
/-! The windlass line, cascade and roll call, and power requests (R492 to R503, R507). -/

namespace Sys2Proof.Machine

open Sys2Proof

/-! The line. -/

/-- The sequence does not turn. -/
def State.straight (s : State) : Bool := !(s.power.goingDown || s.power.latch == .off)

/-- R493: between states 1 and 11 the controller pulls the line for the step after. -/
theorem atState_up {n : Nat} {s : State} (least : 1 ≤ n) (most : n ≤ 11) (straight : s.straight = true) :
    atState n true s = pullLine (n + 1) true s := by
  have on_ : (s.power.goingDown || s.power.latch == .off) = false := by simpa [State.straight] using straight
  have not0 : n ≠ 0 := by omega
  have not12 : n ≠ 12 := by omega
  have not13 : n ≠ 13 := by omega
  have not14 : n ≠ 14 := by omega
  simp only [atState, on_, not0, not12, not13, not14, false_and, Bool.false_eq_true, if_true, if_false]

theorem atState_down {n : Nat} {s : State} (least : 1 ≤ n) (most : n ≤ 11) : atState n false s = pullLine (n - 1) false s := by
  have not0 : n ≠ 0 := by omega
  have not12 : n ≠ 12 := by omega
  have not13 : n ≠ 13 := by omega
  have not14 : n ≠ 14 := by omega
  simp only [atState, not0, not12, not13, not14, false_and, Bool.false_eq_true, if_false]

theorem nextWl_up {w : Nat} (most : w ≤ 12) : nextWl w true = w + 1 := by
  simp [nextWl, most]

theorem nextWl_down {w : Nat} (least : 1 ≤ w) (most : w ≤ 12) : nextWl w false = w - 1 := by
  simp only [nextWl, if_neg (show ¬ w = 14 by omega), if_pos (And.intro least most), Bool.false_eq_true, if_false]

/-- R492: a rising edge of a line that the controller lets go leads to the next state. -/
theorem execWindlassRisingEdge_steps {n : Nat} {s : State} (free : s.power.hold = false) (low : s.power.line = false)
    (sequences : s.power.wl ≠ 15) (next : nextWl s.power.wl s.power.wlDir = n) (fit : n ≠ 15) : execWindlassRisingEdge s =
      .next (settle (atState n s.power.wlDir { s with power := { s.power with line := true, wl := n } })) := by
  have fit' : ¬ nextWl s.power.wl s.power.wlDir = 15 := next ▸ fit
  refine congrArg Host.Outcome.next ((if_neg (by simp [free, low])).trans ((if_neg sequences).trans ((if_neg fit').trans ?_)))
  rw [next]
  rfl

theorem actStep_up {n : Nat} {s : State} (step : s.power.stepTo = some (n, true)) (most : n ≤ 12) : actStep s =
    forEach (s.stepRails n) enableRail { s with power := { s.power with acting := true } } := by
  simp only [actStep, step, State.modPower, if_true, if_pos most]
  rfl

theorem windFault_eq (s : State) : windFault s = soloDown 12 { s with
    out := s.out ++ [.seqCo true], prime := { s.prime with step := 0 }
    power := { s.power with wl := 15, hold := false, abandon := true, stepTo := none, acting := false, rollCall := true
                            solo := true, soloUp := false, goingDown := true } } := rfl

theorem soloStart_eq (s : State) : soloStart s = railsChanged (forEach (s.stepRails 1) enableRail { s with
    out := s.out ++ [.seqCo true]
    power := { s.power with wl := 15, hold := false, abandon := true, stepTo := none, acting := false, rollCall := true
                            solo := true, soloUp := true, soloStep := 1 } }) := rfl

/-- R498: what the windlass' return to state 0 comes from. -/
def foldedState (s : State) : State := { s with power := { s.power with
  wl := 0, line := true, solo := false, soloUp := false, soloStep := 0
  latch := if s.power.pwrFail && s.power.pwrEn then .on else s.power.latch } }

theorem execWindlassFaultExit_off {s : State} (state : s.power.wl = 15) (off : s.allOff = true) :
    execWindlassFaultExit s = .next (clearVolatile (foldedState s)) := congrArg Host.Outcome.next (if_pos ⟨state, off⟩)

/-- Settles O47: per command, its branch under the clause's hypotheses. -/
theorem windlassLineStepsTheSequence : Obligations.WindlassLineStepsTheSequence := by
  refine ⟨fun s free low least most up on_ latch => ?rises, fun s free low least most down => ?falls, fun s other => ?level,
    fun s n held step most idle => ?cascade, fun s low sequences started => ?late, fun s state off => ?exit, fun s state step low rest => ?stuck⟩
  case rises =>
    refine (execWindlassRisingEdge_steps free low (by omega) (up ▸ nextWl_up (by omega)) (by omega)).trans ?_
    rw [up, atState_up (by omega) (by omega) (by simp [State.straight, on_, latch])]
    rfl
  case falls =>
    refine (execWindlassRisingEdge_steps free low (by omega) (down ▸ nextWl_down (by omega) most) (by omega)).trans ?_
    rw [down, atState_down (by omega) (by omega)]
    rfl
  case level => exact congrArg Host.Outcome.next (if_neg (fun ⟨state, open_⟩ => other.elim (fun h => h state) (fun h => by simp [h] at open_)))
  case cascade =>
    refine congrArg Host.Outcome.next ((if_pos ⟨held, by simp [step], by simp [idle]⟩).trans (congrArg (fun u => settle (windCheck u)) ?_))
    exact actStep_up step most
  case late =>
    refine congrArg Host.Outcome.next ((if_neg (by simp [low, sequences, started])).trans
      (congrArg (fun u : State => settle (railsChanged u)) (windFault_eq _)))
  case exit =>
    exact ⟨_, execWindlassFaultExit_off state off, rfl, rfl, rfl, rfl, rfl, rfl, rfl, rfl, rfl, rfl⟩
  case stuck =>
    exact congrArg Host.Outcome.next ((if_pos ⟨state, step, by simp [low], by simp [rest]⟩).trans (congrArg settle (soloStart_eq s)))

/-! Cascade and roll call. -/

theorem cascadeEnd_counts {s : State} (n : Nat) (other : s.prime.step ≠ 3) :
    cascadeEnd n s = { s with power := { s.power with parts := n, cascading := false } } := if_neg other

theorem cascadeEnd_starts {s : State} (n : Nat) (step : s.prime.step = 3) (high : s.power.line = true) (off : s.power.wl = 0) :
    cascadeEnd n s = { s with prime := { s.prime with step := 4 }
                              power := { s.power with parts := n, cascading := false, hold := true, line := false, wlDir := true
                                                      stepTo := some (1, true), acting := false } } :=
  (if_pos step).trans (if_pos ⟨high, off⟩)

/-- R501: the lowest position that holds the line. -/
theorem find_lowest_holding {l : List Bool} {i : Nat} (holds : l[i]? = some true) (lowest : ∀ j, j < i → l[j]? = some false) :
    (List.range l.length).find? (fun j => l.getD j false) = some i := by
  rw [List.find?_range_eq_some]
  obtain ⟨inside, -⟩ := List.getElem?_eq_some_iff.1 holds
  exact ⟨by simp [List.getD_eq_getElem?_getD, holds], List.mem_range.2 inside,
    fun j below => by simp [List.getD_eq_getElem?_getD, lowest j below]⟩

/-! Requests. -/

theorem onRequest_cold {s : State} (latch : s.power.latch ≠ .off) (off : s.power.wl = 0) (rest : s.power.stepTo = none)
    (idle : s.prime.step = 0) (standby : s.prime.standby = true) (rails : s.allOff = true) (settled : s.power.offSettled = true) :
    onRequest s = coldStart s :=
  (if_neg latch).trans (if_pos ⟨off, by simp [rest], idle, standby, rails, Or.inl settled⟩)

theorem onRequest_latched {s : State} (latch : s.power.latch ≠ .off) (on_ : s.power.wl ≠ 0) (down : s.power.goingDown = true) :
    onRequest s = { s with power := { s.power with latch := .on } } :=
  (if_neg latch).trans ((if_neg (fun h => on_ h.1)).trans (if_pos (Or.inl down)))

theorem offRequest_inRun {s : State} (run : s.power.wl = 13) (rest : s.power.stepTo = none) (idle : s.prime.drain = none) :
    offRequest s = pullLine 14 true (startDrain .orderly none
      { s with power := { s.power with goingDown := true, latch := if s.power.latch == .on then .none else s.power.latch } }) :=
  if_pos ⟨run, by simp [State.modPower, rest], by simp [State.modPower, idle]⟩

/-- R507: a failing input of a twin in SOLO in RUN. -/
theorem powerFailure_solo {cause : Nat} {s : State} (powered : s.power.pwrFail = false) (idle : s.power.cisCmd = none)
    (rail : s.power.firstRail = 0xFF) (none_ : s.power.firstCause = 0xFF) (run : s.power.wl = 13) (undrained : s.prime.drain = none)
    (solo : s.twin.role = .solo) : powerFailure 0xFF cause s = pullLine 14 true (startDrain .power none
      { raiseWith 998 0 cause { s with power := { s.power with pwrFail := true } } with
        prime := { s.prime with noAdmit := true }
        power := { s.power with pwrFail := true, firstCause := cause, chgEn := false, testEn := false, chgAt := none, cisStep := .none } }) := by
  have reports := raiseWith_reports 998 0 cause { s with power := { s.power with pwrFail := true } }
  generalize raised : raiseWith 998 0 cause { s with power := { s.power with pwrFail := true } } = u at reports ⊢
  have raised' : raiseWith 998 0 cause (s.modPower (fun p => { p with pwrFail := true })) = u := raised
  have power := reports.power
  have prime := reports.prime
  have twin := reports.twin
  have first : u.power.firstRail = 0xFF ∧ u.power.firstCause = 0xFF := by
    rw [power]
    exact ⟨rail, none_⟩
  simp only [powerFailure, powered, Bool.false_eq_true, if_false, idle, Option.toList_none, finishAll, forEach, List.foldl_nil, raised',
    firstFailure, if_pos first]
  simp [powerRole, State.modPower, State.modPrime, power, prime, twin, solo, undrained, run, rail, idle]

/-- Settles O48: per command, its branch under the clause's hypotheses. -/
theorem sequencersAndPowerRequests : Obligations.SequencersAndPowerRequests := by
  refine ⟨fun s p counts other => ?train, fun s counts step high off => ?silent, fun s l i calls holds lowest => ?roll,
    fun s calls => congrArg Host.Outcome.next (if_pos calls), fun s latch off rest idle standby rails settled => ?cold,
    fun s latch on_ down => ?latched, fun s run rest idle => ?fall, fun s run rest idle => ?offreq,
    fun s c cause input powered idle rail none_ run undrained solo => ?failing, fun s off rest rails idle latch => ?settle⟩
  case train => exact congrArg Host.Outcome.next ((if_pos counts).trans (cascadeEnd_counts _ other))
  case silent => exact congrArg Host.Outcome.next ((if_pos counts).trans (cascadeEnd_starts 31 step high off))
  case roll =>
    show execRollCallTrainEnd l s = _
    simp only [execRollCallTrainEnd, calls, find_lowest_holding holds lowest, if_true]
    rfl
  case cold =>
    exact congrArg (fun u : State => (Host.Outcome.next (settle u) : Res)) (onRequest_cold
      (s := s.modPower (fun p => { p with pwrEn := true })) latch off rest idle standby rails settled)
  case latched =>
    exact congrArg (fun u : State => (Host.Outcome.next (settle u) : Res)) (onRequest_latched
      (s := s.modPower (fun p => { p with pwrEn := true })) latch on_ down)
  case fall =>
    exact congrArg (fun u : State => (Host.Outcome.next (settle u) : Res)) (offRequest_inRun
      (s := s.modPower (fun p => { p with pwrEn := false })) run rest idle)
  case offreq => exact congrArg (fun u : State => (Host.Outcome.next (settle u) : Res)) (offRequest_inRun run rest idle)
  case failing =>
    refine ⟨_, rfl, ?_⟩
    have fails := congrArg (fun u : State => (Host.Outcome.next (settle u) : Res))
      (powerFailure_solo (cause := cause) powered idle rail none_ run undrained solo)
    rcases input with ⟨rfl, rfl⟩ | ⟨rfl, rfl⟩ <;> exact fails
  case settle =>
    refine congrArg Host.Outcome.next ((if_pos ⟨off, by simp [rest], rails, idle⟩).trans (if_neg (fun h => latch h.1)))

end Sys2Proof.Machine
end

section
/-! The cistern's measurement, margins and island 99 (R511 to R517, R663). -/

namespace Sys2Proof.Machine

open Sys2Proof

/-- R511: while a measurement runs the charger is off. -/
theorem chargeCheck_measuring {s : State} (measures : s.power.cisStep ≠ .none) :
    chargeCheck s = { s with power := { s.power with chgEn := false, chgAt := none } } := by
  have off : ((s.power.wl == 12 || s.power.wl == 13) && !s.power.pwrFail && s.power.cisStep == .none) = false := by simp [measures]
  simp only [chargeCheck, off, Bool.false_and, Bool.false_eq_true, if_false]
  rfl

/-- R511: the charger starts in RUN once nothing holds it off; the state of a judged cistern stays. -/
theorem chargeCheck_starts {s : State} (run : s.power.wl = 13) (powered : s.power.pwrFail = false) (rest : s.power.cisStep = .none)
    (off : s.power.chgEn = false) (judged : s.power.cisSt ≠ 0) :
    chargeCheck s = { s with power := { s.power with chgEn := true, chgAt := some s.now } } := by
  simp [chargeCheck, State.modPower, run, powered, rest, off, judged]

theorem tryMeasure_starts {s : State} (ok : s.measureOk = true) : tryMeasure s = { s with power := { s.power with
    cisStep := .m2, postponed := false, firstDue := true, chgEn := false, chgAt := none } } :=
  (if_pos ok).trans (chargeCheck_measuring (s := s.modPower (fun p => { p with cisStep := .m2, postponed := false, firstDue := true }))
    (by simp [State.modPower]))

theorem tryMeasure_postpones {s : State} (early : s.measureOk = false) (rest : s.power.cisStep = .none) :
    tryMeasure s = { s with power := { s.power with postponed := true } } :=
  (if_neg (by simp [early])).trans (if_pos rest)

/-- R513: an accepted measurement of no command, in RUN. -/
theorem judgeCistern_accepts {v0 v1 v2 esr c : Nat} {s : State} (falls : v2 < v1) (drops : v1 ≤ v0)
    (esr_eq : esr = (v0 - v1) * s.power.rTest / v1)
    (c_eq : c = 1000 * (v1 + v2) * (1000 * s.power.tTest - 120) * v1 / (2 * s.power.rTest * (v1 - v2) * v0))
    (least : 6 * s.power.cNom ≤ 10 * c) (most : 10 * c ≤ 15 * s.power.cNom) (fit : esr ≤ s.power.esrMax) (run : s.power.wl = 13)
    (powered : s.power.pwrFail = false) (off : s.power.chgEn = false) (own : s.power.cisCmd = none) :
    judgeCistern v0 v1 v2 s = { s with power := { s.power with
      cisStep := .none, testEn := false, cap := c, esr := esr, measAt := some s.now, cisSt := 2, chgEn := true, chgAt := some s.now } } := by
  have taken : measured s.power v0 v1 v2 = (esr, c) := by rw [esr_eq, c_eq]; rfl
  have ok : (decide (v2 < v1) && decide (v1 ≤ v0) && decide (10 * c ≥ 6 * s.power.cNom) && decide (10 * c ≤ 15 * s.power.cNom)
    && decide (esr ≤ s.power.esrMax)) = true := by simp [falls, drops, least, most, fit]
  simp only [judgeCistern, taken, ok, if_true, own, Option.toList_none, finishAll, forEach, List.foldl_nil]
  have starts := chargeCheck_starts (s := { s with power := { s.power with
    cisStep := .none, testEn := false, cisCmd := none, cap := c, esr := esr, measAt := some s.now, cisSt := 2 } }) run powered rfl off (by simp)
  exact starts.trans (by simp)

/-- R517: VOUT_COMMAND of the margined target follows a linear VOUT_MODE. -/
theorem execPmbusResponse_commands {port : Fin 2} {mode : BitVec 8} {m : Margin} {r : Rail} {s : State} (waits : s.marginOn port = some m)
    (linear : mode.toNat < 32) (bad : (s.rail m.rail).st ≠ .good) (margined : r = { (s.rail m.rail) with margin := m.step }) :
    execPmbusResponse port mode s = .next (settle (marginDone m.rail { s with
      out := s.out ++ [.pmbus port r.pmbAddr r.pmbPage 0x21 (linearMantissa r.target mode)]
      power := { s.power with
        rails := tabSet {} s.power.rails m.rail r
        margins := s.power.margins.map (fun x => if x.rail = m.rail then { x with phase := 3 } else x) } })) := by
  have format : ¬ mode.toNat / 32 ≠ 0 := by omega
  have rail : ((s.modRail m.rail (fun r => { r with margin := m.step })).modPower (fun p => { p with
      margins := p.margins.map (fun x => if x.rail = m.rail then { x with phase := 3 } else x) })).rail m.rail = r := by
    show (s.modRail m.rail (fun r => { r with margin := m.step })).rail m.rail = r
    rw [State.rail_modRail, if_pos rfl, margined]
  have still : r.st ≠ .good := by rw [margined]; exact bad
  simp only [execPmbusResponse, waits, if_neg format, rail, if_neg still]
  rw [margined]
  rfl

/-- R663: the outputs of island 99 low, the line released, nothing latched. -/
def aonRest (s : State) : State :=
  (s.modPower (fun p => { p with
    wl := 0, wlDir := false, line := true, hold := false, stepTo := none, acting := false, goingDown := false, solo := false
    soloUp := false, soloStep := 0, latch := .none, offSettled := false, lastFall := 0, chgEn := false, testEn := false
    chgAt := none, cascading := false, rollCall := false, pwrFail := false, abandon := false })).modPrime
      (fun p => { p with standby := false, bootAon := 0 })

theorem execAonPinInit_eq (s : State) : execAonPinInit s = .next (clearVolatile (aonRest (forEach (List.range 48) (fun i s => s.modRail i
    (fun r => { r with en := false, dis := false, st := if r.st = .unused then .unused else .off })) s))) := rfl

theorem clearVolatile_aonRest_rails (s : State) : (clearVolatile (aonRest s)).power.rails =
    tabMap {} (fun _ r => { r with faults := 0, warns := 0 }) s.power.rails := rfl

/-- Settles O49: per command, its branch under the clause's hypotheses. -/
theorem cisternMeasuresAndMarginsAreSet : Obligations.CisternMeasuresAndMarginsAreSet := by
  refine ⟨fun s m => rfl, fun s ok => congrArg Host.Outcome.next (tryMeasure_starts ok),
    fun s early rest => congrArg Host.Outcome.next (tryMeasure_postpones early rest),
    fun s ok due => congrArg Host.Outcome.next ((if_pos due).trans (tryMeasure_starts ok)), fun s v0 step => ?settle,
    fun s v0 v1 step => ?window, fun s v0 v1 v2 esr c step falls drops hesr hc least most fit run powered off own => ?load,
    fun s t charges since => congrArg Host.Outcome.next (if_pos ⟨charges, by simp [since]⟩),
    fun s port mode m waits linear bad r margined => execPmbusResponse_commands waits linear bad margined,
    fun s port m waits => ?silent, fun s => ⟨_, execAonPinInit_eq s, rfl, rfl, rfl, rfl, rfl, rfl, rfl, rfl, rfl,
      clearVolatile_aonRest_rails _⟩⟩
  case settle =>
    show execCisternSettleTimer v0 s = _
    simp only [execCisternSettleTimer, step]
    rfl
  case window =>
    show execCisternV1WindowEnd v1 s = _
    simp only [execCisternV1WindowEnd, step]
    rfl
  case load =>
    show execCisternTestLoadEnd v2 s = _
    simp only [execCisternTestLoadEnd, step]
    rw [judgeCistern_accepts falls drops hesr hc least most fit run powered off own]
  case silent =>
    show execPmbusTimeout port s = _
    simp only [execPmbusTimeout, waits]
    rfl

end Sys2Proof.Machine
end

section
/-! Sense inputs and timers of the rails (R488 to R490, R504, R505). -/

namespace Sys2Proof.Machine

open Sys2Proof

/-- Two steps that agree wherever an invariant holds, which the second keeps, lead to one state. -/
theorem forEach_congr_of_inv {σ α : Type} {P : σ → Prop} {f g : α → σ → σ} (l : List α) {s : σ} (start : P s)
    (same : ∀ a ∈ l, ∀ t, P t → f a t = g a t ∧ P (g a t)) : forEach l f s = forEach l g s := by
  induction l generalizing s with
  | nil => rfl
  | cons a l ih =>
    obtain ⟨agree, kept⟩ := same a List.mem_cons_self s start
    show forEach l f (f a s) = forEach l g (g a s)
    rw [agree]
    exact ih kept (fun b among => same b (List.mem_cons_of_mem a among))

/-! Drawer rails and rails of the windlass. -/

theorem railDrawer_drawer (d k : Nat) (fit : k < 4) : railDrawer (16 + 4 * d + k) = some (d, k) := by
  have above : ¬ 16 + 4 * d + k < 16 := by omega
  have drawer : (16 + 4 * d + k - 16) / 4 = d := by omega
  have step : (16 + 4 * d + k - 16) % 4 = k := by omega
  simp only [railDrawer, if_neg above, drawer, step]

theorem railDrawer_windlass {i : Nat} (low : i < 16) : railDrawer i = none := if_pos low

/-! What a reading says. -/

theorem judgeRail_off {i : Nat} {s : State} (off : (s.rail i).st = .off ∨ (s.rail i).st = .unused) : judgeRail i s = s := by
  rcases off with off | off <;> simp [judgeRail, off]

theorem judgeRail_rises {i : Nat} {s : State} (ramps : (s.rail i).st = .ramping) (good : (s.rail i).isGood s.test.railConvBad = true) :
    judgeRail i s = railNowGood i s := if_pos ⟨ramps, good⟩

theorem judgeRail_lost {i : Nat} {s : State} (was : (s.rail i).st = .good) (bad : (s.rail i).isGood s.test.railConvBad = false) :
    judgeRail i s = railLost i s := by
  simp [judgeRail, was, bad]

theorem railLost_sequencing {i : Nat} {s : State} (low : i < 16) (sequences : s.power.wl ≠ 13) (up : s.power.goingDown = false) :
    railLost i s = s.modRail i (fun r => { r with st := .ramping }) := by
  simp [railLost, railDrawer_windlass low, sequences, up]

/-- Every rail is off, or unused. -/
def railsOff (s : State) : Prop := ∀ i, i < 48 → (s.rail i).st = .off ∨ (s.rail i).st = .unused

theorem railsOff_modRail {i : Nat} {s : State} (mv : Nat) (off : railsOff s) : railsOff (s.modRail i (fun r => { r with mv := mv })) := by
  intro j below
  rw [State.rail_modRail]
  split
  case isTrue same => exact same ▸ off j below
  case isFalse => exact off j below

/-! Rails that change. -/

theorem firstFailure_first {rail cause : Nat} {s : State} (first : s.power.firstRail = 0xFF) (fresh : s.power.firstCause = 0xFF) :
    firstFailure rail cause s = s.modPower (fun p => { p with firstRail := rail, firstCause := cause }) := if_pos ⟨first, fresh⟩

theorem marginDone_none {i : Nat} {s : State} (none_ : s.power.margins = []) : marginDone i s = s := by
  simp only [marginDone, none_, List.find?_nil]

section Timers

variable {i : Fin 48} {s : State}

theorem execRailTOnExpiry_drawer {d : Fin 8} {k : Fin 4} (place : i.val = 16 + 4 * d.val + k.val) (ramps : (s.rail i).st = .ramping) :
    execRailTOnExpiry i s =
      .next (settle (drawerFault d true (railFault i (s.modRail i (fun r => { r with st := .failed, noGood := true }))))) := by
  have drawer : railDrawer i.val = some (d.val, k.val) := place ▸ railDrawer_drawer d k k.isLt
  simp only [execRailTOnExpiry, if_pos ramps, drawer]

theorem execRailTOnExpiry_windlass (low : i.val < 16) (ramps : (s.rail i).st = .ramping) : execRailTOnExpiry i s =
    .next (settle (railsChanged (railFault i (firstFailure i 1 (s.modRail i (fun r => { r with st := .failed, noGood := true })))))) := by
  simp only [execRailTOnExpiry, if_pos ramps, railDrawer_windlass low]

theorem execRailTDisExpiry_windlass (low : i.val < 16) (discharges : (s.rail i).st = .discharging) : execRailTDisExpiry i s =
    .next (settle (railsChanged (railFault i (noteFailure i 3 (s.modRail i (fun r => { r with st := .failed, noFall := true })))))) := by
  simp only [execRailTDisExpiry, if_pos discharges, railDrawer_windlass low]

end Timers

section Drawer

variable {d : Fin 8} {k : Fin 4} {s : State}

/-- R183: the rail that a wake step waits for leads on to the next. -/
theorem railNowGood_drawer (unmargined : s.power.margins = []) (waking : (s.drw d).st = .waking) (step : (s.drw d).step = riseStep k) :
    railNowGood (drawerRail d k) s = wakeNext d (s.modRail (drawerRail d k) (fun r => { r with st := .good, outAt := none })) := by
  have drawer : railDrawer (drawerRail d k) = some (d.val, k.val) := railDrawer_drawer d k k.isLt
  have done := marginDone_none (i := drawerRail d k)
    (s := s.modRail (drawerRail d k) (fun r => { r with st := .good, outAt := none })) unmargined
  simp only [railNowGood, done, drawer]
  exact if_pos ⟨waking, step⟩

theorem railNowOff_drawer (step : (s.drw d).step = fallStep k) : railNowOff (drawerRail d k) s =
    railsChanged (fallFrom d k ((s.modRail (drawerRail d k) (fun r => { r with st := .off, dis := false })).modPower
      (fun p => { p with lastFall := s.now }))) := by
  have drawer : railDrawer (drawerRail d k) = some (d.val, k.val) := railDrawer_drawer d k k.isLt
  simp only [railNowOff, drawer]
  exact congrArg railsChanged (if_pos step)

end Drawer

/-- Settles O50: per command, its branch under the clause's hypotheses. -/
theorem railsAreJudgedAndTimed : Obligations.RailsAreJudgedAndTimed := by
  refine ⟨fun s mv vin off => ?sample, fun s i pg ramps good => ?rises, fun s i low was used sequences up => ?lost,
    fun s i good out => congrArg Host.Outcome.next (if_pos ⟨good, by simp [out]⟩),
    fun s d k i place ramps => execRailTOnExpiry_drawer place ramps, fun s i low ramps first fresh => ?late,
    fun s i falls => congrArg Host.Outcome.next (if_pos falls), fun s i low discharges => execRailTDisExpiry_windlass low discharges,
    fun s d k ramps unmargined waking step => ?drawerGood, fun s d k dark falls step => ?drawerOff⟩
  case sample =>
    refine congrArg (fun u : State => (Host.Outcome.next (settle u) : Res)) (forEach_congr_of_inv (P := railsOff) (List.range 48) off ?_)
    intro i among t kept
    have still := railsOff_modRail (i := i) (mv.toList.getD i 0) kept
    exact ⟨judgeRail_off (still i (List.mem_range.1 among)), still⟩
  case rises =>
    have rail : (s.modRail i (fun r => { r with pg })).rail i = { (s.rail i) with pg } := (State.rail_modRail _ _ _ _).trans (if_pos rfl)
    exact congrArg (fun u : State => (Host.Outcome.next (settle u) : Res)) (judgeRail_rises (by rw [rail]; exact ramps) (by rw [rail]; exact good))
  case lost =>
    have rail : (s.modRail i (fun r => { r with pg := false })).rail i = { (s.rail i) with pg := false } :=
      (State.rail_modRail _ _ _ _).trans (if_pos rfl)
    have bad : ({ (s.rail i) with pg := false } : Rail).isGood s.test.railConvBad = false := by simp [Rail.isGood, used]
    exact congrArg (fun u : State => (Host.Outcome.next (settle u) : Res))
      ((judgeRail_lost (by rw [rail]; exact was) (by rw [rail]; exact bad)).trans (railLost_sequencing low sequences up))
  case late =>
    refine (execRailTOnExpiry_windlass low ramps).trans ?_
    exact congrArg (fun u : State => (Host.Outcome.next (settle (railsChanged (railFault i u))) : Res)) (firstFailure_first first fresh)
  case drawerGood =>
    exact congrArg Host.Outcome.next ((if_pos ramps).trans (congrArg settle (railNowGood_drawer unmargined waking step)))
  case drawerOff =>
    exact congrArg Host.Outcome.next ((if_pos ⟨by simp [drawerRail, dark], Or.inl falls⟩).trans (congrArg settle (railNowOff_drawer step)))

end Sys2Proof.Machine
end

section
/-! Priming steps, handshake timers and recovery (R23, R525 to R550, R613 to R631). -/

namespace Sys2Proof.Machine

open Sys2Proof

/-! R527: the step that follows one that is complete. -/

section Steps

variable {r : PrimeReport} {s : State}

theorem stepDone_fuses (step : s.prime.step = 2) (cold : (readFuses s).prime.warm = false) : stepDone r s =
    (((readFuses s).modPower (fun p => { p with cascading := true })).modPrime (fun p => { p with step := 3 })).send (.seqCo false) := by
  simp [stepDone, step, cold]

theorem stepDone_analog (step : s.prime.step = 6) : stepDone r s = (analogDone r.analog s).modPrime (fun p => { p with step := 7 }) := by
  simp only [stepDone, step]

theorem stepDone_calibrated (step : s.prime.step = 7) : stepDone r s = calStep r.calOk s := by simp only [stepDone, step]

theorem stepDone_records (step : s.prime.step = 10) : stepDone r s = recordStep r.recordsOk s := by simp only [stepDone, step]

theorem stepDone_line (step : s.prime.step = 13) : stepDone r s = lineToRun s := by simp only [stepDone, step]

theorem stepLate_boot (step : s.prime.step = 5) : stepLate r s = bootFailed s := by simp only [stepLate, step]

theorem stepLate_records (step : s.prime.step = 10) : stepLate r s = recordStep false s := by simp only [stepLate, step]

end Steps

/-! What a step does. -/

section Work

variable {s : State}

theorem calStep_calibrated (alive : s.test.lc ≠ .endOfLife) :
    calStep true s = (s.modCipher (fun c => { c with kek := some s.deriveKek })).modPrime (fun p => { p with step := 8 }) :=
  congrArg (fun u : State => u.modPrime (fun p => { p with step := 8 })) (if_neg alive)

theorem recordStep_blank (alive : s.test.lc ≠ .endOfLife) (blank : s.prime.roleRec = none) :
    recordStep true s = (s.modTwin (fun t => { t with epoch := 0, applied := 0, sent := 0 })).modPrime (fun p => { p with
      roleRead := none, step := 11, wakes := (List.range 8).filter (fun d => !(s.drw d).recParked) }) := by
  simp only [recordStep, if_neg alive, if_true, blank]
  rfl

theorem lineToRun_waiting (wl : s.power.wl = 12) :
    lineToRun s = pullLine 13 true (s.modPrime (fun p => { p with step := 14 })) := if_pos wl

end Work

/-! R548 to R550: neither HANDSHAKE nor HEARTBEAT has come. -/

section Waiting

variable {s : State} (runs : s.twin.hs.running = true) (silent : s.twin.hs.peer = none) (undecided : s.twin.hs.decide = none)
  (moving : s.twin.hs.hold = false) (fresh : s.prime.waitPeer = false)

include runs silent undecided moving fresh in
theorem execHsWaitExpiry_waiting : execHsWaitExpiry s = .next (if s.stopCode ≥ 2 then s.modPrime (fun p => { p with waitPeer := true })
    else if s.twin.witness.isSome then askWit 1 s
    else settle (primeStandby s.twin.epoch s)) :=
  congrArg Host.Outcome.next (if_neg (by simp [runs, silent, undecided, moving, fresh]))

end Waiting

/-! Recovery of groups (R536, R540). -/

theorem nextSuspect_single {s : State} {g r : Nat} (idle : s.ops = []) (single : (s.nv g).suspects = [r]) : s.nextSuspect g = some r := by
  simp only [State.nextSuspect, idle, single]
  rfl

/-- With no operation under way, a region is quiet once its second is over. -/
theorem execRegionClearTimer_quiet {s : State} {g : Fin 16} {r : Nat} (idle : s.ops = []) (dirty : r ∈ (s.nv g).regions)
    (old : ∀ x ∈ (s.nv g).regions, tabGet 0 (s.nv g).regionAt x + 1000000000 ≤ s.now) (due : (s.nv g).regionRec + 100000000 ≤ s.now) :
    execRegionClearTimer g s = .next (settle (regionRecord g (s.nv g).regions s)) := by
  have quiet : (s.nv g).regions.filter (fun x => !s.ops.any (fun o => o.grp == g.val && o.phase == .write && regionOf o.dst == x)
      && decide (s.now ≥ tabGet 0 (s.nv g).regionAt x + 1000000000)) = (s.nv g).regions :=
    List.filter_eq_self.2 (fun x among => by simp [idle, old x among])
  have some_ : ¬ ((s.nv g).regions.isEmpty = true ∨ s.now < (s.nv g).regionRec + 100000000) := by
    simp only [List.isEmpty_iff, not_or, Nat.not_lt]
    exact ⟨List.ne_nil_of_mem dirty, due⟩
  simp only [execRegionClearTimer, quiet]
  exact congrArg Host.Outcome.next (if_neg some_)

theorem execSuspectRowSettle_single {s : State} {g : Fin 16} {r : Nat} (decided : s.twin.role ≠ .priming) (live : s.live g = true)
    (idle : s.ops = []) (single : (s.nv g).suspects = [r]) : execSuspectRowSettle g s = .next (settle (openSettle g r s)) := by
  simp only [execSuspectRowSettle, nextSuspect_single idle single]
  exact congrArg Host.Outcome.next (if_neg (by simp [decided, live, idle]))

/-- Settles O51: per command, its branch under the clause's hypotheses. -/
theorem primingStepsAndRecovery : Obligations.PrimingStepsAndRecovery := by
  refine ⟨fun s wl first unset => congrArg Host.Outcome.next (if_pos ⟨wl, first, by simp [unset]⟩),
    fun s r first high => congrArg Host.Outcome.next ((if_neg (by simp [first])).trans (if_pos high)),
    fun s r first low => congrArg Host.Outcome.next ((if_neg (by simp [first])).trans (if_neg (by simp [low]))),
    fun s r step cold => congrArg (fun u : State => (Host.Outcome.next (settle u) : Res)) (stepDone_fuses step cold),
    fun s r step passed => ?analog, fun s r step calibrated alive => ?kek, fun s r step read blank alive => ?records,
    fun s r step wl => congrArg (fun u : State => (Host.Outcome.next (settle u) : Res)) ((stepDone_line step).trans (lineToRun_waiting wl)),
    fun s r step => ?lateBoot,
    fun s r step => congrArg (fun u : State => (Host.Outcome.next (settle u) : Res)) (stepLate_records step),
    fun s runs moving => congrArg Host.Outcome.next (if_pos ⟨runs, by simp [moving]⟩),
    fun s runs held => congrArg Host.Outcome.next (if_pos ⟨runs, held⟩), fun s runs silent undecided moving fresh => ?waits,
    fun s runs waits => congrArg Host.Outcome.next (if_pos ⟨runs, waits⟩),
    fun s g r idle dirty old due => execRegionClearTimer_quiet idle dirty old due,
    fun s g r decided live idle single => execSuspectRowSettle_single decided live idle single⟩
  case analog =>
    exact congrArg (fun u : State => (Host.Outcome.next (settle u) : Res)) ((stepDone_analog step).trans (by rw [passed]; rfl))
  case kek =>
    exact congrArg (fun u : State => (Host.Outcome.next (settle u) : Res))
      ((stepDone_calibrated step).trans (calibrated ▸ calStep_calibrated alive))
  case records =>
    exact congrArg (fun u : State => (Host.Outcome.next (settle u) : Res))
      ((stepDone_records step).trans (read ▸ recordStep_blank alive blank))
  case lateBoot =>
    refine congrArg (fun u : State => (Host.Outcome.next (settle u) : Res)) ((stepLate_boot step).trans ?_)
    simp only [bootFailed, State.modPrime]
  case waits =>
    have waiting := execHsWaitExpiry_waiting runs silent undecided moving fresh
    refine ⟨fun unclean => waiting.trans (congrArg Host.Outcome.next (if_pos unclean)), fun clean witness => ?_, fun clean alone => ?_⟩
    · exact waiting.trans (congrArg Host.Outcome.next ((if_neg (Nat.not_le.2 clean)).trans (if_pos witness)))
    · exact waiting.trans (congrArg Host.Outcome.next ((if_neg (Nat.not_le.2 clean)).trans (if_neg (by simp [alone]))))

end Sys2Proof.Machine
end

section
/-! Pulses of the flash banks and duties of the DRAM channels (R552 to R569, R576, R580 to R592). -/

namespace Sys2Proof.Machine

open Sys2Proof

/-! R582: a pulse ends. -/

section Flash

variable {b : Fin 2} {o : FOp} {s : State}

theorem execFlashProgramPulseDone_program {verified : Bool} (runs : (s.fbank b).op = some o) (program : o.erase = false) :
    execFlashProgramPulseDone b verified s = .next (if verified then settle (wordDone b o s)
      else if o.pulses ≥ 15 then settle (pulseFail b o s) else boundary b { o with pulses := o.pulses + 1 } s) := by
  simp only [execFlashProgramPulseDone, runs, program, Bool.false_eq_true, if_false]

theorem execFlashErasePulseDone_failed (runs : (s.fbank b).op = some o) (erase : o.erase = true) (powered : s.power.pwrFail = false) :
    execFlashErasePulseDone b false s =
      .next (if o.pulses ≥ 63 then settle (pulseFail b o s) else boundary b { o with pulses := o.pulses + 1 } s) := by
  simp [execFlashErasePulseDone, runs, erase, powered]

theorem execFlashErasePulseDone_verified (runs : (s.fbank b).op = some o) (erase : o.erase = true) (powered : s.power.pwrFail = false) :
    execFlashErasePulseDone b true s = .next (if o.left = 0 then
        settle (bankFree b (opEffect b o ((sectorDone b o s).modFbank b (fun k => { k with op := none }))))
      else boundary b { o with left := o.left - 1, pulses := 0, sector := o.sector + 1 } (sectorDone b o s)) := by
  simp [execFlashErasePulseDone, runs, erase, powered]

end Flash

/-! Refresh, self-refresh and reads of a channel. -/

section Dram

variable {c : Fin 32} {s : State}

theorem issueRefresh_single {ch : Nat} (none_ : (s.drch ch).postponed = 0) : issueRefresh ch s =
    (s.send (.refresh ch ((s.drch ch).nextBank % 16))).modDrch ch (fun k => { k with postponed := 0, nextBank := (k.nextBank + 1) % 16 }) := by
  simp only [issueRefresh, none_, Nat.zero_add, List.range_one, forEach_cons, forEach_nil, Nat.add_zero]

/-- R562, R564: a rank of a running channel that is not hot keeps its calibration within 2 °C. -/
theorem execDramMr4Poll_calm {r : Fin 2} {m temp : Nat} (runs : (s.drch c).st = 1 ∨ (s.drch c).st = 2) (rate : m = 1 ∨ m = 2 ∨ m = 4)
    (above : temp < (s.drch c).zqTemp.getD r 0 + 2) (below : (s.drch c).zqTemp.getD r 0 < temp + 2) :
    execDramMr4Poll c r m temp false s = .next (s.modDrch c (fun k => { k with
      mult := modAt k.mult r (fun _ => m), hot := modAt k.hot r (fun _ => false), mr4 := modAt k.mr4 r (fun _ => temp) })) := by
  have up : ¬ ((s.drch c).st ≠ 1 ∧ (s.drch c).st ≠ 2) := by omega
  have near : ¬ ((s.drch c).zqTemp.getD r 0 + 2 ≤ temp ∨ temp + 2 ≤ (s.drch c).zqTemp.getD r 0) := by omega
  simp only [execDramMr4Poll, if_neg up, if_neg near, if_pos rate, Bool.false_eq_true, if_false, Bool.false_and]

theorem selfExit_active {ch : Nat} (active : (s.drch ch).st = 1) : selfExit ch s = s := if_neg (by simp [active])

theorem wordRead_clean {addr : Nat} {w : BitVec 64 × BitVec 8} (clean : checkWord w.1 w.2 = .clean) (s : State) : wordRead addr w s = s := by
  simp only [wordRead, clean]
  cases dramMap s.dram.usable addr <;> rfl

theorem forEach_wordRead_clean {base : Nat} {ws : List (BitVec 64 × BitVec 8)} (clean : ∀ w ∈ ws, checkWord w.1 w.2 = .clean) (s : State) :
    forEach ws.zipIdx (fun w s => wordRead (base + 8 * w.2) w.1 s) s = s := by
  refine (forEach_congr_of_inv (P := fun _ => True) (g := fun _ t => t) ws.zipIdx trivial ?_).trans ?_
  · exact fun w among t _ => ⟨wordRead_clean (clean w.1 (List.fst_mem_of_mem_zipIdx among)) t, trivial⟩
  · exact List.foldl_fixed' (fun _ => rfl) _

/-- R553, R565: an active channel counts the request, and the row's activation by a free value. -/
theorem execDramReadComplete_active {a : Nat} {p : DramAddr} {ws : List (BitVec 64 × BitVec 8)} {t : State}
    (mapped : dramMap s.dram.usable a = some p) (active : (s.drch p.ch).st = 1)
    (counted : t = { (s.modDrch p.ch (fun k => { k with lastReq := s.now })) with draws := s.draws + 1 }) :
    execDramReadComplete a ws s = .next (forEach ws.zipIdx (fun w s => wordRead (a / 8 * 8 + 8 * w.2) w.1 s)
      (if (Config.free s.draws).getLsbD 0 then activate p t else t)) := by
  subst counted
  simp only [execDramReadComplete, mapped, selfExit_active active]
  rfl

end Dram

/-- The last clause of O37. -/
theorem checkWord_zeros : checkWord 0 0 = .uncorrectable := by
  obtain ⟨-, -, -, -, -, -, zeros⟩ := dramCodeCorrectsOneBit
  exact zeros

/-- Settles O52: per command, its branch under the clause's hypotheses. -/
theorem flashPulsesAndDramDuties : Obligations.FlashPulsesAndDramDuties := by
  refine ⟨fun s b o runs program => ?program, fun s b o runs erase powered => ?erase,
    fun s x u busy => congrArg Host.Outcome.next (if_pos busy), fun s x idle whole => ?faultRead,
    fun s c active few => congrArg Host.Outcome.next ((if_neg (by simp [active])).trans (if_pos ⟨rfl, few⟩)),
    fun s c active none_ => congrArg Host.Outcome.next ((if_neg (by simp [active])).trans ((if_neg (by simp)).trans (issueRefresh_single none_))),
    fun s c r m temp runs rate above below => execDramMr4Poll_calm runs rate above below,
    fun s c r active => congrArg Host.Outcome.next (if_pos active), fun s c active idles => congrArg Host.Outcome.next (if_pos ⟨active, idles⟩),
    fun s c r => rfl, fun s c active => ?patrol, fun s c => rfl, fun s a p mapped active => ?reads, checkWord_zeros⟩
  case program =>
    refine ⟨execFlashProgramPulseDone_program runs program, fun few => ?_, fun many => ?_⟩
    · exact (execFlashProgramPulseDone_program runs program).trans
        (congrArg Host.Outcome.next ((if_neg (by simp)).trans (if_neg (Nat.not_le.2 few))))
    · exact (execFlashProgramPulseDone_program runs program).trans (congrArg Host.Outcome.next ((if_neg (by simp)).trans (if_pos many)))
  case erase =>
    have verified := execFlashErasePulseDone_verified runs erase powered
    have failed := execFlashErasePulseDone_failed runs erase powered
    exact ⟨fun more => verified.trans (congrArg Host.Outcome.next (if_neg (Nat.ne_of_gt more))),
      fun last => verified.trans (congrArg Host.Outcome.next (if_pos last)),
      fun few => failed.trans (congrArg Host.Outcome.next (if_neg (Nat.not_le.2 few))),
      fun many => failed.trans (congrArg Host.Outcome.next (if_pos many))⟩
  case faultRead =>
    have free : ¬ (s.fbank (x.val / 512)).op.isSome = true := by simp [idle]
    exact ⟨congrArg Host.Outcome.next ((if_neg free).trans (if_neg (by simpa using whole))),
      congrArg Host.Outcome.next ((if_neg free).trans (if_pos (by simp)))⟩
  case patrol =>
    refine congrArg Host.Outcome.next ((if_pos (Or.inl active)).trans ?_)
    rw [selfExit_active active]
    rfl
  case reads =>
    refine ⟨fun ws => execDramReadComplete_active mapped active rfl, fun ws clean => ?_⟩
    exact (execDramReadComplete_active mapped active rfl).trans (congrArg Host.Outcome.next (forEach_wordRead_clean clean _))

end Sys2Proof.Machine
end

section
/-! Cipher engines, alarms and unwraps, error injection, the transparent test and the recorder (R459 to R485, R608 to R642). -/

namespace Sys2Proof.Machine

open Sys2Proof

/-! Engines and keys. -/

theorem modAt_congr {α : Type} {f g : α → α} {d : α} (l : List α) (i : Nat) (same : f (l.getD i d) = g (l.getD i d)) :
    modAt l i f = modAt l i g := by
  induction l generalizing i with
  | nil => rfl
  | cons a l ih =>
    cases i with
    | zero => exact congrArg (· :: l) same
    | succ i => exact congrArg (a :: ·) (ih i same)

theorem modEngine_congr {e : Nat} {f g : Engine → Engine} {s : State} (same : f (s.engine e) = g (s.engine e)) :
    s.modEngine e f = s.modEngine e g :=
  congrArg (fun l => s.modCipher (fun c => { c with engines := l })) (modAt_congr s.cipher.engines e same)

section Keys

variable {s : State}

theorem execCipherAlarm_known {i : BitVec 4} (known : i &&& ~~~s.cipher.inputs = 0) : execCipherAlarm i s =
    .next (s.modCipher (fun c => { c with inputs := c.inputs ||| i, alarms := c.alarms ||| i })) := if_pos known

theorem execCipherAlarm_fresh {i : BitVec 4} (fresh : i &&& ~~~s.cipher.inputs ≠ 0) : execCipherAlarm i s =
    .next (settle (relinquishCause (raise 873 (raiseWith 872 0 (i &&& ~~~s.cipher.inputs).toNat
      ((eraseKeys (s.modCipher (fun c => { c with inputs := c.inputs ||| i, alarms := c.alarms ||| i }))).modCipher (fun c =>
        { c with erased := true, count := Nat.min 255 (c.count + (setBits 4 (i &&& ~~~s.cipher.inputs)).length) })))))) := if_neg fresh

/-- R470: a key that no slot has to leave for takes its own. -/
theorem keyLoad_room {t : KeyTag} (room : s.cipher.slots.length < 1024) : keyLoad t s = dropJobs t (s.modCipher (fun c => { c with
    slots := c.slots.filter (fun k => k.tag != t) ++ [{ tag := t, used := s.now }]
    wrapped := c.wrapped.filter (fun x => x != t), unwrapping := c.unwrapping.filter (fun x => x != t) })) := by
  have free : ¬ s.cipher.slots.length ≥ paletteSize := Nat.not_le.2 room
  simp only [keyLoad, State.modCipher, if_neg free, List.map_nil, List.append_nil]

variable {t : KeyTag} (waits : t ∈ s.cipher.unwrapping)

include waits in
theorem execPaletteUnwrapDone_waiting (ok : Bool) : execPaletteUnwrapDone t ok s = if ok && s.cipher.kek.isSome then .next (keyLoad t s)
    else .next (raise 874 (dropJobs t (s.modCipher (fun c => { c with unwrapping := c.unwrapping.filter (fun x => x != t) })))) :=
  if_neg (by simpa using waits)

end Keys

/-! The transparent test (R609 to R619). -/

section Region

variable {n : Nat} {s : State} (exists_ : n < 4) (due : s.untested 1 n = false)

include exists_ due in
/-- R618: a word of an instruction memory under test. -/
theorem execTransparentTestRegion_itcm (outcome : EccOutcome) (spare : Bool) : execTransparentTestRegion (.itcm n) outcome spare s =
    .next (settle (match outcome with
      | .clean => regionTested 1 s
      | .corrected => (regionTested 1 s).modTest (fun t => { t with ce := sat16 t.ce })
      | .hardFault =>
        if spare then softRepair 1 n ((regionTested 1 s).modTest (fun t => { t with ce := sat16 t.ce }))
        else redirect 1 n ((regionTested 1 s).modTest (fun t => { t with ce := sat16 t.ce }))
      | .uncorrectable => sramFault (.itcm n) 1 n (regionTested 1 s))) := by
  have place : s.sramUnit (.itcm n) = some (1, n) := if_pos exists_
  simp only [execTransparentTestRegion, place, due, Bool.false_eq_true, if_false]
  cases outcome <;> rfl

end Region

theorem sramFault_itcm {n : Nat} {s : State} : sramFault (.itcm n) 1 n s =
    relinquishCause (raiseWith (968 + n) n 1 (s.modTest (fun t => { t with ue := sat16 t.ue }))) := by
  simp [sramFault, sramUncorrectable, sramEvent]

/-! The recorder (R637, R639). -/

section Recorder

variable {g : Nat} {s : State} (group : s.spillGroup = some g) (runs : s.test.frozen = false) (quiet : s.quietGroup g = true)
  (rest : s.spilling g = false) (full : ringSize / 2 < recBytes (s.test.ring.drop (s.test.ring.length - s.test.unspilled)))

include group runs quiet rest full in
theorem execRecorderSpill_due : execRecorderSpill s = .next (if !(s.grp g).awakeRec then settle (awakeRecord g s)
    else settle (spillRow g ((rowRecords (s.test.ring.drop (s.test.ring.length - s.test.unspilled))).flatMap Rec.bytes)
      (s.modTest (fun u => { u with
        spilled := spillTrim (2048 * s.spillRows g) (u.spilled ++ rowRecords (s.test.ring.drop (s.test.ring.length - s.test.unspilled)))
        unspilled := u.unspilled - (rowRecords (s.test.ring.drop (s.test.ring.length - s.test.unspilled))).length })))) := by
  simp only [execRecorderSpill, group]
  exact congrArg Host.Outcome.next (if_neg (by simp [runs, quiet, rest, full]))

end Recorder

theorem unfreeze_undropped {s : State} (frozen : s.test.frozen = true) (none_ : s.test.dropped = none) :
    unfreeze s = s.modTest (fun t => { t with frozen := false, dropped := none }) := by
  simp [unfreeze, frozen, none_]

/-- Settles O53: per command, its branch under the clause's hypotheses. -/
theorem ciphersTestsAndRecorder : Obligations.CiphersTestsAndRecorder := by
  refine ⟨fun s e f up whole => ?kat, fun s i known => execCipherAlarm_known known, fun s i n new fresh => ?alarm, fun s i => rfl,
    fun s t waits keyed room => ?unwrapped, fun s t waits => ?failed, fun s v alive single => ?armed,
    fun s dead v => execEccFlipWrite_ignored (Or.inl dead), fun s unit addr armed => congrArg Host.Outcome.next (if_pos armed),
    fun s n sp exists_ due => ?region, fun s g group runs quiet rest full row is => ?spill, fun s frozen none_ => ?freeze⟩
  case kat =>
    have serves : ¬ ((s.engine e).inServ && (false || !pipesOk ((s.engine e).pipes &&& ~~~f))) = true := by simp [whole]
    exact congrArg Host.Outcome.next ((if_neg serves).trans (modEngine_congr (by simp [up])))
  case alarm =>
    subst new
    exact execCipherAlarm_fresh fresh
  case unwrapped =>
    exact (execPaletteUnwrapDone_waiting waits true).trans ((if_pos (by simp [keyed])).trans (congrArg Host.Outcome.next (keyLoad_room room)))
  case failed => exact (execPaletteUnwrapDone_waiting waits false).trans (if_neg (by simp))
  case armed =>
    refine execEccFlipWrite_armed ?_
    rintro (dead | ⟨deployed, two⟩)
    · exact alive dead
    · exact Bool.false_ne_true ((single deployed).symm.trans two)
  case region =>
    have tested := execTransparentTestRegion_itcm exists_ due
    exact ⟨tested .clean sp, tested .corrected sp, tested .hardFault false,
      (tested .uncorrectable sp).trans (congrArg (fun u : State => (Host.Outcome.next (settle u) : Res)) sramFault_itcm)⟩
  case spill =>
    subst is
    have spills := execRecorderSpill_due group runs quiet rest full
    exact ⟨fun awake => spills.trans (congrArg Host.Outcome.next (if_neg (by simp [awake]))),
      fun asleep => spills.trans (congrArg Host.Outcome.next (if_pos (by simp [asleep])))⟩
  case freeze =>
    exact congrArg Host.Outcome.next ((if_pos frozen).trans (congrArg (raiseWith 987 0 (s.now - s.test.frozenAt)) (unfreeze_undropped frozen none_)))

end Sys2Proof.Machine
end

section
/-! Events and MSI-X masks, registers of BAR0, and the junction sensors (R19, R20, R390, R646, R647, R650, R651, R678). -/

namespace Sys2Proof.Machine

open Sys2Proof

/-! EV_STATUS and MSI-X. -/

section Vectors

variable {s : State}

/-- R646: with no event routed to a vector, a clear changes the status alone. -/
theorem clearStatus_unrouted {w : Nat} {mask : BitVec 32} (unrouted : ∀ x, (s.ev.route x).msix = false) :
    clearStatus w mask s = s.modEv (fun e => { e with status := e.status &&& ~~~(evMask w mask) }) := by
  have plain : ∀ x, ((s.modEv (fun e => { e with status := e.status &&& ~~~(evMask w mask) })).ev.route x).msix = false := unrouted
  exact List.foldl_fixed' (fun x => if_neg (ne_true_of_eq_false (plain x))) _

theorem setBits_zero (w n : Nat) : setBits n (0 : BitVec w) = [] := by simp [setBits]

theorem sendPending_nil : sendPending [] s = s := rfl

theorem sendPending_due {v : Nat} (due : s.ev.pba.getLsbD v = true) (free : s.vecMasked v = false) : sendPending [v] s =
    sendVector v (s.modEv (fun e => { e with pba := e.pba &&& ~~~(1#2048 <<< v) })) :=
  if_pos ⟨due, by simp [free]⟩

theorem maskChange_function : maskChange none false s = sendPending (setBits 2048 s.ev.pba) (s.modEv (fun e => { e with funMask := false })) :=
  rfl

/-- R647: the vector's own mask bit is cleared. -/
def unmaskVector (v : Nat) (s : State) : State := s.modEv (fun e => { e with table := tabMod {} e.table v (fun x => { x with mask := false }) })

theorem maskChange_vector (v : Nat) : maskChange (some v) false s = sendPending [v] (unmaskVector v s) := rfl

theorem entry_unmaskVector (v : Nat) : (unmaskVector v s).ev.entry v = { (s.ev.entry v) with mask := false } :=
  tabGet_tabMod_same ({} : MsixEntry) s.ev.table v (fun x => { x with mask := false })

theorem addr_unmaskVector (v : Nat) : ((unmaskVector v s).ev.entry v).addr = (s.ev.entry v).addr := by
  rw [entry_unmaskVector]

theorem data_unmaskVector (v : Nat) : ((unmaskVector v s).ev.entry v).data = (s.ev.entry v).data := by
  rw [entry_unmaskVector]

theorem vecMasked_unmaskVector {v : Nat} (awake : s.host.d3 = false) (open_ : s.ev.funMask = false) :
    (unmaskVector v s).vecMasked v = false := by
  show (((unmaskVector v s).ev.entry v).mask || s.ev.funMask || s.host.d3) = false
  rw [entry_unmaskVector, open_, awake]
  rfl

/-- R647: a pending vector that is unmasked sends its message. -/
theorem maskChange_pending {v : Nat} (awake : s.host.d3 = false) (open_ : s.ev.funMask = false) (due : s.ev.pba.getLsbD v = true) :
    maskChange (some v) false s = { s with
      out := s.out ++ [.msix v (s.ev.entry v).addr (s.ev.entry v).data]
      ev := { s.ev with table := tabMod {} s.ev.table v (fun x => { x with mask := false }), pba := s.ev.pba &&& ~~~(1#2048 <<< v) } } := by
  have free := vecMasked_unmaskVector (v := v) awake open_
  have sent := sendVector_unmasked (s := (unmaskVector v s).modEv (fun e => { e with pba := e.pba &&& ~~~(1#2048 <<< v) })) free
  refine (sendPending_due (s := unmaskVector v s) due free).trans (sent.trans ?_)
  exact congrArg₂ (fun addr data => ((unmaskVector v s).modEv (fun e => { e with pba := e.pba &&& ~~~(1#2048 <<< v) })).send
    (.msix v addr data)) (addr_unmaskVector v) (data_unmaskVector v)

end Vectors

/-! Registers of BAR0. -/

section Registers

variable {off : Nat} {s : State}

theorem execReg64LowRead_low {x : Nat} (awake : s.host.d3 = false) (low : s.reg64 off = some x) : execReg64LowRead off s =
    .next ((s.modEv (fun e => { e with latches := tabPut e.latches (off + 4) (BitVec.ofNat 32 (x / 4294967296)) })).send
      (.barData off (BitVec.ofNat 32 x))) := by
  simp only [execReg64LowRead, awake, Bool.false_eq_true, if_false, low]

theorem execRegisterWrite_partial {en : BitVec 4} {v : BitVec 32} (awake : s.host.d3 = false) (part : en ≠ 0xF ∨ off % 4 ≠ 0) :
    execRegisterWrite off en v s = .next (s.modHost (fun h => { h with badWr := sat8 h.badWr })) :=
  (if_neg (by simp [awake])).trans (if_pos part)

theorem execRegisterWrite_whole {v : BitVec 32} (awake : s.host.d3 = false) (aligned : off % 4 = 0) :
    execRegisterWrite off 0xF v s = barWrite off v s :=
  (if_neg (by simp [awake])).trans (if_neg (by simp [aligned]))

end Registers

/-! Junction sensors (R678). -/

section Sensors

theorem above_eq_true {c : Nat} {t : BitVec 16} : above c t = true ↔ 8 * (c : Int) < t.toInt := by simp [above]

theorem any_above_of_cool {l : List (BitVec 16)} {c : Nat} (cool : ∀ x ∈ l, x.toInt ≤ 8 * 95) (beyond : 95 ≤ c) : l.any (above c) = false := by
  refine List.any_eq_false.2 (fun x among hot => ?_)
  have := cool x among
  have := above_eq_true.1 hot
  omega

theorem any_above_of_hot {l : List (BitVec 16)} {c : Nat} {x : BitVec 16} (among : x ∈ l) (hot : 8 * 115 < x.toInt) (within : c ≤ 115) :
    l.any (above c) = true :=
  List.any_eq_true.2 ⟨x, among, above_eq_true.2 (by omega)⟩

end Sensors

/-- Settles O54: per command, its branch under the clause's hypotheses. -/
theorem eventsRegistersAndSensors : Obligations.EventsRegistersAndSensors := by
  refine ⟨fun s w mask awake unrouted => ?clears, fun s w mask x asleep => ?raised,
    fun s v awake => congrArg Host.Outcome.next (if_neg (by simp [awake])), fun s none_ => ?unmask, fun s v awake open_ due => ?pending,
    fun s off x awake low => execReg64LowRead_low awake low, fun s off en v awake part => execRegisterWrite_partial awake part,
    fun s v awake => execRegisterWrite_whole awake rfl, fun s v awake => execRegisterWrite_whole awake rfl,
    fun s v awake => ⟨execRegisterWrite_whole awake rfl, execRegisterWrite_whole awake rfl, execRegisterWrite_whole awake rfl⟩,
    fun s t cool => ?cool, fun s t x among hot was first critical => ?hot,
    fun s hot => congrArg Host.Outcome.next (if_pos hot), fun s critical run rest idle => ?shutdown⟩
  case clears =>
    exact congrArg Host.Outcome.next ((if_neg (by simp [awake])).trans (clearStatus_unrouted unrouted))
  case raised => exact congrArg (fun u : State => (Host.Outcome.next (raise x u) : Res)) (if_pos asleep)
  case unmask =>
    refine congrArg Host.Outcome.next ((if_neg (by simp)).trans (maskChange_function.trans ?_))
    rw [none_, setBits_zero]
    rfl
  case pending =>
    exact congrArg Host.Outcome.next ((if_neg (by simp [awake])).trans (maskChange_pending awake open_ due))
  case cool =>
    show execJunctionTempSample t s = _
    simp only [execJunctionTempSample, any_above_of_cool cool (Nat.le_refl 95), any_above_of_cool cool (show 95 ≤ 105 by decide),
      any_above_of_cool cool (show 95 ≤ 115 by decide), Bool.false_and, Bool.false_eq_true, if_false, State.modPower]
  case hot =>
    show execJunctionTempSample t s = _
    simp only [execJunctionTempSample, any_above_of_cool was (Nat.le_refl 95), any_above_of_hot among hot (show 95 ≤ 115 by decide),
      any_above_of_hot among hot (show 105 ≤ 115 by decide), any_above_of_hot among hot (Nat.le_refl 115), Bool.not_false, Bool.and_self,
      if_true, State.modPower, first, critical]
  case shutdown =>
    exact congrArg Host.Outcome.next ((if_pos critical).trans (congrArg settle (offRequest_inRun run rest idle)))

end Sys2Proof.Machine
end
